-- ==== Sys2Proof/Word.lean ====
section
/-! DEFINITION. The word types of the model and the names of the small index types. -/

namespace Sys2Proof

/-- A byte. -/
abbrev Byte := BitVec 8

/-- A register value: registers are 32 bits wide (R518). -/
abbrev Word := BitVec 32

/-- A 64-bit value: a syndrome, a nonce, the data of one ledger word. -/
abbrev Dword := BitVec 64

/-- A value of the 48-bit AON timer (R76). -/
abbrev Time := BitVec 48

/-- One of the four ranks. -/
abbrev Rank := Fin 4

/-- One of the five host byte lanes H0 to H4. -/
abbrev HLane := Fin 5

/-- One of the six DRAM byte lanes D0 to D5. -/
abbrev DLane := Fin 6

/-- A sparse map from addresses to `w`-bit values in one canonical form: keys strictly rising, and no
entry equal to what an unlisted key reads as. -/
abbrev SMap (w : Nat) := List (Nat × BitVec w)

end Sys2Proof
end

