-- ==== Sys2Proof/Machine/Args.lean ====
section
/-! DEFINITION. The operand types of the commands: what the host drives on its pins, what the DRAM, the
twin, the console partner and the analogue parts of the device present when a command arrives. -/

namespace Sys2Proof

/-- The command pins of one host command (R96, R99): HCS_N, HCA and HPAR of the first cycle and, for a
two-cycle command, of the second. -/
structure CaPins where
  hcsN : BitVec 4
  hca1 : BitVec 14
  hca2 : BitVec 14
  hpar1 : Bool
  hpar2 : Bool
  two : Bool
  /-- What the monitor samplers of the C/A inputs decide in the cycle in which HCS_N is low (R213): HCA in bits 13 to 0, HPAR
  in bit 14, HCS_N in bits 18 to 15. -/
  mon : BitVec 19
  deriving DecidableEq, Repr

/-- The edges of a received UART frame (R454): the five intervals from the start edge, low, high, low, high, low, in sixteenths
of an MCLK cycle. -/
structure CrEdges where
  low1 : Nat
  high1 : Nat
  low2 : Nat
  high2 : Nat
  low3 : Nat
  deriving DecidableEq, Repr

/-- What a flit brings beside its fields (Table TW-1): its sync header, its TYPE byte and its CRC. A command names a flit by
what its sender sent; a TYPE that no row of Table TW-2 defines stands for one that arrives so (R379). -/
structure FlitWire where
  sync : BitVec 2
  type : Byte
  crc : BitVec 16
  deriving DecidableEq, Repr

/-- The sync header and CRC of a data flit. -/
structure DataWire where
  sync : BitVec 2
  crc : BitVec 16
  deriving DecidableEq, Repr

/-- Which precharge the host issues: per bank, same bank of every bank group, or all banks (R114). -/
inductive PreKind where
  | pb
  | sb
  | ab
  deriving DecidableEq, Repr

/-- What a forwarded MRW sets, as JESD79-5 defines the mode register written (R106, R135, R145). -/
inductive MrwEffect where
  /-- The read latency CL in tCK. -/
  | cl (v : BitVec 7)
  /-- The read preamble and postamble code. -/
  | readPre (v : BitVec 4)
  /-- The write preamble and postamble code. -/
  | writePre (v : BitVec 4)
  /-- Write CRC on or off. -/
  | writeCrc (on : Bool)
  /-- Read CRC on or off. -/
  | readCrc (on : Bool)
  /-- Read training pattern output on or off. -/
  | pattern (on : Bool)
  /-- The burst length field of MR0: is it BL16? -/
  | burst (bl16 : Bool)
  /-- The data mask enable of MR5. -/
  | dataMask (on : Bool)
  /-- Write leveling entered or left. -/
  | writeLeveling (on : Bool)
  /-- Read preamble training entered or left. -/
  | readPreambleTraining (on : Bool)
  deriving DecidableEq, Repr

/-- A host training step that an MPC enters or leaves (Table DP-3). -/
inductive MpcStep where
  | cs
  | ca
  | leave
  deriving DecidableEq, Repr

/-- The partner's transport (R451). -/
inductive Transport where
  | uart
  | i3c
  deriving DecidableEq, Repr

/-- The edges of one bit's eye as the samplers found them (R189): the first timing offsets outside on each
side in taps, and the first voltage offsets outside in monitor steps of 1.875 mV. `none` is an edge that
was not reached within the range. -/
structure BitEye where
  l : Option Int
  r : Option Int
  t : Option Int
  b : Option Int
  deriving DecidableEq, Repr

/-- What one dwell of a sampler has counted (R188), over the samples that the reference decided as 1 and those it decided as
0: compared bits, and disagreements among them. -/
structure Tally where
  n1 : Nat
  b1 : Nat
  n0 : Nat
  b0 : Nat
  deriving DecidableEq, Repr

/-- The dwells of one bit outward from its centre, one offset after the other (R189): to the left and to the right in timing,
to the bottom and to the top in voltage. -/
structure BitScan where
  l : List Tally
  r : List Tally
  b : List Tally
  t : List Tally
  deriving DecidableEq, Repr

/-- One measured trial: the eyes of the bits in order (eight of a lane, 19 C/A pins for a C/A trial) and the
histogram median of R190 in microvolts. -/
structure Trial where
  eyes : List BitEye
  median : Int
  deriving DecidableEq, Repr

/-- One run of write leveling or read gating for one lane (F2, F3): the strobe code found, `none` where no edge was, and the
width in taps of the window around it. -/
structure StepRun where
  code : Option (BitVec 9)
  width : Nat
  deriving DecidableEq, Repr

/-- The two runs of the write eye of a lane at one VrefDQ code of the DRAM (F5). -/
structure VrefTry where
  code : BitVec 8
  runA : List BitScan
  runB : List BitScan
  deriving DecidableEq, Repr

/-- What one full-training pass counted for one lane of one rank (Table CD-4). -/
structure LaneTrain where
  /-- F2: the two runs of TX_DQS. -/
  txA : StepRun
  txB : StepRun
  /-- F3: the two runs of RX_DQS. -/
  rxA : StepRun
  rxB : StepRun
  /-- F4: the two runs of the read eye. -/
  readA : List BitScan
  readB : List BitScan
  /-- F5: the VrefDQ codes tried, in rising order. -/
  tries : List VrefTry
  /-- F6: those of its 4,096 bursts of which the lane did not return what was written, with what it returned. -/
  verify : List (Nat × BitVec 128)
  deriving DecidableEq, Repr

/-- The trims that F1 finds for one DRAM-side C/A output (R104, Table CA-4): its index, the launch delay and the drive codes. -/
structure CaTrain where
  index : Nat
  delay : BitVec 7
  drvPu : BitVec 5
  drvPd : BitVec 5
  deriving DecidableEq, Repr

/-- What one full-training pass found for one rank: F1's C/A trims, or the reason of Table CB-5 for which F1 was not
accepted; then the six lanes. -/
structure RankTrain where
  ca : List CaTrain
  caReason : Nat
  lanes : List LaneTrain
  deriving DecidableEq, Repr

/-- What an array returned to one read of a march run: arrays 0 to 15 are the ledger banks, 16 the bitmaps and tag words,
17 Garnet, 18 the HCT RAM, 19 the trace RAM. The read is operation `op` of an element at a word, with a background, in a main pass
or in the spare pass. -/
structure MarchRead where
  array : Nat
  spare : Bool
  bg : BitVec 2
  element : BitVec 3
  op : BitVec 2
  word : BitVec 15
  data : BitVec 72
  deriving DecidableEq, Repr

/-- A measurement of the two ZQ resistors (R38): pull-up and pull-down codes of the sides, and whether a side's
measurement saturated. -/
structure ZqMeasure where
  hostUp : BitVec 5
  hostDown : BitVec 5
  dramUp : BitVec 5
  dramDown : BitVec 5
  hostSat : Bool
  dramSat : Bool
  deriving DecidableEq, Repr

/-- How the crystal oscillator and the management PLL start (R78, R79): the oscillator runs, the PLL locks, its one
retry locks. -/
structure WakeUp where
  xoscOk : Bool
  lockOk : Bool
  retryOk : Bool
  deriving DecidableEq, Repr

/-- The JESD79-5 minimum timings of the populated DRAM at the data rate in force (R570): times in picoseconds, CWL in tCK. -/
structure DramTimings where
  tRas : Nat
  tRcd : Nat
  tRtp : Nat
  tRp : Nat
  tWr : Nat
  cwl : Nat
  deriving DecidableEq, Repr

/-- What the memories, the DRAM and the analogue parts present in steps U3 to U7, and B3 to B10. -/
structure BringUp where
  /-- HCK counted over 400 XOSC cycles (R85). -/
  confirm : BitVec 16
  zq : ZqMeasure
  /-- The DRAM timings that the device writes to the DRAM at the rate set (R570). -/
  timings : DramTimings
  /-- Full-training passes: what each finds for ranks 0 to 3. -/
  passes : List (List RankTrain)
  deriving DecidableEq, Repr

/-- A burst of the canary rows, row * 64 + column, whose two reads did not both return the pattern (R363). -/
structure CanaryRead where
  burst : Nat
  readA : BitVec 768
  readB : BitVec 768
  deriving DecidableEq, Repr

/-- What the canary rows and the quick check present for one rank: the bursts of its canary rows that did not return the pattern
both times, and per lane the timing dwells of its eight bits (R238). -/
structure RankCheck where
  canary : List CanaryRead
  scans : List (List BitScan)
  deriving DecidableEq, Repr

/-- What the environment presents to a console command or a register write that starts work of the device: how the
keep's cells take a write, whether port E waits on an atomic or collides, what the arrays return to a march, what a training pass finds,
which fuses do not take a burn, what steps U3 to U7 meet. -/
structure ConEnv where
  flips : List (Nat × BitVec 72)
  held : Bool
  collide : Bool
  reads : List MarchRead
  train : RankTrain
  lcStuck : BitVec 4
  spareStuck : BitVec 9
  bringUp : BringUp
  checks : List RankCheck
  deriving DecidableEq, Repr

/-- What `fault clear` clears (R491): a source, every source that is not live, or the record. -/
inductive ClearWhat where
  | source (fs : Nat)
  | all
  | record
  deriving DecidableEq, Repr

/-- The forms of `fault inject` (R492). -/
inductive Inject where
  | hct (on : Bool)
  | ledger (portE : Bool) (mask : Nat)
  | keep (mask : Nat)
  | ca (n : Nat)
  | twin (n : Nat)
  | off
  deriving DecidableEq, Repr

/-- The keys of `fault config` (R493): class codes, reaction bits in the order of Table FC-1, THR, milliseconds. -/
structure FaultFields where
  cls : Option Nat
  pcls : Option Nat
  rxn : Option Nat
  prxn : Option Nat
  thr : Option Nat
  win : Option Nat
  deriving DecidableEq, Repr

/-- The keys of `test march` (Table CC-5) as the values of their fields. -/
structure MarchKeys where
  targets : Option Nat
  banks : Option Nat
  preserving : Option Bool
  ext : Option Bool
  bgs : Option Nat
  spare : Option Bool
  deriving DecidableEq, Repr

/-- One access of gap mode as the device meets it (R230 to R232): the rank, and, where the access reads, what the main samplers
and the monitor samplers of the six lanes decide. -/
structure GapAccess where
  rank : Rank
  data : BitVec 768
  mon : BitVec 768
  deriving DecidableEq, Repr

/-- How the Steward's trap handler (R405): it returns, it takes an exception at a program counter, or it does
not return. -/
inductive HandlerEnd where
  | returns
  | exception (pc : Word)
  | hangs
  deriving DecidableEq, Repr

end Sys2Proof
end

