-- ==== Sys2Proof/Syntax.lean ====
section
/-! DEFINITION. The commands of the block: one constructor per row of the table of operations and events,
with the operands that the sender or the environment presents with it. -/

namespace Sys2Proof

/-- The commands, in the table's order. -/
inductive Instr where
  /-- AONRST_N_FALL (R25): Falling edge of AONRST_N asynchronously resets every domain except the sticky tamper latch and the hold island, and ends HOLD or DORMANT. -/
  | aonrstNFall
  /-- START_UP_PHASE (R87): Rising edge of AONRST_N, or a CHIPRST, starts steps P1 to P6: fuses, straps, XOSC, MCLK, patch and records, ending in the path decision. -/
  | startUpPhase (pos en : BitVec 3) (w : WakeUp)
  /-- COLD_BRINGUP (R89): When the restore conditions hold on the cold path, steps B1 to B10 run: confirmation, domains, march, ZQ, HCT, DRAM init, training, reserved rows, host trims and records. -/
  | coldBringup (b : BringUp) (reads : List MarchRead) (flips : List (Nat × BitVec 72))
  /-- COLD_HAND_BACK (R89): Step B11 waits for HRST_N to be recognised high, then enters RUN.LIVE or RUN.DEGRADED and raises RDY. -/
  | coldHandBack
  /-- TAMPER_RECOGNISED (R439): TAMPER_N recognised low sets the sticky latch, wipes Garnet, ends authentication and raises FS 59 in RUN or SERVICE. -/
  | tamperRecognised
  /-- KEY_RECORD_ERASE (R440): Once the keep controller can run after a tamper or a life-cycle transition, the key-record region is erased in 0.41 ms and ERASE_DONE is set. -/
  | keyRecordErase
  /-- PGOOD_RISE (R24): PGOOD recognised high after two samples becomes part of the restore conditions. -/
  | pgoodRise
  /-- PGOOD_FALL (R69): PGOOD recognised low writes a trace entry, stops a running bring-up or restore at the end of its step, or switches the PHY domains off in SERVICE. -/
  | pgoodFall
  /-- SAVE_PAIR_SAMPLE (R328): On each tick the SAVE pair is evaluated: both low recognise a save, one low starts or advances the discrepancy timer, and a release ignores the assertion. -/
  | savePairSample (save0Low save1Low : Bool)
  /-- DISCREPANCY_EXPIRY (R328): The discrepancy timer reaches TICKS with one channel still low, so the save is recognised and FS 32 is raised. -/
  | discrepancyExpiry
  /-- HRST_N_LOW (R86): HRST_N recognised low with HRST_MODE = 0 parks the device in RUN.LIVE or RUN.DEGRADED. -/
  | hrstNLow
  /-- HRST_N_HIGH (R86): HRST_N recognised high releases a waiting hand-back or permits leaving the park. -/
  | hrstNHigh
  /-- HCK_COUNT (R83): The tick-gated count of HCK ends and is matched against the enabled rate sets, setting OVERSPEED or presence as it finds. -/
  | hckCount (count : BitVec 16)
  /-- HCK_EDGES_MISSING (R92): Eight consecutive missing HCK edges park the device and raise FS 10 while HRST_N is high. -/
  | hckEdgesMissing
  /-- HPLL_LOCK_LOST (R80): Loss of HPLL lock while HCK is present raises FS 48 and is treated as a clock loss. -/
  | hpllLockLost
  /-- PARK_EXIT (R93): With HRST_N high and HCK matching the set in force, the HPLL relocks, ranks exit self-refresh and forwarding resumes. -/
  | parkExit
  /-- TICK_DISC_WINDOW (R73): At the end of each 1 ms window the tick is compared with XOSC and TRIM moves one step. -/
  | tickDiscWindow (err : Int)
  /-- XOSC_FAIL (R78): No XOSC edge for 8 ticks, or a frequency beyond ±5 %, raises FS 50, takes the link down and moves MCLK to the tick. -/
  | xoscFail (noEdge : Bool) (cycles : BitVec 16)
  /-- XOSC_RESTART_ATTEMPT (R78): Once every second the device tries to restart a failed XOSC. -/
  | xoscRestartAttempt (started : Bool)
  /-- XOSC_RECOVERED (R78): XOSC_FAIL clears once the oscillator has run within ±5 % for 1 ms. -/
  | xoscRecovered
  /-- MPLL_LOCK_TIMEOUT (R79): No management PLL lock within 100 µs raises FS 49 and retries once, otherwise the Steward is halted. -/
  | mpllLockTimeout (retryOk : Bool)
  /-- AON_WRAP (R76): The 48-bit AON timer wraps to 0 and writes a trace entry. -/
  | aonWrap
  /-- WATCHDOG_EXPIRY (R428): The Steward watchdog expires without service, so FS 52 is raised and the Steward is halted. -/
  | watchdogExpiry (pc : Word)
  /-- CMD_ACT (R114): A host ACT is parity-checked, forwarded 1 tCK later and tracked, and an aperture row is recorded as open. -/
  | cmdAct (p : CaPins) (bg : BitVec 3) (bank : BitVec 2) (row : BitVec 17)
  /-- CMD_RD (R115): A host RD is forwarded, or, to an open aperture row, suppressed and served from the ledger on port H. -/
  | cmdRd (p : CaPins) (bg : BitVec 3) (bank : BitVec 2) (col : BitVec 6) (bo : BitVec 4) (held : Bool)
  /-- CMD_WR (R115): A host WR is forwarded, or, to an open aperture row, suppressed and absorbed by the ledger. -/
  | cmdWr (p : CaPins) (bg : BitVec 3) (bank : BitVec 2) (col : BitVec 6) (bo : BitVec 4)
  /-- CMD_RDA (R116): A host RDA is forwarded, and to an aperture row it returns the ledger line while the DRAM data is discarded. -/
  | cmdRda (p : CaPins) (bg : BitVec 3) (bank : BitVec 2) (col : BitVec 6) (bo : BitVec 4) (held : Bool)
  /-- CMD_WRA (R116): A host WRA is forwarded, and to an aperture row its data is written to both the ledger and the DRAM. -/
  | cmdWra (p : CaPins) (bg : BitVec 3) (bank : BitVec 2) (col : BitVec 6) (bo : BitVec 4)
  /-- CMD_PRE (R114): A host PREpb, PREsb or PREab is forwarded and closes the tracked row. -/
  | cmdPre (p : CaPins) (kind : PreKind) (bg : BitVec 3) (bank : BitVec 2)
  /-- CMD_REFAB (R122): A host REFab is forwarded, closes tracked rows, may be a boundary and schedules a reservation probe. -/
  | cmdRefab (p : CaPins) (hostFree dramFree : Bool) (rankFree : BitVec 4)
  /-- CMD_SRE (R114): A host SRE is forwarded and closes the tracked rows of the rank. -/
  | cmdSre (p : CaPins)
  /-- CMD_MRW (R135): A host MRW outside MR 240–255 is forwarded and snooped for CL, preambles, CRC and the pattern mode. -/
  | cmdMrw (p : CaPins) (mr : Byte) (data : Byte) (sets : List MrwEffect)
  /-- CMD_MRR (R97): A host MRR outside MR 240–255 is forwarded and its data is returned through the lane map. -/
  | cmdMrr (p : CaPins) (mr : Byte)
  /-- CMD_MPC_TRAINING (R145): A training MPC is consumed, and the responder answers CS or CA training from the device's own receivers. -/
  | cmdMpcTraining (p : CaPins) (step : MpcStep)
  /-- CMD_OTHER_FORWARDED (R97): Any other parity-good host command is forwarded unchanged 1 tCK later. -/
  | cmdOtherForwarded (p : CaPins) (reserved srx : Bool)
  /-- BCW_PAGE_SELECT (R107): An MRW to word 15 selects the buffer control word page. -/
  | bcwPageSelect (p : CaPins) (data : Byte)
  /-- BCW_MRR (R108): An MRR of a buffer control word returns its value with DRAM MRR timing, and a read of ALERTS also clears it. -/
  | bcwMrr (p : CaPins) (word : BitVec 4)
  /-- SAVE_ARM (R109): A write of 0x53 to SAVE_ARM arms a save request, while any other value raises FS 3 and disarms. -/
  | saveArm (p : CaPins) (data : Byte)
  /-- SAVE_GO (R109): A write of 0x56 to SAVE_GO right after an arm triggers a save with cause 0x05. -/
  | saveGo (p : CaPins) (data : Byte)
  /-- SAVE_ARM_LAPSE (R109): An arm not followed by SAVE_GO within 64 tCK lapses, raises FS 3 and disarms. -/
  | saveArmLapse
  /-- GRANT_RANK (R123): A GRANT_RANK write names the ranks for the next gap grant. -/
  | grantRank (p : CaPins) (data : Byte)
  /-- GRANT_LEN (R123): A GRANT_LEN write requests a gap grant, or is refused with FS 3. -/
  | grantLen (p : CaPins) (data : Byte)
  /-- GRANT_START (R123): 16 tCK after GRANT_LEN the grant begins, and the device does gap-mode work in the scratch rows. -/
  | grantStart
  /-- GRANT_END (R123): At the end of its coded length the grant ends with every bank of the granted ranks precharged. -/
  | grantEnd (work : List GapAccess)
  /-- APLOCK (R119): An APLOCK write sets or clears the aperture lock on CA_APER and CA_RSV. -/
  | aplock (p : CaPins) (data : Byte)
  /-- PAR_CLEAR (R101): A PAR_CLEAR write of 0x01 ends the parity block 16 tCK later. -/
  | parClear (p : CaPins) (data : Byte)
  /-- PARITY_BLOCK_END (R101): 16 tCK after a clear, the parity block ends. -/
  | parityBlockEnd
  /-- PARITY_BLOCK_REFRESH (R102): Every 3.9 µs during the parity block, the device closes open rows and issues REFab to each rank. -/
  | parityBlockRefresh
  /-- TR_SEL (R148): A TR_SEL write selects the host lane that the training responder reports. -/
  | trSel (p : CaPins) (data : Byte)
  /-- TR_CTRL_HOLD (R147): A TR_CTRL write sets or clears HOLD, which pauses host-side adaptation. -/
  | trCtrlHold (p : CaPins) (data : Byte)
  /-- TR_HOLD_LAPSE (R147): HOLD lapses 2 s after it was set and writes a trace entry. -/
  | trHoldLapse
  /-- RESERVATION_PROBE (R122): TRFC after a selected REFab, the device issues one ACT, burst and PRE probe in the rank's scratch rows. -/
  | reservationProbe (rank : Rank) (data mon : BitVec 768)
  /-- IDLE_BOUNDARY (R196): After 64 tCK of host deselect, pending values of every scope, the C/A trims included, come into force. -/
  | idleBoundary
  /-- WRITE_BURST (R140): A host write burst is received, CRC-checked, given parity and written to the DRAM or the ledger, and its own-half line is enqueued for the replica. -/
  | writeBurst (data : BitVec 640) (crc : BitVec 80) (mon : BitVec 640) (held : Bool)
  /-- READ_BURST_CHECK (R162): A DRAM read burst is parity-checked, trial-reconstructed and delivered under the rank's Lane Guard state, raising FS 16 or FS 17. -/
  | readBurstCheck (data : BitVec 768) (mon : BitVec 128)
  /-- DALERT_EVENT (R143): A recognised DALERT_N low phase raises FS 20, records ranks, pulses HALERT_N and marks ranks cold during a save. -/
  | dalertEvent (ranks : BitVec 4)
  /-- OP_CLEAR (R279): A CLEAR descriptor sets its slot empty. -/
  | opClear
  /-- OP_READ (R277): A READ descriptor reads the field and writes a DONE result line. -/
  | opRead
  /-- OP_ADD (R277): An ADD descriptor adds operand A, wrapping or saturating, and updates the check bytes. -/
  | opAdd
  /-- OP_SWAP (R277): A SWAP descriptor writes operand A and returns the old value. -/
  | opSwap
  /-- OP_CAS (R277): A CAS descriptor writes B when the field equals A, and otherwise reports CAS_FAIL. -/
  | opCas
  /-- LEDGER_SCRUB_WRITE_BACK (R255): At the next free port E cycle, a corrected ledger word is written back by requester 5. -/
  | ledgerScrubWriteBack
  /-- BANK_PARK (R266): A replica bank idle for LD_RETAIN.IDLE ms is tagged and moved to retention. -/
  | bankPark (k : Fin 7)
  /-- BANK_WAKE (R267): A port E access to a parked bank wakes it, checks its tag after 12 µs and starts a background scan. -/
  | bankWake (k : Fin 7) (damage : List (Nat × BitVec 72))
  /-- BANK_SCAN_DONE (R267): The background scan of a woken bank ends, and on failure raises FS 26 and marks the bank stale. -/
  | bankScanDone (k : Fin 7)
  /-- HOST_EVAL_START (R207): At every HOST_PERIOD a host-lane evaluation starts on each free lane, and one still running is abandoned. -/
  | hostEvalStart
  /-- HOST_TRIAL_DONE (R208): A host-side trial completes and is accepted, making codes pending, or rejected with FS 11. -/
  | hostTrialDone (lane : HLane)
  /-- CA_TRIAL_DONE (R213): A C/A receiver trial completes and is accepted, or rejected with FS 11. -/
  | caTrialDone
  /-- STALE_TIMEOUT (R212): A lane with no accepted trial for STALE_AFTER seconds is marked stale. -/
  | staleTimeout (lane : Fin 6)
  /-- ZQ_MEASURE (R186): Every ZQ_PERIOD the ZQ resistors are measured again and impedance codes move by at most one step. -/
  | zqMeasure (hostUp hostDown dramUp dramDown : BitVec 5) (hostSat dramSat : Bool)
  /-- DCC_STEP (R186): The duty detector moves a corrector one step toward 50 %, or rejects it at range end. -/
  | dccStep (dram : Bool) (lane : DLane) (up : Bool)
  /-- PENDING_STARVED (R198): A value pending for 1 s without a boundary sets STARVED and writes a trace entry. -/
  | pendingStarved
  /-- SWEEP_START (R220): SWEEP_GAP after the last sweep, the next lane-rank in the round begins a shadow sweep at its boundary. -/
  | sweepStart
  /-- SWEEP_TRIAL_DONE (R223): A sweep trial completes, so trial B starts or agreement is decided and the result accepted or rejected. -/
  | sweepTrialDone
  /-- SWEEP_ABANDON (R222): A sweep trial not complete within SWEEP_LIMIT is abandoned and the sweep ends. -/
  | sweepAbandon
  /-- GAP_TRIAL_START (R233): Every GAP_PERIOD each populated rank starts a gap-mode write trial. -/
  | gapTrialStart (rank : Rank)
  /-- GAP_TRIAL_DONE (R231): A gap-mode trial completes and is accepted or rejected, and a read trial may follow. -/
  | gapTrialDone (rank : Rank)
  /-- GAP_TRIAL_ABANDON (R233): A gap trial not complete within 4 × GAP_PERIOD is abandoned and may set NOPROG. -/
  | gapTrialAbandon (rank : Rank)
  /-- CAL_STORE_AUTO (R201): Once INTERVAL has passed with enough trim movement, the calibration records are stored automatically. -/
  | calStoreAuto
  /-- CAL_STORE_NOW (R201): A write of 1 to CB_STORE.NOW stores both calibration record copies. -/
  | calStoreNow
  /-- RFAIL_WINDOW_CLEAR (R171): Every SECOND_WIN seconds the Steward clears LG_RFAIL of every rank. -/
  | rfailWindowClear
  /-- ERASE_DECISION (R168): On an FS 16 promotion, the Steward decides by share whether to erase a lane. -/
  | eraseDecision
  /-- ERASURE_TAKES_EFFECT (R169): At the rank's next boundary a pending erasure takes effect, raising FS 18 and possibly FS 23 and entering DEGRADED. -/
  | erasureTakesEffect (rank : Rank)
  /-- SECOND_FAILURE_TAKES_EFFECT (R171): At the rank's next boundary the rank enters SECOND and FS 19 is raised. -/
  | secondFailureTakesEffect (rank : Rank)
  /-- READMIT_TAKES_EFFECT (R172): At the rank's next boundary an accepted readmission returns the rank to PROTECTED. -/
  | readmitTakesEffect (rank : Rank)
  /-- HCT_LOAD (R179): A write of ROWS with LOAD = 1 starts verification of the HCT written through the window. -/
  | hctLoad (rows : Byte)
  /-- HCT_UNLOAD (R179): A write of UNLOAD = 1 clears HCT_LOADED at the next boundary. -/
  | hctUnload
  /-- HCT_VERIFY_DONE (R179): Verification ends within 20 ms and rejects the table or computes its CRC and strength. -/
  | hctVerifyDone
  /-- HCT_IN_FORCE (R568): At the first boundary after it falls due, the HCT load or unload, or a CHECK_EN change, comes into force. -/
  | hctInForce
  /-- HCT_WINDOW_WRITE (R179): A write to LG_HCTD stores the word at LG_HCTA and increments the address, or is refused while loaded or pending. -/
  | hctWindowWrite (value : Word)
  /-- HCT_WINDOW_READ (R179): A read of LG_HCTD returns the word and increments LG_HCTA. -/
  | hctWindowRead
  /-- LD_WINDOW_READ (R253): A write of READ to LD_ECMD reads one ledger word through port E as requester 2. -/
  | ldWindowRead (held : Bool)
  /-- LD_WINDOW_WRITE (R253): A write of WRITE to LD_ECMD writes one ledger word through port E, or is refused. -/
  | ldWindowWrite (held collide : Bool)
  /-- MARCH_START (R295): A write of 1 to MT_CTRL.START starts a march run if the mode permits it. -/
  | marchStart
  /-- MARCH_ABORT (R304): A write of 1 to MT_CTRL.ABORT ends the run at the next word. -/
  | marchAbort (reads : List MarchRead)
  /-- MARCH_DONE (R298): A march run ends, records its results, restores its targets and raises FS 62 on failure. -/
  | marchDone (reads : List MarchRead)
  /-- BURN_GO (R301): A write of 1 to MT_BURN.GO starts the repair burn, or is refused. -/
  | burnGo (bank : BitVec 4) (spare : BitVec 2) (col : BitVec 7)
  /-- BURN_DONE (R302): The migrate, burn and verify sequence ends and switches the steering map, or sets BURN_FAIL. -/
  | burnDone (stuck : BitVec 9)
  /-- KEEP_CHECKPOINT (R319): A write of 1 to KP_CTRL.CHECKPOINT runs commit steps C1 to C6 with a CONSUMED entry. -/
  | keepCheckpoint (flips : List (Nat × BitVec 72))
  /-- KEEP_REFRESH (R325): A write of 1 to KP_CTRL.REFRESH, or REFRESH_DUE with AUTO_REFRESH, rewrites records, patch and keys and runs refresh checkpoints. -/
  | keepRefresh (flips : List (Nat × BitVec 72))
  /-- RECORD_STORE_RETRY (R312): 1 s after a failed verify, the record store is retried once. -/
  | recordStoreRetry (flips : List (Nat × BitVec 72))
  /-- KEEP_RECORD_REWRITE (R321): Within 1 s of a correctable keep word, its two-copy record is stored again. -/
  | keepRecordRewrite (flips : List (Nat × BitVec 72))
  /-- KEEP_RETAIN_ACCRUE (R324): Once per minute in RUN and SERVICE, retention used is added to KP_RETAIN at the hottest temperature. -/
  | keepRetainAccrue
  /-- SAVE_NOW (R332): A write of 1 to PS_CTRL.SAVE_NOW triggers a save with cause 0x04. -/
  | saveNow
  /-- SAVE_RECOGNISED (R334): S0 latches the cause, AON time and nonce, wakes the Steward and starts the quiesce. -/
  | saveRecognised
  /-- QUIESCE_END (R335): After tQ the host interface is blocked, RDY falls, the engines stop and S2 drain begins with the save message. -/
  | quiesceEnd (reads : List MarchRead)
  /-- DRAIN_DONE (R336): When bursts, op slots, precharges and refresh debt are finished, S3 writes canaries and S4 puts every rank in self-refresh. -/
  | drainDone
  /-- SAVE_COMMIT_START (R341): Once S4 has ended and the Steward is awake, S5 runs commit steps C1 to C3 to the alternate slot. -/
  | saveCommitStart (flips : List (Nat × BitVec 72))
  /-- STEWARD_TAKEOVER_TIMEOUT (R339): With no Steward within 2.5 ms of S0, S5 and S6 are skipped, FS 36 is raised and S7 runs. -/
  | stewardTakeoverTimeout
  /-- COMMIT_LINES_DONE (R343): When no line is dirty and the lag is drained, S6 writes the maps, spill, seal block and SEALED entry. -/
  | commitLinesDone (flips : List (Nat × BitVec 72))
  /-- SEAL_DONE (R59): S7 switches the domains off in order, latches ERR_N, raises HOLDACK and enters HOLD. -/
  | sealDone
  /-- SAVE_DEADLINE_OVERRUN (R344): A save step passes its Ends-by time, so FS 36 is raised once and the save continues. -/
  | saveDeadlineOverrun
  /-- DORMANT_ENTRY (R61): PM_DORM expires in HOLD, the tag copy is cleared, PD_LDG switches off and the device enters DORMANT. -/
  | dormantEntry
  /-- RESTORE_START (R354): The restore conditions hold, HOLDACK falls, and steps U0 to U7 run: wake, power-up, seal check, calibration, self-refresh exit, canaries, quick check and reload. -/
  | restoreStart (w : WakeUp) (b : BringUp) (damage garnetDamage : List (Nat × BitVec 72)) (checks : List RankCheck)
  /-- RESTORE_REFRESH (R356): Every 3.9 µs from U4 to hand-back each rank receives a REFab. -/
  | restoreRefresh
  /-- RESTORE_HAND_BACK (R367): Once HRST_N is high, U8 applies the Lane Guard states, clears slots, writes CONSUMED, raises RDY and reports. -/
  | restoreHandBack (flips : List (Nat × BitVec 72))
  /-- LINK_UP (R378): Link training completes with an IDENT exchange and the link is up. -/
  | linkUp (inv : BitVec 2)
  /-- LINK_TRAIN_RETRY (R378): A failed link training attempt is repeated every 1 ms. -/
  | linkTrainRetry
  /-- LINK_DOWN (R380): Loss of block lock for more than 1 µs takes the link down and raises FS 40. -/
  | linkDown
  /-- RETRAIN_TIMEOUT (R380): A retrain not complete within 1 ms takes the link down. -/
  | retrainTimeout
  /-- UP_WAIT_EXPIRY (R380): The link not up within UP_WAIT of hand-back raises FS 40 with cause 4. -/
  | upWaitExpiry
  /-- IDLE (R379): An IDLE flit is received and acknowledges flits held for replay. -/
  | flitIdle (seq ack : Byte) (wire : FlitWire)
  /-- NAK (R380): A NAK flit is received and the sender replays, with FS 41 and a retrain after 8 replays. -/
  | flitNak (seq ack : Byte) (wire : FlitWire) (expected : Byte)
  /-- IDENT (R376): An IDENT flit is received and checked for position conflict, version and hand-back time. -/
  | flitIdent (seq ack : Byte) (wire : FlitWire) (pos : Bool) (version : BitVec 24) (hbTime : Word)
  /-- STATUS (R381): A STATUS flit is received, recorded, compared for version and generation, and may trigger a save or set MODULE. -/
  | flitStatus (seq ack : Byte) (wire : FlitWire) (b2 b3 b4 b5 b6 : Byte) (version : BitVec 24) (gen : Word)
  /-- STATUS_SEND (R381): Every 1 ms, or on a change, the device sends STATUS. -/
  | statusSend
  /-- TIME_REQ_SEND (R384): Every 1 s the device sends TIME_REQ. -/
  | timeReqSend
  /-- TIME_REQ (R384): A TIME_REQ flit is received and answered with TIME_RSP. -/
  | flitTimeReq (seq ack : Byte) (wire : FlitWire)
  /-- TIME_RSP (R385): A TIME_RSP flit is received, the offset computed and drift or a jump raises FS 44. -/
  | flitTimeRsp (seq ack : Byte) (wire : FlitWire) (t2 t3 : Time)
  /-- SAVE (R382): A SAVE flit is received and starts a save with cause 0x03, or is ignored while saving. -/
  | flitSave (seq ack : Byte) (wire : FlitWire) (cause : Byte) (aonS0 : Time)
  /-- LAG_END (R394): A LAG_END flit is received and sets LAG_DRAINED, releasing C3. -/
  | flitLagEnd (seq ack : Byte) (wire : FlitWire)
  /-- LAG_END_SEND (R394): When the queue is empty during a save, the device sends LAG_END. -/
  | lagEndSend
  /-- BYE (R383): A BYE flit is received and starts a save with FS 45 if this device is not saving. -/
  | flitBye (seq ack : Byte) (wire : FlitWire)
  /-- RESYNC_REQ (R392): A RESYNC_REQ flit is received and marks the requested lines stale for sending. -/
  | flitResyncReq (seq ack : Byte) (wire : FlitWire) (first count : BitVec 16)
  /-- LINE (R391): A LINE flit with its five data flits is received and written to the replica half, or discarded. -/
  | flitLine (seq ack : Byte) (wire : FlitWire) (l : BitVec 14) (resync poison : Bool) (data : BitVec 640) (tails : List DataWire) (held : Bool)
  /-- REPLICA_LINE_SEND (R389): The replica writer reads a queued or stale own line and sends it as LINE flits. -/
  | replicaLineSend (held : Bool)
  /-- TW_RESUME (R393): A write of 1 to TW_CTRL.RESUME clears RESYNC_HELD and sends a full resynchronisation request. -/
  | twResume
  /-- TW_RESYNC (R392): A write of 1 to TW_CTRL.RESYNC requests a full resynchronisation. -/
  | twResync
  /-- TW_RETRAIN (R406): A write of 1 to TW_CTRL.RETRAIN retrains the link. -/
  | twRetrain
  /-- FAULT_COLLECT (R398): Each tick the collector applies FC writes, then counts, captures or merges each collection and performs its reactions. -/
  | faultCollect
  /-- FC_WINDOW_CLOSE (R400): A counting window of FC_WIN.MS closes without promotion and the count returns to 0. -/
  | fcWindowClose (src : BitVec 6)
  /-- NMT_HANDLER (R405): The Steward runs the trap handler for a pending NMT. -/
  | nmtHandler (ends : HandlerEnd)
  /-- CHIPRST_WINDOW_EXPIRY (R408): 600 s without a CHIPRST reaction clears RST_LIMIT and restarts the count. -/
  | chiprstWindowExpiry
  /-- HISTORY_WRITE (R420): At most once per MIN_GAP a waiting fault-history entry is written to the keep. -/
  | historyWrite (flips : List (Nat × BitVec 72))
  /-- FC_ACK (R414): A write of 1 to FC_CTRL.ACK sets ACKED. -/
  | fcAck
  /-- FC_CLR_STICKY (R416): A write of 1 to FC_CTRL.CLR_STICKY clears every sticky bit whose live bit is 0. -/
  | fcClrSticky
  /-- FC_RECORD_CLEAR (R415): A write of 1 to FC_FIRST.VALID clears the record and its companions and writes a completion entry. -/
  | fcRecordClear
  /-- FC_STICKY_CLEAR (R416): A write of 1 to a sticky bit clears the bit, its class and its PIN latch unless the source is live. -/
  | fcStickyClear (high : Bool) (value : Word)
  /-- FC_FORCE (R421): A write to FC_FORCE0 or FC_FORCE1 raises one forced event per set bit at the next tick. -/
  | fcForce (high : Bool) (value : Word)
  /-- FC_INJ (R422): A write to FC_INJ arms inverted-check-bit injection into a checker. -/
  | fcInj (value : Word)
  /-- SEAL_KEY_GENERATE (R435): With no seal key and the conditions met, the device generates a seal key and stores its record. -/
  | sealKeyGenerate (flips : List (Nat × BitVec 72))
  /-- TAMPER_CLR (R441): A write of 1 to GN_CTRL.TAMPER_CLR clears the sticky tamper latch when permitted. -/
  | tamperClr
  /-- NONCE_LAPSE (R443): An outstanding authentication nonce lapses 30 s after issue. -/
  | nonceLapse
  /-- LEASE_LAPSE (R451): No byte from the holder for LEASE seconds ends the session. -/
  | leaseLapse
  /-- UART_LINE (R456): A line end on the UART completes a console line for judgement. -/
  | uartLine (env : ConEnv)
  /-- UART_AUTOBAUD (R454): A received CR frame re-measures the UART rate. -/
  | uartAutobaud (edges : CrEdges)
  /-- CON_RX_WAKE (R455): A falling edge on CON_RX wakes MCLK, and the frame is lost. -/
  | conRxWake
  /-- I3C_PRIVATE_WRITE (R458): An I3C private write appends bytes to the console input. -/
  | i3cPrivateWrite (bytes : List Byte) (env : ConEnv)
  /-- I3C_PRIVATE_READ (R458): An I3C private read returns bytes from the output queue, or is NACKed. -/
  | i3cPrivateRead (len : Nat) (env : ConEnv)
  /-- IBI_RETRY (R459): At the next bus idle an NACKed IBI is retried, up to three times. -/
  | ibiRetry (nacked : Bool)
  /-- ENEC (R457): CCC ENEC enables in-band interrupts. -/
  | enec
  /-- DISEC (R457): CCC DISEC disables in-band interrupts. -/
  | disec
  /-- RSTDAA (R457): CCC RSTDAA resets the dynamic address. -/
  | rstdaa
  /-- ENTDAA (R457): CCC ENTDAA assigns a dynamic address through arbitration. -/
  | entdaa (addr : BitVec 7)
  /-- SETDASA (R457): CCC SETDASA assigns a dynamic address from the static address. -/
  | setdasa (static addr : BitVec 7)
  /-- SETNEWDA (R457): CCC SETNEWDA changes the dynamic address. -/
  | setnewda (addr : BitVec 7)
  /-- SETMRL (R457): CCC SETMRL sets the maximum read length from 16 to 256. -/
  | setmrl (len : Nat)
  /-- SETMWL (R457): CCC SETMWL sets the maximum write length from 16 to 256. -/
  | setmwl (len : Nat)
  /-- GETPID (R457): CCC GETPID returns the provisional ID. -/
  | getpid
  /-- GETBCR (R457): CCC GETBCR returns 0x06. -/
  | getbcr
  /-- GETDCR (R457): CCC GETDCR returns 0x00. -/
  | getdcr
  /-- GETSTATUS (R452): CCC GETSTATUS returns status with the lease holder in the vendor byte. -/
  | getstatus
  /-- GETMRL (R457): CCC GETMRL returns the maximum read length. -/
  | getmrl
  /-- GETMWL (R457): CCC GETMWL returns the maximum write length. -/
  | getmwl
  /-- OTHER_CCC (R457): Any other CCC is NACKed. -/
  | otherCcc
  /-- HELP (R479): The command help lists the verbs or the forms of one verb. -/
  | conHelp (via : Transport) (verb : Option String)
  /-- SHOW (R480): The command show prints the object requested. -/
  | conShow (via : Transport) (object : String) (arg : Option String)
  /-- GET (R481): The command get prints a policy value. -/
  | conGet (via : Transport) (policy : String)
  /-- SET (R481): The command set writes a policy field. -/
  | conSet (via : Transport) (policy value : String)
  /-- RD (R482): The command rd reads one register. -/
  | conRd (via : Transport) (addr : Nat)
  /-- WR (R482): The command wr writes one register under its access codes. -/
  | conWr (via : Transport) (addr value : Nat) (env : ConEnv)
  /-- COMMIT (R469): The command commit tests consistency and commits every staged value together, or rejects. -/
  | conCommit (via : Transport)
  /-- COMMIT_DISCARD (R469): The command commit discard sets every staged value back to its last committed value. -/
  | conCommitDiscard (via : Transport)
  /-- GL_COMMIT_WRITE (R469): A write of COMMIT to GL_COMMIT commits the staged values. -/
  | glCommitWrite
  /-- GL_DISCARD_WRITE (R469): A write of DISCARD to GL_COMMIT discards the staged values. -/
  | glDiscardWrite
  /-- SAVE_NOW_CMD (R483): The command save now triggers a save with cause 0x04. -/
  | saveNowCmd (via : Transport)
  /-- TRAIN_DRAM (R484): The command train dram runs one full-training pass on a rank in SERVICE. -/
  | trainDram (via : Transport) (rank : Nat) (train : RankTrain) (flips : List (Nat × BitVec 72))
  /-- CAL_STORE (R485): The command cal store stores the calibration records at once. -/
  | calStore (via : Transport) (flips : List (Nat × BitVec 72))
  /-- CAL_HOLD (R485): The command cal hold sets or clears a lane's CAL_HOLD. -/
  | calHold (via : Transport) (dram : Bool) (lane : Nat) (on : Bool)
  /-- CAL_ENABLE (R485): The command cal enable turns a calibration engine on or off. -/
  | calEnable (via : Transport) (engine : String) (on : Bool)
  /-- LANE_ERASE (R486): The command lane erase makes an erasure or a second failure pending. -/
  | laneErase (via : Transport) (rank lane : Nat) (confirm : Bool)
  /-- LANE_READMIT (R172): The command lane readmit accepts the readmission of an erased lane for the next boundary. -/
  | laneReadmit (via : Transport) (rank lane : Nat) (rewritten : Bool)
  /-- LEDGER_RD (R487): The command ledger rd reads a ledger word or line through port E. -/
  | ledgerRd (via : Transport) (line : Nat) (word : Option Nat) (held : Bool)
  /-- LEDGER_WR (R488): The command ledger wr writes one ledger word through port E. -/
  | ledgerWr (via : Transport) (line word hi lo : Nat) (held collide : Bool)
  /-- KEEP_CHECKPOINT_CMD (R489): The command keep checkpoint runs a checkpoint and defers its completion. -/
  | keepCheckpointCmd (via : Transport) (flips : List (Nat × BitVec 72))
  /-- KEEP_REFRESH_CMD (R489): The command keep refresh runs a keep refresh and defers its completion. -/
  | keepRefreshCmd (via : Transport) (flips : List (Nat × BitVec 72))
  /-- KEEP_CONFIG_STORE (R490): The command keep config store writes both configuration record copies with a new generation. -/
  | keepConfigStore (via : Transport) (gen : Option Nat)
  /-- KEEP_CONFIG_LOAD (R490): The command keep config load loads policies and stages staged fields, optionally reloading the HCT. -/
  | keepConfigLoad (via : Transport) (hct : Bool)
  /-- FAULT_ACK (R491): The command fault ack acknowledges the record. -/
  | faultAck (via : Transport)
  /-- FAULT_CLEAR (R491): The command fault clear clears a source's sticky bit, all of them or the record. -/
  | faultClear (via : Transport) (what : ClearWhat)
  /-- FAULT_FORCE (R492): The command fault force writes the forced syndrome and forces a source. -/
  | faultForce (via : Transport) (fs : Nat) (synh synl : Option Nat)
  /-- FAULT_INJECT (R492): The command fault inject arms or clears FC_INJ. -/
  | faultInject (via : Transport) (what : Inject)
  /-- FAULT_CONFIG (R493): The command fault config writes a source's class, reactions, threshold and window. -/
  | faultConfig (via : Transport) (fs : Nat) (fields : FaultFields)
  /-- TWIN_RESUME (R494): The command twin resume releases a held resynchronisation. -/
  | twinResume (via : Transport)
  /-- TWIN_RESYNC (R494): The command twin resync requests a full resynchronisation. -/
  | twinResync (via : Transport)
  /-- TWIN_RETRAIN (R494): The command twin retrain retrains the link. -/
  | twinRetrain (via : Transport)
  /-- TRACE_SHOW (R495): The command trace show prints the newest ring or AON FIFO entries. -/
  | traceShow (via : Transport) (aon : Bool) (last : Option Nat)
  /-- AUTH_BEGIN (R443): The command auth begin draws and returns a fresh nonce. -/
  | authBegin (via : Transport)
  /-- AUTH_PROVE (R444): The command auth prove checks the HMAC proof and authenticates the session, or raises FS 61. -/
  | authProve (via : Transport) (proof : BitVec 128)
  /-- AUTH_END (R453): The command auth end ends the session. -/
  | authEnd (via : Transport)
  /-- AUTH_INSTALL (R446): The command auth install writes the console-key record and brings the key into Garnet. -/
  | authInstall (via : Transport) (key : BitVec 256) (flips : List (Nat × BitVec 72))
  /-- LIFECYCLE_ADVANCE (R437): The command lifecycle advance wipes Garnet, blows fuses, verifies, erases key records and raises FS 60. -/
  | lifecycleAdvance (via : Transport) (target : Nat) (confirm : Bool) (stuck : BitVec 4)
  /-- TEST_MARCH (R499): The command test march writes the MT fields and starts a run. -/
  | testMarch (via : Transport) (keys : MarchKeys)
  /-- TEST_ABORT (R499): The command test abort ends the running march. -/
  | testAbort (via : Transport) (reads : List MarchRead)
  /-- TEST_REPAIR (R499): The command test repair burns a spare-column fuse. -/
  | testRepair (via : Transport) (bank spare col : Nat) (stuck : BitVec 9)
  /-- RESET_CHIP (R500): The command reset chip performs CHIPRST after the reply is sent. -/
  | resetChip (via : Transport) (confirm : Bool)
  /-- MODE_SCRIPT (R462): The command mode script switches the session to script mode. -/
  | modeScript (via : Transport)
  /-- MODE_HUMAN (R462): The command mode human switches the session to human mode. -/
  | modeHuman (via : Transport)
  /-- MODE_SERVICE (R63): The command mode service runs save steps S1 to S4 and enters SERVICE. -/
  | modeService (via : Transport)
  /-- MODE_RUN (R65): The command mode run runs restore steps from calibration load to hand-back, using the SERVICE nonce. -/
  | modeRun (via : Transport) (b : BringUp) (checks : List RankCheck)
  /-- CA_UNBLOCK (R501): The command ca unblock ends the parity block. -/
  | caUnblock (via : Transport)
  /-- CA_CLR_UNBLOCK (R101): A write of 1 to CA_CLR.UNBLOCK ends the parity block 16 tCK later. -/
  | caClrUnblock
  /-- CA_CLR_RSVHIT (R121): A write of 1 to CA_CLR.CLR_RSVHIT clears CA_RSVHIT. -/
  | caClrRsvhit
  /-- CA_CLR_ALERT (R127): A write of 1 to CA_CLR.CLR_ALERT clears the HALERT_N counters. -/
  | caClrAlert
  /-- DISC_EN_WRITE (R75): A write of 1 to CK_TICK.DISC_EN restarts tick discipline after FS 51. -/
  | discEnWrite
  /-- TR_CLEAR (R510): A write of 1 to TR_CTRL.CLEAR empties the trace ring and writes RING_START. -/
  | trClear
  /-- SENSOR_CONVERSION (R503): Every PERIOD ms the four sensors convert, SN_HOT and SN_MAX are formed and thresholds judged. -/
  | sensorConversion (t0 t1 t2 t3 : Int)
  /-- LATCHED_PAIR_READ (R523): Reading the first register of a latched group latches the others. -/
  | latchedPairRead (addr : Nat)
  /-- REGISTER_WRITE (R8): A write to a register without its own row takes effect according to its fields' access codes. -/
  | registerWrite (addr : Nat) (value : Word) (env : ConEnv)
  /-- TAP_IDCODE (R45): The TAP instruction IDCODE selects the 32-bit identification register. -/
  | tapIdcode
  /-- TAP_BYPASS (R44): The TAP instruction BYPASS selects the 1-bit bypass register. -/
  | tapBypass (opcode : BitVec 4)
  /-- TAP_EXTEST (R46): The TAP instruction EXTEST drives the boundary register in SERVICE, or acts as BYPASS. -/
  | tapExtest (cells : BitVec 449)
  /-- TAP_SAMPLE_PRELOAD (R46): The TAP instruction SAMPLE/PRELOAD captures or loads the boundary register where it is available. -/
  | tapSamplePreload (preload : Option (BitVec 449)) (captured : BitVec 449)
  /-- TRST_N_LOW (R44): A low pulse on TRST_N puts the TAP in Test-Logic-Reset with IDCODE loaded. -/
  | trstNLow
  /-- VAUX_RISE (R440): VAUX enters its range: the tick starts, the non-volatile tamper latch and ERASE_DONE are read, GN_TAMPT reads 0, and the latch begins sampling TAMPER_N. -/
  | vauxRise
  /-- VDDQD_RISE (R36): VDDQD rises from below its operating range and the hold island starts driving its reset levels. -/
  | vddqdRise
  /-- VDDQD_LOSS (R37): VDDQD falls below its operating range and the hold-island levels become undefined, so the DRAM content is unproven. -/
  | vddqdLoss
  /-- TAMPER_N_RELEASE (R441): TAMPER_N is recognised high again, GN_STATUS.TAMPER_NOW clears, and TAMPER_CLR becomes acceptable. -/
  | tamperNRelease
  /-- UART_FRAME (R460): A UART frame is received: in human mode the byte is echoed, erased or ignored; it fills or overruns the FIFO; and when a session is held on I3C it is discarded and counted as refused. -/
  | uartFrame (byte : Byte) (full : Bool)
  /-- BCW_ACCESS_ERROR (R110): A parity-good MRW to a buffer control word that is MRR-only or undefined has no effect and raises FS 3. -/
  | bcwAccessError (p : CaPins) (word : BitVec 4) (data : Byte)
  /-- KEEP_CHECKPOINT_DONE (R317): A running checkpoint reaches C6, writes its SEALED and CONSUMED entries, updates KP_CKPT, clears KP_STATUS.CHECKPOINT and completes its deferred token. -/
  | keepCheckpointDone (flips : List (Nat × BitVec 72)) (holds : BitVec 16)
  /-- KEEP_REFRESH_DONE (R325): A running keep refresh finishes its record rewrites and refresh checkpoints and clears KP_RETAIN, REFRESH_DUE and the CORR count. -/
  | keepRefreshDone (flips : List (Nat × BitVec 72)) (holds : BitVec 16)
  /-- CAL_STORE_DONE (R201): A calibration store finishes writing both copies within 1 ms, clears STORING and sets or clears LAST_STORE_FAIL. -/
  | calStoreDone (flips : List (Nat × BitVec 72))
  /-- KEEP_CONFIG_STORE_DONE (R490): A configuration-record store finishes both copies, brings the new generation into force and queues its deferred completion line. -/
  | keepConfigStoreDone (flips : List (Nat × BitVec 72))
  deriving DecidableEq, Repr

end Sys2Proof
end

