-- ==== Sys2Proof/Decode.lean ====
section
/-! DEFINITION. Decoding table words. The table gives none of its rows any bits: the block takes commands, and no word
spells one. -/

namespace Sys2Proof

/-- The command that a word spells by the table's bits: none of the 244 rows has any. -/
def decodeTableWord (_nbits _w : Nat) : Option Instr := none

end Sys2Proof
end

