-- ==== Sys2Proof/Config.lean ====
section
/-! DEFINITION. The values that the spec leaves open, as constants without a body: nothing can be proved of
them. Each is applied to the state's counter of draws, so that every draw is a fresh value. -/

namespace Sys2Proof

/-- Where in the 80 ns pulse and its 40 ns release a HALERT_N event falls when a pulse has started since the
last tick (R127): 0 while the pin is low, 1 during the release, otherwise after it. Log entry 5. -/
opaque Config.alertPhase : Nat → BitVec 2

/-- The level that the hold island leaves on a pin while its levels are undefined (R37), by draw and pin. Log entry 58. -/
opaque Config.islandLevel : Nat → Nat → Bool

/-- The 64-bit nonce that `auth begin` draws (R443). Log entry 6. -/
opaque Config.authNonce : Nat → BitVec 64

/-- A 256-bit key drawn by the device's generator (R435). Log entry 6. -/
opaque Config.drawnKey : Nat → BitVec 256

/-- The fresh 16-byte nonce of a key-record copy (R432). Log entry 6. -/
opaque Config.recordNonce : Nat → BitVec 128

/-- HL_SNOOP as the device loads it with the mode-register values that it writes to the DRAM at a data rate in
MT/s (R135): JESD79-5 gives the values. Log entry 26. -/
opaque Config.initSnoop : Nat → BitVec 32

/-- The Steward's version (major, minor, patch) after a patch, by the patch's check word (R7). Log entry 1. -/
opaque Config.patchVersion : BitVec 32 → BitVec 24

/-- The low byte of GETSTATUS (R452 gives the vendor byte alone). Log entry 34. -/
opaque Config.statusLow : Nat → BitVec 8

/-- Where between two sampled voltage offsets, or within a run of offsets that each have half of the samples above them, the
median of a histogram lies, in microvolts from the lower one, taken modulo the distance (R190). Log entry 62. -/
opaque Config.medianPart : List (Int × Tally) → Nat

/-- Does a reservation probe that started since the last tick still run when a command for its rank arrives (R122)? By draw.
Log entry 45. -/
opaque Config.probeRuns : Nat → Bool

/-- The state of PRBS-15 from which the first write probe of a lane of a rank continues, by rank * 6 + lane (Table CD-3 seeds
row 2 only). Log entry 62. -/
opaque Config.prbsStart : Nat → BitVec 15

/-- The write CRC of the 16 data beats of an x8 lane (Table SC-6: as JESD79-5 defines it). Log entry 63. -/
opaque Config.laneCrc : BitVec 128 → BitVec 16

/-- The BL16 burst of an x8 lane that carries a mode-register value (R148: in the form of JESD79-5). Log entry 63. -/
opaque Config.mrrLane : BitVec 8 → BitVec 128

/-- What the arrays had returned to a march run by the moment at which something other than a command of its own stops it, where
that is not what its reads expect, by draw. Log entry 68. -/
opaque Config.marchFound : Nat → List MarchRead

/-- Has the fuse that a collapse interrupts blown (R302)? By draw. Log entry 68. -/
opaque Config.fuseHalf : Nat → Bool

/-- Was a calibration store that the end of S1 met writing copy 1 (Chapter 8)? By draw. Log entry 41. -/
opaque Config.storeSecond : Nat → Bool

/-- How each host lane's HDQS pair samples HCK in write leveling (R145), by draw. Log entry 63. -/
opaque Config.levelSample : Nat → BitVec 5

/-- What a lane's sampling of HCS_N in CS training puts on its eight HDQ bits, by the sampled HCS_N (R145: as JESD79-5
defines for x8). Log entry 63. -/
opaque Config.csTraining : BitVec 4 → BitVec 8

end Sys2Proof
end

