-- ==== Sys2Proof/Machine/Bits.lean ====
section
/-! DEFINITION. Bit, byte and text helpers: little-endian byte strings (R310, R508), the hexadecimal and
decimal forms of the console (R461, Chapter 0 "Numbers and units"), parity of a bit string. -/

namespace Sys2Proof.Machine

/-- The `n` low bytes of a number, least significant first. -/
def leBytes (n : Nat) (v : Nat) : List Byte :=
  (List.range n).map (fun i => BitVec.ofNat 8 (v >>> (8 * i)))

/-- The number whose little-endian bytes are given. -/
def ofLeBytes : List Byte → Nat
  | [] => 0
  | b :: bs => b.toNat + 256 * ofLeBytes bs

/-- The `n` low bytes of a number, most significant first. -/
def beBytes (n : Nat) (v : Nat) : List Byte := (leBytes n v).reverse

/-- The number whose big-endian bytes are given. -/
def ofBeBytes (bs : List Byte) : Nat := ofLeBytes bs.reverse

/-- Bits `[hi:lo]` of a number. -/
def natBits (v hi lo : Nat) : Nat := (v >>> lo) % 2 ^ (hi + 1 - lo)

/-- Is bit `i` of a number set? -/
def natBit (v i : Nat) : Bool := v.testBit i

/-- A Boolean as a bit. -/
def b2n (b : Bool) : Nat := if b then 1 else 0

/-- The parity of a number below 2^1024: true when the count of ones is odd. -/
def oddParity (v : Nat) : Bool :=
  let a := v ^^^ (v >>> 512)
  let a := a ^^^ (a >>> 256)
  let a := a ^^^ (a >>> 128)
  let a := a ^^^ (a >>> 64)
  let a := a ^^^ (a >>> 32)
  let a := a ^^^ (a >>> 16)
  let a := a ^^^ (a >>> 8)
  let a := a ^^^ (a >>> 4)
  let a := a ^^^ (a >>> 2)
  (a ^^^ (a >>> 1)).testBit 0

/-- The number of ones among the low `n` bits. -/
def popCount (n : Nat) (v : Nat) : Nat :=
  (List.range n).foldl (fun c i => c + b2n (v.testBit i)) 0

/-- The indices of the ones among the low `n` bits, rising. -/
def bitsOf (n : Nat) (v : Nat) : List Nat := (List.range n).filter (fun i => v.testBit i)

/-- The number whose ones are at the given indices. -/
def ofBits (l : List Nat) : Nat := l.foldl (fun a i => a ||| (1 <<< i)) 0

/-- A number saturated at `m`. -/
def sat (m v : Nat) : Nat := if v ≤ m then v else m

/-- A two's-complement value of `w` bits as an integer. -/
def signed (w v : Nat) : Int :=
  if v < 2 ^ (w - 1) then (v : Int) else (v : Int) - (2 ^ w : Nat)

/-- An integer as a two's-complement value of `w` bits. -/
def unsigned (w : Nat) (i : Int) : Nat := (i % ((2 ^ w : Nat) : Int)).toNat

/-- The difference of two AON times in ticks, across a wrap of the 48-bit timer (R76). -/
def ticksSince (now past : Time) : Nat := (now - past).toNat

/-- Ticks per millisecond at the nominal rate (Chapter 0, "Numbers and units"). -/
def ticksPerMs : Nat := 4000

/-- Ticks per second at the nominal rate. -/
def ticksPerS : Nat := 4000000

/-- A lowercase hexadecimal digit. -/
def hexDigit (n : Nat) : Char :=
  if n < 10 then Char.ofNat (48 + n) else Char.ofNat (87 + n)

/-- An uppercase hexadecimal digit. -/
def hexDigitU (n : Nat) : Char :=
  if n < 10 then Char.ofNat (48 + n) else Char.ofNat (55 + n)

/-- `n` lowercase hexadecimal digits of a number. -/
def hexStr (n v : Nat) : String :=
  String.ofList ((List.range n).reverse.map (fun i => hexDigit ((v >>> (4 * i)) % 16)))

/-- `n` uppercase hexadecimal digits of a number. -/
def hexStrU (n v : Nat) : String :=
  String.ofList ((List.range n).reverse.map (fun i => hexDigitU ((v >>> (4 * i)) % 16)))

/-- A 32-bit value as the console prints it, for example `0x6800_3A71`. -/
def hexWord (v : Nat) : String := "0x" ++ hexStrU 4 (v >>> 16) ++ "_" ++ hexStrU 4 v

/-- The decimal digits of a number, least significant first, with `fuel` digits at most. -/
def decDigits : Nat → Nat → List Char
  | 0, _ => []
  | f + 1, v => if v < 10 then [Char.ofNat (48 + v)] else Char.ofNat (48 + v % 10) :: decDigits f (v / 10)

/-- A number in decimal. -/
def decStr (v : Nat) : String := String.ofList (decDigits 20 v).reverse

/-- A signed number in decimal. -/
def decInt (i : Int) : String :=
  if i < 0 then "-" ++ decStr i.natAbs else decStr i.natAbs

/-- The bytes of a text. -/
def strBytes (t : String) : List Byte := t.toList.map (fun c => BitVec.ofNat 8 c.toNat)

/-- The text of a byte string. -/
def bytesStr (b : List Byte) : String := String.ofList (b.map (fun x => Char.ofNat x.toNat))

end Sys2Proof.Machine
end

