-- ==== Sys2Proof/Machine/Check.lean ====
section
/-! DEFINITION. The check codes of Table SC-6 (R12), SHA-256 and HMAC-SHA-256 (FIPS 180-4 and FIPS 198-1
as Table SC-5 supports them), the SECDED code of R567 and the PRBS-31 sequence of R337. -/

namespace Sys2Proof.Machine

/-- Eight shifts of the reflected CRC-32 register. -/
def crc32Shift : Nat → BitVec 32 → BitVec 32
  | 0, r => r
  | n + 1, r => crc32Shift n (if r.getLsbD 0 then (r >>> 1) ^^^ 0xEDB88320#32 else r >>> 1)

/-- CRC-32 of keep and calibration records (Table SC-6). -/
def crc32 (bs : List Byte) : Word :=
  (bs.foldl (fun r b => crc32Shift 8 (r ^^^ b.zeroExtend 32)) 0xFFFFFFFF#32) ^^^ 0xFFFFFFFF#32

/-- Shifts of the CRC-16 register. -/
def crc16Shift : Nat → BitVec 16 → BitVec 16
  | 0, r => r
  | n + 1, r => crc16Shift n (if r.getLsbD 15 then (r <<< 1) ^^^ 0x1021#16 else r <<< 1)

/-- CRC-16 of the twin link flits (Table SC-6). -/
def crc16 (bs : List Byte) : BitVec 16 :=
  bs.foldl (fun r b => crc16Shift 8 (r ^^^ BitVec.ofNat 16 (256 * b.toNat))) 0xFFFF#16

/-- Shifts of the CRC-8 register. -/
def crc8Shift : Nat → BitVec 8 → BitVec 8
  | 0, r => r
  | n + 1, r => crc8Shift n (if r.getLsbD 7 then (r <<< 1) ^^^ 0x07#8 else r <<< 1)

/-- CRC-8 of the Irx script-mode lines (Table SC-6). -/
def crc8 (bs : List Byte) : Byte :=
  bs.foldl (fun r b => crc8Shift 8 (r ^^^ b)) 0#8

/-! ### SHA-256

FIPS 180-4 takes its constants from the roots of the first primes; they are computed here. The working variables a, b, c, d
are the last four values of one sequence and e, f, g, h those of another, and so the compression keeps two short histories. -/

/-- The first 64 primes: the numbers below 312 that no smaller number from 2 on divides. -/
def shaPrimes : List Nat :=
  (List.range 312).filter (fun n => 2 ≤ n && (List.range 18).all (fun d => d < 2 || n ≤ d || n % d ≠ 0))

/-- The largest `r` of at most `bits` bits with `r ^ e ≤ n`, found from its most significant bit down. -/
def rootBits (e n : Nat) : Nat → Nat → Nat
  | 0, r => r
  | k + 1, r => rootBits e n k (if (r + 2 ^ k) ^ e ≤ n then r + 2 ^ k else r)

/-- The first 32 fractional bits of the `e`-th root of `p`. -/
def rootFraction (e p : Nat) : Word := BitVec.ofNat 32 (rootBits e (p * 2 ^ (32 * e)) 38 0)

/-- The round constants: cube roots of the first 64 primes. -/
def shaK : List Word := shaPrimes.map (rootFraction 3)

/-- The initial hash value: square roots of the first eight primes. -/
def shaInit : List Word := (shaPrimes.take 8).map (rootFraction 2)

/-- XOR of the right rotations of a word by the listed amounts. -/
def rotations (ns : List Nat) (x : Word) : Word := ns.foldl (fun r n => r ^^^ x.rotateRight n) 0

/-- What a round adds to d to give e, from e, f, g, h, the round constant and the schedule word. -/
def shaT1 (k w : Word) : List Word → Word
  | [e, f, g, h] => h + rotations [6, 11, 25] e + (g ^^^ (e &&& (f ^^^ g))) + k + w
  | _ => 0

/-- What a round adds to that to give a, from a, b, c. -/
def shaT2 : List Word → Word
  | a :: b :: c :: _ => rotations [2, 13, 22] a + ((a &&& b) ||| (c &&& (a ||| b)))
  | _ => 0

/-- One round over the histories a, b, c, d and e, f, g, h, newest first. -/
def shaRound (k w : Word) (s : List Word × List Word) : List Word × List Word :=
  let t := shaT1 k w s.2
  ((t + shaT2 s.1) :: s.1.take 3, (s.1.getD 3 0 + t) :: s.2.take 3)

/-- The word that the schedule adds behind its last 16. -/
def shaNext (w : List Word) : Word :=
  let x := w.getD 1 0
  let y := w.getD 14 0
  w.getD 0 0 + (rotations [7, 18] x ^^^ (x >>> 3)) + w.getD 9 0 + (rotations [17, 19] y ^^^ (y >>> 10))

/-- The rounds over the remaining constants. -/
def shaRounds : List Word → List Word → List Word × List Word → List Word × List Word
  | [], _, s => s
  | k :: ks, w, s => shaRounds ks (w.tail ++ [shaNext w]) (shaRound k (w.headD 0) s)

/-- A byte string cut into big-endian words. -/
def beWords : Nat → List Byte → List Word
  | 0, _ => []
  | n + 1, bs => BitVec.ofNat 32 (ofBeBytes (bs.take 4)) :: beWords n (bs.drop 4)

/-- The hash value after the next block. -/
def shaBlock (ks : List Word) (block : List Byte) (v : List Word) : List Word :=
  let r := shaRounds ks (beWords 16 block) (v.take 4, v.drop 4)
  List.zipWith (· + ·) v (r.1 ++ r.2)

/-- The hash value after `n` 64-byte blocks. -/
def shaBlocks (ks : List Word) : Nat → List Byte → List Word → List Word
  | 0, _, v => v
  | n + 1, bs, v => shaBlocks ks n (bs.drop 64) (shaBlock ks (bs.take 64) v)

/-- A message with its SHA-256 padding. -/
def shaPad (m : List Byte) : List Byte :=
  let z := (119 - m.length % 64) % 64
  m ++ [0x80#8] ++ List.replicate z 0#8 ++ beBytes 8 (8 * m.length)

/-- SHA-256 of a message, as 32 bytes. -/
def sha256 (m : List Byte) : List Byte :=
  let p := shaPad m
  (shaBlocks shaK (p.length / 64) p shaInit).flatMap (fun w => beBytes 4 w.toNat)

/-- HMAC-SHA-256 under a key of at most 64 bytes. -/
def hmac (key msg : List Byte) : List Byte :=
  let k := key ++ List.replicate (64 - key.length) 0#8
  sha256 (k.map (fun b => b ^^^ 0x5C#8) ++ sha256 (k.map (fun b => b ^^^ 0x36#8) ++ msg))

/-- HMAC-SHA-256 under a 256-bit key held as a number, its first byte most significant. -/
def hmac256 (key : BitVec 256) (msg : List Byte) : BitVec 256 :=
  BitVec.ofNat 256 (ofBeBytes (hmac (beBytes 32 key.toNat) msg))

/-! ### SECDED (R567) -/

/-- The columns of data bits 0 to 63: the weight-3 bytes in rising order, then the eight columns that R567 names. -/
def secdedCols : List Nat :=
  (List.range 256).filter (fun v => popCount 8 v = 3) ++ [0x1F, 0x2F, 0x37, 0x3B, 0x3D, 0x3E, 0x4F, 0x57]

/-- The XOR of the columns of the data bits that are 1. -/
def secdedXor : List Nat → Nat → Nat
  | [], _ => 0
  | c :: cs, v => (if v.testBit 0 then c else 0) ^^^ secdedXor cs (v / 2)

/-- The check bits of 64 data bits. -/
def secdedCheck (d : Dword) : Byte := BitVec.ofNat 8 (secdedXor secdedCols d.toNat)

/-- A stored 72-bit word: data in [63:0], check bits in [71:64]. -/
def secdedEncode (d : Dword) : BitVec 72 := BitVec.ofNat 72 (d.toNat + 2 ^ 64 * (secdedCheck d).toNat)

/-- The data bits of a stored word. -/
def secdedData (w : BitVec 72) : Dword := BitVec.ofNat 64 w.toNat

/-- The syndrome of a stored word: check bits read XOR check bits computed. -/
def secdedSyndrome (w : BitVec 72) : Byte :=
  BitVec.ofNat 8 (w.toNat >>> 64) ^^^ secdedCheck (secdedData w)

/-- What a read of a stored word finds. -/
inductive EccResult where
  /-- No error. -/
  | clean
  /-- One error, corrected; the data after correction. -/
  | corrected (data : Dword)
  /-- An error that the code cannot correct. -/
  | uncorrectable
  deriving DecidableEq, Repr

/-- Judge a syndrome against stored data: a column names the bit in error, any other non-zero syndrome is
uncorrectable. -/
def secdedJudge (d : Dword) (syn : Byte) : EccResult :=
  if syn = 0 then .clean
  else match secdedCols.findIdx? (fun c => c = syn.toNat) with
    | some i => .corrected (d ^^^ BitVec.ofNat 64 (1 <<< i))
    | none => if (List.range 8).any (fun k => syn.toNat = 1 <<< k) then .corrected d else .uncorrectable

/-! ### PRBS-31 (R337) -/

/-- The seed of the canary sequence of a rank, canary row and DRAM lane. -/
def canarySeed (nonce : Dword) (rank row lane : Nat) : Nat :=
  let x := (natBits nonce.toNat 62 32 ^^^ natBits nonce.toNat 30 0) ^^^ (rank * 0x40 + row * 0x8 + lane)
  if x = 0 then 0x7FFFFFFF else x

/-- One step of x^31 + x^28 + 1: the new state, whose bit 0 is the output bit. -/
def prbsStep (s : Nat) : Nat := ((s * 2) % 2 ^ 31) + b2n (s.testBit 30 != s.testBit 27)

/-- Eight steps, as a byte filled from bit 0 up. -/
def prbsByte : Nat → Nat → Nat → Nat × Nat
  | 0, s, acc => (s, acc)
  | n + 1, s, acc => let s' := prbsStep s; prbsByte n s' (acc + (s' % 2) * 2 ^ (7 - n))

/-- One step of the PRBS-15 of Table CD-3, x^15 + x^14 + 1, in the form of R337's sequence. -/
def prbs15Step (s : Nat) : Nat := ((s * 2) % 2 ^ 15) + b2n (s.testBit 14 != s.testBit 13)

/-- `n` bits of PRBS-15 from a state, the first bit lowest, and the state after them. -/
def prbs15Bits : Nat → Nat → Nat → Nat → Nat × Nat
  | 0, _, s, acc => (acc, s)
  | n + 1, i, s, acc => let t := prbs15Step s; prbs15Bits n (i + 1) t (acc + (t % 2) * 2 ^ i)

/-- The first `n` bytes of the sequence from a state. -/
def prbsBytes : Nat → Nat → List Byte
  | 0, _ => []
  | n + 1, s => let r := prbsByte 8 s 0; BitVec.ofNat 8 r.2 :: prbsBytes n r.1

end Sys2Proof.Machine
end

