-- ==== Sys2Proof/Machine/Registers.lean ====
section
/-! DEFINITION. The register map of Chapter 24 (R516 to R518) and the field maps of the functional
chapters: every register with its address, its reset class (Table RX-8), the value after AONRST_N and
the access codes of its fields (Table SC-3), and one `Field` for every named field.

Registers that the spec banks behind a selector (a lane, a rank, a bit, a source) have one home per
bank: the home of bank `k` of a register is its address plus `k * 0x10000`. -/

namespace Sys2Proof.Machine

/-- The class of Table RX-8 that decides what each reset does to a register (R519). -/
inductive ResetClass where
  /-- Fuses, straps and tamper state: no reset event changes them by itself. -/
  | fused
  /-- Always-on and kept through CHIPRST. -/
  | aonKept
  /-- Always-on and reset by AONRST_N and by CHIPRST. -/
  | aonBoth
  /-- PD_MGT: reset by both resets and at every power-up of PD_MGT. -/
  | mgt
  /-- PD_CORE: reset by both resets and at every power-up of PD_CORE. -/
  | core
  deriving DecidableEq, Repr

/-- One row of Tables RX-2 to RX-7 with the access masks of its owning field map. -/
structure RegRow where
  addr : Nat
  name : String
  cls : ResetClass
  reset : Nat
  rw : Nat
  ro : Nat
  w1c : Nat
  rws : Nat
  wo : Nat
  rwl : Nat
  deriving DecidableEq, Repr

/-- A field `[hi:lo]` of the register whose home is `addr`. -/
structure Field where
  addr : Nat
  hi : Nat
  lo : Nat
  deriving DecidableEq, Repr

/-- The same field of the register `4 * k` bytes further on. -/
def Field.at (f : Field) (k : Nat) : Field := ⟨f.addr + 4 * k, f.hi, f.lo⟩

/-- The same field of lane `n` (the lane registers are 0x100 bytes apart). -/
def Field.lane (f : Field) (n : Nat) : Field := ⟨f.addr + 0x100 * n, f.hi, f.lo⟩

/-- The same field of bank `k` of a banked register. -/
def Field.bank (f : Field) (k : Nat) : Field := ⟨f.addr + 0x10000 * k, f.hi, f.lo⟩

/-- The width of a field in bits. -/
def Field.width (f : Field) : Nat := f.hi + 1 - f.lo


/-- Registers of the block at 0x0000. -/
def regs0000 : List RegRow := [
  ⟨0x0000, "GL_ID", .fused, 0x68003A71, 0x0, 0xFFFFFFFF, 0x0, 0x0, 0x0, 0x0⟩,
  ⟨0x0004, "GL_GRADE", .fused, 0x0, 0x0, 0x1FF, 0x0, 0x0, 0x0, 0x0⟩,
  ⟨0x0008, "GL_STRAP", .fused, 0x0, 0x0, 0xF, 0x0, 0x0, 0x0, 0x0⟩,
  ⟨0x000C, "GL_COMMIT", .mgt, 0x0, 0x0, 0x0, 0x0, 0x0, 0x3, 0x0⟩,
  ⟨0x0010, "GL_CSTAT", .mgt, 0x0, 0x0, 0xC000FF01, 0x0, 0x0, 0x0, 0x0⟩]

/-- Registers of the block at 0x0400. -/
def regs0400 : List RegRow := [
  ⟨0x0400, "PM_MODE", .aonBoth, 0x411, 0x0, 0x737, 0x0, 0x0, 0x0, 0x0⟩,
  ⟨0x0404, "PM_DOMAIN", .aonBoth, 0xC11, 0x0, 0xFFF, 0x0, 0x0, 0x0, 0x0⟩,
  ⟨0x0408, "PM_DORM", .aonBoth, 0x3C, 0xFFFF, 0x0, 0x0, 0x0, 0x0, 0x0⟩,
  ⟨0x040C, "PM_CTRL", .aonBoth, 0x3, 0x3, 0x0, 0x0, 0x0, 0x0, 0x0⟩,
  ⟨0x0410, "PM_LAST", .aonBoth, 0x11100, 0x0, 0xFF3737, 0x0, 0x0, 0x0, 0x0⟩,
  ⟨0x0414, "PM_LAST_TL", .aonBoth, 0x0, 0x0, 0xFFFFFFFF, 0x0, 0x0, 0x0, 0x0⟩,
  ⟨0x0418, "PM_LAST_TH", .aonBoth, 0x0, 0x0, 0xFFFF, 0x0, 0x0, 0x0, 0x0⟩,
  ⟨0x041C, "PM_RANK", .aonKept, 0x0, 0x0, 0xF0F, 0x0, 0x0, 0x0, 0x0⟩,
  ⟨0x0600, "CK_STATUS", .mgt, 0x0, 0x0, 0x7FFF, 0x0, 0x0, 0x0, 0x0⟩,
  ⟨0x0604, "CK_HCKCNT", .mgt, 0x0, 0x0, 0x1FFFF, 0x0, 0x0, 0x0, 0x0⟩,
  ⟨0x0608, "CK_TICK", .aonBoth, 0x10000, 0x10000, 0xFF00FFFF, 0x0, 0x0, 0x0, 0x0⟩,
  ⟨0x060C, "CK_CTRL", .mgt, 0x3, 0x7, 0x0, 0x0, 0x0, 0x0, 0x0⟩,
  ⟨0x0610, "CK_RS0", .mgt, 0x112C0, 0x0, 0x80000000, 0x0, 0x3FFFF, 0x0, 0x0⟩,
  ⟨0x0614, "CK_RS1", .mgt, 0x115E0, 0x0, 0x80000000, 0x0, 0x3FFFF, 0x0, 0x0⟩,
  ⟨0x0618, "CK_RS2", .mgt, 0x11900, 0x0, 0x80000000, 0x0, 0x3FFFF, 0x0, 0x0⟩,
  ⟨0x061C, "CK_RS3", .mgt, 0x11F40, 0x0, 0x80000000, 0x0, 0x3FFFF, 0x0, 0x0⟩,
  ⟨0x0620, "CK_BOOT", .mgt, 0x0, 0x0, 0xF3FF, 0x0, 0x0, 0x0, 0x0⟩,
  ⟨0x0624, "CK_BOOTT", .mgt, 0x0, 0x0, 0xFFFFFFFF, 0x0, 0x0, 0x0, 0x0⟩,
  ⟨0x0628, "CK_AONL", .aonKept, 0x0, 0x0, 0xFFFFFFFF, 0x0, 0x0, 0x0, 0x0⟩,
  ⟨0x062C, "CK_AONH", .aonKept, 0x0, 0x0, 0xFFFF, 0x0, 0x0, 0x0, 0x0⟩]

/-- Registers of the block at 0x0800. -/
def regs0800 : List RegRow := [
  ⟨0x0800, "CA_CFG", .core, 0x10F0, 0x1000, 0x0, 0x0, 0xCF0, 0x0, 0x0⟩,
  ⟨0x0804, "CA_STATUS", .core, 0x0, 0x0, 0xF1, 0x0, 0x0, 0x0, 0x0⟩,
  ⟨0x0808, "CA_PAR_MODE", .core, 0x3, 0x3, 0x0, 0x0, 0x0, 0x0, 0x0⟩,
  ⟨0x080C, "CA_PCNT", .core, 0x0, 0xFFFF, 0x0, 0x0, 0x0, 0x0, 0x0⟩,
  ⟨0x0810, "CA_PLOG0", .core, 0x0, 0x0, 0x7FFFFFFF, 0x80000000, 0x0, 0x0, 0x0⟩,
  ⟨0x0814, "CA_PLOG1", .core, 0x0, 0x0, 0xF, 0x0, 0x0, 0x0, 0x0⟩,
  ⟨0x0818, "CA_ILL", .core, 0x0, 0x0, 0xF00FFFF, 0x80000000, 0x0, 0x0, 0x0⟩,
  ⟨0x081C, "CA_CLR", .core, 0x0, 0x0, 0x0, 0x0, 0x0, 0x7, 0x0⟩,
  ⟨0x0820, "CA_APER", .core, 0x0, 0x0, 0x0, 0x0, 0xB731FFFF, 0x0, 0x0⟩,
  ⟨0x0824, "CA_APSTAT", .core, 0x0, 0x0, 0xC001FFFF, 0x0, 0x0, 0x0, 0x0⟩,
  ⟨0x0828, "CA_RSV", .core, 0x7300000, 0x0, 0x0, 0x0, 0x731FFFF, 0x0, 0x0⟩,
  ⟨0x082C, "CA_RSVHIT", .core, 0x0, 0x0, 0xFFFFF001, 0x0, 0x0, 0x0, 0x0⟩,
  ⟨0x0830, "CA_GAP", .core, 0x0, 0xC03F03FF, 0x0, 0x0, 0x0, 0x0, 0x0⟩,
  ⟨0x0834, "CA_GRANT", .core, 0x0, 0x0, 0x800F0007, 0x0, 0x0, 0x0, 0x0⟩,
  ⟨0x0838, "CA_ALERT", .core, 0x0, 0x7000000, 0xFFFFFF, 0x0, 0x0, 0x0, 0x0⟩,
  ⟨0x0840, "CA_TRIM_SEL", .core, 0x0, 0x3F, 0x0, 0x0, 0x0, 0x0, 0x0⟩,
  ⟨0x0844, "CA_TRIM", .core, 0x0, 0x0, 0x0, 0x0, 0x7F1F1F, 0x0, 0x0⟩]

/-- Registers of the block at 0x1000. -/
def regs1000 : List RegRow := [
  ⟨0x1000, "HL_CTRL", .core, 0x0, 0x1, 0x0, 0x0, 0x0, 0x0, 0x0⟩,
  ⟨0x1004, "HL_VREF", .core, 0x80, 0x0, 0x0, 0x0, 0xFF, 0x0, 0x0⟩,
  ⟨0x1008, "HL_DQS", .core, 0x1000100, 0x0, 0x0, 0x0, 0x1FF01FF, 0x0, 0x0⟩,
  ⟨0x100C, "HL_DRV", .core, 0x19001010, 0x0, 0x0, 0x0, 0x3BBF1F1F, 0x0, 0x0⟩,
  ⟨0x1010, "HL_SEL", .core, 0x0, 0x7, 0x0, 0x0, 0x0, 0x0, 0x0⟩,
  ⟨0x1014, "HL_BIT", .core, 0x80, 0x0, 0x0, 0x0, 0x3FFF, 0x0, 0x0⟩,
  ⟨0x1018, "HL_CRCCNT", .core, 0x0, 0xFFFF, 0x0, 0x0, 0x0, 0x0, 0x0⟩]

/-- Registers of the block at 0x1400. -/
def regs1400 : List RegRow := [
  ⟨0x1500, "HL_CFG", .core, 0x1, 0x1, 0x0, 0x0, 0x0, 0x0, 0x0⟩,
  ⟨0x1504, "HL_SNOOP", .core, 0x0, 0x0, 0xFFF0007F, 0x0, 0x0, 0x0, 0x0⟩,
  ⟨0x1508, "HL_CRCLOG", .core, 0x0, 0x0, 0xF33F, 0x80000000, 0x0, 0x0, 0x0⟩]

/-- Registers of the block at 0x1800. -/
def regs1800 : List RegRow := [
  ⟨0x1800, "DL_CTRL", .core, 0x0, 0x1, 0x0, 0x0, 0x0, 0x0, 0x0⟩,
  ⟨0x1804, "DL_SEL", .core, 0x0, 0x37, 0x0, 0x0, 0x0, 0x0, 0x0⟩,
  ⟨0x1808, "DL_VREF", .core, 0x80, 0x0, 0x0, 0x0, 0xFF, 0x0, 0x0⟩,
  ⟨0x180C, "DL_DQS", .core, 0x1000100, 0x0, 0x0, 0x0, 0x1FF01FF, 0x0, 0x0⟩,
  ⟨0x1810, "DL_DRV", .core, 0x1001010, 0x0, 0x0, 0x0, 0x3BF1F1F, 0x0, 0x0⟩,
  ⟨0x1814, "DL_BIT", .core, 0x800080, 0x0, 0x0, 0x0, 0xFF3FFF, 0x0, 0x0⟩]

/-- Registers of the block at 0x1C00. -/
def regs1C00 : List RegRow := [
  ⟨0x1E00, "DL_ALERT", .core, 0x0, 0xFFFF, 0xF0000, 0x0, 0x0, 0x0, 0x0⟩]

/-- Registers of the block at 0x2000. -/
def regs2000 : List RegRow := [
  ⟨0x2000, "LG_CTRL", .core, 0x9, 0xF, 0x0, 0x0, 0x0, 0x0, 0x0⟩,
  ⟨0x2004, "LG_MAP", .core, 0x543210, 0x0, 0x0, 0x0, 0x777777, 0x0, 0x0⟩,
  ⟨0x2008, "LG_STATUS", .core, 0x4, 0x0, 0x5F, 0x0, 0x0, 0x0, 0x0⟩,
  ⟨0x200C, "LG_MAPF", .core, 0x543210, 0x0, 0xFFFFFFFF, 0x0, 0x0, 0x0, 0x0⟩,
  ⟨0x2010, "LG_RANK0", .core, 0x0, 0x0, 0xE7000000, 0x0, 0x0, 0x0, 0x0⟩,
  ⟨0x2014, "LG_RANK1", .core, 0x0, 0x0, 0xE7000000, 0x0, 0x0, 0x0, 0x0⟩,
  ⟨0x2018, "LG_RANK2", .core, 0x0, 0x0, 0xE7000000, 0x0, 0x0, 0x0, 0x0⟩,
  ⟨0x201C, "LG_RANK3", .core, 0x0, 0x0, 0xE7000000, 0x0, 0x0, 0x0, 0x0⟩,
  ⟨0x2020, "LG_POLICY", .core, 0xE10104B, 0xFFFFFFFF, 0x0, 0x0, 0x0, 0x0, 0x0⟩,
  ⟨0x2040, "LG_CCNT", .core, 0x0, 0xFFFF, 0x0, 0x0, 0x0, 0x0, 0x0⟩,
  ⟨0x2044, "LG_CCNT", .core, 0x0, 0xFFFF, 0x0, 0x0, 0x0, 0x0, 0x0⟩,
  ⟨0x2048, "LG_CCNT", .core, 0x0, 0xFFFF, 0x0, 0x0, 0x0, 0x0, 0x0⟩,
  ⟨0x204C, "LG_CCNT", .core, 0x0, 0xFFFF, 0x0, 0x0, 0x0, 0x0, 0x0⟩,
  ⟨0x2050, "LG_CCNT", .core, 0x0, 0xFFFF, 0x0, 0x0, 0x0, 0x0, 0x0⟩,
  ⟨0x2054, "LG_CCNT", .core, 0x0, 0xFFFF, 0x0, 0x0, 0x0, 0x0, 0x0⟩,
  ⟨0x2058, "LG_CCNT", .core, 0x0, 0xFFFF, 0x0, 0x0, 0x0, 0x0, 0x0⟩,
  ⟨0x205C, "LG_CCNT", .core, 0x0, 0xFFFF, 0x0, 0x0, 0x0, 0x0, 0x0⟩,
  ⟨0x2060, "LG_CCNT", .core, 0x0, 0xFFFF, 0x0, 0x0, 0x0, 0x0, 0x0⟩,
  ⟨0x2064, "LG_CCNT", .core, 0x0, 0xFFFF, 0x0, 0x0, 0x0, 0x0, 0x0⟩,
  ⟨0x2068, "LG_CCNT", .core, 0x0, 0xFFFF, 0x0, 0x0, 0x0, 0x0, 0x0⟩,
  ⟨0x206C, "LG_CCNT", .core, 0x0, 0xFFFF, 0x0, 0x0, 0x0, 0x0, 0x0⟩,
  ⟨0x2070, "LG_CCNT", .core, 0x0, 0xFFFF, 0x0, 0x0, 0x0, 0x0, 0x0⟩,
  ⟨0x2074, "LG_CCNT", .core, 0x0, 0xFFFF, 0x0, 0x0, 0x0, 0x0, 0x0⟩,
  ⟨0x2078, "LG_CCNT", .core, 0x0, 0xFFFF, 0x0, 0x0, 0x0, 0x0, 0x0⟩,
  ⟨0x207C, "LG_CCNT", .core, 0x0, 0xFFFF, 0x0, 0x0, 0x0, 0x0, 0x0⟩,
  ⟨0x2080, "LG_CCNT", .core, 0x0, 0xFFFF, 0x0, 0x0, 0x0, 0x0, 0x0⟩,
  ⟨0x2084, "LG_CCNT", .core, 0x0, 0xFFFF, 0x0, 0x0, 0x0, 0x0, 0x0⟩,
  ⟨0x2088, "LG_CCNT", .core, 0x0, 0xFFFF, 0x0, 0x0, 0x0, 0x0, 0x0⟩,
  ⟨0x208C, "LG_CCNT", .core, 0x0, 0xFFFF, 0x0, 0x0, 0x0, 0x0, 0x0⟩,
  ⟨0x2090, "LG_CCNT", .core, 0x0, 0xFFFF, 0x0, 0x0, 0x0, 0x0, 0x0⟩,
  ⟨0x2094, "LG_CCNT", .core, 0x0, 0xFFFF, 0x0, 0x0, 0x0, 0x0, 0x0⟩,
  ⟨0x2098, "LG_CCNT", .core, 0x0, 0xFFFF, 0x0, 0x0, 0x0, 0x0, 0x0⟩,
  ⟨0x209C, "LG_CCNT", .core, 0x0, 0xFFFF, 0x0, 0x0, 0x0, 0x0, 0x0⟩,
  ⟨0x20A0, "LG_UCNT", .core, 0x0, 0xFFFF, 0x0, 0x0, 0x0, 0x0, 0x0⟩,
  ⟨0x20A4, "LG_UCNT", .core, 0x0, 0xFFFF, 0x0, 0x0, 0x0, 0x0, 0x0⟩,
  ⟨0x20A8, "LG_UCNT", .core, 0x0, 0xFFFF, 0x0, 0x0, 0x0, 0x0, 0x0⟩,
  ⟨0x20AC, "LG_UCNT", .core, 0x0, 0xFFFF, 0x0, 0x0, 0x0, 0x0, 0x0⟩,
  ⟨0x20B0, "LG_RFAIL", .core, 0x0, 0xFFFF, 0x0, 0x0, 0x0, 0x0, 0x0⟩,
  ⟨0x20B4, "LG_RFAIL", .core, 0x0, 0xFFFF, 0x0, 0x0, 0x0, 0x0, 0x0⟩,
  ⟨0x20B8, "LG_RFAIL", .core, 0x0, 0xFFFF, 0x0, 0x0, 0x0, 0x0, 0x0⟩,
  ⟨0x20BC, "LG_RFAIL", .core, 0x0, 0xFFFF, 0x0, 0x0, 0x0, 0x0, 0x0⟩,
  ⟨0x20C0, "LG_WCNT", .core, 0x0, 0xFFFF, 0x0, 0x0, 0x0, 0x0, 0x0⟩,
  ⟨0x2100, "LG_HCTC", .core, 0x80, 0xFF, 0xFF000000, 0x0, 0x0, 0x300, 0x0⟩,
  ⟨0x2104, "LG_HCTA", .core, 0x0, 0xFFF, 0x0, 0x0, 0x0, 0x0, 0x0⟩,
  ⟨0x2108, "LG_HCTD", .core, 0x0, 0xFFFFFFFF, 0x0, 0x0, 0x0, 0x0, 0x0⟩,
  ⟨0x210C, "LG_HCTCRC", .core, 0x0, 0x0, 0xFFFFFFFF, 0x0, 0x0, 0x0, 0x0⟩]

/-- Registers of the block at 0x2400. -/
def regs2400 : List RegRow := [
  ⟨0x2400, "CB_CTRL", .core, 0x3F, 0x3F, 0x0, 0x0, 0x0, 0x0, 0x0⟩,
  ⟨0x2404, "CB_LIMITS", .core, 0x828140C, 0xFFFFFFFF, 0x0, 0x0, 0x0, 0x0, 0x0⟩,
  ⟨0x2408, "CB_REPEAT", .core, 0xA32, 0xFFF, 0x0, 0x0, 0x0, 0x0, 0x0⟩,
  ⟨0x240C, "CB_STORE", .core, 0x2020E10, 0xF0FFFFF, 0x0, 0x0, 0x0, 0x80000000, 0x0⟩,
  ⟨0x2410, "CB_PERIOD", .core, 0xA0064, 0xFFFFFF, 0x0, 0x0, 0x0, 0x0, 0x0⟩,
  ⟨0x2414, "CB_STATUS", .core, 0x0, 0x0, 0x3F, 0x0, 0x0, 0x0, 0x0⟩,
  ⟨0x2418, "CB_SEQ", .core, 0x0, 0x0, 0xFFFFFFFF, 0x0, 0x0, 0x0, 0x0⟩,
  ⟨0x2420, "CB_QSEL", .core, 0x0, 0x13707, 0x0, 0x0, 0x0, 0x0, 0x0⟩,
  ⟨0x2424, "CB_Q", .core, 0x0, 0x0, 0x8003FFFF, 0x0, 0x0, 0x0, 0x0⟩,
  ⟨0x2428, "CB_CNT", .core, 0x0, 0xFFFFFFFF, 0x0, 0x0, 0x0, 0x0, 0x0⟩,
  ⟨0x242C, "CB_RLOG", .core, 0x0, 0x0, 0xF013707, 0x80000000, 0x0, 0x0, 0x0⟩,
  ⟨0x2430, "CB_HPOL", .core, 0xA0051, 0xFFFF00F1, 0x0, 0x0, 0x0, 0x0, 0x0⟩,
  ⟨0x2434, "CB_HSTAT", .core, 0x0, 0x0, 0x71F1F1F, 0x0, 0x0, 0x0, 0x0⟩,
  ⟨0x2438, "CB_CAV", .core, 0x80, 0x0, 0x0, 0x0, 0xFF, 0x0, 0x0⟩,
  ⟨0x243C, "CB_CAQ", .core, 0x0, 0x0, 0xDF03FFFF, 0x0, 0x0, 0x0, 0x0⟩,
  ⟨0x2440, "CB_HABN", .core, 0x0, 0xFFFF, 0x0, 0x0, 0x0, 0x0, 0x0⟩,
  ⟨0x2450, "CB_DPOL", .core, 0x64140A08, 0xFFFFFF0F, 0x0, 0x0, 0x0, 0x0, 0x0⟩,
  ⟨0x2454, "CB_DQCK", .core, 0x460000, 0xFF0000, 0xF0F, 0x0, 0x0, 0x0, 0x0⟩,
  ⟨0x2458, "CB_DSTAT", .core, 0x0, 0x0, 0xF7F0FF00, 0xF0000, 0x0, 0x0, 0x0⟩,
  ⟨0x245C, "CB_DLQ", .core, 0x0, 0x0, 0xC0FF00FF, 0x0, 0x0, 0x0, 0x0⟩,
  ⟨0x2460, "CB_DSWP", .core, 0x0, 0xFFFFFFFF, 0x0, 0x0, 0x0, 0x0, 0x0⟩,
  ⟨0x2464, "CB_DABN", .core, 0x0, 0xFFFF, 0x0, 0x0, 0x0, 0x0, 0x0⟩,
  ⟨0x2468, "CB_DGAP", .core, 0x0, 0xFFFFFFFF, 0x0, 0x0, 0x0, 0x0, 0x0⟩]

/-- Registers of the block at 0x2800. -/
def regs2800 : List RegRow := [
  ⟨0x2800, "LD_CFG", .core, 0xD, 0xE, 0x0, 0x0, 0x1, 0x0, 0x0⟩,
  ⟨0x2804, "LD_STATUS", .core, 0x0, 0x0, 0x7F00003F, 0x0, 0x0, 0x0, 0x0⟩,
  ⟨0x2808, "LD_RETAIN", .core, 0x100064, 0xFFFFFF, 0x0, 0x0, 0x0, 0x0, 0x0⟩,
  ⟨0x280C, "LD_RCHK", .core, 0x0, 0x0, 0xFFFFFFFF, 0x0, 0x0, 0x0, 0x0⟩,
  ⟨0x2810, "LD_RSTAT", .core, 0x0, 0x0, 0x8003FFFF, 0x0, 0x0, 0x0, 0x0⟩,
  ⟨0x2814, "LD_COLL", .core, 0x0, 0xFFFFFFFF, 0x0, 0x0, 0x0, 0x0, 0x0⟩,
  ⟨0x2818, "LD_HOLD", .core, 0x0, 0xFFFFFFFF, 0x0, 0x0, 0x0, 0x0, 0x0⟩,
  ⟨0x281C, "LD_ECC", .core, 0x0, 0xFFFFFFFF, 0x0, 0x0, 0x0, 0x0, 0x0⟩,
  ⟨0x2820, "LD_ELOG0", .core, 0x0, 0x0, 0x7FFFFFFF, 0x80000000, 0x0, 0x0, 0x0⟩,
  ⟨0x2824, "LD_ELOG1", .core, 0x0, 0x0, 0xFFFFFFFF, 0x0, 0x0, 0x0, 0x0⟩,
  ⟨0x2828, "LD_DIRTY", .core, 0x7C007C00, 0x0, 0xFFFFFFFF, 0x0, 0x0, 0x0, 0x0⟩,
  ⟨0x282C, "LD_HRD", .core, 0x0, 0xFFFF, 0x0, 0x0, 0x0, 0x0, 0x0⟩,
  ⟨0x2830, "LD_EA", .core, 0x0, 0xF7FFF, 0x0, 0x0, 0x0, 0x0, 0x0⟩,
  ⟨0x2834, "LD_ED0", .core, 0x0, 0xFFFFFFFF, 0x0, 0x0, 0x0, 0x0, 0x0⟩,
  ⟨0x2838, "LD_ED1", .core, 0x0, 0xFFFFFFFF, 0x0, 0x0, 0x0, 0x0, 0x0⟩,
  ⟨0x283C, "LD_ECMD", .core, 0x0, 0x0, 0xFC000000, 0x0, 0x0, 0x3, 0x0⟩,
  ⟨0x2840, "LD_OPCFG", .core, 0x3, 0x3, 0x0, 0x0, 0x0, 0x0, 0x0⟩,
  ⟨0x2844, "LD_OPSTAT", .core, 0x6, 0x0, 0x7, 0x0, 0x0, 0x0, 0x0⟩,
  ⟨0x2848, "LD_OPSEQ", .core, 0x0, 0x0, 0xFFFFFFFF, 0x0, 0x0, 0x0, 0x0⟩,
  ⟨0x284C, "LD_OPCNT", .core, 0x0, 0xFFFFFFFF, 0x0, 0x0, 0x0, 0x0, 0x0⟩,
  ⟨0x2850, "LD_OPREP", .core, 0x0, 0xFFFFFFFF, 0x0, 0x0, 0x0, 0x0, 0x0⟩,
  ⟨0x2854, "LD_OPLOG", .core, 0x0, 0x0, 0x3FFFFFF, 0x80000000, 0x0, 0x0, 0x0⟩]

/-- Registers of the block at 0x2C00. -/
def regs2C00 : List RegRow := [
  ⟨0x2C00, "GN_LC", .fused, 0x0, 0x0, 0xF07, 0x0, 0x0, 0x0, 0x0⟩,
  ⟨0x2C04, "GN_STATUS", .aonBoth, 0x0, 0x0, 0xFFF, 0x0, 0x0, 0x0, 0x0⟩,
  ⟨0x2C08, "GN_CFG", .mgt, 0x0, 0x0, 0x0, 0x0, 0x0, 0x0, 0x7⟩,
  ⟨0x2C0C, "GN_CTRL", .mgt, 0x0, 0x0, 0x0, 0x0, 0x0, 0x1, 0x0⟩,
  ⟨0x2C10, "GN_KEYGEN", .mgt, 0x0, 0x0, 0xFFFFFFFF, 0x0, 0x0, 0x0, 0x0⟩,
  ⟨0x2C14, "GN_AUTHCNT", .mgt, 0x0, 0xFFFF0000, 0xFFFF, 0x0, 0x0, 0x0, 0x0⟩,
  ⟨0x2C18, "GN_KCV", .mgt, 0x0, 0x0, 0xFFFFFFFF, 0x0, 0x0, 0x0, 0x0⟩,
  ⟨0x2C1C, "GN_TAMPT", .fused, 0x0, 0x0, 0xFFFFFFFF, 0x0, 0x0, 0x0, 0x0⟩]

/-- Registers of the block at 0x3000. -/
def regs3000 : List RegRow := [
  ⟨0x3000, "KP_STATUS", .mgt, 0xC0, 0x0, 0x1FF, 0x0, 0x0, 0x0, 0x0⟩,
  ⟨0x3004, "KP_CTRL", .mgt, 0x4, 0x4, 0x0, 0x0, 0x0, 0x3, 0x0⟩,
  ⟨0x3008, "KP_WSEL", .mgt, 0x0, 0xF, 0x0, 0x0, 0x0, 0x0, 0x0⟩,
  ⟨0x300C, "KP_WEAR", .mgt, 0x0, 0x0, 0xFFFFFFFF, 0x0, 0x0, 0x0, 0x0⟩,
  ⟨0x3010, "KP_WCFG", .mgt, 0xDBBA0, 0xFFFFF, 0x0, 0x0, 0x0, 0x0, 0x0⟩,
  ⟨0x3014, "KP_RETAIN", .mgt, 0x1F40000, 0xFFFF0000, 0xFFFF, 0x0, 0x0, 0x0, 0x0⟩,
  ⟨0x3018, "KP_ECC", .mgt, 0x0, 0xFFFFFFFF, 0x0, 0x0, 0x0, 0x0, 0x0⟩,
  ⟨0x301C, "KP_ELOG0", .mgt, 0x0, 0x0, 0x4F0FFFFF, 0x80000000, 0x0, 0x0, 0x0⟩,
  ⟨0x3020, "KP_ELOG1", .mgt, 0x0, 0x0, 0xFFFFFFFF, 0x0, 0x0, 0x0, 0x0⟩,
  ⟨0x3024, "KP_CKPT", .mgt, 0x0, 0x0, 0x80007FFF, 0x0, 0x0, 0x0, 0x0⟩,
  ⟨0x3028, "KP_CKTIME", .mgt, 0x0, 0x0, 0xFFFFFFFF, 0x0, 0x0, 0x0, 0x0⟩,
  ⟨0x302C, "KP_PSEQ", .mgt, 0x0, 0x0, 0xFFFFFFFF, 0x0, 0x0, 0x0, 0x0⟩,
  ⟨0x3030, "KP_CRCFAIL", .mgt, 0x0, 0xFFFF, 0x0, 0x0, 0x0, 0x0, 0x0⟩]

/-- Registers of the block at 0x3400. -/
def regs3400 : List RegRow := [
  ⟨0x3400, "PS_CTRL", .aonKept, 0x1, 0x1, 0x0, 0x0, 0x0, 0x2, 0x0⟩,
  ⟨0x3404, "PS_TDSC", .aonKept, 0x50, 0x1FFF, 0x0, 0x0, 0x0, 0x0, 0x0⟩,
  ⟨0x3408, "PS_TQUIESCE", .aonKept, 0xA, 0x7F, 0x0, 0x0, 0x0, 0x0, 0x0⟩,
  ⟨0x340C, "PS_STATUS", .aonKept, 0x0, 0x0, 0xFFFFF00F, 0x0, 0x0, 0x0, 0x0⟩,
  ⟨0x3410, "PS_IN", .aonKept, 0x0, 0x0, 0x1FFF000F, 0x0, 0x0, 0x0, 0x0⟩,
  ⟨0x3414, "PS_DISC", .aonKept, 0x0, 0xFFFF, 0xDFFF0000, 0x0, 0x0, 0x0, 0x0⟩,
  ⟨0x3418, "PS_SEALNO", .aonKept, 0x0, 0x0, 0xFFFFFFFF, 0x0, 0x0, 0x0, 0x0⟩,
  ⟨0x341C, "PS_NONCEL", .aonKept, 0x0, 0x0, 0xFFFFFFFF, 0x0, 0x0, 0x0, 0x0⟩,
  ⟨0x3420, "PS_NONCEH", .aonKept, 0x0, 0x0, 0xFFFFFFFF, 0x0, 0x0, 0x0, 0x0⟩,
  ⟨0x3424, "PS_TS4", .aonKept, 0x0, 0x0, 0xFFFFFF, 0x0, 0x0, 0x0, 0x0⟩,
  ⟨0x3428, "PS_TS5", .aonKept, 0x0, 0x0, 0xFFFFFF, 0x0, 0x0, 0x0, 0x0⟩,
  ⟨0x342C, "PS_TS6", .aonKept, 0x0, 0x0, 0xFFFFFF, 0x0, 0x0, 0x0, 0x0⟩,
  ⟨0x3430, "PS_TS7", .aonKept, 0x0, 0x0, 0xFFFFFF, 0x0, 0x0, 0x0, 0x0⟩,
  ⟨0x3434, "PS_LINES", .aonKept, 0x0, 0x0, 0xFFFF, 0x0, 0x0, 0x0, 0x0⟩,
  ⟨0x3440, "PS_RCFG", .aonKept, 0x400, 0xFF01, 0x0, 0x0, 0x0, 0x0, 0x0⟩,
  ⟨0x3444, "PS_RSTAT", .aonKept, 0x0, 0x0, 0xFFFFFEC0, 0x0, 0x0, 0x0, 0x0⟩,
  ⟨0x3448, "PS_RREASON", .aonKept, 0x0, 0x0, 0xFFFF, 0x0, 0x0, 0x0, 0x0⟩,
  ⟨0x344C, "PS_RMISS", .aonKept, 0x0, 0x0, 0xFFFFFFFF, 0x0, 0x0, 0x0, 0x0⟩,
  ⟨0x3450, "PS_RTIME", .aonKept, 0x0, 0x0, 0xFFFFFF, 0x0, 0x0, 0x0, 0x0⟩,
  ⟨0x3454, "PS_HOLDT", .aonKept, 0x0, 0x0, 0xFFFFFFFF, 0x0, 0x0, 0x0, 0x0⟩,
  ⟨0x3458, "PS_DORMT", .aonKept, 0x0, 0x0, 0xFFFFFFFF, 0x0, 0x0, 0x0, 0x0⟩]

/-- Registers of the block at 0x3800. -/
def regs3800 : List RegRow := [
  ⟨0x3800, "TW_CFG", .mgt, 0x51403, 0xFFFFFF03, 0x0, 0x0, 0x0, 0x0, 0x0⟩,
  ⟨0x3804, "TW_CTRL", .mgt, 0x0, 0x0, 0x0, 0x0, 0x0, 0x7, 0x0⟩,
  ⟨0x3808, "TW_STATUS", .mgt, 0x0, 0x0, 0x1FFF, 0x0, 0x0, 0x0, 0x0⟩,
  ⟨0x380C, "TW_TSTATE", .mgt, 0x0, 0x0, 0xFFFFFF, 0x0, 0x0, 0x0, 0x0⟩,
  ⟨0x3810, "TW_TREST", .mgt, 0x0, 0x0, 0x77FF, 0x0, 0x0, 0x0, 0x0⟩,
  ⟨0x3814, "TW_TVER", .mgt, 0x0, 0x0, 0xFFFFFF, 0x0, 0x0, 0x0, 0x0⟩,
  ⟨0x3818, "TW_TGEN", .mgt, 0x0, 0x0, 0xFFFFFFFF, 0x0, 0x0, 0x0, 0x0⟩,
  ⟨0x381C, "TW_THB", .mgt, 0x0, 0x0, 0xFFFFFFFF, 0x0, 0x0, 0x0, 0x0⟩,
  ⟨0x3820, "TW_OFFL", .mgt, 0x0, 0x0, 0xFFFFFFFF, 0x0, 0x0, 0x0, 0x0⟩,
  ⟨0x3824, "TW_OFFH", .mgt, 0x0, 0x0, 0xFFFF, 0x0, 0x0, 0x0, 0x0⟩,
  ⟨0x3828, "TW_DRIFT", .mgt, 0x0, 0x0, 0xFFFF, 0x0, 0x0, 0x0, 0x0⟩,
  ⟨0x382C, "TW_LAG", .mgt, 0x0, 0x1FF0000, 0x1FF, 0x0, 0x0, 0x0, 0x0⟩,
  ⟨0x3830, "TW_STALE", .mgt, 0x0, 0x0, 0xFFFFFFFF, 0x0, 0x0, 0x0, 0x0⟩,
  ⟨0x3834, "TW_CNT", .mgt, 0x0, 0xFFFFFFFF, 0x0, 0x0, 0x0, 0x0, 0x0⟩,
  ⟨0x3838, "TW_DOWN", .mgt, 0x0, 0xFFFFFFFF, 0x0, 0x0, 0x0, 0x0, 0x0⟩,
  ⟨0x383C, "TW_DROP", .mgt, 0x0, 0xFFFF, 0x0, 0x0, 0x0, 0x0, 0x0⟩]

/-- Registers of the block at 0x3C00. -/
def regs3C00 : List RegRow := [
  ⟨0x3C00, "FC_CFG", .mgt, 0x303E8, 0xFFFFF, 0x0, 0x0, 0x0, 0x0, 0x0⟩,
  ⟨0x3C04, "FC_STATUS", .aonKept, 0x0, 0x0, 0xFFF, 0x0, 0x0, 0x0, 0x0⟩,
  ⟨0x3C08, "FC_FIRST", .aonKept, 0x0, 0x0, 0x7FFFFF3F, 0x80000000, 0x0, 0x0, 0x0⟩,
  ⟨0x3C0C, "FC_FTIMEL", .aonKept, 0x0, 0x0, 0xFFFFFFFF, 0x0, 0x0, 0x0, 0x0⟩,
  ⟨0x3C10, "FC_FTIMEH", .aonKept, 0x0, 0x0, 0xFFFF, 0x0, 0x0, 0x0, 0x0⟩,
  ⟨0x3C14, "FC_FSYNL", .aonKept, 0x0, 0x0, 0xFFFFFFFF, 0x0, 0x0, 0x0, 0x0⟩,
  ⟨0x3C18, "FC_FSYNH", .aonKept, 0x0, 0x0, 0xFFFFFFFF, 0x0, 0x0, 0x0, 0x0⟩,
  ⟨0x3C1C, "FC_MERGE0", .aonKept, 0x0, 0x0, 0xFFFFFFFF, 0x0, 0x0, 0x0, 0x0⟩,
  ⟨0x3C20, "FC_MERGE1", .aonKept, 0x0, 0x0, 0xFFFFFFFF, 0x0, 0x0, 0x0, 0x0⟩,
  ⟨0x3C24, "FC_OVF", .aonKept, 0x0, 0x0, 0x8000FFFF, 0x0, 0x0, 0x0, 0x0⟩,
  ⟨0x3C28, "FC_STICKY0", .aonKept, 0x0, 0x0, 0x0, 0xFFFFFFFF, 0x0, 0x0, 0x0⟩,
  ⟨0x3C2C, "FC_STICKY1", .aonKept, 0x0, 0x0, 0x0, 0xFFFFFFFF, 0x0, 0x0, 0x0⟩,
  ⟨0x3C30, "FC_LIVE0", .aonKept, 0x0, 0x0, 0xFFFFFFFF, 0x0, 0x0, 0x0, 0x0⟩,
  ⟨0x3C34, "FC_LIVE1", .aonKept, 0x0, 0x0, 0xFFFFFFFF, 0x0, 0x0, 0x0, 0x0⟩,
  ⟨0x3C38, "FC_PIN0", .aonKept, 0x0, 0x0, 0xFFFFFFFF, 0x0, 0x0, 0x0, 0x0⟩,
  ⟨0x3C3C, "FC_PIN1", .aonKept, 0x0, 0x0, 0xFFFFFFFF, 0x0, 0x0, 0x0, 0x0⟩,
  ⟨0x3C40, "FC_CTRL", .mgt, 0x0, 0x0, 0x0, 0x0, 0x0, 0x3, 0x0⟩,
  ⟨0x3C44, "FC_SEL", .mgt, 0x0, 0x3F, 0x0, 0x0, 0x0, 0x0, 0x0⟩,
  ⟨0x3C48, "FC_SRC", .mgt, 0x0, 0xFF3FFF, 0x0, 0x0, 0x0, 0x0, 0x0⟩,
  ⟨0x3C4C, "FC_WIN", .mgt, 0x0, 0x3FFFFF, 0x0, 0x0, 0x0, 0x0, 0x0⟩,
  ⟨0x3C50, "FC_SCNT", .mgt, 0x0, 0xFFFFFF00, 0xFF, 0x0, 0x0, 0x0, 0x0⟩,
  ⟨0x3C54, "FC_FORCE0", .mgt, 0x0, 0x0, 0x0, 0x0, 0x0, 0xFFFFFFFF, 0x0⟩,
  ⟨0x3C58, "FC_FORCE1", .mgt, 0x0, 0x0, 0x0, 0x0, 0x0, 0xFFFFFFFF, 0x0⟩,
  ⟨0x3C5C, "FC_FSYNFL", .mgt, 0x0, 0xFFFFFFFF, 0x0, 0x0, 0x0, 0x0, 0x0⟩,
  ⟨0x3C60, "FC_FSYNFH", .mgt, 0x0, 0xFFFFFFFF, 0x0, 0x0, 0x0, 0x0, 0x0⟩,
  ⟨0x3C64, "FC_INJ", .mgt, 0xFF0000, 0xF0FFFFFF, 0x0, 0x0, 0x0, 0x0, 0x0⟩,
  ⟨0x3C68, "FC_HIST", .mgt, 0x3E8, 0xFFFFFFFF, 0x0, 0x0, 0x0, 0x0, 0x0⟩]

/-- Registers of the block at 0x4000. -/
def regs4000 : List RegRow := [
  ⟨0x4000, "CN_CFG", .mgt, 0x1001E, 0x1FFFF, 0x0, 0x0, 0x0, 0x0, 0x0⟩,
  ⟨0x4004, "CN_UART", .mgt, 0x4800480, 0xFFFF, 0xFFFF0000, 0x0, 0x0, 0x0, 0x0⟩,
  ⟨0x4008, "CN_I3C", .mgt, 0x1000000, 0x0, 0x3FF037F, 0x0, 0x0, 0x0, 0x0⟩,
  ⟨0x400C, "CN_SESS", .mgt, 0x0, 0x0, 0xFFF0F, 0x0, 0x0, 0x0, 0x0⟩,
  ⟨0x4010, "CN_STAT0", .mgt, 0x0, 0xFFFFFFFF, 0x0, 0x0, 0x0, 0x0, 0x0⟩,
  ⟨0x4014, "CN_STAT1", .mgt, 0x0, 0xFFFFFFFF, 0x0, 0x0, 0x0, 0x0, 0x0⟩,
  ⟨0x4018, "CN_STAT2", .mgt, 0x0, 0xFFFFFFFF, 0x0, 0x0, 0x0, 0x0, 0x0⟩]

/-- Registers of the block at 0x4400. -/
def regs4400 : List RegRow := [
  ⟨0x4400, "SN_CTRL", .mgt, 0xA, 0xFFFF, 0x0, 0x0, 0x0, 0x0, 0x0⟩,
  ⟨0x4404, "SN_TEMP0", .mgt, 0x0, 0x0, 0xE000FFFF, 0x0, 0x0, 0x0, 0x0⟩,
  ⟨0x4408, "SN_TEMP1", .mgt, 0x0, 0x0, 0xE000FFFF, 0x0, 0x0, 0x0, 0x0⟩,
  ⟨0x440C, "SN_TEMP2", .mgt, 0x0, 0x0, 0xE000FFFF, 0x0, 0x0, 0x0, 0x0⟩,
  ⟨0x4410, "SN_TEMP3", .mgt, 0x0, 0x0, 0xE000FFFF, 0x0, 0x0, 0x0, 0x0⟩,
  ⟨0x4414, "SN_HOT", .mgt, 0x0, 0x0, 0xB000FFFF, 0x0, 0x0, 0x0, 0x0⟩,
  ⟨0x4418, "SN_MAX", .mgt, 0x0, 0x0, 0xB000FFFF, 0x0, 0x0, 0x0, 0x0⟩,
  ⟨0x441C, "SN_THR", .mgt, 0x56E64, 0xFFFFFF, 0x0, 0x0, 0x0, 0x0, 0x0⟩,
  ⟨0x4420, "SN_STATUS", .mgt, 0x0, 0x0, 0x3F, 0x0, 0x0, 0x0, 0x0⟩,
  ⟨0x4424, "SN_PEAK", .mgt, 0xFF10, 0xFFFF, 0x0, 0x0, 0x0, 0x0, 0x0⟩]

/-- Registers of the block at 0x4800. -/
def regs4800 : List RegRow := [
  ⟨0x4800, "TR_CTRL", .core, 0x0, 0xFFFC0001, 0x0, 0x0, 0x0, 0x2, 0x0⟩,
  ⟨0x4804, "TR_STATUS", .core, 0x0, 0x0, 0xC00007FF, 0x0, 0x0, 0x0, 0x0⟩,
  ⟨0x4808, "TR_LOST", .core, 0x0, 0xFFFFFFFF, 0x0, 0x0, 0x0, 0x0, 0x0⟩,
  ⟨0x480C, "TR_FIFO", .aonKept, 0x0, 0x0, 0x7F, 0x0, 0x0, 0x0, 0x0⟩,
  ⟨0x4810, "TR_SPILL", .core, 0x0, 0x0, 0x9F0007FF, 0x0, 0x0, 0x0, 0x0⟩,
  ⟨0x4814, "TR_IDX", .core, 0x0, 0x3FF, 0x0, 0x0, 0x0, 0x0, 0x0⟩,
  ⟨0x4818, "TR_E0", .core, 0x0, 0x0, 0xFFFFFFFF, 0x0, 0x0, 0x0, 0x0⟩,
  ⟨0x481C, "TR_E1", .core, 0x0, 0x0, 0xFFFFFFFF, 0x0, 0x0, 0x0, 0x0⟩,
  ⟨0x4820, "TR_E2", .core, 0x0, 0x0, 0xFFFFFFFF, 0x0, 0x0, 0x0, 0x0⟩,
  ⟨0x4824, "TR_E3", .core, 0x0, 0x0, 0xFFFFFFFF, 0x0, 0x0, 0x0, 0x0⟩]

/-- Registers of the block at 0x4C00. -/
def regs4C00 : List RegRow := [
  ⟨0x4C00, "MT_CFG", .core, 0x1, 0x3, 0x0, 0x0, 0x0, 0x0, 0x0⟩,
  ⟨0x4C04, "MT_CTRL", .core, 0x1F13F0, 0x1F33F0, 0x0, 0x0, 0x0, 0xC0000000, 0x0⟩,
  ⟨0x4C08, "MT_BANKS", .core, 0xFFFF, 0xFFFF, 0x0, 0x0, 0x0, 0x0, 0x0⟩,
  ⟨0x4C0C, "MT_STATUS", .core, 0x0, 0x0, 0xFFF3001F, 0x0, 0x0, 0x0, 0x0⟩,
  ⟨0x4C10, "MT_BFAIL", .core, 0x0, 0x0, 0xFFFF, 0x0, 0x0, 0x0, 0x0⟩,
  ⟨0x4C14, "MT_SEL", .core, 0x0, 0x1F, 0x0, 0x0, 0x0, 0x0, 0x0⟩,
  ⟨0x4C18, "MT_COL0", .core, 0x0, 0x0, 0xFFFFFFFF, 0x0, 0x0, 0x0, 0x0⟩,
  ⟨0x4C1C, "MT_COL1", .core, 0x0, 0x0, 0xFFFFFFFF, 0x0, 0x0, 0x0, 0x0⟩,
  ⟨0x4C20, "MT_COL2", .core, 0x0, 0x0, 0xFF, 0x0, 0x0, 0x0, 0x0⟩,
  ⟨0x4C24, "MT_FIRST", .core, 0x0, 0x0, 0xFE3FFFFF, 0x0, 0x0, 0x0, 0x0⟩,
  ⟨0x4C28, "MT_FCNT", .core, 0x0, 0x0, 0xFFFFFFFF, 0x0, 0x0, 0x0, 0x0⟩,
  ⟨0x4C2C, "MT_SPARE", .core, 0x0, 0x0, 0xF0FF, 0x0, 0x0, 0x0, 0x0⟩,
  ⟨0x4C30, "MT_FUSE", .core, 0x0, 0x0, 0xFFFFFFFF, 0x0, 0x0, 0x0, 0x0⟩,
  ⟨0x4C34, "MT_BURN", .core, 0x0, 0x0, 0x0, 0x0, 0x0, 0xB07F000F, 0x0⟩,
  ⟨0x4C38, "MT_TIME", .core, 0x0, 0x0, 0xFFFFFFFF, 0x0, 0x0, 0x0, 0x0⟩]

/-- A register address folded to its bank 0 and, in the lane blocks, to lane 0. -/
def regFold (a : Nat) : Nat :=
  let b := a % 0x10000
  if 0x1000 ≤ b ∧ b < 0x1500 then 0x1000 + b % 0x100
  else if 0x1800 ≤ b ∧ b < 0x1E00 then 0x1800 + b % 0x100
  else b

/-- The rows of the 0x400-byte block that holds a folded address (Table RX-1). -/
def regBlock (b : Nat) : List RegRow :=
  match b with
  | 0 => regs0000
  | 1 => regs0400
  | 2 => regs0800
  | 4 => regs1000
  | 5 => regs1400
  | 6 => regs1800
  | 7 => regs1C00
  | 8 => regs2000
  | 9 => regs2400
  | 10 => regs2800
  | 11 => regs2C00
  | 12 => regs3000
  | 13 => regs3400
  | 14 => regs3800
  | 15 => regs3C00
  | 16 => regs4000
  | 17 => regs4400
  | 18 => regs4800
  | 19 => regs4C00
  | _ => []

/-- The row of the register at an address, if Tables RX-2 to RX-7 list one there (R516, R10). -/
def regRow (a : Nat) : Option RegRow :=
  let b := regFold a
  (regBlock (b / 0x400)).find? (fun r => r.addr = b)

/-- Table FS-1 as register values: the FC_SRC and FC_WIN reset values of each assigned source (R425).
A source number that is not listed is reserved (R397) and reads 0. -/
def faultCatalogue : List (Nat × Nat × Nat) := [
  (0, 0x82209, 1000),
  (1, 0x1A, 1000),
  (2, 0x1A, 1000),
  (3, 0x15, 1000),
  (8, 0x100209, 1000),
  (9, 0x1A, 1000),
  (10, 0x1A, 1000),
  (11, 0x80209, 10000),
  (16, 0x200609, 60000),
  (17, 0x1A, 1000),
  (18, 0x11A, 1000),
  (19, 0x11F, 1000),
  (20, 0x102219, 1000),
  (21, 0x80209, 10000),
  (22, 0x80209, 10000),
  (23, 0x11A, 1000),
  (24, 0x200209, 60000),
  (25, 0x11A, 1000),
  (26, 0x15, 1000),
  (27, 0x11A, 1000),
  (28, 0x100209, 3600000),
  (29, 0x11A, 1000),
  (30, 0x1A, 1000),
  (31, 0x11A, 1000),
  (32, 0x11A, 1000),
  (33, 0x11F, 1000),
  (34, 0x11F, 1000),
  (35, 0x11F, 1000),
  (36, 0x11A, 1000),
  (37, 0x15, 1000),
  (40, 0x11A, 1000),
  (41, 0x42219, 60000),
  (42, 0x11A, 1000),
  (43, 0x11A, 1000),
  (44, 0x15, 1000),
  (45, 0x1A, 1000),
  (46, 0x15, 1000),
  (48, 0x4221E, 60000),
  (49, 0x11F, 1000),
  (50, 0x11A, 1000),
  (51, 0x15, 1000),
  (52, 0x15F, 1000),
  (53, 0x15F, 1000),
  (56, 0x15, 1000),
  (57, 0x11F, 1000),
  (58, 0x80219, 60000),
  (59, 0x11F, 1000),
  (60, 0x15, 1000),
  (61, 0x40A09, 60000),
  (62, 0x11A, 1000)]

/-- Is the source number assigned (R397)? -/
def fsAssigned (n : Nat) : Bool := faultCatalogue.any (fun e => e.1 = n)

/-- The value of a register home after its reset: the Reset column of Tables RX-2 to RX-7, and for
FC_SRC and FC_WIN the catalogue value of the source whose bank it is (R425, R519). -/
def regDefault (a : Nat) : Word :=
  match regRow a with
  | none => 0
  | some r =>
    if r.addr = 0x3C48 then
      match faultCatalogue.find? (fun e => e.1 = a / 0x10000) with
      | some e => BitVec.ofNat 32 e.2.1
      | none => 0
    else if r.addr = 0x3C4C then
      match faultCatalogue.find? (fun e => e.1 = a / 0x10000) with
      | some e => BitVec.ofNat 32 e.2.2
      | none => 0
    else BitVec.ofNat 32 r.reset

/-- The bits of a register that exist and can be read back: every field but the write-only ones (R9). -/
def regMask (a : Nat) : Word :=
  match regRow a with
  | none => 0
  | some r => BitVec.ofNat 32 (r.rw ||| r.ro ||| r.w1c ||| r.rws ||| r.rwl)

namespace Fld

def GL_GRADE_SPEED : Field := ⟨0x0004, 7, 0⟩
def GL_GRADE_TEMP : Field := ⟨0x0004, 8, 8⟩
def GL_STRAP_EN_UNSTABLE : Field := ⟨0x0008, 3, 3⟩
def GL_STRAP_POS_UNSTABLE : Field := ⟨0x0008, 2, 2⟩
def GL_STRAP_TWIN_EN : Field := ⟨0x0008, 1, 1⟩
def GL_STRAP_TWIN_POS : Field := ⟨0x0008, 0, 0⟩
def GL_COMMIT_DISCARD : Field := ⟨0x000C, 1, 1⟩
def GL_COMMIT_COMMIT : Field := ⟨0x000C, 0, 0⟩
def GL_CSTAT_PENDING : Field := ⟨0x0010, 31, 31⟩
def GL_CSTAT_REJECT : Field := ⟨0x0010, 30, 30⟩
def GL_CSTAT_BLOCK : Field := ⟨0x0010, 15, 8⟩
def GL_CSTAT_STAGED : Field := ⟨0x0010, 0, 0⟩
def PM_MODE_WAITING : Field := ⟨0x0400, 10, 10⟩
def PM_MODE_RESTORING : Field := ⟨0x0400, 9, 9⟩
def PM_MODE_SAVING : Field := ⟨0x0400, 8, 8⟩
def PM_MODE_SUB : Field := ⟨0x0400, 5, 4⟩
def PM_MODE_MODE : Field := ⟨0x0400, 2, 0⟩
def PM_DOMAIN_DIO : Field := ⟨0x0404, 11, 10⟩
def PM_DOMAIN_HIO : Field := ⟨0x0404, 9, 8⟩
def PM_DOMAIN_CORE : Field := ⟨0x0404, 7, 6⟩
def PM_DOMAIN_MGT : Field := ⟨0x0404, 5, 4⟩
def PM_DOMAIN_LDG : Field := ⟨0x0404, 3, 2⟩
def PM_DOMAIN_AON : Field := ⟨0x0404, 1, 0⟩
def PM_DORM_DORMANT_AFTER : Field := ⟨0x0408, 15, 0⟩
def PM_CTRL_WAIT_DORMANT : Field := ⟨0x040C, 1, 1⟩
def PM_CTRL_MGT_SLEEP : Field := ⟨0x040C, 0, 0⟩
def PM_LAST_CAUSE : Field := ⟨0x0410, 23, 16⟩
def PM_LAST_TO_SUB : Field := ⟨0x0410, 13, 12⟩
def PM_LAST_TO : Field := ⟨0x0410, 10, 8⟩
def PM_LAST_FROM_SUB : Field := ⟨0x0410, 5, 4⟩
def PM_LAST_FROM : Field := ⟨0x0410, 2, 0⟩
def PM_LAST_TL_TIME_LO : Field := ⟨0x0414, 31, 0⟩
def PM_LAST_TH_TIME_HI : Field := ⟨0x0418, 15, 0⟩
def PM_RANK_COLD_MARK : Field := ⟨0x041C, 11, 8⟩
def PM_RANK_SR_STATE : Field := ⟨0x041C, 3, 0⟩
def CK_STATUS_RS_VALID : Field := ⟨0x0600, 14, 14⟩
def CK_STATUS_RS_ACTIVE : Field := ⟨0x0600, 13, 12⟩
def CK_STATUS_PARKED : Field := ⟨0x0600, 11, 11⟩
def CK_STATUS_RATE_MISMATCH : Field := ⟨0x0600, 10, 10⟩
def CK_STATUS_OVERSPEED : Field := ⟨0x0600, 9, 9⟩
def CK_STATUS_TICK_DISC : Field := ⟨0x0600, 8, 8⟩
def CK_STATUS_HRST_LOW : Field := ⟨0x0600, 7, 7⟩
def CK_STATUS_HCK_PRESENT : Field := ⟨0x0600, 6, 6⟩
def CK_STATUS_HPLL_REF_XOSC : Field := ⟨0x0600, 5, 5⟩
def CK_STATUS_HPLL_LOCK : Field := ⟨0x0600, 4, 4⟩
def CK_STATUS_MCLK_ON_TICK : Field := ⟨0x0600, 3, 3⟩
def CK_STATUS_MCLK_LOCK : Field := ⟨0x0600, 2, 2⟩
def CK_STATUS_XOSC_FAIL : Field := ⟨0x0600, 1, 1⟩
def CK_STATUS_XOSC_RUN : Field := ⟨0x0600, 0, 0⟩
def CK_HCKCNT_XOSC_GATED : Field := ⟨0x0604, 16, 16⟩
def CK_HCKCNT_COUNT : Field := ⟨0x0604, 15, 0⟩
def CK_TICK_ERR : Field := ⟨0x0608, 31, 24⟩
def CK_TICK_DISC_EN : Field := ⟨0x0608, 16, 16⟩
def CK_TICK_FUSE_TRIM : Field := ⟨0x0608, 15, 8⟩
def CK_TICK_TRIM : Field := ⟨0x0608, 7, 0⟩
def CK_CTRL_HRST_MODE : Field := ⟨0x060C, 2, 2⟩
def CK_CTRL_MCLK_FALLBACK : Field := ⟨0x060C, 1, 1⟩
def CK_CTRL_KEEP_OSC : Field := ⟨0x060C, 0, 0⟩
def CK_RS_CAL_VALID : Field := ⟨0x0610, 31, 31⟩
def CK_RS_CMD_2N : Field := ⟨0x0610, 17, 17⟩
def CK_RS_EN : Field := ⟨0x0610, 16, 16⟩
def CK_RS_RATE : Field := ⟨0x0610, 15, 0⟩
def CK_BOOT_PASSES : Field := ⟨0x0620, 15, 12⟩
def CK_BOOT_TAMPER_WIPE : Field := ⟨0x0620, 9, 9⟩
def CK_BOOT_CFG_DEFAULT : Field := ⟨0x0620, 8, 8⟩
def CK_BOOT_CFG_B : Field := ⟨0x0620, 7, 7⟩
def CK_BOOT_PATCH_OK : Field := ⟨0x0620, 6, 6⟩
def CK_BOOT_PATH : Field := ⟨0x0620, 5, 4⟩
def CK_BOOT_STEP : Field := ⟨0x0620, 3, 0⟩
def CK_BOOTT_TICKS : Field := ⟨0x0624, 31, 0⟩
def CK_AONL_AON_LO : Field := ⟨0x0628, 31, 0⟩
def CK_AONH_AON_HI : Field := ⟨0x062C, 15, 0⟩
def CA_CFG_QUIET : Field := ⟨0x0800, 12, 12⟩
def CA_CFG_DENSITY : Field := ⟨0x0800, 11, 10⟩
def CA_CFG_RANK_EN : Field := ⟨0x0800, 7, 4⟩
def CA_STATUS_GAP_FIT : Field := ⟨0x0804, 7, 7⟩
def CA_STATUS_GRANT : Field := ⟨0x0804, 6, 6⟩
def CA_STATUS_APLOCK : Field := ⟨0x0804, 5, 5⟩
def CA_STATUS_SAVE_BLOCK : Field := ⟨0x0804, 4, 4⟩
def CA_STATUS_PAR_BLOCKED : Field := ⟨0x0804, 0, 0⟩
def CA_PAR_MODE_EN : Field := ⟨0x0808, 1, 1⟩
def CA_PAR_MODE_MODE : Field := ⟨0x0808, 0, 0⟩
def CA_PCNT_COUNT : Field := ⟨0x080C, 15, 0⟩
def CA_PLOG0_VALID : Field := ⟨0x0810, 31, 31⟩
def CA_PLOG0_TWO_CYCLE : Field := ⟨0x0810, 30, 30⟩
def CA_PLOG0_HPAR2 : Field := ⟨0x0810, 29, 29⟩
def CA_PLOG0_HPAR1 : Field := ⟨0x0810, 28, 28⟩
def CA_PLOG0_HCA2 : Field := ⟨0x0810, 27, 14⟩
def CA_PLOG0_HCA1 : Field := ⟨0x0810, 13, 0⟩
def CA_PLOG1_HCS_N : Field := ⟨0x0814, 3, 0⟩
def CA_ILL_VALID : Field := ⟨0x0818, 31, 31⟩
def CA_ILL_SUBCODE : Field := ⟨0x0818, 27, 24⟩
def CA_ILL_COUNT : Field := ⟨0x0818, 15, 0⟩
def CA_CLR_CLR_ALERT : Field := ⟨0x081C, 2, 2⟩
def CA_CLR_CLR_RSVHIT : Field := ⟨0x081C, 1, 1⟩
def CA_CLR_UNBLOCK : Field := ⟨0x081C, 0, 0⟩
def CA_APER_EN : Field := ⟨0x0820, 31, 31⟩
def CA_APER_RANK : Field := ⟨0x0820, 29, 28⟩
def CA_APER_BG : Field := ⟨0x0820, 26, 24⟩
def CA_APER_BANK : Field := ⟨0x0820, 21, 20⟩
def CA_APER_BASE : Field := ⟨0x0820, 16, 0⟩
def CA_APSTAT_OPEN : Field := ⟨0x0824, 31, 31⟩
def CA_APSTAT_IN_FORCE : Field := ⟨0x0824, 30, 30⟩
def CA_APSTAT_ROW : Field := ⟨0x0824, 16, 0⟩
def CA_RSV_BG : Field := ⟨0x0828, 26, 24⟩
def CA_RSV_BANK : Field := ⟨0x0828, 21, 20⟩
def CA_RSV_BASE : Field := ⟨0x0828, 16, 0⟩
def CA_RSVHIT_COUNT : Field := ⟨0x082C, 31, 16⟩
def CA_RSVHIT_LAST_RANK : Field := ⟨0x082C, 15, 14⟩
def CA_RSVHIT_LAST_ROW : Field := ⟨0x082C, 13, 12⟩
def CA_RSVHIT_LAST_WRITE : Field := ⟨0x082C, 0, 0⟩
def CA_GAP_EN : Field := ⟨0x0830, 31, 31⟩
def CA_GAP_RES : Field := ⟨0x0830, 30, 30⟩
def CA_GAP_N : Field := ⟨0x0830, 21, 16⟩
def CA_GAP_TRFC : Field := ⟨0x0830, 9, 0⟩
def CA_GRANT_ACTIVE : Field := ⟨0x0834, 31, 31⟩
def CA_GRANT_RANKS : Field := ⟨0x0834, 19, 16⟩
def CA_GRANT_LEN : Field := ⟨0x0834, 2, 0⟩
def CA_ALERT_MASK : Field := ⟨0x0838, 26, 24⟩
def CA_ALERT_MERGED : Field := ⟨0x0838, 23, 16⟩
def CA_ALERT_PULSES : Field := ⟨0x0838, 15, 0⟩
def CA_TRIM_SEL_INDEX : Field := ⟨0x0840, 5, 0⟩
def CA_TRIM_DELAY : Field := ⟨0x0844, 22, 16⟩
def CA_TRIM_DRV_PD : Field := ⟨0x0844, 12, 8⟩
def CA_TRIM_DRV_PU : Field := ⟨0x0844, 4, 0⟩
def HL_CTRL_CAL_HOLD : Field := ⟨0x1000, 0, 0⟩
def HL_VREF_VREF : Field := ⟨0x1004, 7, 0⟩
def HL_DQS_TX_DQS : Field := ⟨0x1008, 24, 16⟩
def HL_DQS_RX_DQS : Field := ⟨0x1008, 8, 0⟩
def HL_DRV_RTT_PARK : Field := ⟨0x100C, 29, 27⟩
def HL_DRV_RTT_WR : Field := ⟨0x100C, 25, 23⟩
def HL_DRV_DCC : Field := ⟨0x100C, 21, 16⟩
def HL_DRV_DRV_PD : Field := ⟨0x100C, 12, 8⟩
def HL_DRV_DRV_PU : Field := ⟨0x100C, 4, 0⟩
def HL_SEL_BIT : Field := ⟨0x1010, 2, 0⟩
def HL_BIT_OFFSET : Field := ⟨0x1014, 13, 8⟩
def HL_BIT_RX_DESKEW : Field := ⟨0x1014, 7, 0⟩
def HL_CRCCNT_COUNT : Field := ⟨0x1018, 15, 0⟩
def HL_CFG_CRC_CHECK : Field := ⟨0x1500, 0, 0⟩
def HL_SNOOP_RANK_SKEW : Field := ⟨0x1504, 31, 31⟩
def HL_SNOOP_RDCRC_ON : Field := ⟨0x1504, 30, 30⟩
def HL_SNOOP_WRCRC_ON : Field := ⟨0x1504, 29, 29⟩
def HL_SNOOP_PATTERN : Field := ⟨0x1504, 28, 28⟩
def HL_SNOOP_WPRE : Field := ⟨0x1504, 27, 24⟩
def HL_SNOOP_RPRE : Field := ⟨0x1504, 23, 20⟩
def HL_SNOOP_CL : Field := ⟨0x1504, 6, 0⟩
def HL_CRCLOG_VALID : Field := ⟨0x1508, 31, 31⟩
def HL_CRCLOG_SLOT : Field := ⟨0x1508, 15, 12⟩
def HL_CRCLOG_RANK : Field := ⟨0x1508, 9, 8⟩
def HL_CRCLOG_APER : Field := ⟨0x1508, 5, 5⟩
def HL_CRCLOG_LANES : Field := ⟨0x1508, 4, 0⟩
def DL_CTRL_CAL_HOLD : Field := ⟨0x1800, 0, 0⟩
def DL_SEL_RANK : Field := ⟨0x1804, 5, 4⟩
def DL_SEL_BIT : Field := ⟨0x1804, 2, 0⟩
def DL_VREF_VREF : Field := ⟨0x1808, 7, 0⟩
def DL_DQS_TX_DQS : Field := ⟨0x180C, 24, 16⟩
def DL_DQS_RX_DQS : Field := ⟨0x180C, 8, 0⟩
def DL_DRV_RTT_RD : Field := ⟨0x1810, 25, 23⟩
def DL_DRV_DCC : Field := ⟨0x1810, 21, 16⟩
def DL_DRV_DRV_PD : Field := ⟨0x1810, 12, 8⟩
def DL_DRV_DRV_PU : Field := ⟨0x1810, 4, 0⟩
def DL_BIT_TX_DESKEW : Field := ⟨0x1814, 23, 16⟩
def DL_BIT_OFFSET : Field := ⟨0x1814, 13, 8⟩
def DL_BIT_RX_DESKEW : Field := ⟨0x1814, 7, 0⟩
def DL_ALERT_RANKS : Field := ⟨0x1E00, 19, 16⟩
def DL_ALERT_COUNT : Field := ⟨0x1E00, 15, 0⟩
def LG_CTRL_AUTO_ERASE : Field := ⟨0x2000, 3, 3⟩
def LG_CTRL_WR_CHECK : Field := ⟨0x2000, 2, 2⟩
def LG_CTRL_ERASED_WRITE : Field := ⟨0x2000, 1, 1⟩
def LG_CTRL_CHECK_EN : Field := ⟨0x2000, 0, 0⟩
def LG_MAP_PAR : Field := ⟨0x2004, 22, 20⟩
def LG_MAP_H4 : Field := ⟨0x2004, 18, 16⟩
def LG_MAP_H3 : Field := ⟨0x2004, 14, 12⟩
def LG_MAP_H2 : Field := ⟨0x2004, 10, 8⟩
def LG_MAP_H1 : Field := ⟨0x2004, 6, 4⟩
def LG_MAP_H0 : Field := ⟨0x2004, 2, 0⟩
def LG_STATUS_ERASE_PENDING : Field := ⟨0x2008, 6, 6⟩
def LG_STATUS_HCT_LOADED : Field := ⟨0x2008, 4, 4⟩
def LG_STATUS_HCT_STRONG : Field := ⟨0x2008, 3, 3⟩
def LG_STATUS_CHECK_IN_FORCE : Field := ⟨0x2008, 2, 2⟩
def LG_STATUS_ANY_PL : Field := ⟨0x2008, 1, 1⟩
def LG_STATUS_ANY_ERASED : Field := ⟨0x2008, 0, 0⟩
def LG_MAPF_MAP : Field := ⟨0x200C, 31, 0⟩
def LG_RANK_SECOND : Field := ⟨0x2010, 31, 31⟩
def LG_RANK_PL_FAULT : Field := ⟨0x2010, 30, 30⟩
def LG_RANK_ERASED : Field := ⟨0x2010, 29, 29⟩
def LG_RANK_LANE : Field := ⟨0x2010, 26, 24⟩
def LG_POLICY_SECOND_WIN : Field := ⟨0x2020, 31, 16⟩
def LG_POLICY_SECOND_THR : Field := ⟨0x2020, 15, 8⟩
def LG_POLICY_ERASE_SHARE : Field := ⟨0x2020, 7, 0⟩
def LG_CCNT_COUNT : Field := ⟨0x2040, 15, 0⟩
def LG_UCNT_COUNT : Field := ⟨0x20A0, 15, 0⟩
def LG_RFAIL_COUNT : Field := ⟨0x20B0, 15, 0⟩
def LG_WCNT_COUNT : Field := ⟨0x20C0, 15, 0⟩
def LG_HCTC_LOADED : Field := ⟨0x2100, 31, 31⟩
def LG_HCTC_PENDING : Field := ⟨0x2100, 30, 30⟩
def LG_HCTC_STRONG : Field := ⟨0x2100, 29, 29⟩
def LG_HCTC_REJECT : Field := ⟨0x2100, 28, 28⟩
def LG_HCTC_REJECT_CODE : Field := ⟨0x2100, 27, 24⟩
def LG_HCTC_UNLOAD : Field := ⟨0x2100, 9, 9⟩
def LG_HCTC_LOAD : Field := ⟨0x2100, 8, 8⟩
def LG_HCTC_ROWS : Field := ⟨0x2100, 7, 0⟩
def LG_HCTA_ADDR : Field := ⟨0x2104, 11, 0⟩
def LG_HCTD_DATA : Field := ⟨0x2108, 31, 0⟩
def LG_HCTCRC_CRC : Field := ⟨0x210C, 31, 0⟩
def CB_CTRL_DCC_EN : Field := ⟨0x2400, 5, 5⟩
def CB_CTRL_ZQ_EN : Field := ⟨0x2400, 4, 4⟩
def CB_CTRL_AUTO_STORE : Field := ⟨0x2400, 3, 3⟩
def CB_CTRL_GAP_EN : Field := ⟨0x2400, 2, 2⟩
def CB_CTRL_SWEEP_EN : Field := ⟨0x2400, 1, 1⟩
def CB_CTRL_HOST_EN : Field := ⟨0x2400, 0, 0⟩
def CB_LIMITS_MAX_VSTEP : Field := ⟨0x2404, 31, 24⟩
def CB_LIMITS_MIN_HEIGHT : Field := ⟨0x2404, 23, 16⟩
def CB_LIMITS_MIN_WIDTH : Field := ⟨0x2404, 15, 8⟩
def CB_LIMITS_MAX_STEP : Field := ⟨0x2404, 7, 0⟩
def CB_REPEAT_EDGE_THR : Field := ⟨0x2408, 11, 8⟩
def CB_REPEAT_VREF_TOL : Field := ⟨0x2408, 7, 4⟩
def CB_REPEAT_TAP_TOL : Field := ⟨0x2408, 3, 0⟩
def CB_STORE_NOW : Field := ⟨0x240C, 31, 31⟩
def CB_STORE_MOVE_VREF : Field := ⟨0x240C, 27, 24⟩
def CB_STORE_MOVE_TAPS : Field := ⟨0x240C, 19, 16⟩
def CB_STORE_INTERVAL : Field := ⟨0x240C, 15, 0⟩
def CB_PERIOD_ZQ_PERIOD : Field := ⟨0x2410, 23, 16⟩
def CB_PERIOD_HOST_PERIOD : Field := ⟨0x2410, 15, 0⟩
def CB_STATUS_FROM_RECORD : Field := ⟨0x2414, 5, 5⟩
def CB_STATUS_COPY : Field := ⟨0x2414, 4, 4⟩
def CB_STATUS_LAST_STORE_FAIL : Field := ⟨0x2414, 3, 3⟩
def CB_STATUS_STARVED : Field := ⟨0x2414, 2, 2⟩
def CB_STATUS_STORE_DUE : Field := ⟨0x2414, 1, 1⟩
def CB_STATUS_STORING : Field := ⟨0x2414, 0, 0⟩
def CB_SEQ_SEQ : Field := ⟨0x2418, 31, 0⟩
def CB_QSEL_SIDE : Field := ⟨0x2420, 16, 16⟩
def CB_QSEL_RANK : Field := ⟨0x2420, 13, 12⟩
def CB_QSEL_LANE : Field := ⟨0x2420, 10, 8⟩
def CB_QSEL_BIT : Field := ⟨0x2420, 2, 0⟩
def CB_Q_VALID : Field := ⟨0x2424, 31, 31⟩
def CB_Q_GRADE : Field := ⟨0x2424, 17, 16⟩
def CB_Q_HEIGHT : Field := ⟨0x2424, 15, 8⟩
def CB_Q_WIDTH : Field := ⟨0x2424, 7, 0⟩
def CB_CNT_REJ : Field := ⟨0x2428, 31, 16⟩
def CB_CNT_ACC : Field := ⟨0x2428, 15, 0⟩
def CB_RLOG_VALID : Field := ⟨0x242C, 31, 31⟩
def CB_RLOG_REASON : Field := ⟨0x242C, 27, 24⟩
def CB_RLOG_SIDE : Field := ⟨0x242C, 16, 16⟩
def CB_RLOG_RANK : Field := ⟨0x242C, 13, 12⟩
def CB_RLOG_LANE : Field := ⟨0x242C, 10, 8⟩
def CB_RLOG_BIT : Field := ⟨0x242C, 2, 0⟩
def CB_HPOL_STALE_AFTER : Field := ⟨0x2430, 31, 16⟩
def CB_HPOL_REACQ_N : Field := ⟨0x2430, 7, 4⟩
def CB_HPOL_CA_EN : Field := ⟨0x2430, 0, 0⟩
def CB_HSTAT_CA_STALE : Field := ⟨0x2434, 26, 26⟩
def CB_HSTAT_CA_ACC : Field := ⟨0x2434, 25, 25⟩
def CB_HSTAT_HOLD : Field := ⟨0x2434, 24, 24⟩
def CB_HSTAT_ACQ : Field := ⟨0x2434, 20, 16⟩
def CB_HSTAT_STALE : Field := ⟨0x2434, 12, 8⟩
def CB_HSTAT_LAST_ACC : Field := ⟨0x2434, 4, 0⟩
def CB_CAV_VREF : Field := ⟨0x2438, 7, 0⟩
def CB_CAQ_VALID : Field := ⟨0x243C, 31, 31⟩
def CB_CAQ_REJECTED : Field := ⟨0x243C, 30, 30⟩
def CB_CAQ_PIN : Field := ⟨0x243C, 28, 24⟩
def CB_CAQ_GRADE : Field := ⟨0x243C, 17, 16⟩
def CB_CAQ_HEIGHT : Field := ⟨0x243C, 15, 8⟩
def CB_CAQ_WIDTH : Field := ⟨0x243C, 7, 0⟩
def CB_HABN_COUNT : Field := ⟨0x2440, 15, 0⟩
def CB_DPOL_SWEEP_LIMIT : Field := ⟨0x2450, 31, 24⟩
def CB_DPOL_SWEEP_GAP : Field := ⟨0x2450, 23, 16⟩
def CB_DPOL_GAP_PERIOD : Field := ⟨0x2450, 15, 8⟩
def CB_DPOL_REJ_LIMIT : Field := ⟨0x2450, 3, 0⟩
def CB_DQCK_PCT : Field := ⟨0x2454, 23, 16⟩
def CB_DQCK_FAIL : Field := ⟨0x2454, 11, 8⟩
def CB_DQCK_SKIPPED : Field := ⟨0x2454, 3, 0⟩
def CB_DSTAT_SWEEPING : Field := ⟨0x2458, 31, 31⟩
def CB_DSTAT_TRIAL_B : Field := ⟨0x2458, 30, 30⟩
def CB_DSTAT_SW_RANK : Field := ⟨0x2458, 29, 28⟩
def CB_DSTAT_SW_LANE : Field := ⟨0x2458, 26, 24⟩
def CB_DSTAT_GAPMODE : Field := ⟨0x2458, 23, 20⟩
def CB_DSTAT_HOSTHIT : Field := ⟨0x2458, 19, 16⟩
def CB_DSTAT_NOPROG : Field := ⟨0x2458, 15, 12⟩
def CB_DSTAT_GAPRUN : Field := ⟨0x2458, 11, 8⟩
def CB_DLQ_EXCLUDED : Field := ⟨0x245C, 31, 31⟩
def CB_DLQ_WVALID : Field := ⟨0x245C, 30, 30⟩
def CB_DLQ_CONSEC : Field := ⟨0x245C, 23, 16⟩
def CB_DLQ_WWIDTH : Field := ⟨0x245C, 7, 0⟩
def CB_DSWP_KIND8 : Field := ⟨0x2460, 31, 16⟩
def CB_DSWP_SWEEPS : Field := ⟨0x2460, 15, 0⟩
def CB_DABN_COUNT : Field := ⟨0x2464, 15, 0⟩
def CB_DGAP_PAIRS : Field := ⟨0x2468, 31, 16⟩
def CB_DGAP_READS : Field := ⟨0x2468, 15, 0⟩
def LD_CFG_SCRUB_WB : Field := ⟨0x2800, 3, 3⟩
def LD_CFG_REPL_HOST : Field := ⟨0x2800, 2, 2⟩
def LD_CFG_AUTO_RETAIN : Field := ⟨0x2800, 1, 1⟩
def LD_CFG_MIRROR : Field := ⟨0x2800, 0, 0⟩
def LD_STATUS_PARKED : Field := ⟨0x2804, 30, 24⟩
def LD_STATUS_CL_SHORT : Field := ⟨0x2804, 5, 5⟩
def LD_STATUS_MIRROR_IN_FORCE : Field := ⟨0x2804, 4, 4⟩
def LD_STATUS_SCANNING : Field := ⟨0x2804, 3, 3⟩
def LD_STATUS_RELOADING : Field := ⟨0x2804, 2, 2⟩
def LD_STATUS_COMMITTING : Field := ⟨0x2804, 1, 1⟩
def LD_STATUS_READY : Field := ⟨0x2804, 0, 0⟩
def LD_RETAIN_CORR_MAX : Field := ⟨0x2808, 23, 16⟩
def LD_RETAIN_IDLE : Field := ⟨0x2808, 15, 0⟩
def LD_RCHK_FAILED : Field := ⟨0x280C, 31, 16⟩
def LD_RCHK_RELOADED : Field := ⟨0x280C, 15, 0⟩
def LD_RSTAT_VALID : Field := ⟨0x2810, 31, 31⟩
def LD_RSTAT_MAP_FAIL : Field := ⟨0x2810, 17, 16⟩
def LD_RSTAT_CORR : Field := ⟨0x2810, 15, 0⟩
def LD_COLL_H_WRITES : Field := ⟨0x2814, 31, 16⟩
def LD_COLL_E_WRITES : Field := ⟨0x2814, 15, 0⟩
def LD_HOLD_PARK_WAKES : Field := ⟨0x2818, 31, 16⟩
def LD_HOLD_HOLDS : Field := ⟨0x2818, 15, 0⟩
def LD_ECC_UNCORR : Field := ⟨0x281C, 31, 16⟩
def LD_ECC_CORR : Field := ⟨0x281C, 15, 0⟩
def LD_ELOG0_VALID : Field := ⟨0x2820, 31, 31⟩
def LD_ELOG0_UE : Field := ⟨0x2820, 30, 30⟩
def LD_ELOG0_REQ : Field := ⟨0x2820, 29, 27⟩
def LD_ELOG0_LINE : Field := ⟨0x2820, 26, 12⟩
def LD_ELOG0_WORD : Field := ⟨0x2820, 11, 8⟩
def LD_ELOG0_SYNDROME : Field := ⟨0x2820, 7, 0⟩
def LD_ELOG1_TIME : Field := ⟨0x2824, 31, 0⟩
def LD_DIRTY_B : Field := ⟨0x2828, 31, 16⟩
def LD_DIRTY_A : Field := ⟨0x2828, 15, 0⟩
def LD_HRD_COUNT : Field := ⟨0x282C, 15, 0⟩
def LD_EA_WORD : Field := ⟨0x2830, 19, 16⟩
def LD_EA_LINE : Field := ⟨0x2830, 14, 0⟩
def LD_ED0_DATA_LO : Field := ⟨0x2834, 31, 0⟩
def LD_ED1_DATA_HI : Field := ⟨0x2838, 31, 0⟩
def LD_ECMD_BUSY : Field := ⟨0x283C, 31, 31⟩
def LD_ECMD_COLLIDE : Field := ⟨0x283C, 30, 30⟩
def LD_ECMD_UE : Field := ⟨0x283C, 29, 29⟩
def LD_ECMD_CORR : Field := ⟨0x283C, 28, 28⟩
def LD_ECMD_REFUSED : Field := ⟨0x283C, 27, 27⟩
def LD_ECMD_HELD : Field := ⟨0x283C, 26, 26⟩
def LD_ECMD_WRITE : Field := ⟨0x283C, 1, 1⟩
def LD_ECMD_READ : Field := ⟨0x283C, 0, 0⟩
def LD_OPCFG_CHECK_DESC : Field := ⟨0x2840, 1, 1⟩
def LD_OPCFG_EN : Field := ⟨0x2840, 0, 0⟩
def LD_OPSTAT_NO_HCT : Field := ⟨0x2844, 2, 2⟩
def LD_OPSTAT_EN_IN_FORCE : Field := ⟨0x2844, 1, 1⟩
def LD_OPSTAT_BUSY : Field := ⟨0x2844, 0, 0⟩
def LD_OPSEQ_SEQ : Field := ⟨0x2848, 31, 0⟩
def LD_OPCNT_CASFAIL : Field := ⟨0x284C, 31, 16⟩
def LD_OPCNT_ERRORS : Field := ⟨0x284C, 15, 0⟩
def LD_OPREP_NOT_EXEC : Field := ⟨0x2850, 31, 16⟩
def LD_OPREP_REPLAYS : Field := ⟨0x2850, 15, 0⟩
def LD_OPLOG_VALID : Field := ⟨0x2854, 31, 31⟩
def LD_OPLOG_SLOT : Field := ⟨0x2854, 25, 16⟩
def LD_OPLOG_STATUS : Field := ⟨0x2854, 15, 0⟩
def GN_LC_FUSES : Field := ⟨0x2C00, 11, 8⟩
def GN_LC_STATE : Field := ⟨0x2C00, 2, 0⟩
def GN_STATUS_TAMPER_NOW : Field := ⟨0x2C04, 11, 11⟩
def GN_STATUS_SESS_AUTH : Field := ⟨0x2C04, 10, 10⟩
def GN_STATUS_LC_ERASE : Field := ⟨0x2C04, 9, 9⟩
def GN_STATUS_LC_FAIL : Field := ⟨0x2C04, 8, 8⟩
def GN_STATUS_LC_BUSY : Field := ⟨0x2C04, 7, 7⟩
def GN_STATUS_CON_REC : Field := ⟨0x2C04, 6, 6⟩
def GN_STATUS_SEAL_REC : Field := ⟨0x2C04, 5, 5⟩
def GN_STATUS_CON_KEY : Field := ⟨0x2C04, 4, 4⟩
def GN_STATUS_SEAL_KEY : Field := ⟨0x2C04, 3, 3⟩
def GN_STATUS_ERASING : Field := ⟨0x2C04, 2, 2⟩
def GN_STATUS_ERASE_DONE : Field := ⟨0x2C04, 1, 1⟩
def GN_STATUS_TAMPER_LATCH : Field := ⟨0x2C04, 0, 0⟩
def GN_CFG_RO_NOAUTH : Field := ⟨0x2C08, 2, 2⟩
def GN_CFG_INSTALL_I3C : Field := ⟨0x2C08, 1, 1⟩
def GN_CFG_TAP_EN : Field := ⟨0x2C08, 0, 0⟩
def GN_CTRL_TAMPER_CLR : Field := ⟨0x2C0C, 0, 0⟩
def GN_KEYGEN_CON : Field := ⟨0x2C10, 31, 16⟩
def GN_KEYGEN_SEAL : Field := ⟨0x2C10, 15, 0⟩
def GN_AUTHCNT_OK : Field := ⟨0x2C14, 31, 16⟩
def GN_AUTHCNT_FAIL : Field := ⟨0x2C14, 15, 0⟩
def GN_KCV_SEAL : Field := ⟨0x2C18, 31, 16⟩
def GN_KCV_CON : Field := ⟨0x2C18, 15, 0⟩
def GN_TAMPT_TIME : Field := ⟨0x2C1C, 31, 0⟩
def KP_STATUS_PERSIST_OK : Field := ⟨0x3000, 8, 8⟩
def KP_STATUS_SEAL_SLOT : Field := ⟨0x3000, 7, 6⟩
def KP_STATUS_REFRESH_DUE : Field := ⟨0x3000, 5, 5⟩
def KP_STATUS_REFRESHING : Field := ⟨0x3000, 4, 4⟩
def KP_STATUS_CHECKPOINT : Field := ⟨0x3000, 3, 3⟩
def KP_STATUS_COMMITTING : Field := ⟨0x3000, 2, 2⟩
def KP_STATUS_ERASING : Field := ⟨0x3000, 1, 1⟩
def KP_STATUS_BUSY : Field := ⟨0x3000, 0, 0⟩
def KP_CTRL_AUTO_REFRESH : Field := ⟨0x3004, 2, 2⟩
def KP_CTRL_REFRESH : Field := ⟨0x3004, 1, 1⟩
def KP_CTRL_CHECKPOINT : Field := ⟨0x3004, 0, 0⟩
def KP_WSEL_REGION : Field := ⟨0x3008, 3, 0⟩
def KP_WEAR_COUNT : Field := ⟨0x300C, 31, 0⟩
def KP_WCFG_LIMIT : Field := ⟨0x3010, 19, 0⟩
def KP_RETAIN_LIMIT : Field := ⟨0x3014, 31, 16⟩
def KP_RETAIN_USED : Field := ⟨0x3014, 15, 0⟩
def KP_ECC_UNCORR : Field := ⟨0x3018, 31, 16⟩
def KP_ECC_CORR : Field := ⟨0x3018, 15, 0⟩
def KP_ELOG0_VALID : Field := ⟨0x301C, 31, 31⟩
def KP_ELOG0_UE : Field := ⟨0x301C, 30, 30⟩
def KP_ELOG0_REGION : Field := ⟨0x301C, 27, 24⟩
def KP_ELOG0_WORD : Field := ⟨0x301C, 19, 0⟩
def KP_ELOG1_TIME : Field := ⟨0x3020, 31, 0⟩
def KP_CKPT_SLOT : Field := ⟨0x3024, 31, 31⟩
def KP_CKPT_LINES : Field := ⟨0x3024, 14, 0⟩
def KP_CKTIME_US : Field := ⟨0x3028, 31, 0⟩
def KP_PSEQ_SEQ : Field := ⟨0x302C, 31, 0⟩
def KP_CRCFAIL_COUNT : Field := ⟨0x3030, 15, 0⟩
def PS_CTRL_SAVE_NOW : Field := ⟨0x3400, 1, 1⟩
def PS_CTRL_BCW_EN : Field := ⟨0x3400, 0, 0⟩
def PS_TDSC_TICKS : Field := ⟨0x3404, 12, 0⟩
def PS_TQUIESCE_US : Field := ⟨0x3408, 6, 0⟩
def PS_STATUS_SAVING : Field := ⟨0x340C, 31, 31⟩
def PS_STATUS_DEFER_CHIPRST : Field := ⟨0x340C, 30, 30⟩
def PS_STATUS_OVERRUN : Field := ⟨0x340C, 29, 29⟩
def PS_STATUS_FS32 : Field := ⟨0x340C, 28, 28⟩
def PS_STATUS_NO_STEWARD : Field := ⟨0x340C, 27, 27⟩
def PS_STATUS_NO_KEY : Field := ⟨0x340C, 26, 26⟩
def PS_STATUS_IN_BRINGUP : Field := ⟨0x340C, 25, 25⟩
def PS_STATUS_UNRECORDED : Field := ⟨0x340C, 24, 24⟩
def PS_STATUS_CAUSE : Field := ⟨0x340C, 23, 16⟩
def PS_STATUS_CANARY : Field := ⟨0x340C, 15, 12⟩
def PS_STATUS_STEP : Field := ⟨0x340C, 3, 0⟩
def PS_IN_DISC_TICKS : Field := ⟨0x3410, 28, 16⟩
def PS_IN_DISC_CH : Field := ⟨0x3410, 3, 3⟩
def PS_IN_DISC_RUN : Field := ⟨0x3410, 2, 2⟩
def PS_IN_SAVE1_LOW : Field := ⟨0x3410, 1, 1⟩
def PS_IN_SAVE0_LOW : Field := ⟨0x3410, 0, 0⟩
def PS_DISC_EXPIRED : Field := ⟨0x3414, 31, 31⟩
def PS_DISC_CHANNEL : Field := ⟨0x3414, 30, 30⟩
def PS_DISC_TICKS : Field := ⟨0x3414, 28, 16⟩
def PS_DISC_COUNT : Field := ⟨0x3414, 15, 0⟩
def PS_SEALNO_SEALNO : Field := ⟨0x3418, 31, 0⟩
def PS_NONCEL_NONCE_LO : Field := ⟨0x341C, 31, 0⟩
def PS_NONCEH_NONCE_HI : Field := ⟨0x3420, 31, 0⟩
def PS_TS4_US : Field := ⟨0x3424, 23, 0⟩
def PS_TS5_US : Field := ⟨0x3428, 23, 0⟩
def PS_TS6_US : Field := ⟨0x342C, 23, 0⟩
def PS_TS7_US : Field := ⟨0x3430, 23, 0⟩
def PS_LINES_LINES : Field := ⟨0x3434, 15, 0⟩
def PS_RCFG_CANARY_TOL : Field := ⟨0x3440, 15, 8⟩
def PS_RCFG_ELANE_CHECK : Field := ⟨0x3440, 0, 0⟩
def PS_RSTAT_VALID : Field := ⟨0x3444, 31, 31⟩
def PS_RSTAT_LEDGER : Field := ⟨0x3444, 30, 28⟩
def PS_RSTAT_STEP : Field := ⟨0x3444, 27, 24⟩
def PS_RSTAT_WARM : Field := ⟨0x3444, 23, 20⟩
def PS_RSTAT_COLD : Field := ⟨0x3444, 19, 16⟩
def PS_RSTAT_FROM : Field := ⟨0x3444, 15, 14⟩
def PS_RSTAT_FALLBACK : Field := ⟨0x3444, 13, 13⟩
def PS_RSTAT_SEAL_OK : Field := ⟨0x3444, 12, 12⟩
def PS_RSTAT_BEGUN : Field := ⟨0x3444, 11, 11⟩
def PS_RSTAT_NO_PROOF : Field := ⟨0x3444, 10, 10⟩
def PS_RSTAT_SLOT : Field := ⟨0x3444, 9, 9⟩
def PS_RSTAT_MODULE : Field := ⟨0x3444, 7, 6⟩
def PS_RREASON_RANK0 : Field := ⟨0x3448, 3, 0⟩
def PS_RREASON_RANK1 : Field := ⟨0x3448, 7, 4⟩
def PS_RREASON_RANK2 : Field := ⟨0x3448, 11, 8⟩
def PS_RREASON_RANK3 : Field := ⟨0x3448, 15, 12⟩
def PS_RMISS_RANK0 : Field := ⟨0x344C, 7, 0⟩
def PS_RMISS_RANK1 : Field := ⟨0x344C, 15, 8⟩
def PS_RMISS_RANK2 : Field := ⟨0x344C, 23, 16⟩
def PS_RMISS_RANK3 : Field := ⟨0x344C, 31, 24⟩
def PS_RTIME_US : Field := ⟨0x3450, 23, 0⟩
def PS_HOLDT_S : Field := ⟨0x3454, 31, 0⟩
def PS_DORMT_S : Field := ⟨0x3458, 31, 0⟩
def TW_CFG_UP_WAIT : Field := ⟨0x3800, 31, 16⟩
def TW_CFG_DRIFT : Field := ⟨0x3800, 15, 8⟩
def TW_CFG_RESYNC_HOLD : Field := ⟨0x3800, 1, 1⟩
def TW_CFG_LINK_EN : Field := ⟨0x3800, 0, 0⟩
def TW_CTRL_RESYNC : Field := ⟨0x3804, 2, 2⟩
def TW_CTRL_RETRAIN : Field := ⟨0x3804, 1, 1⟩
def TW_CTRL_RESUME : Field := ⟨0x3804, 0, 0⟩
def TW_STATUS_INV : Field := ⟨0x3808, 12, 11⟩
def TW_STATUS_REPL_VALID : Field := ⟨0x3808, 10, 10⟩
def TW_STATUS_LAG_DRAINED : Field := ⟨0x3808, 9, 9⟩
def TW_STATUS_SYNCED : Field := ⟨0x3808, 8, 8⟩
def TW_STATUS_RESYNC_HELD : Field := ⟨0x3808, 7, 7⟩
def TW_STATUS_REPL_RUN : Field := ⟨0x3808, 6, 6⟩
def TW_STATUS_GEN_MISMATCH : Field := ⟨0x3808, 5, 5⟩
def TW_STATUS_VER_MISMATCH : Field := ⟨0x3808, 4, 4⟩
def TW_STATUS_POS_CONFLICT : Field := ⟨0x3808, 3, 3⟩
def TW_STATUS_LINK : Field := ⟨0x3808, 2, 0⟩
def TW_TSTATE_STATE : Field := ⟨0x380C, 23, 0⟩
def TW_TREST_LEDGER : Field := ⟨0x3810, 14, 12⟩
def TW_TREST_KIND : Field := ⟨0x3810, 10, 8⟩
def TW_TREST_COLD : Field := ⟨0x3810, 7, 4⟩
def TW_TREST_WARM : Field := ⟨0x3810, 3, 0⟩
def TW_TVER_VERSION : Field := ⟨0x3814, 23, 0⟩
def TW_TGEN_GEN : Field := ⟨0x3818, 31, 0⟩
def TW_THB_HB_TIME : Field := ⟨0x381C, 31, 0⟩
def TW_OFFL_OFF_LO : Field := ⟨0x3820, 31, 0⟩
def TW_OFFH_OFF_HI : Field := ⟨0x3824, 15, 0⟩
def TW_DRIFT_PPM : Field := ⟨0x3828, 15, 0⟩
def TW_LAG_MAX : Field := ⟨0x382C, 24, 16⟩
def TW_LAG_DEPTH : Field := ⟨0x382C, 8, 0⟩
def TW_STALE_RECV : Field := ⟨0x3830, 31, 16⟩
def TW_STALE_SEND : Field := ⟨0x3830, 15, 0⟩
def TW_CNT_REPLAYS : Field := ⟨0x3834, 31, 16⟩
def TW_CNT_CRCERR : Field := ⟨0x3834, 15, 0⟩
def TW_DOWN_RETRAINS : Field := ⟨0x3838, 31, 16⟩
def TW_DOWN_DOWNS : Field := ⟨0x3838, 15, 0⟩
def TW_DROP_COUNT : Field := ⟨0x383C, 15, 0⟩
def FC_CFG_CHIPRST_MAX : Field := ⟨0x3C00, 19, 16⟩
def FC_CFG_IRQ_GAP : Field := ⟨0x3C00, 15, 0⟩
def FC_STATUS_RST_COUNT : Field := ⟨0x3C04, 11, 8⟩
def FC_STATUS_ERRN : Field := ⟨0x3C04, 7, 7⟩
def FC_STATUS_HIGHEST : Field := ⟨0x3C04, 6, 5⟩
def FC_STATUS_NMT_PEND : Field := ⟨0x3C04, 4, 4⟩
def FC_STATUS_DEFER : Field := ⟨0x3C04, 3, 3⟩
def FC_STATUS_RST_LIMIT : Field := ⟨0x3C04, 2, 2⟩
def FC_STATUS_HIST_PEND : Field := ⟨0x3C04, 1, 1⟩
def FC_STATUS_INJ_ACTIVE : Field := ⟨0x3C04, 0, 0⟩
def FC_FIRST_VALID : Field := ⟨0x3C08, 31, 31⟩
def FC_FIRST_ACKED : Field := ⟨0x3C08, 30, 30⟩
def FC_FIRST_FORCED : Field := ⟨0x3C08, 29, 29⟩
def FC_FIRST_PROMOTED : Field := ⟨0x3C08, 28, 28⟩
def FC_FIRST_CLASS : Field := ⟨0x3C08, 27, 26⟩
def FC_FIRST_REACT : Field := ⟨0x3C08, 25, 21⟩
def FC_FIRST_MCNT : Field := ⟨0x3C08, 20, 8⟩
def FC_FIRST_SOURCE : Field := ⟨0x3C08, 5, 0⟩
def FC_FTIMEL_TIME_LO : Field := ⟨0x3C0C, 31, 0⟩
def FC_FTIMEH_TIME_HI : Field := ⟨0x3C10, 15, 0⟩
def FC_FSYNL_SYN_LO : Field := ⟨0x3C14, 31, 0⟩
def FC_FSYNH_SYN_HI : Field := ⟨0x3C18, 31, 0⟩
def FC_MERGE0_MERGE : Field := ⟨0x3C1C, 31, 0⟩
def FC_MERGE1_MERGE : Field := ⟨0x3C20, 31, 0⟩
def FC_OVF_OVF : Field := ⟨0x3C24, 31, 31⟩
def FC_OVF_COUNT : Field := ⟨0x3C24, 15, 0⟩
def FC_STICKY0_STICKY : Field := ⟨0x3C28, 31, 0⟩
def FC_STICKY1_STICKY : Field := ⟨0x3C2C, 31, 0⟩
def FC_LIVE0_LIVE : Field := ⟨0x3C30, 31, 0⟩
def FC_LIVE1_LIVE : Field := ⟨0x3C34, 31, 0⟩
def FC_PIN0_PIN : Field := ⟨0x3C38, 31, 0⟩
def FC_PIN1_PIN : Field := ⟨0x3C3C, 31, 0⟩
def FC_CTRL_CLR_STICKY : Field := ⟨0x3C40, 1, 1⟩
def FC_CTRL_ACK : Field := ⟨0x3C40, 0, 0⟩
def FC_SEL_SOURCE : Field := ⟨0x3C44, 5, 0⟩
def FC_SRC_THR : Field := ⟨0x3C48, 23, 16⟩
def FC_SRC_PRXN : Field := ⟨0x3C48, 13, 9⟩
def FC_SRC_RXN : Field := ⟨0x3C48, 8, 4⟩
def FC_SRC_PCLASS : Field := ⟨0x3C48, 3, 2⟩
def FC_SRC_CLASS : Field := ⟨0x3C48, 1, 0⟩
def FC_WIN_MS : Field := ⟨0x3C4C, 21, 0⟩
def FC_SCNT_TOTAL : Field := ⟨0x3C50, 31, 16⟩
def FC_SCNT_PROMS : Field := ⟨0x3C50, 15, 8⟩
def FC_SCNT_WCOUNT : Field := ⟨0x3C50, 7, 0⟩
def FC_FORCE0_FORCE : Field := ⟨0x3C54, 31, 0⟩
def FC_FORCE1_FORCE : Field := ⟨0x3C58, 31, 0⟩
def FC_FSYNFL_SYN_LO : Field := ⟨0x3C5C, 31, 0⟩
def FC_FSYNFH_SYN_HI : Field := ⟨0x3C60, 31, 0⟩
def FC_INJ_HCT : Field := ⟨0x3C64, 31, 31⟩
def FC_INJ_LD_ARM : Field := ⟨0x3C64, 30, 30⟩
def FC_INJ_LD_PORT : Field := ⟨0x3C64, 29, 29⟩
def FC_INJ_KP_ARM : Field := ⟨0x3C64, 28, 28⟩
def FC_INJ_MASK : Field := ⟨0x3C64, 23, 16⟩
def FC_INJ_CA_N : Field := ⟨0x3C64, 15, 8⟩
def FC_INJ_TW_N : Field := ⟨0x3C64, 7, 0⟩
def FC_HIST_LOST : Field := ⟨0x3C68, 31, 16⟩
def FC_HIST_MIN_GAP : Field := ⟨0x3C68, 15, 0⟩
def CN_CFG_AUTOBAUD : Field := ⟨0x4000, 16, 16⟩
def CN_CFG_LEASE : Field := ⟨0x4000, 15, 0⟩
def CN_UART_BAUD : Field := ⟨0x4004, 31, 16⟩
def CN_UART_RATE : Field := ⟨0x4004, 15, 0⟩
def CN_I3C_MRL : Field := ⟨0x4008, 25, 16⟩
def CN_I3C_IBI_EN : Field := ⟨0x4008, 9, 9⟩
def CN_I3C_DA_VALID : Field := ⟨0x4008, 8, 8⟩
def CN_I3C_DA : Field := ⟨0x4008, 6, 0⟩
def CN_SESS_DEFERRED : Field := ⟨0x400C, 19, 16⟩
def CN_SESS_LAST_SEQ : Field := ⟨0x400C, 15, 8⟩
def CN_SESS_AUTH : Field := ⟨0x400C, 3, 3⟩
def CN_SESS_SCRIPT : Field := ⟨0x400C, 2, 2⟩
def CN_SESS_HOLDER : Field := ⟨0x400C, 1, 0⟩
def CN_STAT0_CRCERR : Field := ⟨0x4010, 31, 16⟩
def CN_STAT0_DUP : Field := ⟨0x4010, 15, 0⟩
def CN_STAT1_REFUSED : Field := ⟨0x4014, 31, 16⟩
def CN_STAT1_OVERRUN : Field := ⟨0x4014, 15, 8⟩
def CN_STAT1_WAKELOST : Field := ⟨0x4014, 7, 0⟩
def CN_STAT2_EVLOST : Field := ⟨0x4018, 31, 16⟩
def CN_STAT2_IBILOST : Field := ⟨0x4018, 15, 0⟩
def SN_CTRL_PERIOD : Field := ⟨0x4400, 15, 0⟩
def SN_TEMP_VALID : Field := ⟨0x4404, 31, 31⟩
def SN_TEMP_RANGE : Field := ⟨0x4404, 30, 30⟩
def SN_TEMP_HIGH : Field := ⟨0x4404, 29, 29⟩
def SN_TEMP_CODE : Field := ⟨0x4404, 15, 0⟩
def SN_HOT_VALID : Field := ⟨0x4414, 31, 31⟩
def SN_HOT_SENSOR : Field := ⟨0x4414, 29, 28⟩
def SN_HOT_CODE : Field := ⟨0x4414, 15, 0⟩
def SN_MAX_SAT : Field := ⟨0x4418, 31, 31⟩
def SN_MAX_SENSOR : Field := ⟨0x4418, 29, 28⟩
def SN_MAX_CODE : Field := ⟨0x4418, 15, 0⟩
def SN_THR_HYST : Field := ⟨0x441C, 23, 16⟩
def SN_THR_CRIT : Field := ⟨0x441C, 15, 8⟩
def SN_THR_WARN : Field := ⟨0x441C, 7, 0⟩
def SN_STATUS_CRIT_ON : Field := ⟨0x4420, 5, 5⟩
def SN_STATUS_WARN_ON : Field := ⟨0x4420, 4, 4⟩
def SN_STATUS_RANGE : Field := ⟨0x4420, 3, 0⟩
def SN_PEAK_CODE : Field := ⟨0x4424, 15, 0⟩
def TR_CTRL_MASK : Field := ⟨0x4800, 31, 18⟩
def TR_CTRL_CLEAR : Field := ⟨0x4800, 1, 1⟩
def TR_CTRL_FREEZE : Field := ⟨0x4800, 0, 0⟩
def TR_STATUS_RUNNING : Field := ⟨0x4804, 31, 31⟩
def TR_STATUS_RELOADED : Field := ⟨0x4804, 30, 30⟩
def TR_STATUS_COUNT : Field := ⟨0x4804, 10, 0⟩
def TR_LOST_FIFO : Field := ⟨0x4808, 31, 16⟩
def TR_LOST_RING : Field := ⟨0x4808, 15, 0⟩
def TR_FIFO_DEPTH : Field := ⟨0x480C, 6, 0⟩
def TR_SPILL_VALID : Field := ⟨0x4810, 31, 31⟩
def TR_SPILL_POS : Field := ⟨0x4810, 28, 24⟩
def TR_SPILL_ENTRIES : Field := ⟨0x4810, 10, 0⟩
def TR_IDX_AGE : Field := ⟨0x4814, 9, 0⟩
def TR_E0_DATA : Field := ⟨0x4818, 31, 0⟩
def TR_E1_DATA : Field := ⟨0x481C, 31, 0⟩
def TR_E2_DATA : Field := ⟨0x4820, 31, 0⟩
def TR_E3_DATA : Field := ⟨0x4824, 31, 0⟩
def MT_CFG_STARTUP : Field := ⟨0x4C00, 1, 0⟩
def MT_CTRL_START : Field := ⟨0x4C04, 31, 31⟩
def MT_CTRL_ABORT : Field := ⟨0x4C04, 30, 30⟩
def MT_CTRL_TARGETS : Field := ⟨0x4C04, 20, 16⟩
def MT_CTRL_ALG : Field := ⟨0x4C04, 13, 12⟩
def MT_CTRL_SPARE_PASS : Field := ⟨0x4C04, 9, 9⟩
def MT_CTRL_MODE : Field := ⟨0x4C04, 8, 8⟩
def MT_CTRL_BGS : Field := ⟨0x4C04, 7, 4⟩
def MT_BANKS_BANKS : Field := ⟨0x4C08, 15, 0⟩
def MT_STATUS_BUSY : Field := ⟨0x4C0C, 31, 31⟩
def MT_STATUS_DONE : Field := ⟨0x4C0C, 30, 30⟩
def MT_STATUS_PASS : Field := ⟨0x4C0C, 29, 29⟩
def MT_STATUS_ABORTED : Field := ⟨0x4C0C, 28, 28⟩
def MT_STATUS_BURNING : Field := ⟨0x4C0C, 27, 27⟩
def MT_STATUS_BURN_FAIL : Field := ⟨0x4C0C, 26, 26⟩
def MT_STATUS_ORIGIN : Field := ⟨0x4C0C, 25, 24⟩
def MT_STATUS_PHASE : Field := ⟨0x4C0C, 23, 20⟩
def MT_STATUS_TRACE_OUT : Field := ⟨0x4C0C, 17, 17⟩
def MT_STATUS_HCT_OUT : Field := ⟨0x4C0C, 16, 16⟩
def MT_STATUS_MEM_FAIL : Field := ⟨0x4C0C, 4, 0⟩
def MT_BFAIL_BANKS : Field := ⟨0x4C10, 15, 0⟩
def MT_SEL_SEL : Field := ⟨0x4C14, 4, 0⟩
def MT_COL0_COL : Field := ⟨0x4C18, 31, 0⟩
def MT_COL1_COL : Field := ⟨0x4C1C, 31, 0⟩
def MT_COL2_COL : Field := ⟨0x4C20, 7, 0⟩
def MT_FIRST_VALID : Field := ⟨0x4C24, 31, 31⟩
def MT_FIRST_SPARE : Field := ⟨0x4C24, 30, 30⟩
def MT_FIRST_BG : Field := ⟨0x4C24, 29, 28⟩
def MT_FIRST_ELEMENT : Field := ⟨0x4C24, 27, 25⟩
def MT_FIRST_BIT : Field := ⟨0x4C24, 21, 15⟩
def MT_FIRST_WORD : Field := ⟨0x4C24, 14, 0⟩
def MT_FCNT_COUNT : Field := ⟨0x4C28, 31, 0⟩
def MT_SPARE_TORN : Field := ⟨0x4C2C, 15, 12⟩
def MT_SPARE_USED : Field := ⟨0x4C2C, 7, 4⟩
def MT_SPARE_GOOD : Field := ⟨0x4C2C, 3, 0⟩
def MT_FUSE_ENTRY0 : Field := ⟨0x4C30, 7, 0⟩
def MT_FUSE_ENTRY1 : Field := ⟨0x4C30, 15, 8⟩
def MT_FUSE_ENTRY2 : Field := ⟨0x4C30, 23, 16⟩
def MT_FUSE_ENTRY3 : Field := ⟨0x4C30, 31, 24⟩
def MT_BURN_GO : Field := ⟨0x4C34, 31, 31⟩
def MT_BURN_SPARE : Field := ⟨0x4C34, 29, 28⟩
def MT_BURN_COL : Field := ⟨0x4C34, 22, 16⟩
def MT_BURN_BANK : Field := ⟨0x4C34, 3, 0⟩
def MT_TIME_US : Field := ⟨0x4C38, 31, 0⟩

end Fld

end Sys2Proof.Machine
end

