-- ==== Sys2Proof/Machine/Sparse.lean ====
section
/-! DEFINITION. Reading and writing a sparse map. `d` gives the value that an unlisted key reads as;
a write of that value removes the entry, so that equal contents are equal data. -/

namespace Sys2Proof.Machine

/-- The value at key `k`. -/
def smGet {w : Nat} (d : Nat → BitVec w) (m : SMap w) (k : Nat) : BitVec w :=
  match m with
  | [] => d k
  | e :: t => if e.1 = k then e.2 else smGet d t k

/-- `m` without any entry for `k`. -/
def smErase {w : Nat} (m : SMap w) (k : Nat) : SMap w :=
  m.filter (fun e => e.1 ≠ k)

/-- Put an entry in front of the first entry with a larger key. -/
def smInsert {w : Nat} (m : SMap w) (k : Nat) (v : BitVec w) : SMap w :=
  match m with
  | [] => [(k, v)]
  | e :: t => if k < e.1 then (k, v) :: e :: t else e :: smInsert t k v

/-- Write `v` at key `k`, keeping the canonical form. -/
def smSet {w : Nat} (d : Nat → BitVec w) (m : SMap w) (k : Nat) (v : BitVec w) : SMap w :=
  if v = d k then smErase m k else smInsert (smErase m k) k v

/-- Forget every entry whose key satisfies `p`: those keys read as unlisted again. -/
def smDrop {w : Nat} (m : SMap w) (p : Nat → Bool) : SMap w :=
  m.filter (fun e => !p e.1)

/-- Keys strictly rising. -/
def smSorted {w : Nat} : SMap w → Bool
  | [] => true
  | [_] => true
  | a :: b :: t => decide (a.1 < b.1) && smSorted (b :: t)

/-- The canonical form: keys strictly rising, no entry equal to the unlisted value. -/
def smWf {w : Nat} (d : Nat → BitVec w) (m : SMap w) : Bool :=
  smSorted m && m.all (fun e => decide (e.2 ≠ d e.1))

/-- Every unlisted key reads 0. -/
def zeroDefault (w : Nat) (_ : Nat) : BitVec w := 0

/-- Write a list of values at consecutive keys from `k` on. -/
def smSetList {w : Nat} (d : Nat → BitVec w) (m : SMap w) (k : Nat) : List (BitVec w) → SMap w
  | [] => m
  | v :: vs => smSetList d (smSet d m k v) (k + 1) vs

/-- The values at `n` consecutive keys from `k` on. -/
def smGetList {w : Nat} (d : Nat → BitVec w) (m : SMap w) (k : Nat) (n : Nat) : List (BitVec w) :=
  (List.range n).map (fun i => smGet d m (k + i))

end Sys2Proof.Machine
end

