-- ==== Sys2Proof/Machine/State.lean ====
section
/-! DEFINITION. The state of the block: every register (in one sparse map, keyed by its home address), the
staged and committed copies, every queue, buffer, counter, mode and pin that the spec names, the fuses and
the keep, and the queue of waiting commands. -/

namespace Sys2Proof.Machine

/-- The faults that stop the block. The spec gives every command of the table an effect in every state, so
no command ends in a fault, and the type has no constructor. -/
inductive Fault where
  deriving DecidableEq, Repr

/-- Why a command has no meaning. -/
inductive Refusal where
  /-- The dispatch table has no meaning for the command of that mnemonic yet (safe: the model stops). -/
  | notModelled (mnemonic : String)
  deriving DecidableEq, Repr

/-! ### Pins and power -/

/-- Where the device stands with respect to AONRST_N and its start-up phase (R25, R87). -/
inductive Boot where
  /-- AONRST_N is low. -/
  | held
  /-- Reset has ended and the start-up phase has not run yet. -/
  | starting
  /-- The start-up phase has ended. -/
  | up
  deriving DecidableEq, Repr

/-- The level set that the hold island has latched (Table BS-11, R36, R37). -/
inductive Island where
  /-- Reset levels. -/
  | reset
  /-- Self-refresh levels. -/
  | selfRefresh
  /-- VDDQD fell below its range: the levels are undefined. -/
  | undefined
  deriving DecidableEq, Repr

/-- The pins of the device that carry state of their own (Tables BS-5 to BS-9). -/
structure Pins where
  /-- HOLDACK is high. -/
  holdack : Bool
  /-- RDY is high. -/
  rdy : Bool
  /-- The ERR_N level latched at S7 (low = true), held in HOLD and DORMANT (R29). -/
  errHeld : Option Bool
  /-- PGOOD recognised high (R24). -/
  pgood : Bool
  /-- VDDQD within its range. -/
  vddqd : Bool
  island : Island
  /-- The hold island has given up the pins: the DRAM PHY drives them (R36). -/
  given : Bool
  /-- HALERT_N pulses since the last tick: the phase of the pulse is then a matter of nanoseconds. -/
  halertBusy : Bool
  /-- A pulse is owed at the end of the 40 ns release (R127). -/
  halertOwed : Bool
  deriving DecidableEq, Repr

/-- The clocks beside CK_STATUS (R73 to R86). -/
structure Clocks where
  /-- TICK_DISC has been set since discipline last started (R75). -/
  discOnce : Bool
  /-- Consecutive windows within ±0.1 % (saturating at 4). -/
  discGood : Nat
  /-- Consecutive windows beyond ±0.5 % (saturating at 16). -/
  discBad : Nat
  /-- Discipline was stopped by FS 51 (R75). -/
  discStopped : Bool
  /-- The park was entered by a clock event (Table FC-3, FS 10). -/
  clockPark : Bool
  /-- Consecutive counts outside ±4 % of the set in force (R92). -/
  offCounts : Nat
  /-- The last tick-gated count matched an enabled set, and which (R83). -/
  lastMatch : Option Nat
  /-- The last tick-gated count since HCK was last lost lay within ±4 % of the rate set in force (R93). -/
  fits : Bool
  /-- The AON time of the release of AONRST_N or of CHIPRST (CK_BOOTT). -/
  bootFrom : Time
  deriving DecidableEq, Repr

/-- The fuses (Table RX-8, R4, R72, R299, R433, R435). -/
structure Fuses where
  /-- Maximum data rate in hundreds of MT/s: 64 or 80. -/
  speed : BitVec 8
  /-- X temperature grade. -/
  tempX : Bool
  tickTrim : BitVec 8
  /-- The device key KD. -/
  deviceKey : BitVec 256
  /-- Life-cycle fuses LC[3:0]. -/
  lc : BitVec 4
  /-- Spare-column fuse entries, keyed by bank * 4 + spare: [7] parity, [8] valid, [6:0] column. -/
  spares : SMap 9
  /-- Entries whose burn failed its verify: they are torn from the next P1 on (R302). -/
  spoilt : List Nat
  deriving DecidableEq, Repr

/-! ### Trace and faults -/

/-- One trace entry (R508). -/
structure TraceEntry where
  time : Time
  code : BitVec 16
  args : Dword
  deriving DecidableEq, Repr

/-- The trace ring and the AON FIFO (R509 to R514). -/
structure TraceUnit where
  /-- Entries of the main ring, oldest first. -/
  ring : List TraceEntry
  /-- Entries of the AON FIFO, oldest first. -/
  fifo : List TraceEntry
  /-- The strap entry of R34 waits for the ring to run. -/
  strapOwed : Bool
  /-- The AON time latched at the end of S7 (R513). -/
  s7Time : Option Time
  deriving DecidableEq, Repr

/-- The events of one source accumulated since the last tick (R398). -/
structure Collection where
  src : Nat
  count : Nat
  syn : Dword
  forced : Bool
  deriving DecidableEq, Repr

/-- The IRQ gap of one source (R404). -/
structure IrqGap where
  src : Nat
  last : Time
  held : Nat
  deriving DecidableEq, Repr

/-- A write to the FC block that waits for the next tick (R398): the bits of `mask` take `value`; `bank` names the source
where the write is not that of FC_SEL. -/
structure FcWrite where
  addr : Nat
  value : Word
  mask : Word
  bank : Option Nat
  deriving DecidableEq, Repr

/-- A fault-history entry that waits to be written (R419, R420). -/
structure HistEntry where
  src : Nat
  cls : Nat
  flags : Nat
  react : Nat
  time : Time
  mcnt : Nat
  syn : Dword
  merge : Dword
  /-- It is a promotion entry, which never waits (R420). -/
  promo : Bool
  deriving DecidableEq, Repr

/-- The fault collector beside its registers (R397 to R424). -/
structure FaultUnit where
  /-- Events accumulated by the detectors since the last tick, one entry a source. -/
  events : List Collection
  /-- FC register writes held until the next tick, in order. -/
  writes : List FcWrite
  /-- Sticky class of each source (R399). -/
  cls : SMap 2
  irq : List IrqGap
  /-- Sources with a pending NMT. -/
  nmt : List Nat
  /-- The source whose trap handler runs. -/
  nmtRun : Option Nat
  /-- Reactions held by R409: source and reaction bits. -/
  deferred : List (Nat × Nat)
  /-- The reset report of R407 owed after the start-up phase. -/
  resetReport : Option Nat
  /-- History entries that wait to be written, oldest first (R420). -/
  hist : List HistEntry
  /-- AON time of the last history write (R420). -/
  lastHist : Option Time
  /-- Ring position and SEQ of the next history entry, once one has been written. -/
  histPos : Option (Nat × Nat)
  deriving DecidableEq, Repr

/-! ### Command path, data lanes, Lane Guard -/

/-- What the DRAM side sees in the slot of the last host command (Table CA-1). -/
inductive Slot where
  | deselect
  | command (p : CaPins)
  deriving DecidableEq, Repr

/-- A command that the device itself issues to the DRAM (R98). -/
inductive OwnCmd where
  | preab (rank : Nat)
  | refab (rank : Nat)
  | sre (rank : Nat)
  | srx (rank : Nat)
  /-- A gap-mode read of a burst of a scratch row (R230), by reserved row index 2 or 3 and column. -/
  | probeRead (rank row col : Nat)
  /-- A gap-mode write of a burst of a scratch row: its data on the six lanes, and the transmit offset under test on each bit
  (lane * 8 + bit; none where none is, R231). -/
  | probeWrite (rank row col : Nat) (data : BitVec 768) (offsets : List Int)
  /-- A step of full training, 1 to 6 for F1 to F6, on a lane of a rank (6 the C/A outputs): the training modes and MPC read
  patterns of JESD79-5 for F1 to F4, the write and read-back pairs in scratch row 3 for F5, and 4,096 bursts of PRBS-15 written
  and read in scratch row 2 for F6 (Table CD-4). -/
  | train (rank step lane : Nat)
  /-- Full training sets the VrefDQ of a DRAM (F5). -/
  | vrefDq (rank lane : Nat) (code : BitVec 8)
  /-- The canary sequence is written to canary row `row` of a rank, on all six lanes (R337). -/
  | canary (rank row : Nat)
  /-- The canary and scratch rows of a rank are written for the first time (B8, U6). -/
  | reserved (rank : Nat)
  /-- The device initialises a rank (B6, Table HR-5): DRST_N, the mode registers of the rate set. -/
  | init (rank : Nat)
  deriving DecidableEq, Repr

/-- What a data burst that a command opened belongs to. -/
inductive BurstKind where
  /-- A DRAM row. -/
  | dram
  /-- A row under the aperture: the ledger serves it (R115, R116); `fwd` = the command was forwarded too. -/
  | aperture (line : Nat) (fwd : Bool)
  /-- Mode-register data of a forwarded MRR (R97). -/
  | mrr
  /-- A write that was dropped (R100, R106): its data is not received (R142). -/
  | dropped
  deriving DecidableEq, Repr

/-- A burst opened by a command and not yet transferred (R142). -/
structure OpenBurst where
  rank : Nat
  bg : Nat
  bank : Nat
  row : Nat
  col : Nat
  /-- Burst-order column bits (Table CA-8). -/
  bo : Nat
  kind : BurstKind
  /-- HL_SNOOP as the command was issued: a later MRW does not touch the burst (R135). -/
  snoop : Word
  /-- The lane whose samplers stand off their centres for this read although its sweep has ended (R221). -/
  swept : Option Nat
  deriving DecidableEq, Repr

/-- The SAVE_ARM state (R109). -/
inductive Arm where
  | none
  /-- Armed, and no other BCW command came since. -/
  | armed
  /-- Armed, but another BCW command came in between. -/
  | broken
  deriving DecidableEq, Repr

/-- The command path beside its registers (R96 to R129). -/
structure CmdPath where
  /-- Tracked open row per bank, keyed by rank * 32 + bg * 4 + bank; bit 17 set = open. -/
  rows : SMap 18
  /-- A write of PAR_CLEAR, CA_CLR.UNBLOCK or `ca unblock` waits its 16 tCK. -/
  clearing : Bool
  /-- The buffer control word page in force. -/
  page : Nat
  arm : Arm
  /-- GRANT_RANK. -/
  grantRank : Nat
  /-- A GRANT_LEN write waits its 16 tCK. -/
  grantPend : Option Nat
  /-- AON time of the last REFab of a rank: [48] valid (R336). -/
  refAt : SMap 49
  /-- REFab commands per rank since the last probe (R122). -/
  refCount : SMap 8
  /-- Ranks whose next probe slot begins when TRFC has elapsed (R122). -/
  probeDue : Nat
  /-- Ranks on which a reservation probe has been issued since the last tick. -/
  probing : Nat
  /-- HALERT_N pulses since the last read of ALERTS. -/
  alerts : Nat
  /-- The RESTORE buffer control word. -/
  restoreWord : Nat
  /-- The DRAM timings at the rate set in force (R570); none before one is. -/
  timings : Option DramTimings
  /-- DRAM-side slot of the last host command. -/
  slot : Slot
  /-- Levels last driven on DCA_A and DCA_B (R103). -/
  dcaA : BitVec 14
  dcaB : BitVec 14
  /-- DCS_N as last driven outside the park. -/
  dcsN : BitVec 4
  /-- The commands that the device itself has issued since PD_CORE came up, oldest first. -/
  own : List OwnCmd
  deriving DecidableEq, Repr

/-- A burst sent to the DRAM (R139): 768 data bits, bit k of beat b of lane d at b * 48 + d * 8 + k, and with write CRC on the
fresh CRC of each of the six lanes, D0 lowest. -/
structure DramWrite where
  rank : Nat
  data : BitVec 768
  crc : Option (BitVec 96)
  deriving DecidableEq, Repr

/-- The data lanes beside their registers (R130 to R155). -/
structure DataLanes where
  /-- Write bursts opened and not yet received, oldest first. -/
  writes : List OpenBurst
  /-- Read bursts opened and not yet returned by the DRAM, oldest first. -/
  reads : List OpenBurst
  /-- The last burst delivered to the host. -/
  hostRead : Option (BitVec 640)
  /-- The read preamble and postamble code with which it was driven (R137). -/
  readPre : Nat
  /-- The value of the last MRR of a buffer control word; every host lane carries it (R148). -/
  hostMrr : Option Byte
  /-- The last burst sent to the DRAM. -/
  dramWrite : Option DramWrite
  /-- The write preamble and postamble code of the last burst received, with which the DRAM is driven too (R137). -/
  writePre : Nat
  /-- What the responder last put on the eight HDQ bits of the five lanes in a training step, H0 lowest (R145). -/
  reply : Option (BitVec 40)
  /-- Training step in progress (TR_STAT [7:5]). -/
  step : Nat
  /-- TR_SEL. -/
  sel : Nat
  /-- TR_CTRL.HOLD. -/
  hold : Bool
  /-- TR_EVAL. -/
  evals : Nat
  /-- Ranks written since the end of S1 (R144). -/
  writtenS1 : Nat
  /-- The snooped settings (0 CL, 1 read preamble, 2 write preamble, 3 write CRC) that some populated rank has not received
  since their last change, each with the ranks that have (R136). -/
  skew : List (Nat × Nat)
  deriving DecidableEq, Repr

/-- A failure of a lane that waits for the boundary of its rank (R169, R171). -/
structure LanePend where
  rank : Nat
  lane : Nat
  cause : Nat
  /-- It is a second failure. -/
  second : Bool
  deriving DecidableEq, Repr

/-- The HCT load that is under way (R179). -/
inductive HctPend where
  | none
  | verifying
  /-- Verified; waits for a boundary. -/
  | load (strong : Bool)
  deriving DecidableEq, Repr

/-- A host-code table (R178): its words as the window numbers them, and its ROWS. -/
structure HctTable where
  words : SMap 32
  rows : Nat
  deriving DecidableEq, Repr

/-- Lane Guard beside its registers (R156 to R185). -/
structure Guard where
  /-- The HCT window words 0 to 2,563. -/
  hct : SMap 32
  pend : HctPend
  /-- ROWS of the table in verification or waiting for its boundary. -/
  hctRows : Nat
  /-- The table in force (R568). -/
  table : HctTable
  /-- An unload waits for a boundary. -/
  unloadDue : Bool
  /-- Pending erasures and second failures, oldest first. -/
  fails : List LanePend
  /-- Ranks whose readmission waits for its boundary. -/
  readmit : List Nat
  /-- LG_CCNT increments since the last erasure decision, keyed by rank * 6 + lane (R168). -/
  inc : SMap 32
  /-- FS 16 has been promoted, and the Steward's decision is due (R168). -/
  decide : Bool
  deriving DecidableEq, Repr

/-! ### Calibration -/

/-- A host-side trial that gathers its samples: CB_LIMITS and CB_REPEAT as it began (R203), whether it is an acquisition
(R211), and the scans of its bits. -/
structure Scan where
  lim : Word
  rep : Word
  acq : Bool
  bits : List BitScan
  deriving DecidableEq, Repr

/-- What a completed trial measured, after R189 and R190. -/
structure TrialResult where
  /-- Timing moves per bit. -/
  moves : List Int
  /-- Vref move in codes. -/
  vmove : Int
  /-- Offset moves per bit in codes (R210). -/
  offs : List Int
  /-- Eye widths and heights per bit. -/
  ws : List Nat
  hs : List Nat
  deriving DecidableEq, Repr

/-- The shadow sweep that runs (R220 to R226). -/
structure Sweep where
  rank : Nat
  lane : Nat
  /-- The trial under way: limits as it began, and its scans. -/
  lim : Word
  rep : Word
  bits : List BitScan
  /-- Read beats of the lane that the trial has compared. -/
  beats : Nat
  /-- Trial A when it has passed. -/
  first : Option TrialResult
  /-- A kind-8 event ended it (R176, R224). -/
  kind8 : Bool
  /-- Its trial was abandoned; it ends at the next boundary (R221, R222). -/
  ending : Bool
  deriving DecidableEq, Repr

/-- The gap-mode trial of one rank (R231 to R234). -/
structure GapTrial where
  rank : Nat
  /-- Write trial, else read trial. -/
  write : Bool
  /-- CB_LIMITS and CB_REPEAT as it began (R203). -/
  lim : Word
  rep : Word
  /-- The DRAM lanes that it measures, one bit a lane. -/
  lanes : Nat
  /-- Its two runs: the scans of the six lanes; the second begins when the first is complete. -/
  runA : List (List BitScan)
  runB : List (List BitScan)
  /-- Bursts of scratch row 2 still to be written before its first read (Table CD-3). -/
  fill : Nat
  /-- The column of its next burst. -/
  col : Nat
  /-- The burst of a write probe that waits for its read-back (R230, R235). -/
  sent : Option (BitVec 768)
  /-- A probe or grant reached the rank during the trial. -/
  reached : Bool
  /-- The host hit a scratch row during the trial (R234). -/
  hit : Bool
  deriving DecidableEq, Repr

/-- The calibration engines beside the CB registers (R186 to R241). -/
structure Calib where
  /-- Values made pending by engines: register home to mask (upper half) and value. -/
  pend : SMap 64
  /-- Quality figures per bit: [18] valid, [17:16] grade, [15:8] H, [7:0] W. -/
  quality : SMap 19
  /-- Scopes whose values in force came from an accepted evaluation or a record (R192). -/
  known : SMap 1
  /-- Scopes with an accepted evaluation whose values wait for their boundary (R192). -/
  fresh : List Nat
  /-- The trials that run on the host lanes (0 to 4) and on the C/A receivers (5). -/
  hosts : List (Nat × Scan)
  /-- Host lanes and C/A receivers (5) whose pause of Table CH-2 has taken effect, one bit each. -/
  held : Nat
  /-- TR_CTRL.HOLD has come into force (R147). -/
  holdOn : Bool
  /-- DRAM lanes whose CAL_HOLD has taken effect (Table CD-2). -/
  heldDram : Nat
  /-- Consecutive host-side rejections per lane (R211). -/
  rejects : SMap 8
  sweep : Option Sweep
  /-- The place in the round that the next sweep takes: rank * 6 + lane (R220). -/
  round : Nat
  gaps : List GapTrial
  /-- PRBS-15 of the write probes of a lane of a rank, keyed by rank * 6 + lane: [15] started (Table CD-3). -/
  prbs : SMap 16
  /-- The VrefDQ code that full training last gave a DRAM, keyed by rank * 6 + lane: [8] set (F5). -/
  vrefDq : SMap 9
  /-- Trims as the stored record holds them (STORE_DUE, R201). -/
  stored : SMap 32
  /-- SEQ of the higher valid copy found at the last load or store. -/
  seq : Word
  lastStore : Time
  /-- Store under way and whether its keep write was ordered by full training. -/
  storing : Bool
  deriving DecidableEq, Repr

/-! ### The console -/

/-- An in-band interrupt that waits (Table CP-1, R459). -/
structure Ibi where
  mdb : Byte
  data : Option Byte
  tries : Nat
  deriving DecidableEq, Repr

/-- The console beside its registers (R450 to R473). -/
structure Console where
  /-- The line typed so far, and whether it is too long, lost bytes to overflow, or holds a forbidden byte. -/
  line : List Byte
  long : Bool
  overrun : Bool
  badByte : Bool
  /-- The last byte was a CR (R456). -/
  afterCr : Bool
  /-- Bytes of the I3C input buffer that wait for the reply under way (R466); `none` stands where bytes were lost. -/
  input : List (Option Byte)
  /-- Reply lines not yet in the output queue. -/
  reply : List String
  /-- The 1,024-byte output queue (R458). -/
  out : List Byte
  /-- Bytes sent on CON_TX since the last byte was received. -/
  tx : List Byte
  /-- Event lines that wait (R472). -/
  events : List String
  /-- Event lines dropped since the last `! lost` line. -/
  dropped : Nat
  /-- Waiting in-band interrupts (R459). -/
  ibis : List Ibi
  /-- Outstanding tokens of deferred commands, with what each waits for (R471). -/
  tokens : List (Nat × Nat)
  nextToken : Nat
  /-- The last executed script line: sequence number, command text and reply lines (R465). -/
  last : Option (Nat × String × List String)
  /-- A reply is being formed: event lines wait (R461). -/
  busy : Bool
  /-- The session ends when the output queue has been read (`auth end` over I3C, R453). -/
  ending : Bool
  mwl : Nat
  /-- When the last byte of the lease holder arrived (R451). -/
  heard : Time
  /-- What the target answered to the last CCC or private transfer: its bytes, or none for a NACK (R457, R458). -/
  answer : Option (List Byte)
  deriving DecidableEq, Repr

/-- The IEEE 1149.1 port (R44 to R48). -/
structure Tap where
  /-- The instruction register. -/
  ir : BitVec 4
  /-- The boundary register, cell 0 first in bit 0. -/
  boundary : BitVec 449
  /-- The 1-bit bypass register. -/
  bypass : Bool
  deriving DecidableEq, Repr

/-! ### Ledger, keep and Garnet -/

/-- An op-slot descriptor received and not yet executed (R273, R281). -/
structure OpDesc where
  slot : Nat
  line : BitVec 640
  /-- The host-code table in force at its last beat (E1): the operation uses it to its end (R282). -/
  table : HctTable
  /-- The status of its validation (Table LO-4), and whether the replay guard found it in its slot (E2, R285). -/
  status : Nat
  replay : Bool
  deriving DecidableEq, Repr

/-- The ledger beside its registers (R242 to R287). All content is held as stored 72-bit words. -/
structure Ledger where
  /-- Line words, keyed by line * 10 + word. -/
  words : SMap 72
  /-- Dirty bitmap words, keyed by bitmap * 512 + index; an unlisted word has every line marked. -/
  maps : SMap 72
  /-- Tag words of banks 0 to 15 and of the bitmaps (16, 17). -/
  tags : SMap 72
  /-- The copies of the tags in PD_AON: [48] valid, [47:0] time. -/
  tagCopy : SMap 49
  /-- Corrected words that wait for their write-back (R255), by word key. -/
  scrub : List Nat
  /-- Descriptors in the order of their last beats. -/
  ops : List OpDesc
  /-- Banks whose background scan runs (R267). -/
  scanning : List Nat
  /-- AUTO_RETAIN and REPL_HOST as written, while they wait for every parked bank to wake (R268). -/
  cfgNext : Option (Bool × Bool)
  /-- MIRROR_IN_FORCE as it stood when PGOOD took PD_CORE away in SERVICE: the ledger's halves stay as they were (R247). -/
  mirrorHeld : Bool
  deriving DecidableEq, Repr

/-- A commit in progress (Table KP-6). -/
structure Commit where
  slot : Nat
  /-- 0 save, 1 checkpoint, 2 refresh checkpoint. -/
  kind : Nat
  start : Time
  /-- SEQ of its BEGIN entry. -/
  pseq : Nat
  /-- Lines written, and those written with an uncorrectable word. -/
  lines : SMap 1
  poison : SMap 1
  deriving DecidableEq, Repr

/-- A failed record store that is tried once more (R312). -/
inductive Retry where
  /-- The configuration record, with the generation it was to carry. -/
  | config (gen : Nat)
  /-- The calibration record of the rate set in force. -/
  | cal (full : Bool)
  /-- A record rewritten as it stands: configuration, calibration of a rate set, key identity. -/
  | configAgain
  | calAgain (rs : Nat)
  | keyAgain (k : Nat)
  /-- The console key that `auth install` brought. -/
  | install (key : BitVec 256)
  /-- The Steward's patch, as the refresh read it. -/
  | patch (bytes : List Byte)
  deriving DecidableEq, Repr

/-- The keep (R305 to R326). -/
structure Keep where
  /-- Stored 72-bit keep words by word address; an unlisted word is as shipped, all zero. -/
  words : SMap 72
  /-- Stores of each calibration record slot since start-up (R323). -/
  calWear : SMap 32
  commit : Option Commit
  /-- SEQ of the last persistence entry that was tried (R566); KP_PSEQ shows the newest usable one. -/
  pseq : Word
  /-- Stores that failed their verify and are tried once more (R312). -/
  retry : List Retry
  /-- Records to be stored again after a correctable word (R321): region and index. -/
  rewrite : List (Nat × Nat)
  /-- FS 28 events since the last refresh (R321). -/
  corrSince : Nat
  /-- Retention consumed, in units of 10^-12 of it (R324). -/
  retain : Nat
  /-- Configuration generation in force (R387). -/
  gen : Word
  /-- The generation of a configuration store that runs. -/
  genNext : Option Word
  /-- A calibration store falls due at hand-back (R365). -/
  calDue : Bool
  /-- Total writes of the ring regions 3, 4 and 8 since start-up (R323). -/
  ringWrites : SMap 32
  /-- The payload of the configuration record in use; empty = the factory values. -/
  cfg : List Byte
  /-- A verify failed, or the work was stopped, since the checkpoint or refresh that runs began (R489). -/
  bad : Bool
  deriving DecidableEq, Repr

/-- Garnet and the tamper state beside its registers (R429 to R449). -/
structure Garnet where
  /-- The 8,192 stored words. -/
  words : SMap 72
  /-- The key-record erase is due (R440). -/
  eraseDue : Bool
  /-- AON time of the last failed proof (R443). -/
  failedAt : Option Time
  /-- The mode in which the tamper that holds the latch was recognised; none after a reset (Table FS-3). -/
  tamperMode : Option Nat
  deriving DecidableEq, Repr

/-- The march engine beside its registers (R288 to R304). -/
structure March where
  /-- The steering map in PD_AON, keyed by bank * 4 + spare, loaded from the fuses at P1 (R299). -/
  steer : SMap 9
  /-- Entries that P1 found torn by a failed burn. -/
  torn : List Nat
  /-- Spares that a spare pass found bad, one bit a spare, keyed by bank (MT_SPARE.GOOD). -/
  bad : SMap 4
  /-- AON time at which the run began, and MT_CTRL and MT_BANKS as they stood then. -/
  start : Time
  ctrl : Word
  banks : Word
  /-- The burn that runs: bank, spare, column. -/
  burn : Option (Nat × Nat × Nat)
  /-- Targets and banks of a destructive run that a save stopped: they are cleared when S5 starts. -/
  clearDue : Option (Nat × Nat)
  deriving DecidableEq, Repr

/-- The Steward (R52, R88, R428). -/
structure Steward where
  halted : Bool
  /-- It has taken over the save (R339). -/
  tookOver : Bool
  /-- Its version: major, minor, patch. -/
  version : BitVec 24
  deriving DecidableEq, Repr

/-! ### Save, restore and bring-up -/

/-- The save that runs or ran last, beside the PS registers (R327 to R349). -/
structure SaveUnit where
  /-- AON_S0. -/
  s0 : Time
  /-- The step of a SERVICE entry, coded as PS_STATUS.STEP: 0 none, 2 S1, 3 S2 (R63). -/
  entry : Nat
  /-- AON time at the end of S7, and at the entry to DORMANT (PS_HOLDT, PS_DORMT). -/
  holdAt : Option Time
  dormAt : Option Time
  /-- Ticks that the last outage spent in HOLD and in DORMANT, once it has ended. -/
  heldT : Nat
  dormT : Nat
  /-- S1 of a save has ended and no hand-back has followed (R253). -/
  s1Ended : Bool
  deriving DecidableEq, Repr

/-- Why the device is in RUN.TRAIN and how far it has come (R57, R89, R354). -/
inductive Path where
  /-- Cold bring-up, not yet begun. -/
  | coldWait
  /-- Cold bring-up has reached the end of B10. -/
  | coldReady
  /-- HCK was lost after B10: bring-up goes on with B11 when HCK is back at its rate set. -/
  | coldHeld
  /-- Restore path, waiting for the restore conditions. -/
  | restoreWait
  /-- Restore has reached the end of U7. -/
  | restoreReady
  /-- `mode run` has reached the end of its steps before hand-back. -/
  | serviceReady
  /-- None of them. -/
  | idle
  deriving DecidableEq, Repr

/-- What U0 to U7 found, applied at U8 (R357 to R367). -/
structure RestoreUnit where
  path : Path
  t0 : Time
  /-- PS_RSTAT.FROM. -/
  origin : Nat
  /-- Ledger source slot. -/
  source : Option Nat
  /-- The source's seal shows mirroring in force. -/
  mirrorSeal : Bool
  /-- SEAL_SLOT and SEAL_NO for the CONSUMED entry. -/
  sealSlot : Nat
  sealNo : Nat
  /-- The slot the newest entry named. -/
  entrySlot : Nat
  ledger : Nat
  warm : Nat
  cold : Nat
  reason : Nat
  miss : Nat
  sealOk : Bool
  begun : Bool
  noProof : Bool
  fallback : Bool
  /-- The slot that a SEALED entry of a save named. -/
  named : Option Nat
  /-- PD_LDG was off at U1. -/
  ldgOff : Bool
  deriving DecidableEq, Repr

/-! ### The twin link -/

/-- The body of a flit this device sends (Table TW-2). -/
inductive FlitBody where
  | idle
  | nak (expected : Byte)
  | ident (pos : Bool) (version : BitVec 24) (hbTime : Word)
  | status (bytes : List Byte)
  | timeReq
  | timeRsp (t2 t3 : Time)
  | save (cause : Byte) (aonS0 : Time)
  | lagEnd
  | bye
  | resyncReq (first count : Nat)
  | line (l : Nat) (resync poison : Bool) (data : BitVec 640)
  deriving DecidableEq, Repr

/-- A flit held for replay with its sequence number (R380): TYPE and fields of a control flit, or the 14 payload bytes of a
data flit (Table TW-1). ACK and CRC are formed as it is sent. -/
structure HeldFlit where
  seq : Byte
  data : Bool
  bytes : List Byte
  deriving DecidableEq, Repr

/-- A flit as it leaves on its lane (R377, Table TW-1), before the scrambler: sync header and 16 bytes. -/
structure SentFlit where
  lane : BitVec 1
  sync : BitVec 2
  bytes : List Byte
  deriving DecidableEq, Repr

/-- The twin link beside its registers (R374 to R396). -/
structure Twin where
  /-- Sequence number expected next, and given to the next flit sent. -/
  rxSeq : Byte
  txSeq : Byte
  /-- Flits sent and not acknowledged. -/
  held : List HeldFlit
  /-- Flits that wait for room among the 64. -/
  waiting : List FlitBody
  /-- Flits sent since the link came up, in order, replays included. -/
  sent : List SentFlit
  /-- The link is being retrained: sequence numbers and held flits stay (R380). -/
  retraining : Bool
  /-- Replays of the oldest held flit. -/
  replays : Nat
  /-- Own lines queued for the replica, in order. -/
  queue : List Nat
  /-- SEND_STALE and RECV_STALE, 64 lines a word, words 0 to 247. -/
  sendStale : SMap 64
  recvStale : SMap 64
  /-- The twin's last STATUS since the link came up, bytes 2 to 13. -/
  status : Option (List Byte)
  /-- The twin's HB_TOGGLE as last seen (R395). -/
  hbBase : Option Bool
  /-- HB_TIME of the twin's last IDENT. -/
  hbSeen : Option Word
  /-- A new hand-back of the twin has been seen since this device's last save or SERVICE entry (R395). -/
  twinNew : Bool
  /-- The same, not yet weighed by a full resynchronisation request (R393). -/
  holdNew : Bool
  /-- An IDENT carried an HB_TIME not seen before; the next STATUS shows that hand-back (R395). -/
  identNew : Bool
  /-- MODULE waits for the twin's result. -/
  moduleDue : Bool
  /-- This device's last hand-back: toggle, AON time, kind, ledger code, warm and cold ranks. -/
  hbToggle : Bool
  hbTime : Word
  hbAt : Time
  hbKind : Nat
  hbLedger : Nat
  hbWarm : Nat
  hbCold : Nat
  /-- t1 of the outstanding TIME_REQ, and the last sample: offset and own time. -/
  t1 : Option Time
  sample : Option (Time × Time)
  byeSeen : Bool
  saveSeen : Bool
  lagEndSent : Bool
  /-- FS 42 was raised in this link-up. -/
  verRaised : Bool
  /-- FS 40 cause 4 was raised or the link came up since hand-back. -/
  upSeen : Bool
  deriving DecidableEq, Repr

/-! ### The whole device -/

/-- The state of the block. -/
structure State where
  /-- The AON timer (R76). -/
  aon : Time
  boot : Boot
  /-- Registers: values in force by home address, unlisted = the reset value. -/
  regs : SMap 32
  /-- Fields written and not yet committed: mask in the upper half, value in the lower. -/
  staged : SMap 64
  /-- Committed values that wait to come into force, in the same form. -/
  committed : SMap 64
  /-- Latched registers of Table RX-11. -/
  latch : SMap 32
  /-- How many free values have been drawn: the model's own counter. -/
  draws : Nat
  fuses : Fuses
  pins : Pins
  clk : Clocks
  tr : TraceUnit
  fc : FaultUnit
  ca : CmdPath
  dl : DataLanes
  lg : Guard
  cb : Calib
  ld : Ledger
  kp : Keep
  gn : Garnet
  mt : March
  sw : Steward
  ps : SaveUnit
  rs : RestoreUnit
  tw : Twin
  con : Console
  tap : Tap
  /-- The commands that wait, first in, first out. -/
  pending : List Instr
  deriving DecidableEq, Repr

/-! ### Right after reset -/

/-- The pins when AONRST_N has just risen with every rail present. -/
def Pins.init : Pins := ⟨false, false, none, false, true, .reset, false, false, false⟩
def Clocks.init : Clocks := ⟨false, 0, 0, false, false, 0, none, false, 0⟩
/-- An 80-grade, C-temperature part as shipped: trim code 0, no fuse blown, device key 0 (log entry 1). -/
def Fuses.init : Fuses := ⟨80, false, 0, 0, 0, [], []⟩
def TraceUnit.init : TraceUnit := ⟨[], [], false, none⟩
def FaultUnit.init : FaultUnit := ⟨[], [], [], [], [], none, [], none, [], none, none⟩
def CmdPath.init : CmdPath :=
  ⟨[], false, 0, .none, 0, none, [], [], 0, 0, 0, 0, none, .deselect, 0, 0, 0xF, []⟩
def DataLanes.init : DataLanes := ⟨[], [], none, 0, none, none, 0, none, 0, 0, false, 0, 0, []⟩
def HctTable.empty : HctTable := ⟨[], 0⟩
def Guard.init : Guard := ⟨[], .none, 0, .empty, false, [], [], [], false⟩
def Calib.init : Calib := ⟨[], [], [], [], [], 0, false, 0, [], none, 0, [], [], [], [], 0, 0, false⟩
def Console.init : Console :=
  ⟨[], false, false, false, false, [], [], [], [], [], 0, [], [], 0, none, false, false, 256, 0, none⟩
/-- Test-Logic-Reset loads IDCODE (R44). -/
def Tap.init : Tap := ⟨1, 0, false⟩
def Ledger.init : Ledger := ⟨[], [], [], [], [], [], [], none, false⟩
/-- The keep as shipped. -/
def Keep.init : Keep := ⟨[], [], none, 0, [], [], 0, 0, 0, none, false, [], [], false⟩
def Garnet.init : Garnet := ⟨[], false, none, none⟩
def March.init : March := ⟨[], [], [], 0, 0, 0, none, none⟩
/-- The Steward's ROM is st-3.2.0, the version of R7's example (log entry 1). -/
def Steward.init : Steward := ⟨false, false, 0x030200⟩
def SaveUnit.init : SaveUnit := ⟨0, 0, none, none, 0, 0, false⟩
def RestoreUnit.init : RestoreUnit :=
  ⟨.idle, 0, 0, none, false, 0, 0, 0, 0, 0, 0, 0, 0, false, false, false, false, none, false⟩
def Twin.init : Twin :=
  ⟨0, 0, [], [], [], false, 0, [], [], [], none, none, none, false, false, false, false, false, 0, 0, 0, 0, 0, 0, none, none,
   false, false, false, false, false⟩

/-- The entry of the transition from reset to RUN.TRAIN (R55, R511): PM_LAST at its reset value. -/
def resetEntry : TraceEntry := ⟨0, 0x0201, 0x00011100⟩

/-- Right after reset: AONRST_N has just risen, every register at the Reset column of Chapter 24 (ERASE_DONE reads 1
on a new part, Table GN-5), the start-up phase still to run (R25, R87). -/
def State.reset : State where
  aon := 0
  boot := .starting
  regs := [(0x2C04, 2)]
  staged := []
  committed := []
  latch := []
  draws := 0
  fuses := .init
  pins := .init
  clk := .init
  tr := { TraceUnit.init with fifo := [resetEntry] }
  fc := .init
  ca := .init
  dl := .init
  lg := .init
  cb := .init
  ld := .init
  kp := .init
  gn := .init
  mt := .init
  sw := .init
  ps := .init
  rs := .init
  tw := .init
  con := .init
  tap := .init
  pending := []

end Sys2Proof.Machine
end

