-- ==== Sys2Proof/Machine/Ops.lean ====
section
/-! DEFINITION. The shared operations: reading and writing registers, fields and staged copies (R8, R9, R469),
the AON timer, modes and domains (R53 to R55), the trace (R508 to R512), raising a fault source (R398), the
outputs of the console (R459, R461, R464, R472). Every other file reaches registers through this one. -/

namespace Sys2Proof.Machine

/-! ### Registers -/

/-- The value in force at a register home. -/
def reg (s : State) (a : Nat) : Word := smGet regDefault s.regs a

/-- Put a value in force at a register home. Bits that no field names stay 0 (R9). -/
def setReg (a : Nat) (v : Word) (s : State) : State :=
  { s with regs := smSet regDefault s.regs a (v &&& regMask a) }

/-- The bits of a field within its register. -/
def fieldMask (f : Field) : Nat := (2 ^ f.width - 1) <<< f.lo

/-- The value in force of a field. -/
def getF (s : State) (f : Field) : Nat := natBits (reg s f.addr).toNat f.hi f.lo

/-- A register value with one field replaced. -/
def putBits (w : Word) (f : Field) (v : Nat) : Word :=
  (w &&& ~~~BitVec.ofNat 32 (fieldMask f)) ||| (BitVec.ofNat 32 (v <<< f.lo) &&& BitVec.ofNat 32 (fieldMask f))

/-- Put a value in force in a field. -/
def setF (f : Field) (v : Nat) (s : State) : State :=
  setReg f.addr (putBits (reg s f.addr) f v) s

/-- Is a field other than 0? -/
def flag (s : State) (f : Field) : Bool := getF s f ≠ 0

/-- Put a Boolean in force in a field. -/
def setB (f : Field) (b : Bool) (s : State) : State := setF f (b2n b) s

/-- Add to a saturating counter field. -/
def addF (f : Field) (n : Nat) (s : State) : State :=
  setF f (sat (2 ^ f.width - 1) (getF s f + n)) s

/-- Add one to a saturating counter field. -/
def incF (f : Field) (s : State) : State := addF f 1 s

/-- Set bit `i` of a field of bits. -/
def setBitF (f : Field) (i : Nat) (b : Bool) (s : State) : State :=
  let v := getF s f
  setF f (if b then v ||| (1 <<< i) else v - (if v.testBit i then 1 <<< i else 0)) s

/-- Bit `i` of a field of bits. -/
def bitF (s : State) (f : Field) (i : Nat) : Bool := (getF s f).testBit i

/-! ### Staged and committed copies (R8, R152, R469) -/

/-- The mask and the value of an entry of a staged or committed map. -/
def maskOf (e : Dword) : Word := BitVec.ofNat 32 (e.toNat >>> 32)

/-- The value of an entry. -/
def valOf (e : Dword) : Word := BitVec.ofNat 32 e.toNat

/-- An entry from its mask and value. -/
def entryOf (m v : Word) : Dword := BitVec.ofNat 64 (m.toNat * 2 ^ 32 + (v &&& m).toNat)

/-- Replace the bits of `m` in `w` by those of `v`. -/
def overlay (w m v : Word) : Word := (w &&& ~~~m) ||| (v &&& m)

/-- Merge newly written bits into the entry of a map. -/
def mergeEntry (t : SMap 64) (a : Nat) (m v : Word) : SMap 64 :=
  let e := smGet (zeroDefault 64) t a
  smSet (zeroDefault 64) t a (entryOf (maskOf e ||| m) (overlay (valOf e) m v))

/-- A register as software reads its staged fields: the last value written, else the committed value that
waits, else the value in force. -/
def stagedReg (s : State) (a : Nat) : Word :=
  let c := smGet (zeroDefault 64) s.committed a
  let g := smGet (zeroDefault 64) s.staged a
  overlay (overlay (reg s a) (maskOf c) (valOf c)) (maskOf g) (valOf g)

/-- A field as last written, in its register's staged copy. -/
def getStaged (s : State) (f : Field) : Nat := natBits (stagedReg s f.addr).toNat f.hi f.lo

/-- A register as committed: what waits to come into force, else what is in force. -/
def committedReg (s : State) (a : Nat) : Word :=
  let c := smGet (zeroDefault 64) s.committed a
  overlay (reg s a) (maskOf c) (valOf c)

/-- Write bits into the staged copy of a register. -/
def stage (a : Nat) (m v : Word) (s : State) : State :=
  { s with staged := mergeEntry s.staged a m v }

/-- Bring the committed values at the homes that satisfy `p` into force. -/
def applyCommitted (p : Nat → Bool) (s : State) : State :=
  let due := s.committed.filter (fun e => p e.1)
  let s1 := due.foldl (fun t e => setReg e.1 (overlay (reg t e.1) (maskOf e.2) (valOf e.2)) t) s
  { s1 with committed := smDrop s1.committed p }

/-! ### Time, modes and domains -/

/-- Mode codes (R71). -/
def modeRun : Nat := 1
def modeHold : Nat := 2
def modeDormant : Nat := 3
def modeService : Nat := 4

/-- Sub-state codes (R71). -/
def subLive : Nat := 0
def subTrain : Nat := 1
def subDegraded : Nat := 2

def mode (s : State) : Nat := getF s Fld.PM_MODE_MODE
def sub (s : State) : Nat := getF s Fld.PM_MODE_SUB
def inRun (s : State) : Bool := mode s = modeRun
def inService (s : State) : Bool := mode s = modeService
/-- RUN.LIVE or RUN.DEGRADED: the host is served (Table PM-2). -/
def served (s : State) : Bool := inRun s && sub s ≠ subTrain
def inTrain (s : State) : Bool := inRun s && sub s = subTrain
def saving (s : State) : Bool := flag s Fld.PM_MODE_SAVING
def restoring (s : State) : Bool := flag s Fld.PM_MODE_RESTORING
def parked (s : State) : Bool := flag s Fld.CK_STATUS_PARKED
def coreOn (s : State) : Bool := getF s Fld.PM_DOMAIN_CORE = 1
def mgtOn (s : State) : Bool := getF s Fld.PM_DOMAIN_MGT ≠ 0
/-- The populated ranks in force. -/
def rankEn (s : State) : Nat := getF s Fld.CA_CFG_RANK_EN
def populated (s : State) (r : Nat) : Bool := (rankEn s).testBit r
/-- The ranks, rising. -/
def rankList : List Nat := [0, 1, 2, 3]
def popRanks (s : State) : List Nat := rankList.filter (populated s)
def inSr (s : State) (r : Nat) : Bool := bitF s Fld.PM_RANK_SR_STATE r
def twinEn (s : State) : Bool := flag s Fld.GL_STRAP_TWIN_EN

/-- Is a saved time or level part of the register block whose domain is powered (R128, R326)? -/
def regPowered (s : State) (a : Nat) : Bool :=
  match regRow a with
  | none => true
  | some r => match r.cls with
    | .core => coreOn s
    | .mgt => mgtOn s
    | _ => true

/-! ### Trace (R508 to R512) -/

/-- Put an entry into the AON FIFO; the 64th place counts what is lost (R512). -/
def fifoPush (e : TraceEntry) (s : State) : State :=
  let q := s.tr.fifo
  if q.length < 63 then { s with tr := { s.tr with fifo := q ++ [e] } }
  else
    let lost : TraceEntry := match q.drop 63 with
      | [] => ⟨s.aon, 0x0004, 1⟩
      | l :: _ => ⟨l.time, 0x0004, BitVec.ofNat 64 (sat 0xFFFF (l.args.toNat + 1))⟩
    incF Fld.TR_LOST_FIFO { s with tr := { s.tr with fifo := q.take 63 ++ [lost] } }

/-- Put an entry into the main ring; the oldest leaves when it is full (R510). -/
def ringPush (e : TraceEntry) (s : State) : State :=
  let q := s.tr.ring ++ [e]
  { s with tr := { s.tr with ring := if q.length ≤ 1024 then q else q.drop 1 } }

/-- Is the group of an event code masked (R510)? -/
def traceMasked (s : State) (code : Nat) : Bool :=
  let g := code / 256
  2 ≤ g && coreOn s && (getF s Fld.TR_CTRL_MASK).testBit (g - 2)

/-- Write a trace entry (R508 to R511). -/
def trace (code : Nat) (args : Nat) (s : State) : State :=
  let e : TraceEntry := ⟨s.aon, BitVec.ofNat 16 code, BitVec.ofNat 64 args⟩
  if traceMasked s code then s
  else if flag s Fld.TR_STATUS_RUNNING then
    if flag s Fld.TR_CTRL_FREEZE then incF Fld.TR_LOST_RING s else ringPush e s
  else if flag s Fld.MT_STATUS_TRACE_OUT && 2 ≤ code / 256 && code ≠ 0x0201 then incF Fld.TR_LOST_RING s
  else fifoPush e s

/-! ### Faults: what a detector does (R398) -/

/-- Add `n` events of a source to those of the present tick: the first real event gives the syndrome. -/
def addEvents (l : List Collection) (src n : Nat) (syn : Dword) : List Collection :=
  match l with
  | [] => [⟨src, n, syn, false⟩]
  | c :: t =>
    if c.src = src then
      (if c.forced then ⟨src, c.count + n, syn, false⟩ else { c with count := c.count + n }) :: t
    else c :: addEvents t src n syn

/-- A detector raises one event of fault source `src` with a syndrome. -/
def raise (src : Nat) (syn : Nat) (s : State) : State :=
  { s with fc := { s.fc with events := addEvents s.fc.events src 1 (BitVec.ofNat 64 syn) } }

/-! ### Transitions (R55) -/

/-- Record a transition: PM_LAST, its AON time and a trace entry with PM_LAST. -/
def recordTransition (m b cause : Nat) (s : State) : State :=
  let w := cause * 0x10000 + b * 0x1000 + m * 0x100 + sub s * 0x10 + mode s
  trace 0x0201 w
    (setReg Fld.PM_LAST_TH_TIME_HI.addr (BitVec.ofNat 32 (s.aon.toNat >>> 32))
      (setReg Fld.PM_LAST_TL_TIME_LO.addr (BitVec.ofNat 32 s.aon.toNat)
        (setReg Fld.PM_LAST_CAUSE.addr (BitVec.ofNat 32 w) s)))

/-- Make a transition of Table PM-4 with its cause code. -/
def transition (m b cause : Nat) (s : State) : State :=
  setF Fld.PM_MODE_MODE m (setF Fld.PM_MODE_SUB b (recordTransition m b cause s))

/-! ### Free values -/

/-- Count one draw of a free value. -/
def drew (s : State) : State := { s with draws := s.draws + 1 }

/-! ### Commands of the device's own -/

/-- Commands that the device issues itself. -/
def issue (l : List OwnCmd) (s : State) : State := { s with ca := { s.ca with own := s.ca.own ++ l } }

/-! ### Console output -/

/-- The lease holder: 0 none, 1 UART, 2 I3C. -/
def holder (s : State) : Nat := getF s Fld.CN_SESS_HOLDER

def scriptMode (s : State) : Bool := flag s Fld.CN_SESS_SCRIPT

/-- The bytes of an output line (R456). -/
def lineBytes (t : String) : List Byte := strBytes t ++ [0x0D#8, 0x0A#8]

/-- Queue an in-band interrupt while the device holds a dynamic address and IBIs are enabled (R459). -/
def ibi (mdb : Nat) (data : Option Nat) (s : State) : State :=
  if flag s Fld.CN_I3C_DA_VALID && flag s Fld.CN_I3C_IBI_EN && mode s ≠ modeHold && mode s ≠ modeDormant then
    if s.con.ibis.length < 8 then
      { s with con := { s.con with ibis := s.con.ibis ++ [⟨BitVec.ofNat 8 mdb, data.map (BitVec.ofNat 8), 0⟩] } }
    else incF Fld.CN_STAT2_IBILOST s
  else s

/-- Append bytes to the output queue; IBI 0x01 when it becomes non-empty (Table CP-1). -/
def outAppend (b : List Byte) (s : State) : State :=
  let s1 := { s with con := { s.con with out := s.con.out ++ b } }
  if s.con.out = [] ∧ b ≠ [] ∧ holder s = 2 then ibi 0x01 none s1 else s1

/-- Room for a line in the output queue (R458). -/
def outRoom (b : List Byte) (s : State) : Bool := s.con.out.length + b.length ≤ 1024

/-- An event line with its script-mode check code (R464). -/
def eventForm (s : State) (t : String) : String :=
  if scriptMode s then t ++ "*" ++ hexStr 2 (crc8 (strBytes t)).toNat else t

/-- Send an event line over the UART: in human mode a partial line is interrupted and shown again (R461). -/
def uartEvent (t : String) (s : State) : State :=
  let b := if scriptMode s then lineBytes (eventForm s t)
    else [0x0D#8, 0x0A#8] ++ lineBytes t ++ strBytes "mld> " ++ s.con.line
  { s with con := { s.con with tx := s.con.tx ++ b } }

/-- Put an event line into the queue of 16, or drop it (R472). -/
def queueEvent (t : String) (s : State) : State :=
  if s.con.events.length < 16 then { s with con := { s.con with events := s.con.events ++ [t] } }
  else incF Fld.CN_STAT2_EVLOST { s with con := { s.con with dropped := s.con.dropped + 1 } }

/-- Send an event line to the lease holder now, or queue it where the output queue has no room. -/
def sendEvent (t : String) (s : State) : State :=
  if holder s = 1 then uartEvent t s
  else
    let b := lineBytes (eventForm s t)
    if outRoom b s then outAppend b s else queueEvent t s

/-- An event line falls due (R461, R472): it goes to the lease holder, behind the reply being formed or sent; `fault`
lines carry no IBI 0x02 (Table CP-1). -/
def conEvent (isFault : Bool) (t : String) (s : State) : State :=
  if holder s = 0 then s
  else
    let s1 := if isFault || holder s = 1 then s else ibi 0x02 none s
    if s.con.busy || s.con.events ≠ [] || s.con.reply ≠ [] then queueEvent t s1 else sendEvent t s1

/-- Complete the deferred commands that wait for `what` (R471): their tokens come free and their completion
lines are queued. -/
def completeTokens (what : Nat) (result : String) (s : State) : State :=
  let due := s.con.tokens.filter (fun t => t.2 = what)
  let s1 := { s with con := { s.con with tokens := s.con.tokens.filter (fun t => t.2 ≠ what) } }
  due.foldl (fun t k => conEvent false ("! done tok=" ++ hexStr 2 k.1 ++ " " ++ result) t) s1

/-- Does a host-side trial run on lane `n`, or on the C/A receivers (5)? -/
def hostRuns (s : State) (n : Nat) : Bool := s.cb.hosts.any (fun e => e.1 = n)

/-- Do a sweep and the reads that it leaves to be rebuilt (R221) keep away from the lanes that satisfy `p`? -/
def sweepOff (p : Nat → Bool) (s : State) : Bool :=
  !(s.cb.sweep.any (fun x => p x.lane)) && !(s.dl.reads.any (fun o => o.swept.any p))

/-- Has the work stopped that a token of an engine waits for (R228, R477)? 7: the sweep; 8: the gap trials; 32 to 37: a
host lane or the C/A receivers; 38: every host-side trial; 40 to 45: the trials that use a DRAM lane. -/
def engineIdle (s : State) (w : Nat) : Bool :=
  if w = 7 then sweepOff (fun _ => true) s
  else if w = 8 then s.cb.gaps.isEmpty
  else if 32 ≤ w && w ≤ 37 then !hostRuns s (w - 32)
  else if w = 38 then s.cb.hosts.isEmpty
  else if 40 ≤ w && w ≤ 45 then sweepOff (fun d => d = w - 40) s && !s.cb.gaps.any (fun g => g.lanes.testBit (w - 40))
  else false

/-- The completion code of a command that stops the work of several engines: their codes of `engineIdle` as bits above it. -/
def engineSet (l : List Nat) : Nat := if l = [] then 0 else 64 + l.foldl (fun a w => a + 1 <<< (w + 7)) 0

/-- Has everything stopped that a completion code of engines names? -/
def engineDone (s : State) (w : Nat) : Bool :=
  if w < 64 then engineIdle s w else (List.range 46).all (fun k => !w.testBit (k + 7) || engineIdle s k)

/-- Complete the commands whose engine has stopped. -/
def settleEngines (s : State) : State :=
  s.con.tokens.foldl (fun t k => if engineDone t k.2 then completeTokens k.2 "ok" t else t) s

end Sys2Proof.Machine
end

