-- ==== Sys2Proof/Machine/Operands.lean ====
section
/-! DEFINITION. The operand forms: command pins and the ranks they select (R99, R103), bursts and their byte
lanes (R130, R177), DRAM banks, reserved rows and aperture rows (R111, R114, R120). -/

namespace Sys2Proof.Machine

/-! ### Command pins -/

/-- The ranks whose HCS_N is low, rising. -/
def selected (p : CaPins) : List Nat := rankList.filter (fun r => !p.hcsN.getLsbD r)

/-- The first selected rank; 0 when none is. -/
def rankOf (p : CaPins) : Nat := (selected p).headD 0

/-- HCA of the second cycle, 0 in a one-cycle command. -/
def hca2Of (p : CaPins) : Nat := if p.two then p.hca2.toNat else 0

/-- Does a command cycle have odd parity over HCA and HPAR (R99)? -/
def parityOdd (p : CaPins) : Bool :=
  (oddParity p.hca1.toNat != p.hpar1) || (p.two && (oddParity p.hca2.toNat != p.hpar2))

/-- The failing cycles as CA_PLOG0 [30:0] holds them. -/
def plogBits (p : CaPins) : Nat :=
  b2n p.two * 2 ^ 30 + b2n (p.two && p.hpar2) * 2 ^ 29 + b2n p.hpar1 * 2 ^ 28 + hca2Of p * 2 ^ 14 + p.hca1.toNat

/-- What the main samplers of the C/A inputs decide in the cycle in which HCS_N is low, pin by pin as R213 numbers them. -/
def caRef (p : CaPins) : Nat := p.hca1.toNat + b2n p.hpar1 * 2 ^ 14 + p.hcsN.toNat * 2 ^ 15

/-- An even-parity pin image for a one-cycle command, used where only the HCS_N levels matter. -/
def pinsFor (hcsN : BitVec 4) : CaPins := ⟨hcsN, 0, 0, false, false, false, 0⟩

/-! ### The rate set in force -/

/-- The rate of the set in force in MT/s. -/
def activeRate (s : State) : Nat := getF s (Fld.CK_RS_RATE.at (getF s Fld.CK_STATUS_RS_ACTIVE))

/-- A time in picoseconds in whole tCK at a data rate, rounded up (R570): HCK runs at half the data rate, so that tCK is
2,000,000 ps over the rate in MT/s. -/
def inTck (rate ps : Nat) : Nat := (ps * rate + 1999999) / 2000000

/-! ### Bursts -/

/-- Beat `b` of host lane `n` in a 640-bit line (R177). -/
def hostByte (d : Nat) (b n : Nat) : Nat := (d >>> (b * 40 + n * 8)) % 256

/-- Beat `b` of DRAM lane `n` in a 768-bit burst. -/
def dramByte (d : Nat) (b n : Nat) : Nat := (d >>> (b * 48 + n * 8)) % 256

/-- The sixteen beats. -/
def beats : List Nat := List.range 16

/-- The 16 bytes of a lane as one number, beat 0 lowest. -/
def hostLane (d : Nat) (n : Nat) : Nat :=
  beats.foldl (fun a b => a + hostByte d b n <<< (8 * b)) 0

def dramLane (d : Nat) (n : Nat) : Nat :=
  beats.foldl (fun a b => a + dramByte d b n <<< (8 * b)) 0

/-- A line from its five host lanes. -/
def ofHostLanes (ls : List Nat) : Nat :=
  (List.range 5).foldl (fun a n =>
    beats.foldl (fun a b => a + ((ls.getD n 0 >>> (8 * b)) % 256) <<< (b * 40 + n * 8)) a) 0

/-- A DRAM burst from its six lanes. -/
def ofDramLanes (ls : List Nat) : Nat :=
  (List.range 6).foldl (fun a n =>
    beats.foldl (fun a b => a + ((ls.getD n 0 >>> (8 * b)) % 256) <<< (b * 48 + n * 8)) a) 0

/-- XOR of a list of lanes. -/
def xorAll (ls : List Nat) : Nat := ls.foldl (fun a b => a ^^^ b) 0

/-! ### Banks and rows -/

/-- The key of a bank in the tracked rows. -/
def bankKey (rank bg bank : Nat) : Nat := rank * 32 + bg * 4 + bank

/-- The tracked open row of a bank. -/
def openRow (s : State) (rank bg bank : Nat) : Option Nat :=
  let v := smGet (zeroDefault 18) s.ca.rows (bankKey rank bg bank)
  if v.getLsbD 17 then some (v.toNat % 2 ^ 17) else none

/-- Track a row as open. -/
def trackOpen (rank bg bank row : Nat) (s : State) : State :=
  { s with ca := { s.ca with rows := smSet (zeroDefault 18) s.ca.rows (bankKey rank bg bank) (BitVec.ofNat 18 (2 ^ 17 + row)) } }

/-- Track every bank whose key satisfies `p` as precharged. -/
def trackClosed (p : Nat → Bool) (s : State) : State :=
  { s with ca := { s.ca with rows := smDrop s.ca.rows p } }

/-- Track every bank of a rank as precharged. -/
def closeRank (rank : Nat) (s : State) : State := trackClosed (fun k => k / 32 = rank) s

/-- Is any bank of a rank tracked as open? -/
def rankOpen (s : State) (rank : Nat) : Bool := s.ca.rows.any (fun e => e.1 / 32 = rank)

/-- The last row of a bank for a density code (Table CA-7). -/
def lastRow (density : Nat) : Nat :=
  match density with
  | 0 => 65535
  | 1 => 98303
  | _ => 131071

/-- The first reserved row of a bank (R120). -/
def rsvFirst (rsv density : Nat) : Nat :=
  let base := natBits rsv 16 0
  if base = 0 then lastRow density - 3 else base

/-- The index 0 to 3 of a reserved row in force, if the row is one. -/
def rsvIndex (s : State) (bg bank row : Nat) : Option Nat :=
  let v := (reg s 0x0828).toNat
  let f := rsvFirst v (getF s Fld.CA_CFG_DENSITY)
  if bg = natBits v 26 24 ∧ bank = natBits v 21 20 ∧ f ≤ row ∧ row < f + 4 then some (row - f) else none

/-- The offset of a row from the base of the aperture in force, if the row lies in it (R111). -/
def aperOffset (s : State) (rank bg bank row : Nat) : Option Nat :=
  let base := getF s Fld.CA_APER_BASE
  if flag s Fld.CA_APER_EN ∧ rank = getF s Fld.CA_APER_RANK ∧ bg = getF s Fld.CA_APER_BG
    ∧ bank = getF s Fld.CA_APER_BANK ∧ base ≤ row ∧ row < base + 512
  then some (row - base) else none

end Sys2Proof.Machine
end

