-- ==== Sys2Proof/Machine/Flags.lean ====
section
/-! DEFINITION. The flag computations: syndromes of the fault sources (Table FS-3), the live conditions of
Table FC-3, HALERT_N (R124 to R127), ERR_N (R410). -/

namespace Sys2Proof.Machine

/-! ### Syndromes -/

/-- FS 0: the failing cycles and HCS_N (R100). -/
def synFs0 (p : CaPins) : Nat := plogBits p % 2 ^ 30 + p.hcsN.toNat * 2 ^ 30

/-- FS 1: subcode, HCS_N and HCA (Table FS-3). -/
def synFs1 (subcode : Nat) (p : CaPins) : Nat :=
  subcode * 2 ^ 32 + p.hcsN.toNat * 2 ^ 28 + hca2Of p * 2 ^ 14 + p.hca1.toNat

/-- FS 2, subcodes 1 to 3 (Table FS-3). -/
def synFs2 (subcode off col : Nat) (write : Bool) : Nat :=
  subcode * 2 ^ 32 + off * 2 ^ 16 + b2n write * 2 ^ 6 + col

/-- FS 3 (Table FS-3). -/
def synFs3 (lapsed grant mrr : Bool) (page word data : Nat) : Nat :=
  b2n lapsed * 2 ^ 18 + b2n grant * 2 ^ 17 + b2n mrr * 2 ^ 16 + page * 2 ^ 12 + word * 2 ^ 8
    + (if mrr then 0 else data)

/-- FS 10 (Table FS-3). -/
def synFs10 (s : State) (cause : Nat) : Nat := getF s Fld.CK_HCKCNT_COUNT * 2 ^ 16 + cause

/-- FS 9, 16 and 17: the read syndrome of Table LG-7. -/
def synRead (kind lane : Nat) (o : OpenBurst) (s : Nat) : Nat :=
  let bts := (beats.filter (fun b => (s >>> (8 * b)) % 256 ≠ 0)).foldl (fun a b => a + 1 <<< b) 0
  let orv := beats.foldl (fun a b => a ||| ((s >>> (8 * b)) % 256)) 0
  kind * 2 ^ 60 + lane * 2 ^ 57 + o.rank * 2 ^ 55 + o.bg * 2 ^ 52 + o.bank * 2 ^ 50 + o.row * 2 ^ 33
    + o.col * 2 ^ 27 + bts * 2 ^ 8 + orv

/-- FS 18, 19 and 23 (Table LG-5). -/
def synLane (rank lane cause count : Nat) : Nat :=
  rank * 2 ^ 56 + lane * 2 ^ 53 + cause * 2 ^ 50 + count

/-- FS 56 and 57 (Table FS-3). -/
def synTemp (sensor code : Nat) : Nat := sensor * 2 ^ 32 + code

/-! ### Live conditions (R417) -/

/-- Is HRST_N recognised low? With HRST_MODE = 1 it is ignored (R86). -/
def hrstLow (s : State) : Bool := flag s Fld.CK_STATUS_HRST_LOW && !flag s Fld.CK_CTRL_HRST_MODE

/-- Is the tracked rank state one that Table LG-3 calls erased? -/
def rankErased (s : State) (r : Nat) : Bool := flag s (Fld.LG_RANK_ERASED.at r)
def rankSecond (s : State) (r : Nat) : Bool := flag s (Fld.LG_RANK_SECOND.at r)
def rankPl (s : State) (r : Nat) : Bool := flag s (Fld.LG_RANK_PL_FAULT.at r)
/-- PROTECTED (Table LG-3). -/
def rankProtected (s : State) (r : Nat) : Bool := !rankErased s r && !rankSecond s r

/-- The live bit of a source (Table FC-3); live bits of a block read 0 while it is off (R417). -/
def liveBit (s : State) (src : Nat) : Bool :=
  match src with
  | 0 => coreOn s && flag s Fld.CA_STATUS_PAR_BLOCKED
  | 10 => parked s && s.clk.clockPark && !hrstLow s
  | 18 => coreOn s && rankList.any (rankErased s)
  | 19 => coreOn s && rankList.any (rankSecond s)
  | 23 => coreOn s && rankList.any (rankPl s)
  | 40 => mgtOn s && twinEn s && flag s Fld.TW_CFG_LINK_EN && getF s Fld.TW_STATUS_LINK ≠ 2
  | 42 => mgtOn s && flag s Fld.TW_STATUS_VER_MISMATCH
  | 43 => mgtOn s && flag s Fld.TW_STATUS_GEN_MISMATCH
  | 45 => mgtOn s && flag s Fld.TW_STATUS_POS_CONFLICT
  | 46 => mgtOn s && (flag s Fld.TW_STALE_RECV || flag s Fld.TW_STALE_SEND)
  | 50 => mgtOn s && flag s Fld.CK_STATUS_XOSC_FAIL
  | 51 => s.clk.discStopped
  | 56 => mgtOn s && flag s Fld.SN_STATUS_WARN_ON
  | 57 => mgtOn s && flag s Fld.SN_STATUS_CRIT_ON
  | 59 => flag s Fld.GN_STATUS_TAMPER_LATCH
  | _ => false

/-- The live bits of sources 0 to 63 as one number. -/
def liveBits (s : State) : Nat := ofBits ((List.range 64).filter (liveBit s))

/-! ### HALERT_N -/

/-- May HALERT_N pulse (R126)? -/
def halertAllowed (s : State) : Bool :=
  served s && s.pins.rdy && !parked s && !flag s Fld.CA_STATUS_SAVE_BLOCK

/-- Drive one pulse and count it, for CA_ALERT and for the ALERTS word. -/
def halertPulse (s : State) : State :=
  incF Fld.CA_ALERT_PULSES { s with
    ca := { s.ca with alerts := sat 255 (s.ca.alerts + 1) },
    pins := { s.pins with halertBusy := true } }

/-- An event of a cause of R124 (0 for FS 0, 1 for FS 8, 2 for FS 20). When a pulse has started since the last
tick, where the event falls in it is a free value (log entry 5). -/
def halert (cause : Nat) (s : State) : State :=
  if !halertAllowed s || bitF s Fld.CA_ALERT_MASK cause then s
  else if !s.pins.halertBusy then halertPulse s
  else
    let s1 := drew s
    match (Config.alertPhase s.draws).toNat with
    | 0 => incF Fld.CA_ALERT_MERGED s1
    | 1 =>
      if s.pins.halertOwed then incF Fld.CA_ALERT_MERGED s1
      else halertPulse { s1 with pins := { s1.pins with halertOwed := true } }
    | _ => halertPulse { s1 with pins := { s1.pins with halertOwed := false } }

/-! ### ERR_N -/

/-- Is ERR_N low: a PIN latch is set (R410), or the level held since S7 is low (R29)? -/
def errnLow (s : State) : Bool :=
  match s.pins.errHeld with
  | some b => b
  | none => (reg s 0x3C38 ≠ 0) || (reg s 0x3C3C ≠ 0)

end Sys2Proof.Machine
end

