-- ==== Sys2Proof/Machine/Pins.lean ====
section
/-! DEFINITION. What the balls carry: their kinds and the cells of the boundary register (R21, R47), and the level that the
device drives on each at rest, by mode (R23, R27, R35, R36, R42, Tables BS-5 to BS-13). -/

namespace Sys2Proof.Machine

/-! ### The balls of the boundary register (R47) -/

/-- The signals of Table BS-2 that the boundary register covers. -/
inductive Sig where
  | hdq | hdqsT | hdqsC | hca | hcsN | hpar | hckT | hckC | hrstN | halertN
  | ddq | ddqsT | ddqsC | dcaA | dcaB | dcsN | dckT | dckC | drstN | dalertN
  | conRx | conTx | sbScl | sbSda | save0N | save1N | tamperN | pgood | aonrstN
  | holdack | rdy | errN | twinPos | twinEn
  deriving DecidableEq, Repr

/-- A ball: its signal and its bit of the bus. -/
structure Ball where
  sig : Sig
  bit : Nat
  deriving DecidableEq, Repr

/-- Which cells a ball has (R47). -/
inductive BallKind where
  | input
  | output
  | bidir
  deriving DecidableEq, Repr

/-- The kind of each signal (R47, Tables BS-5 to BS-7). -/
def Sig.kind : Sig → BallKind
  | .hdq | .hdqsT | .hdqsC | .ddq | .ddqsT | .ddqsC | .sbSda => .bidir
  | .halertN | .errN | .holdack | .rdy | .conTx | .dcaA | .dcaB | .dcsN | .dckT | .dckC | .drstN => .output
  | .hca | .hcsN | .hpar | .hckT | .hckC | .hrstN | .dalertN | .conRx | .sbScl | .save0N | .save1N | .tamperN
  | .pgood | .aonrstN | .twinPos | .twinEn => .input

/-- The cells of a kind: input; output data, output enable; or all three, in that order. -/
def BallKind.cells : BallKind → Nat
  | .input => 1
  | .output => 2
  | .bidir => 3

/-- Some bits of one bus, in the order of their columns. -/
def balls (s : Sig) (l : List Nat) : List Ball := l.map (Ball.mk s)

/-- Rows A to K of Table BS-2. -/
def ballsAtoK : List Ball :=
  balls .hca [0, 1, 2, 3] ++ balls .hckT [0] ++ balls .hckC [0] ++ balls .hca [4, 5, 6, 7]
  ++ balls .hca [8, 9, 10, 11, 12, 13] ++ balls .hpar [0] ++ balls .halertN [0]
  ++ balls .conRx [0] ++ balls .conTx [0] ++ balls .sbScl [0] ++ balls .sbSda [0] ++ balls .hcsN [0, 1, 2, 3]
  ++ balls .hrstN [0] ++ balls .ddq [3, 2, 1, 0]
  ++ balls .ddqsC [0] ++ balls .ddqsT [0]
  ++ balls .hdq [0, 1, 2, 3] ++ balls .ddq [7, 6, 5, 4]
  ++ balls .hdqsT [0] ++ balls .hdqsC [0] ++ balls .ddq [11, 10, 9, 8]
  ++ balls .hdq [4, 5, 6, 7] ++ balls .ddqsC [1] ++ balls .ddqsT [1]
  ++ balls .hdq [8, 9, 10, 11] ++ balls .ddq [15, 14, 13, 12]
  ++ balls .hdqsT [1] ++ balls .hdqsC [1] ++ balls .ddq [19, 18, 17, 16]
  ++ balls .hdq [12, 13, 14, 15] ++ balls .ddqsC [2] ++ balls .ddqsT [2]

/-- Rows L to W. -/
def ballsLtoW : List Ball :=
  balls .hdq [16, 17, 18, 19] ++ balls .ddq [23, 22, 21, 20]
  ++ balls .hdqsT [2] ++ balls .hdqsC [2] ++ balls .ddq [27, 26, 25, 24]
  ++ balls .hdq [20, 21, 22, 23] ++ balls .ddqsC [3] ++ balls .ddqsT [3]
  ++ balls .hdq [24, 25, 26, 27] ++ balls .ddq [31, 30, 29, 28]
  ++ balls .hdqsT [3] ++ balls .hdqsC [3] ++ balls .ddq [35, 34, 33, 32]
  ++ balls .hdq [28, 29, 30, 31] ++ balls .ddqsC [4] ++ balls .ddqsT [4]
  ++ balls .hdq [32, 33, 34, 35] ++ balls .ddq [39, 38, 37, 36]
  ++ balls .hdqsT [4] ++ balls .hdqsC [4] ++ balls .ddq [43, 42, 41, 40]

/-- Rows Y to AC. -/
def ballsYtoAC : List Ball :=
  balls .hdq [36, 37, 38, 39] ++ balls .dcaA [0, 1, 2, 3, 4, 5, 6] ++ balls .dcaB [0, 1, 2, 3, 4, 5]
  ++ balls .ddqsC [5] ++ balls .ddqsT [5]
  ++ balls .save0N [0] ++ balls .save1N [0] ++ balls .holdack [0] ++ balls .dcaA [7, 8, 9, 10, 11, 12, 13]
  ++ balls .dcaB [6, 7, 8, 9, 10, 11] ++ balls .ddq [47, 46, 45, 44]
  ++ balls .pgood [0] ++ balls .aonrstN [0] ++ balls .tamperN [0] ++ balls .dckT [0] ++ balls .dckC [0]
  ++ balls .dcsN [0, 1, 2, 3] ++ balls .dckT [1] ++ balls .dckC [1]
  ++ balls .rdy [0] ++ balls .errN [0] ++ balls .twinPos [0] ++ balls .twinEn [0] ++ balls .drstN [0]
  ++ balls .dalertN [0] ++ balls .dcaB [12, 13]

/-- The 185 balls of the boundary register in their order. -/
def boundaryBalls : List Ball := ballsAtoK ++ ballsLtoW ++ ballsYtoAC

/-- What a cell of the boundary register is. -/
inductive CellKind where
  | input
  | data
  | enable
  deriving DecidableEq, Repr

/-- The cells of one ball. -/
def cellsOf (b : Ball) : List (Ball × CellKind) :=
  match b.sig.kind with
  | .input => [(b, .input)]
  | .output => [(b, .data), (b, .enable)]
  | .bidir => [(b, .input), (b, .data), (b, .enable)]

/-- The cells 0 to 448 of the boundary register. -/
def boundaryCells : List (Ball × CellKind) := boundaryBalls.flatMap cellsOf

/-- The place of a cell. -/
def cellAt (b : Ball) (k : CellKind) : Nat := boundaryCells.findIdx (fun c => c = (b, k))

/-! ### What the device drives -/

/-- What the device puts on a ball: nothing, a level at rest, or the traffic of its interface. -/
inductive Drive where
  | highZ
  | level (high : Bool)
  | traffic
  deriving DecidableEq, Repr

/-- Are the pins of the host interface received: in RUN, and in SERVICE while PD_HIO is on (Table BS-9)? -/
def hostPins (s : State) : Bool :=
  s.boot ≠ .held && (inRun s || (inService s && getF s Fld.PM_DOMAIN_HIO = 1))

/-- Is HCK counted? In HOLD and DORMANT the restore conditions need it (R56) while PGOOD says that the main rails are
valid; with VDDQH off nothing on the host balls reaches the device (R48; DEDUCED, log entry 25). -/
def hckPins (s : State) : Bool :=
  hostPins s || (s.boot ≠ .held && (mode s = modeHold || mode s = modeDormant) && s.pins.pgood)

/-- Is a rank of a half populated: 0 for ranks 0 and 1, 1 for ranks 2 and 3? -/
def halfUsed (s : State) (h : Nat) : Bool := populated s (2 * h) || populated s (2 * h + 1)

/-- Does the DRAM PHY drive the DRAM side, the hold island having given up the pins (R36)? -/
def dramDriven (s : State) : Bool := s.pins.given && s.pins.island ≠ .undefined

/-- A level of the hold island (Table BS-11); undefined levels are a free value of the pin (R37, log entry 58). -/
def islandLevel (s : State) (pin : Nat) (reset selfRefresh : Bool) : Bool :=
  match s.pins.island with
  | .reset => reset
  | .selfRefresh => selfRefresh
  | .undefined => Config.islandLevel s.draws pin

/-- DRST_N. The DRAM PHY holds it high once it has brought the DRAM up (R86). -/
def drstLevel (s : State) : Bool := if dramDriven s then true else islandLevel s 0 false true

/-- DCS_N of a rank; low in the park, where it has its self-refresh level (Table CK-7). -/
def dcsLevel (s : State) (r : Nat) : Bool :=
  if dramDriven s then !parked s && s.ca.dcsN.getLsbD r else islandLevel s (1 + r) true false

/-- DCA_A (`h` = 0) and DCA_B (`h` = 1). -/
def dcaLevel (s : State) (h i : Nat) : Bool :=
  if dramDriven s then (if h = 0 then s.ca.dcaA else s.ca.dcaB).getLsbD i
  else islandLevel s (8 + 14 * h + i) false false

/-- DCK_T and DCK_C of a half: stopped under the hold island, in the park (Table CK-7) and where no rank of the half is
populated (Table BS-13). -/
def dckDrive (s : State) (h : Nat) (isC : Bool) : Drive :=
  if !dramDriven s then .level (islandLevel s (40 + 2 * h + b2n isC) isC isC)
  else if parked s || !halfUsed s h then .level isC
  else .traffic

/-- Is the console's transmitter on (Table BS-9)? -/
def consolePins (s : State) : Bool := s.boot ≠ .held && (inRun s || inService s) && mgtOn s

/-- The host data lanes in operation: RUN, RDY high, not in the park (R91, R92, R150). -/
def hostData (s : State) : Bool := served s && s.pins.rdy && !parked s && !flag s Fld.CA_STATUS_SAVE_BLOCK

/-- The DRAM data lanes in operation: the PHY is on and drives the DRAM side. -/
def dramData (s : State) : Bool := dramDriven s && getF s Fld.PM_DOMAIN_DIO = 1 && !parked s

/-- A bus whose levels are its traffic while it operates, and high impedance otherwise. -/
def bus (on : Bool) : Drive := if on then .traffic else .highZ

/-- What the device drives on a ball without EXTEST (R23, R27): an input is never driven, an open drain only low. -/
def functionDrive (s : State) (b : Ball) : Drive :=
  match b.sig with
  | .hdq | .hdqsT | .hdqsC => bus (hostData s)
  | .ddq | .ddqsT | .ddqsC => bus (dramData s)
  | .halertN => if s.pins.halertBusy then .traffic else .highZ
  | .errN => if s.boot ≠ .held && errnLow s then .level false else .highZ
  | .holdack => .level s.pins.holdack
  | .rdy => .level s.pins.rdy
  | .conTx => bus (consolePins s)
  | .sbSda => bus (consolePins s)
  | .drstN => .level (drstLevel s)
  | .dcsN => .level (dcsLevel s b.bit)
  | .dcaA => .level (dcaLevel s 0 b.bit)
  | .dcaB => .level (dcaLevel s 1 b.bit)
  | .dckT => dckDrive s b.bit false
  | .dckC => dckDrive s b.bit true
  | .hca | .hcsN | .hpar | .hckT | .hckC | .hrstN | .dalertN | .conRx | .sbScl | .save0N | .save1N | .tamperN
  | .pgood | .aonrstN | .twinPos | .twinEn => .highZ

/-! ### Termination of the host lanes (R149, R150) -/

/-- How a host lane is terminated or driven. -/
inductive HostTerm where
  /-- PD_HIO is off, or the park holds the lanes at high impedance: unterminated. -/
  | off
  /-- Terminated with a code of HL_RTT. -/
  | rtt (code : Nat)
  /-- Driven by the device with the codes of HL_DRV, as it returns data. -/
  | driven (pu pd : Nat)
  deriving DecidableEq, Repr

/-- What lane `n` shows at rest, or during a burst: `write` of the host's data, `read` of the device's. -/
inductive LanePhase where
  | rest
  | write
  | read
  deriving DecidableEq, Repr

/-- The termination of a host lane: RTT_WR during a write burst and RTT_PARK at rest, RTT_PARK held after the host is blocked
until PD_HIO is off (R149, R150). -/
def hostTerm (s : State) (n : Nat) (ph : LanePhase) : HostTerm :=
  if getF s Fld.PM_DOMAIN_HIO ≠ 1 || parked s || s.boot ≠ .up || inTrain s then .off
  else match ph with
    | .rest => .rtt (getF s (Fld.HL_DRV_RTT_PARK.lane n))
    | .write => .rtt (getF s (Fld.HL_DRV_RTT_WR.lane n))
    | .read => .driven (getF s (Fld.HL_DRV_DRV_PU.lane n)) (getF s (Fld.HL_DRV_DRV_PD.lane n))

/-- The phase of a lane as the open bursts show it: a write burst that is being received comes first. -/
def lanePhase (s : State) : LanePhase :=
  if !s.dl.writes.isEmpty then .write else if !s.dl.reads.isEmpty then .read else .rest

end Sys2Proof.Machine
end

