-- ==== Sys2Proof/Machine/Eye.lean ====
section
/-! DEFINITION. The measurement of an eye (R187 to R190): samples compared with a reference and counted, dwells, the outward
search for the edges of a bit, the full scan of an acquisition (R211), the weighted median, and the figures of a trial. -/

namespace Sys2Proof.Machine

/-! ### Counting (R188) -/

/-- Bits compared at a dwell. -/
def tallyBits (t : Tally) : Nat := t.n1 + t.n0

/-- Disagreements counted at a dwell. -/
def tallyBad (t : Tally) : Nat := t.b1 + t.b0

/-- Two counts of one dwell together. -/
def tallyAdd (a b : Tally) : Tally := ⟨a.n1 + b.n1, a.b1 + b.b1, a.n0 + b.n0, a.b0 + b.b0⟩

/-- `n` bits of a reference compared with those of a sampler. -/
def tallyOf (n ref sample : Nat) : Tally :=
  let d := ref ^^^ sample
  ⟨popCount n ref, popCount n (d &&& ref), n - popCount n ref, popCount n (d &&& sample)⟩

/-- Is the rate of a dwell valid: 2^(EDGE_THR + 2) bits compared? -/
def tallyValid (thr : Nat) (t : Tally) : Bool := 2 ^ (thr + 2) ≤ tallyBits t

/-- Is a dwell with a valid rate outside the eye: a rate of at least 2^-EDGE_THR? -/
def tallyOutside (thr : Nat) (t : Tally) : Bool := tallyBits t ≤ tallyBad t * 2 ^ thr

/-- The bits of bit `i` of a lane over the 16 beats, beat 0 lowest. -/
def laneBit (lane i : Nat) : Nat := ofBits (beats.filter (fun b => lane.testBit (8 * b + i)))

/-- Add a count to dwell `k` of a side. -/
def bump (x : Tally) (k : Nat) (l : List Tally) : List Tally :=
  if k < l.length then l.modify k (tallyAdd x) else l ++ [x]

/-! ### The search for an edge (R189) -/

/-- How far the search of one side has come: it dwells at its `k`-th offset, that offset is the first outside, or the
monitor's range has no offset outside. -/
inductive Search where
  | dwell (k : Nat)
  | found (k : Nat)
  | missing
  deriving DecidableEq, Repr

/-- Stepping outward over the dwells of a side that has `max` offsets. -/
def search (thr max : Nat) : List Tally → Nat → Search
  | [], k => if k < max then .dwell k else .missing
  | t :: ts, k =>
    if !tallyValid thr t then .dwell k else if tallyOutside thr t then .found k else search thr max ts (k + 1)

/-- The full scan of a side: every offset of it is dwelt on. -/
def scanAll (thr max : Nat) : List Tally → Nat → Search
  | [], k => if k < max then .dwell k else .missing
  | t :: ts, k => if tallyValid thr t then scanAll thr max ts (k + 1) else .dwell k

/-- The offset of a found edge. -/
def edgeAt (f : Nat → Int) : Search → Option Int
  | .found k => some (f k)
  | _ => none

/-- How a trial samples: one monitor beside the main sampler, in search or in the full scan of an acquisition; both samplers
of a swept lane (R222); the transmit offsets of a write trial, timing only (R231). -/
inductive Sampling where
  | single
  | acquire
  | double
  | write
  deriving DecidableEq, Repr

/-- The offsets of the sides in the order of their dwells. Timing reaches 63 taps to each side, with offset 0 on the left;
voltage reaches from -128 to +127 steps (R187). With both samplers the voltage search begins one step from the centre, as
the worked case of Chapter 10 counts its dwells; with one it begins at 0, as R206's count of positions does. -/
def leftAt (k : Nat) : Int := -(k : Int)
def rightAt (k : Nat) : Int := (k : Int) + 1
def bottomAt (m : Sampling) (k : Nat) : Int := if m = .double then -((k : Int) + 1) else -(k : Int)
def topAt (k : Nat) : Int := (k : Int) + 1
def leftMax : Nat := 64
def rightMax : Nat := 63
def bottomMax (m : Sampling) : Nat := if m = .double then 128 else 129
def topMax : Nat := 127

/-- The search of a timing side. -/
def timeSearch (m : Sampling) (thr max : Nat) (l : List Tally) : Search :=
  if m = .acquire then scanAll thr max l 0 else search thr max l 0

/-- The runs of inside offsets, as first and last offset, from offset `o` on. -/
def insideRuns : List Bool → Int → Option Int → List (Int × Int)
  | [], _, none => []
  | [], o, some a => [(a, o - 1)]
  | true :: t, o, none => insideRuns t (o + 1) (some o)
  | true :: t, o, some a => insideRuns t (o + 1) (some a)
  | false :: t, o, none => insideRuns t (o + 1) none
  | false :: t, o, some a => (a, o - 1) :: insideRuns t (o + 1) none

/-- The distance of a run from offset 0. -/
def runDistance (r : Int × Int) : Nat :=
  if r.1 ≤ 0 ∧ 0 ≤ r.2 then 0 else min r.1.natAbs r.2.natAbs

/-- The longest run; ties go to the run nearer offset 0 (R211). -/
def bestRun : List (Int × Int) → Option (Int × Int)
  | [] => none
  | r :: t => some (t.foldl (fun b x =>
      if b.2 - b.1 < x.2 - x.1 ∨ (x.2 - x.1 = b.2 - b.1 ∧ runDistance x < runDistance b) then x else b) r)

/-- The run that a full scan takes. -/
def scanRun (thr : Nat) (s : BitScan) : Option (Int × Int) :=
  bestRun (insideRuns ((s.l.reverse ++ s.r).map (fun t => !tallyOutside thr t)) (1 - (s.l.length : Int)) none)

/-- The timing edges of a bit: what the search has found, or what bounds the run of a full scan. -/
def timeEdges (m : Sampling) (thr : Nat) (s : BitScan) : Option Int × Option Int :=
  if m = .acquire then
    match scanRun thr s with
    | none => (none, none)
    | some r => (if r.1 = -63 then none else some (r.1 - 1), if r.2 = 63 then none else some (r.2 + 1))
  else (edgeAt leftAt (search thr leftMax s.l 0), edgeAt rightAt (search thr rightMax s.r 0))

/-- Is a search under way? -/
def Search.dwells : Search → Bool
  | .dwell _ => true
  | _ => false

/-- Has the timing phase of a bit ended? -/
def timeDone (m : Sampling) (thr : Nat) (s : BitScan) : Bool :=
  !(timeSearch m thr leftMax s.l).dwells && !(timeSearch m thr rightMax s.r).dwells

/-- Does the bit go on to its voltage phase: both timing edges found? -/
def goesOn (m : Sampling) (thr : Nat) (s : BitScan) : Bool :=
  m ≠ .write && (timeEdges m thr s).1.isSome && (timeEdges m thr s).2.isSome

/-- Has every search of a bit ended? -/
def bitDone (m : Sampling) (thr : Nat) (s : BitScan) : Bool :=
  timeDone m thr s && (!goesOn m thr s
    || (!(search thr (bottomMax m) s.b 0).dwells && !(search thr topMax s.t 0).dwells))

/-- Is every bit of a lane measured? -/
def eyesDone (m : Sampling) (thr : Nat) (bits : List BitScan) : Bool := bits.all (bitDone m thr)

/-! ### Gathering samples -/

/-- The count goes to the dwell of a search that is under way. -/
def feedSide (x : Tally) (q : Search) (l : List Tally) : List Tally :=
  match q with
  | .dwell k => bump x k l
  | _ => l

/-- Does a sampler that serves both sides in turn dwell on the left one? -/
def leftTurn (m : Sampling) : Search → Search → Bool
  | .dwell i, .dwell j => m ≠ .write || i ≤ j
  | .dwell _, _ => true
  | _, _ => false

/-- One compared burst of a bit with one moving sampler: left, right, bottom, top in turn; a write trial visits left and right
in alternate pairs. What follows the last edge found enters no dwell. -/
def feedOne (m : Sampling) (thr : Nat) (x : Tally) (s : BitScan) : BitScan :=
  let l := timeSearch m thr leftMax s.l
  let r := timeSearch m thr rightMax s.r
  if leftTurn m l r then { s with l := feedSide x l s.l }
  else if r.dwells then { s with r := feedSide x r s.r }
  else if goesOn m thr s then
    let b := search thr (bottomMax m) s.b 0
    if b.dwells then { s with b := feedSide x b s.b } else { s with t := feedSide x (search thr topMax s.t 0) s.t }
  else s

/-- One compared burst of a bit of the swept lane (R222): the main sampler steps left and down, the monitor right and up, both
at once. -/
def feedBoth (thr : Nat) (main mon : Tally) (s : BitScan) : BitScan :=
  if !timeDone .double thr s then
    { s with l := feedSide main (search thr leftMax s.l 0) s.l, r := feedSide mon (search thr rightMax s.r 0) s.r }
  else if goesOn .double thr s then
    { s with b := feedSide main (search thr (bottomMax .double) s.b 0) s.b,
             t := feedSide mon (search thr topMax s.t 0) s.t }
  else s

/-- A bit that nothing has measured yet. -/
def noScan : BitScan := ⟨[], [], [], []⟩

/-- The bits of a lane. -/
def bits8 : List Nat := List.range 8

/-- The scans of the bits of a lane before its first sample. -/
def noScans (n : Nat) : List BitScan := List.replicate n noScan

/-- One burst of a lane with one moving sampler: the reference and the samples of its eight bits. -/
def feedLane (m : Sampling) (thr ref sample : Nat) (bits : List BitScan) : List BitScan :=
  bits8.map (fun i =>
    feedOne m thr (tallyOf 16 (laneBit ref i) (laneBit sample i)) (bits.getD i noScan))

/-- One burst of the swept lane: truth, main samples and monitor samples. -/
def feedSwept (thr truth main mon : Nat) (bits : List BitScan) : List BitScan :=
  bits8.map (fun i => feedBoth thr (tallyOf 16 (laneBit truth i) (laneBit main i))
    (tallyOf 16 (laneBit truth i) (laneBit mon i)) (bits.getD i noScan))

/-- One host command cycle at the 19 C/A inputs (R213): each pin gives one compared bit. -/
def feedPins (thr ref sample : Nat) (bits : List BitScan) : List BitScan :=
  (List.range 19).map (fun i =>
    feedOne .single thr (tallyOf 1 (natBits ref i i) (natBits sample i i)) (bits.getD i noScan))

/-! ### The histogram (R190) -/

/-- The dwells of all bits at one voltage offset together. -/
def pooled (m : Sampling) (bits : List BitScan) (v : Int) : Tally :=
  bits.foldl (fun a s =>
    let k := (if m = .double then v.natAbs - 1 else v.natAbs)
    tallyAdd a (if 0 < v then s.t.getD (v.toNat - 1) ⟨0, 0, 0, 0⟩
      else if v = 0 ∧ m = .double then ⟨0, 0, 0, 0⟩ else s.b.getD k ⟨0, 0, 0, 0⟩)) ⟨0, 0, 0, 0⟩

/-- The voltage offsets at which samples of both values were gathered, rising, with their counts. -/
def histogram (m : Sampling) (bits : List BitScan) : List (Int × Tally) :=
  (List.range 256).filterMap (fun (k : Nat) =>
    let v : Int := (k : Int) - 128
    let p := pooled m bits v
    if p.n1 ≠ 0 ∧ p.n0 ≠ 0 then some (v, p) else none)

/-- Twice the share of the samples that lie above an offset, ones and zeros weighted equally, times the product of their
numbers: of the ones those that agree lie above, of the zeros those that disagree. -/
def aboveTwice (p : Tally) : Nat := (p.n1 - p.b1) * p.n0 + p.b0 * p.n1

/-- The last offset of a run of offsets that all have half of the weighted samples above them. -/
def lastHalf : List (Int × Tally) → Int → Int
  | [], last => last
  | (v, p) :: t, last => if aboveTwice p = p.n1 * p.n0 then lastHalf t v else last

/-- The median of a histogram in microvolts: the offset at which half of the weighted samples lie above. Where a run of
offsets has half of them above, and between two offsets that were sampled, it is a free value of that range (log entry 62).
`prev` is the last offset with more than half above it. -/
def medianFrom (free : Nat) : List (Int × Tally) → Int → Int
  | [], prev => prev * 1875 + free % ((128 - prev).toNat * 1875 + 1)
  | (v, p) :: t, prev =>
    if p.n1 * p.n0 < aboveTwice p then medianFrom free t v
    else if aboveTwice p = p.n1 * p.n0 then
      (if lastHalf t v = v then v * 1875 else v * 1875 + free % ((lastHalf t v - v).toNat * 1875 + 1))
    else prev * 1875 + free % ((v - prev).toNat * 1875 + 1)

/-- The median of a lane. -/
def laneMedian (m : Sampling) (bits : List BitScan) : Int :=
  let h := histogram m bits
  if h.isEmpty then 0 else medianFrom (Config.medianPart h) h (-128)

/-! ### Trials (R189, R190) -/

/-- The eye of a bit. A bit that a full scan finds without an offset inside has width 0, not a missing edge (R211). -/
def bitEye (m : Sampling) (thr : Nat) (s : BitScan) : BitEye :=
  let e := timeEdges m thr s
  if m = .acquire ∧ (scanRun thr s).isNone then ⟨some 0, some 0, some 0, some 0⟩
  else if goesOn m thr s then
    ⟨e.1, e.2, edgeAt topAt (search thr topMax s.t 0), edgeAt (bottomAt m) (search thr (bottomMax m) s.b 0)⟩
  else ⟨e.1, e.2, none, none⟩

/-- The trial that scans amount to. -/
def trialOf (m : Sampling) (thr : Nat) (bits : List BitScan) : Trial :=
  ⟨bits.map (bitEye m thr), laneMedian m bits⟩

/-- Nearest whole quotient, halves toward zero. -/
def roundHalfToZero (n d : Int) : Int :=
  let q := (2 * n.natAbs + d.natAbs - 1) / (2 * d.natAbs)
  if n < 0 then -(q : Int) else (q : Int)

/-- Has every edge of the eye been found? -/
def eyeFound (e : BitEye) : Bool := e.l.isSome && e.r.isSome && e.t.isSome && e.b.isSome
/-- Have both timing edges been found (the write path measures timing only, R231)? -/
def eyeTimed (e : BitEye) : Bool := e.l.isSome && e.r.isSome

/-- The timing move; an eye without edges has no figures, and they read 0. -/
def eyeMove (e : BitEye) : Int := if eyeTimed e then (e.l.getD 0 + e.r.getD 0).tdiv 2 else 0
/-- The width W. -/
def eyeW (e : BitEye) : Nat := if eyeTimed e then (e.r.getD 0 - e.l.getD 0).toNat else 0
/-- The height H in mV. -/
def eyeH (e : BitEye) : Nat := if eyeFound e then ((e.t.getD 0 - e.b.getD 0) * 15 / 8).toNat else 0

/-- The Vref move: the median over the code step of 2.157 mV (Table CB-1). -/
def trialVmove (t : Trial) : Int := roundHalfToZero t.median 2157

/-- A clamp to ±2 steps (R210). -/
def clamp2 (i : Int) : Int := if i < -2 then -2 else if 2 < i then 2 else i

/-- The OFFSET move of a bit (R210). -/
def eyeOffset (vmove : Int) (e : BitEye) : Int :=
  clamp2 (roundHalfToZero ((e.t.getD 0 + e.b.getD 0) * 1875 - vmove * 4314) 1875)

/-- The figures of a trial. -/
def trialResult (t : Trial) : TrialResult :=
  let v := trialVmove t
  ⟨t.eyes.map eyeMove, v, t.eyes.map (eyeOffset v), t.eyes.map eyeW, t.eyes.map eyeH⟩

end Sys2Proof.Machine
end

