-- ==== Sys2Proof/Machine/LaneGuard.lean ====
section
/-! DEFINITION. Lane Guard (Chapter 7): the host-code table (R177 to R183), the judgement of reads (R160 to
R166, R175), the rank states and how a lane is erased, fails a second time and is readmitted (R164 to R173). -/

namespace Sys2Proof.Machine

/-! ### The host-code table -/

/-- A word of a table. -/
def hctWord (h : HctTable) (i : Nat) : Nat := (smGet (zeroDefault 32) h.words i).toNat

/-- The 640-bit mask of row `r` (R178). -/
def hctRow (h : HctTable) (r : Nat) : Nat :=
  (List.range 20).foldl (fun a w => a + hctWord h (r * 20 + w) <<< (32 * w)) 0

/-- The constant vector C (R178). -/
def hctC (h : HctTable) : Nat :=
  (List.range 4).foldl (fun a w => a + hctWord h (2560 + w) <<< (32 * w)) 0

/-- Lane H4 of a line or mask: its 128 check positions (R177). -/
def checkLane (line : Nat) : Nat := hostLane line 4

/-- The line bits of the check positions. -/
def checkMask : Nat := ofHostLanes [0, 0, 0, 0, 2 ^ 128 - 1]

/-- The check position of a row: the one it selects. -/
def rowPosition (mask : Nat) : Nat := Nat.log2 (checkLane mask)

/-- Does row `r` of a table pass on a line (R178)? -/
def rowPasses (h : HctTable) (line r : Nat) : Bool :=
  let m := hctRow h r
  oddParity (line &&& m) == (hctC h).testBit (rowPosition m)

/-- Does a line pass a table (R178)? -/
def tablePasses (h : HctTable) (line : Nat) : Bool := (List.range h.rows).all (rowPasses h line)

/-- A line as a check against the HCT sees it: with FC_INJ.HCT its check bits inverted (Table FC-5). -/
def hctSeen (s : State) (line : Nat) : Nat :=
  if flag s Fld.FC_INJ_HCT then line ^^^ checkMask else line

/-- Does a line pass the HCT in force (R178)? -/
def hctPasses (s : State) (line : Nat) : Bool := tablePasses s.lg.table (hctSeen s line)

/-- The first 24 rows that fail, one bit a row (Table LG-7, kind 9). -/
def hctFailBits (s : State) (line : Nat) : Nat :=
  ofBits ((List.range (min 24 s.lg.table.rows)).filter (fun r => !rowPasses s.lg.table (hctSeen s line) r))

/-- The row that selects check position `j`, if one does. -/
def rowAt (h : HctTable) (j : Nat) : Option Nat :=
  (List.range h.rows).find? (fun r => rowPosition (hctRow h r) = j)

/-- The check bit that position `j` gets for the data bits of a line (R181). -/
def synthBit (h : HctTable) (line j : Nat) : Bool :=
  match rowAt h j with
  | none => (hctC h).testBit j
  | some r => (hctC h).testBit j != oddParity (line &&& hctRow h r &&& (2 ^ 640 - 1 - checkMask))

/-- The 128 check bits of a line's data bits, as lane H4 (R181). -/
def synthChecks (h : HctTable) (line : Nat) : Nat :=
  ofBits ((List.range 128).filter (synthBit h line))

/-- The rank of a list of bit rows over GF(2), by elimination. -/
def gfRank : Nat → List Nat → Nat
  | 0, _ => 0
  | _ + 1, [] => 0
  | f + 1, r :: rs =>
    if r = 0 then gfRank f rs
    else 1 + gfRank f (rs.map (fun x => if x.testBit (Nat.log2 r) then x ^^^ r else x))

/-- The rows of M(n) (R180). -/
def laneMatrix (h : HctTable) (n : Nat) : List Nat :=
  (List.range 128).map (fun r => hostLane (hctRow h r) n)

/-- Is a table strong (R180)? -/
def hctStrong (h : HctTable) : Bool :=
  h.rows = 128 &&
  (List.range 5).all (fun n =>
    gfRank 128 (laneMatrix h n) = 128 &&
    (List.range n).all (fun m => gfRank 128 (List.zipWith (fun a b => a ^^^ b) (laneMatrix h n) (laneMatrix h m)) = 128))

/-- The first finding of verification over the rows from `r` on: 0 when there is none (R179, Table LG-6).
`seen` holds the positions selected so far. -/
def rowFinding (h : HctTable) : Nat → Nat → Nat → Nat
  | 0, _, _ => 0
  | f + 1, r, seen =>
    if h.rows ≤ r then 0
    else
      let c := checkLane (hctRow h r)
      if c = 0 then 1
      else if c ≠ 1 <<< Nat.log2 c then 2
      else if c &&& seen ≠ 0 then 3
      else rowFinding h f (r + 1) (seen ||| c)

/-- The reject code of a table; 0 when it passes (Table LG-6). -/
def hctReject (h : HctTable) : Nat :=
  if h.rows = 0 ∨ 128 < h.rows then 4 else rowFinding h 128 0 0

/-- LG_HCTCRC: CRC-32 over the rows and C, words little-endian (Table LG-11). -/
def hctCrc (h : HctTable) : Word :=
  crc32 (((List.range (h.rows * 20)).flatMap (fun i => leBytes 4 (hctWord h i)))
    ++ (List.range 4).flatMap (fun w => leBytes 4 (hctWord h (2560 + w))))

/-- The table in verification, or verified and waiting: the window with the ROWS of its LOAD. -/
def windowTable (s : State) : HctTable := ⟨s.lg.hct, s.lg.hctRows⟩

/-- End the shadow sweep; the round moves on (R220, R221, R227). The samplers return once the lane carries no burst of the
rank: the reads in flight until then are still rebuilt. -/
def dropSweep (s : State) : State :=
  match s.cb.sweep with
  | none => s
  | some w =>
    settleEngines (setF Fld.CB_DSTAT_SWEEPING 0 (setF Fld.CB_DSTAT_TRIAL_B 0
      { s with
        cb := { s.cb with sweep := none, round := (w.rank * 6 + w.lane + 1) % 24 },
        dl := { s.dl with reads := s.dl.reads.map (fun o => if o.rank = w.rank then { o with swept := some w.lane } else o) } }))

/-- Does Lane Guard serve a sweep on rank `r` (R174)? -/
def sweepServed (s : State) (r : Nat) : Bool :=
  rankProtected s r && flag s Fld.LG_STATUS_CHECK_IN_FORCE && flag s Fld.LG_STATUS_HCT_LOADED

/-- A sweep whose conditions fail ends (R174). -/
def checkSweep (s : State) : State :=
  match s.cb.sweep with
  | none => s
  | some w => if sweepServed s w.rank then s else dropSweep s

/-- Start the verification of the table in the window (R179). -/
def hctStart (rows : Nat) (s : State) : State :=
  setF Fld.LG_HCTC_PENDING 1 (setF Fld.LG_HCTC_ROWS rows
    { s with lg := { s.lg with pend := .verifying, hctRows := rows } })

/-- Completion code of `keep config load hct=yes` (R490). -/
def tokHct : Nat := 12

/-- End of verification (R179, R180). A table that fails leaves what is in force as it is (DESIGN CHOICE where a table is in
force, log entry 64). -/
def hctVerify (s : State) : State :=
  match s.lg.pend with
  | .verifying =>
    let h := windowTable s
    let code := hctReject h
    let strong := hctStrong h
    let s1 := setB Fld.LG_HCTC_STRONG strong (setB Fld.LG_HCTC_REJECT (code ≠ 0) (setF Fld.LG_HCTC_REJECT_CODE code s))
    if code = 0 then
      setReg Fld.LG_HCTCRC_CRC.addr (hctCrc h)
        (completeTokens tokHct "ok" { s1 with lg := { s1.lg with pend := .load strong } })
    else
      setF Fld.LG_HCTC_PENDING 0 (completeTokens tokHct "err E60 hardware" { s1 with lg := { s1.lg with pend := .none } })
  | _ => s

/-- The table leaves force. -/
def hctClear (s : State) : State :=
  setF Fld.LG_HCTC_LOADED 0 (setF Fld.LG_STATUS_HCT_LOADED 0 (setF Fld.LG_STATUS_HCT_STRONG 0
    (setF Fld.LD_OPSTAT_NO_HCT 1 { s with lg := { s.lg with unloadDue := false, table := .empty } })))

/-- The HCT unload that falls due at a boundary (R179). -/
def hctUnloadNow (s : State) : State := if s.lg.unloadDue then hctClear s else s

/-- The HCT load that falls due at a boundary (R179). -/
def hctLoadNow (s : State) : State :=
  match s.lg.pend with
  | .load strong =>
    setF Fld.LG_HCTC_LOADED 1 (setF Fld.LG_HCTC_PENDING 0 (setF Fld.LG_STATUS_HCT_LOADED 1
      (setB Fld.LG_STATUS_HCT_STRONG strong (setF Fld.LD_OPSTAT_NO_HCT 0
        { s with lg := { s.lg with pend := .none, table := windowTable s } }))))
  | _ => s

/-- A boundary of any kind: the changes that concern every rank come into force (R568). Where an unload and a load fall due at
the same boundary, the unload comes first and the new table is in force (DESIGN CHOICE, log entry 64). -/
def guardBoundary (s : State) : State :=
  let s1 := hctLoadNow (hctUnloadNow s)
  checkSweep (setB Fld.LG_STATUS_CHECK_IN_FORCE (flag s1 Fld.LG_CTRL_CHECK_EN) s1)

/-- Writing the window word at LG_HCTA (R179): refused while a table is loaded or in verification. -/
def hctWrite (v : Word) (s : State) : State :=
  if flag s Fld.LG_HCTC_LOADED || flag s Fld.LG_HCTC_PENDING then s
  else
    let a := getF s Fld.LG_HCTA_ADDR
    setF Fld.LG_HCTA_ADDR ((a + 1) % 2564)
      { s with lg := { s.lg with hct := smSet (zeroDefault 32) s.lg.hct a v } }

/-- Reading the window word increments the address (Table LG-11). -/
def hctReadStep (s : State) : State :=
  setF Fld.LG_HCTA_ADDR ((getF s Fld.LG_HCTA_ADDR + 1) % 2564) s

/-! ### Rank states -/

/-- The DRAM lane of host lane `n` in the map in force; `n = 5` names the parity lane (R156). -/
def mapLane (s : State) (n : Nat) : Nat := natBits (reg s Fld.LG_MAPF_MAP.addr).toNat (4 * n + 2) (4 * n)

/-- The parity lane in force. -/
def parLane (s : State) : Nat := mapLane s 5

/-- The erased lane of a rank. -/
def erasedLane (s : State) (r : Nat) : Nat := getF s (Fld.LG_RANK_LANE.at r)

/-- LG_CCNT of a rank and lane. -/
def ccntF (r d : Nat) : Field := Fld.LG_CCNT_COUNT.at (r * 6 + d)

/-- LG_STATUS summaries of the rank states (Table LG-8). -/
def guardStatus (s : State) : State :=
  setB Fld.LG_STATUS_ANY_ERASED (rankList.any (fun r => !rankProtected s r))
    (setB Fld.LG_STATUS_ANY_PL (rankList.any (fun r => rankPl s r && !rankSecond s r))
      (setB Fld.LG_STATUS_ERASE_PENDING (s.lg.fails.any (fun f => !f.second)) s))

/-- Is a lane of the rank waiting to be erased, and which? -/
def pendingErase (s : State) (r : Nat) : Option Nat :=
  (s.lg.fails.find? (fun f => f.rank = r && !f.second)).map (·.lane)

/-- Queue a failure for the boundary of its rank. -/
def queueFail (f : LanePend) (s : State) : State :=
  guardStatus { s with lg := { s.lg with fails := s.lg.fails ++ [f] } }

/-- Declare a second failure of a rank, once (R171). `lane` is the lane named; where LG_RFAIL declares it, none is, and the
erased lane stands in its place (log entry 42). -/
def declareSecond (r lane cause : Nat) (s : State) : State :=
  if rankSecond s r || s.lg.fails.any (fun f => f.rank = r && f.second) then s
  else queueFail ⟨r, lane, cause, true⟩ s

/-- A cause of R167 names lane `d` of rank `r`. -/
def eraseLane (r d cause : Nat) (s : State) : State :=
  if rankSecond s r then s
  else if rankErased s r then (if erasedLane s r = d then s else declareSecond r d 1 s)
  else match pendingErase s r with
    | none => queueFail ⟨r, d, cause, false⟩ s
    | some e => if e = d then s else declareSecond r d 1 s

/-- Take the first failure that satisfies `p` out of the queue. -/
def takeFail (p : LanePend → Bool) (s : State) : State :=
  match s.lg.fails.find? p with
  | none => s
  | some f => { s with lg := { s.lg with fails := s.lg.fails.erase f } }

/-- The erasure of lane `d` of rank `r` takes effect (R169): state, counters and faults, without the mode. -/
def eraseNow (r d cause : Nat) (s : State) : State :=
  let syn := synLane r d cause (getF s (ccntF r d))
  let s1 := setF (Fld.LG_RANK_ERASED.at r) 1 (setF (Fld.LG_RANK_LANE.at r) d (setF (Fld.LG_RFAIL_COUNT.at r) 0 s))
  if d = parLane s then raise 23 syn (raise 18 syn (setF (Fld.LG_RANK_PL_FAULT.at r) 1 s1)) else raise 18 syn s1

/-- RUN.LIVE becomes RUN.DEGRADED, with cause 0x0B for a data lane and 0x0C for the parity lane (R169). -/
def degrade (d : Nat) (s : State) : State :=
  if inRun s && sub s = subLive then transition modeRun subDegraded (if d = parLane s then 0x0C else 0x0B) s else s

/-- Completion codes of `lane erase` and `lane readmit` by rank: an erasure, a second failure, a readmission. -/
def waitErase (r : Nat) : Nat := 48 + r
def waitSecond (r : Nat) : Nat := 52 + r
def waitReadmit (r : Nat) : Nat := 56 + r

/-- The boundary of rank `r`: a pending erasure takes effect (R169). -/
def erasureEffect (r : Nat) (s : State) : State :=
  match s.lg.fails.find? (fun f => f.rank = r && !f.second) with
  | none => s
  | some f =>
    let s1 := takeFail (fun g => g.rank = r && !g.second) s
    completeTokens (waitErase r) "ok" (checkSweep (guardStatus (degrade f.lane (eraseNow r f.lane f.cause s1))))

/-- A second failure of rank `r` takes effect (R171). -/
def secondNow (r cause : Nat) (s : State) : State :=
  raise 19 (synLane r (erasedLane s r) cause (getF s (Fld.LG_RFAIL_COUNT.at r)))
    (setF (Fld.LG_RANK_SECOND.at r) 1 s)

/-- The boundary of rank `r`: a pending second failure takes effect (R171). -/
def secondEffect (r : Nat) (s : State) : State :=
  match s.lg.fails.find? (fun f => f.rank = r && f.second) with
  | none => s
  | some f =>
    if rankErased s r then
      completeTokens (waitSecond r) "ok" (guardStatus (secondNow r f.cause (takeFail (fun g => g.rank = r && g.second) s)))
    else s

/-- The rank is PROTECTED again and its counters read 0 (R172). -/
def readmitNow (r : Nat) (s : State) : State :=
  let s1 := setReg (0x2010 + 4 * r) 0 s
  let s2 := setF (Fld.LG_UCNT_COUNT.at r) 0 (setF (Fld.LG_RFAIL_COUNT.at r) 0 s1)
  let s3 := (List.range 6).foldl (fun t d => setF (ccntF r d) 0 t) s2
  { s3 with lg := { s3.lg with
      fails := s3.lg.fails.filter (fun f => f.rank ≠ r), readmit := s3.lg.readmit.filter (fun q => q ≠ r) } }

/-- The boundary of rank `r`: an accepted readmission takes effect (R172). -/
def readmitEffect (r : Nat) (s : State) : State :=
  if s.lg.readmit.contains r then
    let s1 := completeTokens (waitReadmit r) "ok" (completeTokens (waitErase r) "ok" (completeTokens (waitSecond r) "ok"
      (guardStatus (readmitNow r s))))
    if inRun s1 && sub s1 = subDegraded && rankList.all (rankProtected s1) then transition modeRun subLive 0x0D s1
    else s1
  else s

/-- The erasure policy on a promotion of FS 16 (R168): the Steward decides once for a promotion, over the counters of the ranks
that are PROTECTED. -/
def eraseDecision (s : State) : State :=
  let s0 := { s with lg := { s.lg with decide := false } }
  if !s.lg.decide || s.sw.halted || !flag s Fld.LG_CTRL_AUTO_ERASE then s0
  else
    let inc := fun k => if rankProtected s (k / 6) then (smGet (zeroDefault 32) s.lg.inc k).toNat else 0
    let sum := (List.range 24).foldl (fun a k => a + inc k) 0
    let top := (List.range 24).foldl (fun a k => if inc a < inc k then k else a) 0
    let s1 := { s0 with lg := { s0.lg with inc := [] } }
    if sum ≠ 0 ∧ getF s Fld.LG_POLICY_ERASE_SHARE * sum ≤ inc top * 100 then eraseLane (top / 6) (top % 6) 0 s1
    else trace 0x0601 (inc top * 100 / (if sum = 0 then 1 else sum) + (top % 6) * 2 ^ 8 + (top / 6) * 2 ^ 12) s1

/-- The Steward clears LG_RFAIL of every rank; SECOND_WIN = 0 never does (R171). -/
def rfailClear (s : State) : State :=
  if flag s Fld.LG_POLICY_SECOND_WIN then
    rankList.foldl (fun t r => setF (Fld.LG_RFAIL_COUNT.at r) 0 t) s
  else s

/-! ### Judging a read burst -/

/-- The six lanes of a DRAM burst. -/
def burstLanes (d : Nat) : List Nat := (List.range 6).map (dramLane d)

/-- The raw line: the five host lanes as read through the map in force (R161). -/
def rawLine (s : State) (ls : List Nat) : List Nat := (List.range 5).map (fun n => ls.getD (mapLane s n) 0)

/-- The line with DRAM lane `k` replaced by the XOR of the other five lanes. -/
def rebuiltLine (s : State) (ls : List Nat) (k : Nat) : List Nat :=
  let v := xorAll ls ^^^ ls.getD k 0
  (List.range 5).map (fun n => if mapLane s n = k then v else ls.getD (mapLane s n) 0)

/-- Deliver a line to the host, with the read preamble in force as the read was opened (R137). -/
def deliver (o : OpenBurst) (ls : List Nat) (s : State) : State :=
  { s with dl := { s.dl with
      hostRead := some (BitVec.ofNat 640 (ofHostLanes ls)), readPre := natBits o.snoop.toNat 23 20 } }

/-- Raise FS 17 of a kind and count it (R184, Table LG-10). -/
def failRead (kind : Nat) (o : OpenBurst) (syn : Nat) (s : State) : State :=
  raise 17 (synRead kind 7 o syn) (incF (Fld.LG_UCNT_COUNT.at o.rank) s)

/-- Raise FS 16 with its located lane and count it (R162). -/
def correctRead (kind lane : Nat) (o : OpenBurst) (syn : Nat) (s : State) : State :=
  let k := o.rank * 6 + lane
  let s1 := incF (ccntF o.rank lane) (raise 16 (synRead kind lane o syn) s)
  { s1 with lg := { s1.lg with inc := smSet (zeroDefault 32) s1.lg.inc k (smGet (zeroDefault 32) s1.lg.inc k + 1) } }

/-- The trial lines that pass, as (DRAM lane, line) (R161). -/
def trials (s : State) (ls : List Nat) : List (Nat × List Nat) :=
  ((List.range 5).map (fun n => (mapLane s n, rebuiltLine s ls (mapLane s n)))).filter
    (fun t => hctPasses s (ofHostLanes t.2))

/-- Table LG-1: a read of a PROTECTED rank with checking on. -/
def readProtected (o : OpenBurst) (ls : List Nat) (s : State) : State :=
  let syn := xorAll ls
  let raw := rawLine s ls
  let loaded := flag s Fld.LG_STATUS_HCT_LOADED
  if syn = 0 then
    if loaded && !hctPasses s (ofHostLanes raw) then deliver o raw (failRead 7 o syn s) else deliver o raw s
  else if !loaded then deliver o raw (failRead 4 o syn s)
  else
    let ok := hctPasses s (ofHostLanes raw)
    match trials s ls, ok with
    | [], true => deliver o raw (correctRead 1 (parLane s) o syn s)
    | [], false => deliver o raw (failRead 2 o syn s)
    | [t], false => deliver o t.2 (correctRead 0 t.1 o syn s)
    | _, _ => deliver o raw (failRead 3 o syn s)

/-- Count a failed check of an ERASED or PL_FAULT rank toward a second failure (R171). -/
def countRfail (r : Nat) (s : State) : State :=
  let s1 := incF (Fld.LG_RFAIL_COUNT.at r) s
  let thr := getF s1 Fld.LG_POLICY_SECOND_THR
  if (if thr = 0 then 1 else thr) ≤ getF s1 (Fld.LG_RFAIL_COUNT.at r) then declareSecond r (erasedLane s1 r) 0 s1 else s1

/-- Table LG-4: a read of a rank outside PROTECTED. -/
def readErased (o : OpenBurst) (ls : List Nat) (s : State) : State :=
  let r := o.rank
  let syn := xorAll ls
  let check := flag s Fld.LG_STATUS_CHECK_IN_FORCE && flag s Fld.LG_STATUS_HCT_LOADED
  let raw := rawLine s ls
  if rankSecond s r then
    deliver o raw (if check && !hctPasses s (ofHostLanes raw) then failRead 6 o syn s else s)
  else if rankPl s r then
    deliver o raw (if check && !hctPasses s (ofHostLanes raw) then countRfail r (failRead 6 o syn s) else s)
  else
    let line := rebuiltLine s ls (erasedLane s r)
    deliver o line (if check && !hctPasses s (ofHostLanes line) then countRfail r (failRead 5 o syn s) else s)

/-- The line that a read of a rank delivers while its lane `k` is swept (R175). -/
def sweptLine (s : State) (ls : List Nat) (k : Nat) : List Nat :=
  if k = parLane s then rawLine s ls else rebuiltLine s ls k

/-- The burst goes to the engine (R175, R222): the other five lanes give the truth for lane `k`, its raw bytes are the main
sampler's decisions, `mon` those of its monitor. A trial that is over takes none. -/
def sweepSample (w : Sweep) (ls : List Nat) (mon : Nat) (s : State) : State :=
  if w.kind8 || w.ending then s
  else
    let raw := ls.getD w.lane 0
    let bits := feedSwept (natBits w.rep.toNat 11 8) (xorAll ls ^^^ raw) raw mon w.bits
    { s with cb := { s.cb with sweep := some { w with bits := bits, beats := w.beats + 16 } } }

/-- The first kind-8 event of a sweep (R176). -/
def sweepKind8 (s : State) : State :=
  { s with cb := { s.cb with sweep := s.cb.sweep.map (fun w => { w with kind8 := true }) } }

/-- R175: a read of a rank while one of its lanes is swept. -/
def readSwept (w : Sweep) (o : OpenBurst) (ls : List Nat) (mon : Nat) (s : State) : State :=
  let line := sweptLine s ls w.lane
  if hctPasses s (ofHostLanes line) then deliver o line (sweepSample w ls mon s)
  else deliver o line (failRead 8 o (xorAll ls) (sweepKind8 s))

/-- R221: a read of a rank after its sweep has ended, before the samplers of the lane have returned. -/
def readTail (k : Nat) (o : OpenBurst) (ls : List Nat) (s : State) : State :=
  let line := sweptLine s ls k
  deliver o line (if hctPasses s (ofHostLanes line) then s else failRead 8 o (xorAll ls) s)

/-- R146: a read in the read training pattern mode. -/
def readPattern (o : OpenBurst) (ls : List Nat) (s : State) : State :=
  let e := erasedLane s o.rank
  let sub := ((List.range 6).filter (fun d => d ≠ e ∧ d ≠ parLane s)).headD 0
  if rankErased s o.rank then
    deliver o ((List.range 5).map (fun n =>
      if mapLane s n = e then ls.getD sub 0 else ls.getD (mapLane s n) 0)) s
  else deliver o (rawLine s ls) s

/-- Was the read training pattern mode on as a burst was opened (R135, R146)? -/
def patternOn (o : OpenBurst) : Bool := o.snoop.getLsbD 28

/-- The judgement of a DRAM read burst by the state of its rank (R160 to R165, R175). `mon`: what the monitors of a swept lane
decide. -/
def judgeRead (o : OpenBurst) (d mon : Nat) (s : State) : State :=
  let ls := burstLanes d
  let plain := if flag s Fld.LG_STATUS_CHECK_IN_FORCE then readProtected o ls s else deliver o (rawLine s ls) s
  if patternOn o then readPattern o ls s
  else if !rankProtected s o.rank then readErased o ls s
  else match o.swept, s.cb.sweep with
    | some k, _ => readTail k o ls s
    | none, some w => if w.rank = o.rank then readSwept w o ls mon s else plain
    | none, none => plain

/-! ### The commands -/

/-- READ_BURST_CHECK (R162): the DRAM returns the burst that the oldest open read opened. `mon`: what the monitors of the swept
lane decide (R222). -/
def execReadBurstCheck (data : BitVec 768) (mon : BitVec 128) (s : State) : Host.Outcome State Fault Refusal :=
  match s.dl.reads with
  | [] => .next s
  | o :: rest =>
    let s1 := { s with dl := { s.dl with reads := rest } }
    .next (settleEngines (match o.kind with
      | .aperture _ _ | .dropped => s1
      | .mrr => deliver o (rawLine s1 (burstLanes data.toNat)) s1
      | .dram =>
        if served s1 then judgeRead o data.toNat mon.toNat s1 else deliver o (rawLine s1 (burstLanes data.toNat)) s1))

/-- RFAIL_WINDOW_CLEAR (R171). -/
def execRfailWindowClear (s : State) : Host.Outcome State Fault Refusal := .next (rfailClear s)

/-- ERASE_DECISION (R168). -/
def execEraseDecision (s : State) : Host.Outcome State Fault Refusal := .next (eraseDecision s)

/-- ERASURE_TAKES_EFFECT (R169). -/
def execErasureTakesEffect (rank : Rank) (s : State) : Host.Outcome State Fault Refusal :=
  .next (erasureEffect rank.val s)

/-- SECOND_FAILURE_TAKES_EFFECT (R171). -/
def execSecondFailureTakesEffect (rank : Rank) (s : State) : Host.Outcome State Fault Refusal :=
  .next (secondEffect rank.val s)

/-- READMIT_TAKES_EFFECT (R172). -/
def execReadmitTakesEffect (rank : Rank) (s : State) : Host.Outcome State Fault Refusal :=
  .next (readmitEffect rank.val s)

/-- May a table be brought in: not while its RAM is out of use (R294)? -/
def hctUsable (s : State) : Bool := !flag s Fld.MT_STATUS_HCT_OUT

/-- HCT_LOAD (R179): ignored while a table is in verification, and while the HCT RAM is out of use (R294). -/
def execHctLoad (rows : Byte) (s : State) : Host.Outcome State Fault Refusal :=
  .next (if coreOn s && !flag s Fld.LG_HCTC_PENDING && hctUsable s then hctStart rows.toNat s else s)

/-- HCT_UNLOAD (R179). -/
def execHctUnload (s : State) : Host.Outcome State Fault Refusal :=
  .next (if coreOn s then { s with lg := { s.lg with unloadDue := true } } else s)

/-- HCT_VERIFY_DONE (R179, R180). -/
def execHctVerifyDone (s : State) : Host.Outcome State Fault Refusal := .next (hctVerify s)

/-- HCT_IN_FORCE (R568). -/
def execHctInForce (s : State) : Host.Outcome State Fault Refusal := .next (guardBoundary s)

/-- HCT_WINDOW_WRITE (R179). -/
def execHctWindowWrite (value : Word) (s : State) : Host.Outcome State Fault Refusal :=
  .next (if coreOn s then hctWrite value s else s)

/-- HCT_WINDOW_READ (R179). -/
def execHctWindowRead (s : State) : Host.Outcome State Fault Refusal :=
  .next (if coreOn s then hctReadStep s else s)

end Sys2Proof.Machine
end

