-- ==== Sys2Proof/Machine/Calibration.lean ====
section
/-! DEFINITION. The calibration engines (Chapters 8 to 10): measured trials, acceptance tests, boundaries,
quality figures, the host-side engines, the shadow sweep, gap mode, full training of one lane, the
impedance and duty-cycle updates. -/

namespace Sys2Proof.Machine

/-! ### Trim homes (Table DP-5, R154) -/

def hostVref (n : Nat) : Field := Fld.HL_VREF_VREF.lane n
def hostRxDqs (n : Nat) : Field := Fld.HL_DQS_RX_DQS.lane n
def hostDeskew (n i : Nat) : Field := (Fld.HL_BIT_RX_DESKEW.lane n).bank i
def hostOffset (n i : Nat) : Field := (Fld.HL_BIT_OFFSET.lane n).bank i
def dramVref (r d : Nat) : Field := (Fld.DL_VREF_VREF.lane d).bank r
def dramRxDqs (r d : Nat) : Field := (Fld.DL_DQS_RX_DQS.lane d).bank r
def dramTxDqs (r d : Nat) : Field := (Fld.DL_DQS_TX_DQS.lane d).bank r
def dramRxDeskew (r d i : Nat) : Field := (Fld.DL_BIT_RX_DESKEW.lane d).bank (r * 8 + i)
def dramTxDeskew (r d i : Nat) : Field := (Fld.DL_BIT_TX_DESKEW.lane d).bank (r * 8 + i)
def dramOffset (r d i : Nat) : Field := (Fld.DL_BIT_OFFSET.lane d).bank (r * 8 + i)
/-- C/A output trim `k` in the order of Table CA-4. -/
def caTrim (f : Field) (k : Nat) : Field := f.bank k

/-- Is a home a trim of a host lane? -/
def isHostTrim (a : Nat) : Bool := let b := a % 0x10000; 0x1000 ≤ b && b < 0x1500
/-- The host lane of such a home. -/
def hostTrimLane (a : Nat) : Nat := (a % 0x10000 - 0x1000) / 0x100
/-- Is a home in a DRAM lane's block? -/
def isDramHome (a : Nat) : Bool := let b := a % 0x10000; 0x1800 ≤ b && b < 0x1E00
def dramHomeLane (a : Nat) : Nat := (a % 0x10000 - 0x1800) / 0x100
/-- Is it the home of codes that serve every rank (DL_DRV)? -/
def isDramCommon (a : Nat) : Bool := isDramHome a && a % 0x100 = 0x10
/-- The rank of a per-rank home of a DRAM lane. -/
def dramHomeRank (a : Nat) : Nat := if a % 0x100 = 0x14 then a / 0x10000 / 8 else a / 0x10000
/-- Is it a per-rank home of rank `r`? -/
def isDramRank (r : Nat) (a : Nat) : Bool := isDramHome a && !isDramCommon a && dramHomeRank a = r
/-- C/A output trims and the C/A receive Vref: idle boundary only (R104, R214). -/
def isCaTrim (a : Nat) : Bool := a % 0x10000 = 0x0844 || a = Fld.CB_CAV_VREF.addr
/-- Any trim of Table RX-9 that a boundary of R196 brings into force. -/
def isTrim (a : Nat) : Bool := isHostTrim a || isDramHome a || isCaTrim a

/-! ### Scopes and figures -/

/-- Keys of `Calib.known`: host lanes 0 to 4, the C/A receivers, the read and write path of a lane-rank. -/
def scopeHost (n : Nat) : Nat := n
def scopeCa : Nat := 5
def scopeRead (r d : Nat) : Nat := 16 + r * 6 + d
def scopeWrite (r d : Nat) : Nat := 48 + r * 6 + d

def knownScope (s : State) (k : Nat) : Bool := smGet (zeroDefault 1) s.cb.known k = 1#1
def setKnown (k : Nat) (b : Bool) (s : State) : State :=
  { s with cb := { s.cb with known := smSet (zeroDefault 1) s.cb.known k (if b then 1 else 0) } }

/-- An evaluation of a scope is accepted: its values wait for their boundary. -/
def markFresh (k : Nat) (s : State) : State := { s with cb := { s.cb with fresh := k :: s.cb.fresh.filter (fun j => j ≠ k) } }

/-- Accepted values of the scopes of `p` come into force: the step tests apply to them from now on (R192). -/
def settleFresh (p : Nat → Bool) (s : State) : State :=
  let s1 := s.cb.fresh.foldl (fun t k => if p k then setKnown k true t else t) s
  { s1 with cb := { s1.cb with fresh := s1.cb.fresh.filter (fun k => !p k) } }

/-- The scopes of the trims of rank `r`. -/
def isRankScope (r k : Nat) : Bool := (16 + r * 6 ≤ k ∧ k < 22 + r * 6) ∨ (48 + r * 6 ≤ k ∧ k < 54 + r * 6)

/-- Keys of the quality figures. -/
def qHost (n i : Nat) : Nat := n * 8 + i
def qDram (r d i : Nat) : Nat := 0x100 + (r * 6 + d) * 8 + i

/-- The margin grade of Table CB-2. -/
def grade (s : State) (w h : Nat) : Nat :=
  if 32 ≤ w ∧ 80 ≤ h then 3
  else if 26 ≤ w ∧ 60 ≤ h then 2
  else if getF s Fld.CB_LIMITS_MIN_WIDTH ≤ w ∧ getF s Fld.CB_LIMITS_MIN_HEIGHT ≤ h then 1
  else 0

/-- One quality entry (R191). -/
def qualityEntry (s : State) (w h : Nat) : BitVec 19 :=
  BitVec.ofNat 19 (2 ^ 18 + grade s w h * 2 ^ 16 + sat 255 h * 2 ^ 8 + sat 255 w)

/-- Store the figures of the bits of a lane; `key` gives the key of a bit. -/
def setQuality (key : Nat → Nat) (ws hs : List Nat) (s : State) : State :=
  let q := bits8.foldl
    (fun q i => smSet (zeroDefault 19) q (key i) (qualityEntry s (ws.getD i 0) (hs.getD i 0))) s.cb.quality
  { s with cb := { s.cb with quality := q } }

/-- Figures of one bit: valid, grade, height, width. -/
def quality (s : State) (key : Nat) : Nat := (smGet (zeroDefault 19) s.cb.quality key).toNat

/-- Of indices with (grade, width), the one with the lowest grade, then the lowest width (R191). -/
def worstOf (f : Nat → Nat × Nat) (l : List Nat) : Nat :=
  match l with
  | [] => 0
  | i :: t => t.foldl (fun b j =>
      if (f j).1 < (f b).1 ∨ ((f j).1 = (f b).1 ∧ (f j).2 < (f b).2) then j else b) i

/-- The worst bit of a lane by its stored figures. -/
def worstStored (s : State) (key : Nat → Nat) : Nat :=
  worstOf (fun i => let q := quality s (key i); (natBits q 17 16, natBits q 7 0)) bits8

/-! ### The limits of a trial (R203) -/

/-- The fields of a CB_LIMITS and a CB_REPEAT value as a trial took them at its start. -/
def maxStep (lim : Word) : Nat := natBits lim.toNat 7 0
def minWidth (lim : Word) : Nat := natBits lim.toNat 15 8
def minHeight (lim : Word) : Nat := natBits lim.toNat 23 16
def maxVstep (lim : Word) : Nat := natBits lim.toNat 31 24
def tapTol (rep : Word) : Nat := natBits rep.toNat 3 0
def vrefTol (rep : Word) : Nat := natBits rep.toNat 7 4
def edgeThr (rep : Word) : Nat := natBits rep.toNat 11 8

/-- CB_LIMITS and CB_REPEAT as they stand now. -/
def limNow (s : State) : Word := reg s Fld.CB_LIMITS_MAX_STEP.addr
def repNow (s : State) : Word := reg s Fld.CB_REPEAT_TAP_TOL.addr

/-! ### New codes (R209, R210) -/

/-- New deskew codes and the strobe code for the moves of a lane (R209). -/
def timingCodes (desk : List Int) (dqs : Int) (moves : List Int) : List Int × Int :=
  let raw := List.zipWith (· + ·) desk moves
  if raw.all (fun c => 16 ≤ c && c ≤ 239) then (raw, dqs)
  else
    let q := (moves.foldl (· + ·) 0).tdiv 8
    (raw.map (· - q), dqs + q)

/-- The codes that an accepted evaluation makes pending: deskew, strobe, Vref, offsets. -/
structure NewCodes where
  desk : List Int
  dqs : Int
  vref : Int
  offs : List Int
  deriving DecidableEq, Repr

/-- Test 6 of Table CB-4 over timing codes. -/
def timingInRange (c : List Int × Int) : Bool :=
  c.1.all (fun d => 0 ≤ d && d ≤ 255) && 0 ≤ c.2 && c.2 ≤ 511

/-- Test 6 of Table CB-4. -/
def codesInRange (c : NewCodes) : Bool :=
  timingInRange (c.desk, c.dqs) && 0 ≤ c.vref && c.vref ≤ 255 && c.offs.all (fun o => -32 ≤ o && o ≤ 31)

/-! ### Acceptance (Table CB-4) -/

/-- Which tests apply to an evaluation. -/
structure TestSet where
  /-- Tests 3 and 5 and the voltage edges of test 1. -/
  volt : Bool
  /-- Test 4. -/
  step : Bool
  /-- Test 5. -/
  vstep : Bool
  deriving DecidableEq, Repr

/-- The reason of the first failing test of 1 to 6; 0 when all pass. -/
def acceptReason (lim : Word) (ts : TestSet) (t : Trial) (r : TrialResult) (inRange : Bool) : Nat :=
  if !t.eyes.all (if ts.volt then eyeFound else eyeTimed) then 7
  else if r.ws.any (fun w => w < minWidth lim) then 2
  else if ts.volt && r.hs.any (fun h => h < minHeight lim) then 3
  else if ts.step && r.moves.any (fun m => maxStep lim < m.natAbs) then 1
  else if ts.vstep && maxVstep lim < r.vmove.natAbs then 4
  else if !inRange then 6
  else 0

/-- Repeat agreement (R193); the write path has no Vref move (R231). -/
def agree (rep : Word) (volt : Bool) (a b : TrialResult) : Bool :=
  (List.zipWith (fun x y => (x - y).natAbs) a.moves b.moves).all (fun d => d ≤ tapTol rep)
    && (!volt || (a.vmove - b.vmove).natAbs ≤ vrefTol rep)

/-- The mean of two moves, rounded toward the value in force. -/
def meanMove (x y : Int) : Int := (x + y).tdiv 2

/-- The mean of two agreeing runs, with the smaller figures (R193). -/
def meanResult (a b : TrialResult) : TrialResult :=
  ⟨List.zipWith meanMove a.moves b.moves, meanMove a.vmove b.vmove, List.zipWith meanMove a.offs b.offs,
   List.zipWith min a.ws b.ws, List.zipWith min a.hs b.hs⟩

/-! ### Rejection and acceptance (R194, R195, R240) -/

/-- The bank of CB_CNT: side, rank, lane; the C/A receivers count as host lane 5. -/
def cntBank (side r lane : Nat) : Nat := side * 64 + r * 8 + lane

/-- The worst bit of a trial's own figures. -/
def worstTrial (s : State) (r : TrialResult) : Nat :=
  worstOf (fun i => (grade s (r.ws.getD i 0) (r.hs.getD i 0), r.ws.getD i 0)) (List.range r.ws.length)

/-- Capture a rejection and raise its source. `top` is [63:60] of the syndrome (R240). -/
def rejectWith (src top reason side r lane bit w h : Nat) (move vmove : Int) (s : State) : State :=
  let log := reason * 2 ^ 24 + side * 2 ^ 16 + r * 2 ^ 12 + lane * 2 ^ 8 + bit
  let syn := top * 2 ^ 60 + log * 2 ^ 32 + sat 255 w * 2 ^ 24 + sat 255 h * 2 ^ 16
    + unsigned 8 move * 2 ^ 8 + unsigned 8 vmove
  let s1 := if flag s Fld.CB_RLOG_VALID then s else setReg Fld.CB_RLOG_VALID.addr (BitVec.ofNat 32 (2 ^ 31 + log)) s
  raise src syn s1

/-- A rejected trial: count, capture, one fault source. -/
def rejectTrial (src top reason side r lane : Nat) (t : TrialResult) (s : State) : State :=
  let b := worstTrial s t
  rejectWith src top reason side r lane (if reason = 4 then 0 else b) (t.ws.getD b 0) (t.hs.getD b 0)
    (t.moves.getD b 0) t.vmove (incF (Fld.CB_CNT_REJ.bank (cntBank side r lane)) s)

/-- Make a field's value pending for its boundary. -/
def pendF (f : Field) (v : Int) (s : State) : State :=
  let p := mergeEntry s.cb.pend f.addr (BitVec.ofNat 32 (fieldMask f)) (BitVec.ofNat 32 (unsigned f.width v <<< f.lo))
  { s with cb := { s.cb with pend := p } }

/-- A field as a signed code. -/
def getS (s : State) (f : Field) : Int := signed f.width (getF s f)

/-! ### Boundaries (R196 to R198) -/

/-- Bring the engine values at the homes of `p` into force. -/
def applyPend (p : Nat → Bool) (s : State) : State :=
  let due := s.cb.pend.filter (fun e => p e.1)
  let s1 := due.foldl (fun t e => setReg e.1 (overlay (reg t e.1) (maskOf e.2) (valOf e.2)) t) s
  { s1 with cb := { s1.cb with pend := smDrop s1.cb.pend p } }

/-- No trial runs on a host lane or on the C/A receivers any more. -/
def endHost (n : Nat) (s : State) : State :=
  settleEngines { s with cb := { s.cb with hosts := s.cb.hosts.filter (fun e => e.1 ≠ n) } }

/-- Discard a host-side trial that runs, uncounted, and restart the lane's rejection count (R211, R215). -/
def pauseHost (n : Nat) (s : State) : State :=
  endHost n { s with cb := { s.cb with rejects := smSet (zeroDefault 8) s.cb.rejects n 0 } }

/-- Discard every host-side trial. -/
def pauseHostAll (s : State) : State := (List.range 6).foldl (fun t n => pauseHost n t) s

/-- The gap trial of a rank ends. -/
def dropGap (r : Nat) (s : State) : State :=
  settleEngines (setBitF Fld.CB_DSTAT_GAPRUN r false
    { s with cb := { s.cb with gaps := s.cb.gaps.filter (fun g => g.rank ≠ r) } })

/-- Discard every trial and every pending engine value without counting it (end of S1). -/
def stopEngines (s : State) : State :=
  let s1 := rankList.foldl (fun t r => dropGap r t) (dropSweep (pauseHostAll s))
  { s1 with cb := { s1.cb with pend := [], fresh := [] } }

/-- A committed trim comes into force at a home: trials that measured against the old codes are discarded
uncounted, and the counts of R211 and R225 restart. -/
def trimCommitted (a : Nat) (m : Word) (s : State) : State :=
  if isHostTrim a then pauseHost (hostTrimLane a) s
  else if a = Fld.CB_CAV_VREF.addr then pauseHost 5 s
  else if isDramHome a && !isDramCommon a then
    let r := dramHomeRank a
    let d := dramHomeLane a
    let tx := if a % 0x100 = 0x14 then 0xFF0000#32 else if a % 0x100 = 0x0C then 0x1FF0000#32 else 0#32
    let rd := m &&& ~~~tx ≠ 0
    let wr := m &&& tx ≠ 0
    let s1 := if rd then setF (Fld.CB_DLQ_CONSEC.bank (r * 6 + d)) 0 s else s
    let s2 := match s1.cb.sweep with
      | some w => if rd && w.rank = r && w.lane = d then dropSweep s1 else s1
      | none => s1
    if s2.cb.gaps.any (fun g => g.rank = r && (if g.write then wr else rd)) then dropGap r s2 else s2
  else s

/-- A boundary of the scope `p`: every pending value of the scope comes into force, your commit over an
engine's value (R197). -/
def trimBoundary (p : Nat → Bool) (s : State) : State :=
  let q := fun a => isTrim a && p a
  let due := s.committed.filter (fun e => q e.1)
  let moved := !due.isEmpty || s.cb.pend.any (fun e => q e.1)
  let s1 := applyCommitted q (applyPend q s)
  let s2 := due.foldl (fun t e => trimCommitted e.1 (maskOf e.2) t) s1
  if moved then setF Fld.CB_STATUS_STARVED 0 s2 else s2

/-- Does a condition of Table CH-2 that takes effect at a boundary hold for every lane and the C/A receivers? -/
def allPaused (s : State) : Bool := !flag s Fld.CB_CTRL_HOST_EN || s.dl.hold

/-- The same for host lane `n`, or for the C/A receivers (5), which CAL_HOLD does not touch. -/
def pauseHolds (s : State) (n : Nat) : Bool :=
  allPaused s || (if n = 5 then !flag s Fld.CB_HPOL_CA_EN else flag s (Fld.HL_CTRL_CAL_HOLD.lane n))

/-- Is a pause of Table CH-2 in force on a lane: it has taken effect and its condition still holds? -/
def lanePaused (s : State) (n : Nat) : Bool := s.cb.held.testBit n && pauseHolds s n

/-- A pause takes effect. -/
def holdHost (n : Nat) (s : State) : State := pauseHost n { s with cb := { s.cb with held := s.cb.held ||| 1 <<< n } }

/-- Pauses of Table CH-2 that take effect at a boundary of the host lanes; `idle`: at the idle kind that of CA_EN too. -/
def hostPauses (idle : Bool) (s : State) : State :=
  let s0 := { s with cb := { s.cb with holdOn := s.dl.hold } }
  (List.range 6).foldl (fun t n =>
    if (if n = 5 && !idle then allPaused t else pauseHolds t n) then holdHost n t else t) s0

/-- A write has ended a condition of Table CH-2 or CD-2: its pause ends at once. -/
def resumeLanes (s : State) : State :=
  { s with cb := { s.cb with
      held := ofBits ((bitsOf 6 s.cb.held).filter (pauseHolds s)), holdOn := s.cb.holdOn && s.dl.hold,
      heldDram := ofBits ((bitsOf 6 s.cb.heldDram).filter (fun d => flag s (Fld.DL_CTRL_CAL_HOLD.lane d))) } }

/-- What ends the sweep at a boundary of its rank (R221): a kind-8 event, an abandoned trial, a pause of Table CD-2. -/
def sweepBoundary (r : Nat) (s : State) : State :=
  match s.cb.sweep with
  | none => s
  | some w =>
    if w.rank ≠ r then s
    else if w.kind8 then dropSweep (incF Fld.CB_DSWP_KIND8 s)
    else if w.ending || !flag s Fld.CB_CTRL_SWEEP_EN || flag s (Fld.DL_CTRL_CAL_HOLD.lane w.lane) then
      dropSweep s
    else s

/-- The DRAM lanes with CAL_HOLD. -/
def holdLanes (s : State) : Nat := ofBits ((List.range 6).filter (fun d => flag s (Fld.DL_CTRL_CAL_HOLD.lane d)))

/-- CAL_HOLD takes effect at a boundary of its lane (Table CD-2): the gap trial of the rank leaves the lane. -/
def gapBoundary (r : Nat) (s : State) : State :=
  let h := holdLanes s
  let s1 := { s with cb := { s.cb with
    heldDram := s.cb.heldDram ||| h,
    gaps := s.cb.gaps.map (fun g => if g.rank = r then { g with lanes := g.lanes &&& (63 - h) } else g) } }
  if s1.cb.gaps.any (fun g => g.rank = r && g.lanes = 0) then dropGap r s1 else settleEngines s1

/-- A boundary of rank `r` for its DRAM lanes (Table CB-3, first row). -/
def rankBoundary (r : Nat) (s : State) : State :=
  gapBoundary r (sweepBoundary r (settleFresh (isRankScope r) (trimBoundary (isDramRank r) s)))

/-- A boundary of the host lanes (second row). -/
def hostBoundary (s : State) : State := hostPauses false (settleFresh (fun k => k < 5) (trimBoundary isHostTrim s))

/-- A boundary of the codes that serve every rank (third row). -/
def commonBoundary (s : State) : State := trimBoundary isDramCommon s

/-- The idle boundary, or a free point of the device's own sequence: every scope (rows four and five). -/
def anyBoundary (s : State) : State :=
  let s1 := settleFresh (fun _ => true) (trimBoundary (fun _ => true) s)
  hostPauses true (rankList.foldl (fun t r => gapBoundary r (sweepBoundary r t)) s1)

/-! ### The host side -/

/-- Do the host-side engines run at all (R204, R215)? -/
def hostEngines (s : State) : Bool :=
  served s && s.pins.rdy && !parked s && !flag s Fld.CA_STATUS_SAVE_BLOCK && (s.dl.step = 0 || s.dl.step = 5)

/-- May an evaluation run on host lane `n`, or on the C/A receivers (5)? -/
def hostLaneFree (s : State) (n : Nat) : Bool := hostEngines s && !lanePaused s n

/-- The trial that runs on host lane `n`, or on the C/A receivers (5). -/
def hostScan (s : State) (n : Nat) : Option Scan := (s.cb.hosts.find? (fun e => e.1 = n)).map (·.2)

/-- Put a host-side trial in place. -/
def putScan (n : Nat) (x : Scan) (s : State) : State :=
  { s with cb := { s.cb with hosts := (n, x) :: s.cb.hosts.filter (fun e => e.1 ≠ n) } }

/-- How a host-side trial samples. -/
def scanMode (x : Scan) : Sampling := if x.acq then .acquire else .single

/-- Is a host-side trial complete (R189, R207)? -/
def hostDone (x : Scan) : Bool := eyesDone (scanMode x) (edgeThr x.rep) x.bits

/-- What a host-side trial amounts to. -/
def hostTrialOf (x : Scan) : Trial := trialOf (scanMode x) (edgeThr x.rep) x.bits

/-- Start an evaluation; one that still runs is abandoned (R207). -/
def startHost (n : Nat) (s : State) : State :=
  if hostLaneFree s n then
    let s1 := if hostRuns s n then incF Fld.CB_HABN_COUNT s else s
    putScan n ⟨limNow s1, repNow s1, n < 5 && bitF s1 Fld.CB_HSTAT_ACQ n, noScans (if n = 5 then 19 else 8)⟩ s1
  else s

/-- A host write burst that is received gives every running lane evaluation 16 compared bits a bit (R206): the main samplers
decide `line`, the monitors `mon`. -/
def hostSample (line mon : Nat) (s : State) : State :=
  { s with cb := { s.cb with hosts := s.cb.hosts.map (fun e =>
      if e.1 < 5 then (e.1, { e.2 with
        bits := feedLane (scanMode e.2) (edgeThr e.2.rep) (hostLane line e.1) (hostLane mon e.1) e.2.bits }) else e) } }

/-- A host command cycle with a low HCS_N gives the C/A evaluation one compared bit a pin (R213). -/
def caSample (p : CaPins) (s : State) : State :=
  { s with cb := { s.cb with hosts := s.cb.hosts.map (fun e =>
      if e.1 = 5 then (e.1, { e.2 with bits := feedPins (edgeThr e.2.rep) (caRef p) p.mon.toNat e.2.bits }) else e) } }

/-- The codes that a host-lane trial leads to. -/
def hostCodes (s : State) (n : Nat) (r : TrialResult) : NewCodes :=
  let t := timingCodes (bits8.map (fun i => (getF s (hostDeskew n i) : Int))) (getF s (hostRxDqs n)) r.moves
  ⟨t.1, t.2, getF s (hostVref n) + r.vmove,
   bits8.map (fun i => getS s (hostOffset n i) + r.offs.getD i 0)⟩

/-- Make the codes of a host lane pending. -/
def pendHost (n : Nat) (c : NewCodes) (s : State) : State :=
  let s1 := pendF (hostVref n) c.vref (pendF (hostRxDqs n) c.dqs s)
  bits8.foldl (fun t i => pendF (hostOffset n i) (c.offs.getD i 0) (pendF (hostDeskew n i) (c.desk.getD i 0) t)) s1

/-- A lane's consecutive rejections after one more; acquisition when they reach REACQ_N (R211). -/
def countReject (n : Nat) (s : State) : State :=
  let c := sat 255 ((smGet (zeroDefault 8) s.cb.rejects n).toNat + 1)
  let s1 := { s with cb := { s.cb with rejects := smSet (zeroDefault 8) s.cb.rejects n (BitVec.ofNat 8 c) } }
  let lim := getF s1 Fld.CB_HPOL_REACQ_N
  if lim ≠ 0 ∧ lim ≤ c then setBitF Fld.CB_HSTAT_ACQ n true s1 else s1

/-- TR_EVAL counts an accepted evaluation of a lane or of the C/A receivers (Table DP-4). -/
def countEval (s : State) : State := { s with dl := { s.dl with evals := sat 255 (s.dl.evals + 1) } }

/-- A lane's trial is accepted: its codes wait for their boundary, the lane is neither stale nor in acquisition (R208, R211,
R212), and TR_EVAL counts it (Table DP-4). -/
def acceptHost (n : Nat) (c : NewCodes) (r : TrialResult) (s : State) : State :=
  let s1 := setBitF Fld.CB_HSTAT_LAST_ACC n true (setBitF Fld.CB_HSTAT_STALE n false
    (setBitF Fld.CB_HSTAT_ACQ n false (incF (Fld.CB_CNT_ACC.bank (cntBank 0 0 n)) (pendHost n c s))))
  markFresh (scopeHost n) (setQuality (qHost n) r.ws r.hs
    (countEval { s1 with cb := { s1.cb with rejects := smSet (zeroDefault 8) s1.cb.rejects n 0 } }))

/-- A host-side trial is complete (R208 to R212). -/
def hostTrial (n : Nat) (s : State) : State :=
  match hostScan s n with
  | none => s
  | some x =>
    if !hostDone x then s
    else
      let t := hostTrialOf x
      let step := knownScope s (scopeHost n) && !x.acq
      let r := trialResult t
      let c := hostCodes s n r
      let why := acceptReason x.lim ⟨true, step, step⟩ t r (codesInRange c)
      let s1 := endHost n s
      if why = 0 then acceptHost n c r s1
      else setBitF Fld.CB_HSTAT_LAST_ACC n false (countReject n (rejectTrial 11 0 why 0 0 n r s1))

/-- A C/A trial is complete (R213, R214). -/
def caTrial (s : State) : State :=
  match hostScan s 5 with
  | none => s
  | some x =>
    if !hostDone x then s
    else
      let t := hostTrialOf x
      let r := trialResult t
      let v : Int := getF s Fld.CB_CAV_VREF + r.vmove
      let why := acceptReason x.lim ⟨true, false, knownScope s scopeCa⟩ t r (0 ≤ v && v ≤ 255)
      let b := worstTrial s r
      let w := r.ws.getD b 0
      let h := r.hs.getD b 0
      let q := 2 ^ 31 + b2n (why ≠ 0) * 2 ^ 30 + b * 2 ^ 24 + grade s w h * 2 ^ 16 + sat 255 h * 2 ^ 8 + sat 255 w
      let s1 := setReg Fld.CB_CAQ_VALID.addr (BitVec.ofNat 32 q) (endHost 5 s)
      if why = 0 then
        countEval (markFresh scopeCa (setF Fld.CB_HSTAT_CA_ACC 1 (setF Fld.CB_HSTAT_CA_STALE 0
          (incF (Fld.CB_CNT_ACC.bank (cntBank 0 0 5)) (pendF Fld.CB_CAV_VREF v s1)))))
      else
        setF Fld.CB_HSTAT_CA_ACC 0 (rejectWith 11 0 why 0 0 5 0 w h (r.moves.getD b 0) r.vmove
          (incF (Fld.CB_CNT_REJ.bank (cntBank 0 0 5)) s1))

/-! ### Impedance and duty cycle -/

/-- One step of a code toward a measured code. -/
def stepToward (now want : Nat) : Int :=
  if now < want then (now : Int) + 1 else if want < now then (now : Int) - 1 else now

/-- The codes of a side move one step toward the measurement, pending (Table CB-1 and the text under it). -/
def zqSide (fs : List (Field × Nat)) (s : State) : State :=
  fs.foldl (fun t f => pendF f.1 (stepToward (getF t f.1) f.2) t) s

/-- Has CAL_HOLD taken effect on a lane (R153)? -/
def calHeld (s : State) (dram : Bool) (n : Nat) : Bool :=
  if dram then s.cb.heldDram.testBit n && flag s (Fld.DL_CTRL_CAL_HOLD.lane n)
  else s.cb.held.testBit n && flag s (Fld.HL_CTRL_CAL_HOLD.lane n)

/-- The lanes of a side whose impedance and duty-cycle engines run. -/
def freeLanes (s : State) (dram : Bool) : List Nat :=
  (List.range (if dram then 6 else 5)).filter (fun n => !calHeld s dram n)

/-- The impedance codes of the lanes of a side, each with a code for it. -/
def zqCodes (s : State) (dram : Bool) (up down : Nat) : List (Field × Nat) :=
  (freeLanes s dram).flatMap (fun n =>
    if dram then [(Fld.DL_DRV_DRV_PU.lane n, up), (Fld.DL_DRV_DRV_PD.lane n, down)]
    else [(Fld.HL_DRV_DRV_PU.lane n, up), (Fld.HL_DRV_DRV_PD.lane n, down)])

/-- A saturated measurement (R38): rejected with reason 8, and the fused default codes are used, from the next boundary on (log
entry 65). -/
def zqSaturated (dram : Bool) (s : State) : State :=
  rejectWith (if dram then 21 else 11) 0 8 (b2n dram) 0 0 0 0 0 0 0
    ((zqCodes s dram 0 0).foldl (fun t f => pendF f.1 (natBits (regDefault f.1.addr).toNat f.1.hi f.1.lo : Nat) t) s)

/-- A ZQ measurement (R38, reason 8). -/
def zqMeasure (hu hd du dd : Nat) (hs ds : Bool) (s : State) : State :=
  let s1 := if hs then zqSaturated false s else zqSide (zqCodes s false hu hd) s
  if ds then zqSaturated true s1 else zqSide (zqCodes s1 true du dd) s1

/-- One step of a duty-cycle corrector, or its rejection at the end of the range (reason 7). -/
def dccStep (dram : Bool) (lane : Nat) (up : Bool) (s : State) : State :=
  let f := if dram then Fld.DL_DRV_DCC.lane lane else Fld.HL_DRV_DCC.lane lane
  let c := getS s f
  let c' := if up then c + 1 else c - 1
  if !(freeLanes s dram).contains lane then s
  else if c' < -32 ∨ 31 < c' then
    rejectWith (if dram then 21 else 11) 0 7 (b2n dram) 0 lane 0 0 0 0 0
      (incF (Fld.CB_CNT_REJ.bank (cntBank (b2n dram) 0 lane)) s)
  else pendF f c' s

/-! ### The DRAM side -/

/-- Do the DRAM-side engines run (Table CD-2)? -/
def dramEngines (s : State) : Bool :=
  served s && s.pins.rdy && !parked s && !flag s Fld.CA_STATUS_SAVE_BLOCK

/-- Is a lane-rank excluded from the sweep (R225)? -/
def excluded (s : State) (r d : Nat) : Bool := flag s (Fld.CB_DLQ_EXCLUDED.bank (r * 6 + d))

/-- May the sweep take a lane-rank (R220)? -/
def sweepable (s : State) (r d : Nat) : Bool :=
  populated s r && sweepServed s r && !excluded s r d && !flag s (Fld.DL_CTRL_CAL_HOLD.lane d)

/-- The next lane-rank of the round, from the present place on. -/
def nextSweep (s : State) : Option Nat :=
  ((List.range 24).map (fun k => (s.cb.round + k) % 24)).find? (fun k => sweepable s (k / 6) (k % 6))

/-- A sweep begins (R220, R221). -/
def sweepStart (s : State) : State :=
  if dramEngines s && flag s Fld.CB_CTRL_SWEEP_EN && s.cb.sweep.isNone then
    match nextSweep s with
    | none => s
    | some k =>
      let s1 := setF Fld.CB_DSTAT_SW_RANK (k / 6) (setF Fld.CB_DSTAT_SW_LANE (k % 6)
        (setF Fld.CB_DSTAT_TRIAL_B 0 (setF Fld.CB_DSTAT_SWEEPING 1 s)))
      { s1 with cb := { s1.cb with sweep := some ⟨k / 6, k % 6, limNow s, repNow s, noScans 8, 0, none, false, false⟩ } }
  else s

/-- The codes that a read-path trial of a lane-rank leads to (R219). -/
def readCodes (s : State) (r d : Nat) (x : TrialResult) : NewCodes :=
  let t := timingCodes (bits8.map (fun i => (getF s (dramRxDeskew r d i) : Int))) (getF s (dramRxDqs r d)) x.moves
  ⟨t.1, t.2, getF s (dramVref r d) + x.vmove,
   bits8.map (fun i => getS s (dramOffset r d i) + x.offs.getD i 0)⟩

/-- Make the read-path codes of a lane-rank pending. -/
def pendRead (r d : Nat) (c : NewCodes) (s : State) : State :=
  let s1 := pendF (dramVref r d) c.vref (pendF (dramRxDqs r d) c.dqs s)
  bits8.foldl (fun t i =>
    pendF (dramOffset r d i) (c.offs.getD i 0) (pendF (dramRxDeskew r d i) (c.desk.getD i 0) t)) s1

/-- The timing codes that a write-path trial of a lane-rank leads to (R219). -/
def writeCodes (s : State) (r d : Nat) (x : TrialResult) : List Int × Int :=
  timingCodes (bits8.map (fun i => (getF s (dramTxDeskew r d i) : Int))) (getF s (dramTxDqs r d)) x.moves

/-- Make the write-path codes of a lane-rank pending. -/
def pendWrite (r d : Nat) (c : List Int × Int) (s : State) : State :=
  bits8.foldl (fun t i => pendF (dramTxDeskew r d i) (c.1.getD i 0) t) (pendF (dramTxDqs r d) c.2 s)

/-- The write-path figure of the worst bit (Table CD-6). -/
def setWwidth (r d : Nat) (ws : List Nat) (s : State) : State :=
  let w := ws.foldl min 255
  setF (Fld.CB_DLQ_WVALID.bank (r * 6 + d)) 1 (setF (Fld.CB_DLQ_WWIDTH.bank (r * 6 + d)) (sat 255 w) s)

/-- One more rejected sweep of a lane-rank; exclusion at REJ_LIMIT, after which gap-mode read trials run
without the step tests until one is accepted (R225). -/
def countSweepReject (r d : Nat) (s : State) : State :=
  let f := Fld.CB_DLQ_CONSEC.bank (r * 6 + d)
  let s1 := incF f s
  let lim := getF s1 Fld.CB_DPOL_REJ_LIMIT
  if lim ≠ 0 ∧ lim ≤ getF s1 f then
    setKnown (scopeRead r d) false (setF (Fld.CB_DLQ_EXCLUDED.bank (r * 6 + d)) 1 s1)
  else s1

/-- A rejected sweep ends (R223). -/
def rejectSweep (w : Sweep) (src why : Nat) (x : TrialResult) (s : State) : State :=
  dropSweep (countSweepReject w.rank w.lane (rejectTrial src 0 why 1 w.rank w.lane x s))

/-- Is the trial of a sweep complete (R222)? -/
def sweepDone (w : Sweep) : Bool := eyesDone .double (edgeThr w.rep) w.bits && 65536 ≤ w.beats

/-- An agreed result of a sweep: its codes wait for their boundary, the figures are reported, the counts move (R223, R225). -/
def acceptSweep (w : Sweep) (m : TrialResult) (s : State) : State :=
  dropSweep (setF (Fld.CB_DLQ_CONSEC.bank (w.rank * 6 + w.lane)) 0 (incF Fld.CB_DSWP_SWEEPS
    (incF (Fld.CB_CNT_ACC.bank (cntBank 1 w.rank w.lane))
      (markFresh (scopeRead w.rank w.lane) (setQuality (qDram w.rank w.lane) m.ws m.hs
        (pendRead w.rank w.lane (readCodes s w.rank w.lane m) s))))))

/-- Trial A has passed: trial B begins at once, under the limits as they stand now (R203, R223). -/
def sweepSecond (w : Sweep) (x : TrialResult) (s : State) : State :=
  setF Fld.CB_DSTAT_TRIAL_B 1 { s with cb := { s.cb with
    sweep := some { w with lim := limNow s, rep := repNow s, bits := noScans 8, beats := 0, first := some x } } }

/-- A sweep trial is complete (R222 to R224). After a kind-8 event or an abandoned trial its figures go to no engine. -/
def sweepTrial (s : State) : State :=
  match s.cb.sweep with
  | none => s
  | some w =>
    if w.kind8 || w.ending || !sweepDone w then s
    else
      let t := trialOf .double (edgeThr w.rep) w.bits
      let known := knownScope s (scopeRead w.rank w.lane)
      let x := trialResult t
      let why := acceptReason w.lim ⟨true, known, known⟩ t x (codesInRange (readCodes s w.rank w.lane x))
      if why ≠ 0 then rejectSweep w 21 why x s
      else match w.first with
        | none => sweepSecond w x s
        | some a =>
          let m := meanResult a x
          if !agree w.rep true a x then rejectSweep w 22 5 a s
          else if !codesInRange (readCodes s w.rank w.lane m) then rejectSweep w 21 6 m s
          else acceptSweep w m s

/-- A sweep trial passed SWEEP_LIMIT (R222): it is abandoned, and the sweep ends at the next boundary (R221). -/
def sweepAbandon (s : State) : State :=
  match s.cb.sweep with
  | none => s
  | some w =>
    if w.kind8 || w.ending then s
    else incF Fld.CB_DABN_COUNT { s with cb := { s.cb with sweep := some { w with ending := true } } }

/-- Does gap mode keep the read path of a lane-rank (R229)? -/
def gapKeeps (s : State) (r d : Nat) : Bool :=
  !rankProtected s r || !flag s Fld.LG_STATUS_HCT_LOADED || !flag s Fld.LG_STATUS_CHECK_IN_FORCE
    || excluded s r d || !flag s Fld.CB_CTRL_SWEEP_EN

/-- CB_DSTAT.GAPMODE (R229). -/
def gapModeBits (s : State) : Nat :=
  ofBits (rankList.filter (fun r => populated s r && (List.range 6).any (gapKeeps s r)))

/-- The lanes that a gap trial of a rank measures: all six for a write trial, those whose read path gap mode keeps for a read
trial; none with CAL_HOLD. -/
def gapLanes (s : State) (r : Nat) (write : Bool) : Nat :=
  ofBits ((List.range 6).filter (fun d => (write || gapKeeps s r d) && !flag s (Fld.DL_CTRL_CAL_HOLD.lane d)))

/-- Six lanes of eight bits that nothing has measured. -/
def noRun : List (List BitScan) := List.replicate 6 (noScans 8)

/-- Start a rank's gap trial, if a lane takes part. A read trial first fills scratch row 2 (Table CD-3). -/
def gapRun (r : Nat) (write : Bool) (s : State) : State :=
  let lanes := gapLanes s r write
  if lanes = 0 then s
  else
    setBitF Fld.CB_DSTAT_GAPRUN r true
      { s with cb := { s.cb with gaps := s.cb.gaps ++ [⟨r, write, limNow s, repNow s, lanes, noRun, noRun,
          if write then 0 else 64, 0, none, false, false⟩] } }

/-- A rank's write trial starts (R233). -/
def gapStart (r : Nat) (s : State) : State :=
  if dramEngines s && flag s Fld.CB_CTRL_GAP_EN && populated s r && !s.cb.gaps.any (fun g => g.rank = r)
  then gapRun r true s else s

/-- A gap trial ends; after a write trial a read trial follows where gap mode keeps a read path (R233). -/
def gapEnd (g : GapTrial) (s : State) : State :=
  let s1 := dropGap g.rank s
  if g.write && (List.range 6).any (gapKeeps s1 g.rank) && flag s1 Fld.CB_CTRL_GAP_EN then gapRun g.rank false s1 else s1

/-- How a gap trial samples. -/
def gapMode (g : GapTrial) : Sampling := if g.write then .write else .single

/-- Is a run complete on every lane of the trial? -/
def runDone (g : GapTrial) (run : List (List BitScan)) : Bool :=
  (bitsOf 6 g.lanes).all (fun d => eyesDone (gapMode g) (edgeThr g.rep) (run.getD d []))

/-- Are both runs of a gap trial complete (R231, R232)? -/
def gapComplete (g : GapTrial) : Bool := runDone g g.runA && runDone g g.runB

/-- One compared burst of a gap trial: its lanes take the samples in the first run, and in the second once that is complete. -/
def gapFeed (ref sample : Nat) (g : GapTrial) : GapTrial :=
  let feed := fun (run : List (List BitScan)) => (List.range 6).map (fun d =>
    if g.lanes.testBit d then
      feedLane (gapMode g) (edgeThr g.rep) (dramLane ref d) (dramLane sample d) (run.getD d [])
    else run.getD d [])
  if runDone g g.runA then { g with runB := feed g.runB } else { g with runA := feed g.runA }

/-- The trial of a lane that a run amounts to. -/
def gapTrialOf (g : GapTrial) (run : List (List BitScan)) (d : Nat) : Trial :=
  trialOf (gapMode g) (edgeThr g.rep) (run.getD d [])

/-- An accepted gap trial of a lane-rank ends NOPROG (R233). -/
def gapAccepted (r d : Nat) (s : State) : State :=
  setBitF Fld.CB_DSTAT_NOPROG r false (incF (Fld.CB_CNT_ACC.bank (cntBank 1 r d)) s)

/-- One lane of a gap-mode write trial (R231). -/
def gapWriteLane (g : GapTrial) (d : Nat) (s : State) : State :=
  let r := g.rank
  let a := gapTrialOf g g.runA d
  let b := gapTrialOf g g.runB d
  let ts : TestSet := ⟨false, knownScope s (scopeWrite r d), false⟩
  let xa := { trialResult a with vmove := 0 }
  let xb := { trialResult b with vmove := 0 }
  let wa := acceptReason g.lim ts a xa (timingInRange (writeCodes s r d xa))
  let wb := acceptReason g.lim ts b xb (timingInRange (writeCodes s r d xb))
  let m := meanResult xa xb
  if wa ≠ 0 then rejectTrial 21 3 wa 1 r d xa s
  else if wb ≠ 0 then rejectTrial 21 3 wb 1 r d xb s
  else if !agree g.rep false xa xb then rejectTrial 22 3 5 1 r d xa s
  else if !timingInRange (writeCodes s r d m) then rejectTrial 21 3 6 1 r d m s
  else gapAccepted r d (setWwidth r d m.ws (markFresh (scopeWrite r d) (pendWrite r d (writeCodes s r d m) s)))

/-- One lane of a gap-mode read trial (R232). -/
def gapReadLane (g : GapTrial) (d : Nat) (s : State) : State :=
  let r := g.rank
  let a := gapTrialOf g g.runA d
  let b := gapTrialOf g g.runB d
  let known := knownScope s (scopeRead r d)
  let ts : TestSet := ⟨true, known, known⟩
  let xa := trialResult a
  let xb := trialResult b
  let wa := acceptReason g.lim ts a xa (codesInRange (readCodes s r d xa))
  let wb := acceptReason g.lim ts b xb (codesInRange (readCodes s r d xb))
  let m := meanResult xa xb
  if wa ≠ 0 then rejectTrial 21 2 wa 1 r d xa s
  else if wb ≠ 0 then rejectTrial 21 2 wb 1 r d xb s
  else if !agree g.rep true xa xb then rejectTrial 22 2 5 1 r d xa s
  else if !codesInRange (readCodes s r d m) then rejectTrial 21 2 6 1 r d m s
  else
    gapAccepted r d (setQuality (qDram r d) m.ws m.hs (markFresh (scopeRead r d) (pendRead r d (readCodes s r d m) s)))

/-- A gap-mode trial of a rank is complete (R231, R232); one that the host spoilt is rejected whatever its figures (R234). -/
def gapDone (r : Nat) (s : State) : State :=
  match s.cb.gaps.find? (fun g => g.rank = r) with
  | none => s
  | some g =>
    if !gapComplete g then s
    else
      let one := fun (t : State) d =>
        if g.hit then rejectTrial 21 (if g.write then 3 else 2) 7 1 r d (trialResult (gapTrialOf g g.runA d)) t
        else if g.write then gapWriteLane g d t else gapReadLane g d t
      gapEnd g ((bitsOf 6 g.lanes).foldl one s)

/-- A gap trial passed 4 × GAP_PERIOD (R233). -/
def gapAbandon (r : Nat) (s : State) : State :=
  match s.cb.gaps.find? (fun g => g.rank = r) with
  | none => s
  | some g =>
    let s1 := incF Fld.CB_DABN_COUNT s
    gapEnd g (if g.reached then s1 else setBitF Fld.CB_DSTAT_NOPROG r true s1)

/-- Replace the trial of a rank. -/
def putGap (g : GapTrial) (s : State) : State :=
  { s with cb := { s.cb with gaps := s.cb.gaps.map (fun h => if h.rank = g.rank then g else h) } }

/-- A host burst to a scratch row of a rank (R234). -/
def gapHit (r : Nat) (s : State) : State :=
  if s.cb.gaps.any (fun g => g.rank = r) then
    setBitF Fld.CB_DSTAT_HOSTHIT r true
      { s with cb := { s.cb with gaps := s.cb.gaps.map (fun g => if g.rank = r then { g with hit := true } else g) } }
  else s

/-- A DALERT_N event discards the pair of every write probe that waits for its read-back (R235). -/
def gapAlert (s : State) : State :=
  { s with cb := { s.cb with gaps := s.cb.gaps.map (fun g => { g with sent := none }) } }

/-- GAP_EN = 0 stops the gap trials at the end of the running probe or grant (Table CD-2). -/
def gapPause (s : State) : State :=
  if flag s Fld.CB_CTRL_GAP_EN || s.cb.gaps.isEmpty then s
  else rankList.foldl (fun t r => dropGap r t) s

/-! ### The bursts of gap mode (R230, Table CD-3) -/

/-- A burst whose lanes hold the next 128 bits of PRBS-15 each, from the state given for each lane. -/
def prbsBurst (seed : Nat → Nat) : Nat :=
  ofDramLanes ((List.range 6).map (fun d => (prbs15Bits 128 0 (seed d) 0).1))

/-- Burst `col` of scratch row 2 of a rank: the sequence of each lane from its seed, 128 bits a burst. -/
def row2Burst (r col : Nat) : BitVec 768 :=
  BitVec.ofNat 768 (prbsBurst (fun d => (prbs15Bits (128 * col) 0 ((0x1000 + d * 0x111 + r) % 2 ^ 15) 0).2))

/-- The state from which the next write probe of a lane of a rank continues. -/
def prbsState (s : State) (r d : Nat) : Nat :=
  let e := smGet (zeroDefault 16) s.cb.prbs (r * 6 + d)
  if e.getLsbD 15 then e.toNat % 2 ^ 15 else (Config.prbsStart (r * 6 + d)).toNat

/-- The burst of the next write probe of a rank. -/
def nextWrite (s : State) (r : Nat) : BitVec 768 := BitVec.ofNat 768 (prbsBurst (prbsState s r))

/-- The lanes of a rank have sent that burst. -/
def prbsSent (r : Nat) (s : State) : State :=
  { s with cb := { s.cb with prbs := (List.range 6).foldl (fun m d =>
      smSet (zeroDefault 16) m (r * 6 + d) (BitVec.ofNat 16 (2 ^ 15 + (prbs15Bits 128 0 (prbsState s r d) 0).2))) s.cb.prbs } }

/-- The offset at which a write trial dwells on a bit (R231); 0 once its edges are found. -/
def testOffset (thr : Nat) (b : BitScan) : Int :=
  let l := search thr leftMax b.l 0
  let r := search thr rightMax b.r 0
  if leftTurn .write l r then (match l with | .dwell k => leftAt k | _ => 0)
  else match r with | .dwell k => rightAt k | _ => 0

/-- The transmit offsets under test, lane by lane and bit by bit. -/
def testOffsets (g : GapTrial) : List Int :=
  let run := if runDone g g.runA then g.runB else g.runA
  (List.range 6).flatMap (fun d => bits8.map (fun i =>
    if g.lanes.testBit d then testOffset (edgeThr g.rep) ((run.getD d []).getD i noScan) else 0))

/-! ### Full training of one lane (R236, R237) -/

/-- The strobe code that two runs of F2 or F3 lead to, their mean toward the code in force; or the source and reason of the test
that fails: 1, 2 and 7 apply (R237). -/
def strobeCode (lim rep : Word) (now : Nat) (a b : StepRun) : (Nat × Nat) ⊕ Nat :=
  match a.code, b.code with
  | some x, some y =>
    if a.width < minWidth lim || b.width < minWidth lim then .inl (21, 2)
    else if tapTol rep < ((x.toNat : Int) - y.toNat).natAbs then .inl (22, 5)
    else .inr ((now : Int) + meanMove ((x.toNat : Int) - now) ((y.toNat : Int) - now)).toNat
  | _, _ => .inl (21, 7)

/-- The width of a write eye at one VrefDQ code: the smallest of its bits in both runs; 0 where an edge is missing. -/
def tryWidth (thr : Nat) (v : VrefTry) : Nat :=
  ((v.runA ++ v.runB).map (fun b => eyeW (bitEye .write thr b))).foldl min 255

/-- The VrefDQ code that F5 sets: the centre of the codes of widest W (R236). -/
def bestTry (thr : Nat) (l : List VrefTry) : Option VrefTry :=
  let top := (l.map (tryWidth thr)).foldl max 0
  let best := l.filter (fun v => tryWidth thr v = top)
  best[(best.length - 1) / 2]?

/-- F5 gives a DRAM its VrefDQ code. -/
def setVrefDq (r d : Nat) (code : BitVec 8) (s : State) : State :=
  issue [.vrefDq r d code] { s with cb := { s.cb with
    vrefDq := smSet (zeroDefault 9) s.cb.vrefDq (r * 6 + d) (BitVec.ofNat 9 (2 ^ 8 + code.toNat)) } }

/-- A step of full training that is not accepted, before any eye was measured. -/
def rejectStep (src top why r d : Nat) (s : State) : State := rejectTrial src top why 1 r d ⟨[], 0, [], [], []⟩ s

/-- Two runs of an eye under tests 1 to 3, 6 and 7: the source, reason and trial of the test that fails, or the mean (R237). -/
def trainRuns (lim rep : Word) (volt : Bool) (a b : Trial) (inRange : TrialResult → Bool) :
    (Nat × Nat × TrialResult) ⊕ TrialResult :=
  let fix := fun (x : TrialResult) => if volt then x else { x with vmove := 0 }
  let xa := fix (trialResult a)
  let xb := fix (trialResult b)
  let ts : TestSet := ⟨volt, false, false⟩
  let wa := acceptReason lim ts a xa (inRange xa)
  let wb := acceptReason lim ts b xb (inRange xb)
  let m := meanResult xa xb
  if wa ≠ 0 then .inl (21, wa, xa)
  else if wb ≠ 0 then .inl (21, wb, xb)
  else if !agree rep volt xa xb then .inl (22, 5, xa)
  else if !inRange m then .inl (21, 6, m)
  else .inr m

/-- F4: the read eye of a lane; what is found comes into force at once (Table CB-3, last row). -/
def trainRead (r d : Nat) (lim rep : Word) (t : LaneTrain) (s : State) : State × Bool :=
  let thr := edgeThr rep
  let s1 := issue [.train r 4 d] s
  match trainRuns lim rep true (trialOf .single thr t.readA) (trialOf .single thr t.readB)
      (fun x => codesInRange (readCodes s r d x)) with
  | .inl e => (rejectTrial e.1 4 e.2.1 1 r d e.2.2 s1, false)
  | .inr m =>
    (setQuality (qDram r d) m.ws m.hs (applyPend (isDramRank r) (pendRead r d (readCodes s r d m) s1)), true)

/-- F5: the write eye of a lane at each VrefDQ code tried, and at the one that it settles on. -/
def trainWrite (r d : Nat) (lim rep : Word) (t : LaneTrain) (s : State) : State × Bool :=
  let thr := edgeThr rep
  let s0 := issue (t.tries.flatMap (fun v => [.vrefDq r d v.code, .train r 5 d])) s
  match bestTry thr t.tries with
  | none => (rejectStep 21 5 7 r d s0, false)
  | some v =>
    let s1 := setVrefDq r d v.code s0
    match trainRuns lim rep false (trialOf .write thr v.runA) (trialOf .write thr v.runB)
        (fun x => timingInRange (writeCodes s1 r d x)) with
    | .inl e => (rejectTrial e.1 5 e.2.1 1 r d e.2.2 s1, false)
    | .inr m => (setWwidth r d m.ws (applyPend (isDramRank r) (pendWrite r d (writeCodes s1 r d m) s1)), true)

/-- A strobe step: F2 of the write path, F3 of the read path. -/
def trainStrobe (r d : Nat) (lim rep : Word) (write : Bool) (a b : StepRun) (s : State) : State × Bool :=
  let f := if write then dramTxDqs r d else dramRxDqs r d
  let s1 := issue [.train r (if write then 2 else 3) d] s
  match strobeCode lim rep (getF s f) a b with
  | .inl e => (rejectStep e.1 (if write then 5 else 4) e.2 r d s1, false)
  | .inr c => (setF f c s1, true)

/-- What F6 writes and expects as burst `n` of a lane: PRBS-15 from the seed of scratch row 2 on (Table CD-3), over all 4,096
bursts; the sequence has a period of 2^15 - 1 bits. -/
def verifyBurst (r d n : Nat) : BitVec 128 :=
  BitVec.ofNat 128 (prbs15Bits 128 0 (prbs15Bits (128 * n % (2 ^ 15 - 1)) 0 ((0x1000 + d * 0x111 + r) % 2 ^ 15) 0).2 0).1

/-- F6: does a bit of a lane differ in what it returned? -/
def bitError (r d : Nat) (t : LaneTrain) : Bool := t.verify.any (fun e => e.1 < 4096 && e.2 ≠ verifyBurst r d e.1)

/-- A step of a lane after those before it. -/
def thenStep (x : State × Bool) (step : State → State × Bool) : State × Bool := if x.2 then step x.1 else x

/-- Steps F2 to F6 of one lane of one rank (R236, R237). An accepted step takes its codes at once; the answer says whether the
whole lane is accepted. -/
def trainLane (r d : Nat) (t : LaneTrain) (s : State) : State × Bool :=
  let lim := limNow s
  let rep := repNow s
  let x2 := trainStrobe r d lim rep true t.txA t.txB s
  let x3 := thenStep x2 (trainStrobe r d lim rep false t.rxA t.rxB)
  let x4 := thenStep x3 (trainRead r d lim rep t)
  let x5 := thenStep x4 (trainWrite r d lim rep t)
  thenStep x5 (fun s5 =>
    let s6 := issue [.train r 6 d] s5
    if bitError r d t then (rejectStep 21 4 2 r d s6, false)
    else (incF (Fld.CB_CNT_ACC.bank (cntBank 1 r d))
      (setKnown (scopeRead r d) true (setKnown (scopeWrite r d) true s6)), true))

/-! ### The commands -/

/-- HOST_EVAL_START (R207). -/
def execHostEvalStart (s : State) : Host.Outcome State Fault Refusal :=
  .next ((List.range 6).foldl (fun t n => startHost n t) s)

/-- HOST_TRIAL_DONE (R208): the trial that has gathered its samples. -/
def execHostTrialDone (lane : HLane) (s : State) : Host.Outcome State Fault Refusal :=
  .next (hostTrial lane.val s)

/-- CA_TRIAL_DONE (R213). -/
def execCaTrialDone (s : State) : Host.Outcome State Fault Refusal := .next (caTrial s)

/-- STALE_TIMEOUT (R212): lane 5 names the C/A receivers. -/
def execStaleTimeout (lane : Fin 6) (s : State) : Host.Outcome State Fault Refusal :=
  .next (if hostLaneFree s lane.val && flag s Fld.CB_HPOL_STALE_AFTER then
    (if lane.val = 5 then trace 0x0701 0x22 (setF Fld.CB_HSTAT_CA_STALE 1 s)
     else trace 0x0701 (2 + lane.val * 4) (setBitF Fld.CB_HSTAT_STALE lane.val true s))
   else s)

/-- ZQ_MEASURE (R186). -/
def execZqMeasure (hostUp hostDown dramUp dramDown : BitVec 5) (hostSat dramSat : Bool) (s : State) :
    Host.Outcome State Fault Refusal :=
  .next (if coreOn s && inRun s && flag s Fld.CB_CTRL_ZQ_EN then
    zqMeasure hostUp.toNat hostDown.toNat dramUp.toNat dramDown.toNat hostSat dramSat s else s)

/-- DCC_STEP (R186). -/
def execDccStep (dram : Bool) (lane : DLane) (up : Bool) (s : State) : Host.Outcome State Fault Refusal :=
  .next (if coreOn s && inRun s && flag s Fld.CB_CTRL_DCC_EN then dccStep dram lane.val up s else s)

/-- PENDING_STARVED (R198). -/
def execPendingStarved (s : State) : Host.Outcome State Fault Refusal :=
  .next (if coreOn s && (!s.cb.pend.isEmpty || s.committed.any (fun e => isTrim e.1)) then
    trace 0x0701 1 (setF Fld.CB_STATUS_STARVED 1 s) else s)

/-- SWEEP_START (R220). -/
def execSweepStart (s : State) : Host.Outcome State Fault Refusal := .next (sweepStart s)

/-- SWEEP_TRIAL_DONE (R223). -/
def execSweepTrialDone (s : State) : Host.Outcome State Fault Refusal := .next (sweepTrial s)

/-- SWEEP_ABANDON (R222). -/
def execSweepAbandon (s : State) : Host.Outcome State Fault Refusal := .next (sweepAbandon s)

/-- GAP_TRIAL_START (R233). -/
def execGapTrialStart (rank : Rank) (s : State) : Host.Outcome State Fault Refusal := .next (gapStart rank.val s)

/-- GAP_TRIAL_DONE (R231). -/
def execGapTrialDone (rank : Rank) (s : State) : Host.Outcome State Fault Refusal :=
  .next (gapDone rank.val s)

/-- GAP_TRIAL_ABANDON (R233). -/
def execGapTrialAbandon (rank : Rank) (s : State) : Host.Outcome State Fault Refusal :=
  .next (gapAbandon rank.val s)

end Sys2Proof.Machine
end

