-- ==== Sys2Proof/Machine/Ledger.lean ====
section
/-! DEFINITION. The ledger (Chapter 11): stored words and their SECDED code, the aperture's lines, dirty
tracking, the port E window, tag words and scans; the replica queue that own-half writes feed (R389, R390). -/

namespace Sys2Proof.Machine

/-! ### Lines and words (R242, R243) -/

/-- The key of a word of a line. -/
def wordKey (l w : Nat) : Nat := l * 10 + w

/-- First line of the replica half, of the op-slot area, and the number of lines. -/
def replicaFirst : Nat := 15872
def slotFirst : Nat := 31744
def ledgerLines : Nat := 32768

/-- The bank of a line. -/
def lineBank (l : Nat) : Nat := l / 2048

/-- The data of word `w` of a host burst (Table LD-1). -/
def burstWord (line w : Nat) : Dword :=
  BitVec.ofNat 64 ((List.range 8).foldl (fun a j =>
    let d := 8 * w + j
    let b := if w < 8 then hostByte line (d / 4) (d % 4) else hostByte line (d - 64) 4
    a + b <<< (8 * j)) 0)

/-- The ten words of a host burst. -/
def burstWords (line : Nat) : List Dword := (List.range 10).map (burstWord line)

/-- Byte `d` of a line: 64 data bytes, then 16 check bytes. -/
def lineByte (ws : List Dword) (d : Nat) : Nat := ((ws.getD (d / 8) 0).toNat >>> (8 * (d % 8))) % 256

/-- The host burst of ten words (Table LD-1). -/
def wordsBurst (ws : List Dword) : Nat :=
  beats.foldl (fun a b =>
    (List.range 4).foldl (fun c n => c + lineByte ws (4 * b + n) <<< (b * 40 + n * 8))
      (a + lineByte ws (64 + b) <<< (b * 40 + 32))) 0

/-! ### SECDED reads (R255, R256, R422) -/

/-- The stored 72 bits of a ledger word. -/
def ledgerStored (s : State) (k : Nat) : BitVec 72 := smGet (zeroDefault 72) s.ld.words k

/-- Put stored bits. -/
def setStored (k : Nat) (v : BitVec 72) (s : State) : State :=
  { s with ld := { s.ld with words := smSet (zeroDefault 72) s.ld.words k v } }

/-- The answer of a read through SECDED. -/
structure WordRead where
  data : Dword
  ue : Bool
  corr : Bool
  deriving DecidableEq, Repr

/-- Judge stored bits, with `inj` XORed into the check bits read. -/
def judgeStored (w : BitVec 72) (inj : Byte) : WordRead × Byte :=
  let syn := secdedSyndrome w ^^^ inj
  match secdedJudge (secdedData w) syn with
  | .clean => (⟨secdedData w, false, false⟩, syn)
  | .corrected d => (⟨d, false, true⟩, syn)
  | .uncorrectable => (⟨secdedData w, true, false⟩, syn)

/-- The injection mask for the next read on a port, and the state with the injection disarmed (Table FC-5). -/
def takeLedgerInj (port : Nat) (s : State) : Byte × State :=
  if flag s Fld.FC_INJ_LD_ARM && getF s Fld.FC_INJ_LD_PORT = port then
    (BitVec.ofNat 8 (getF s Fld.FC_INJ_MASK), setF Fld.FC_INJ_LD_ARM 0 s)
  else (0, s)

/-- Capture, count and raise one SECDED event of the ledger (R255, R256, R258). -/
def ledgerEvent (ue : Bool) (req l w : Nat) (syn : Byte) (s : State) : State :=
  let log := b2n ue * 2 ^ 30 + req * 2 ^ 27 + l * 2 ^ 12 + w * 2 ^ 8 + syn.toNat
  let s1 := raise (if ue then 25 else 24) log (incF (if ue then Fld.LD_ECC_UNCORR else Fld.LD_ECC_CORR) s)
  if flag s1 Fld.LD_ELOG0_VALID then s1
  else setReg Fld.LD_ELOG1_TIME.addr (BitVec.ofNat 32 s.aon.toNat)
    (setReg Fld.LD_ELOG0_VALID.addr (BitVec.ofNat 32 (2 ^ 31 + log)) s1)

/-- Read one word of a line for a requester of a port (0 H, 1 E). -/
def readWord (port req l w : Nat) (s : State) : WordRead × State :=
  let i := takeLedgerInj port s
  let j := judgeStored (ledgerStored s (wordKey l w)) i.1
  if j.1.ue then (j.1, ledgerEvent true req l w j.2 i.2)
  else if j.1.corr then
    let s1 := ledgerEvent false req l w j.2 i.2
    (j.1, if flag s1 Fld.LD_CFG_SCRUB_WB && !s1.ld.scrub.contains (wordKey l w)
      then { s1 with ld := { s1.ld with scrub := s1.ld.scrub ++ [wordKey l w] } } else s1)
  else (j.1, i.2)

/-- Read the listed words of a line, in order. -/
def readWords (port req l : Nat) : List Nat → State → List WordRead × State
  | [], s => ([], s)
  | w :: ws, s =>
    let r := readWord port req l w s
    let t := readWords port req l ws r.2
    (r.1 :: t.1, t.2)

/-- Read a whole line: its data and whether any word is uncorrectable. -/
def readLine (port req l : Nat) (s : State) : (List Dword × Bool) × State :=
  let r := readWords port req l (List.range 10) s
  ((r.1.map (·.data), r.1.any (·.ue)), r.2)

/-! ### Dirty bitmaps (R259 to R261, R569) -/

/-- The stored form of a bitmap word whose 64 lines are all marked. -/
def allMarked : BitVec 72 := 0xd8ffffffffffffffff#72

/-- An unlisted bitmap word has every line marked. -/
def mapDefault (_ : Nat) : BitVec 72 := allMarked

/-- The key of a bitmap word: bitmap 0 is DIRTY_A, 1 is DIRTY_B. -/
def mapKey (b i : Nat) : Nat := b * 512 + i

def setMap (b i : Nat) (d : Dword) (s : State) : State :=
  { s with ld := { s.ld with maps := smSet mapDefault s.ld.maps (mapKey b i) (secdedEncode d) } }

/-- Read a bitmap word; an uncorrectable one reads as all marked, raises FS 26 and is set so (R569). -/
def readMap (b i : Nat) (s : State) : Dword × State :=
  let j := judgeStored (smGet mapDefault s.ld.maps (mapKey b i)) 0
  if j.1.ue then (BitVec.allOnes 64, raise 26 (2 ^ (16 + b)) (setMap b i (BitVec.allOnes 64) s))
  else if j.1.corr then (j.1.data, setMap b i j.1.data s)
  else (j.1.data, s)

/-- Mark a line in one bitmap. -/
def markIn (b l : Nat) (s : State) : State :=
  let r := readMap b (l / 64) s
  setMap b (l / 64) (r.1 ||| BitVec.ofNat 64 (1 <<< (l % 64))) r.2

/-- Clear a line's mark in one bitmap. -/
def unmarkIn (b l : Nat) (s : State) : State :=
  let r := readMap b (l / 64) s
  setMap b (l / 64) (r.1 &&& ~~~BitVec.ofNat 64 (1 <<< (l % 64))) r.2

/-- A write lands on a line: both bitmaps mark it (R259). -/
def markDirty (l : Nat) (s : State) : State :=
  if l < slotFirst then markIn 1 l (markIn 0 l s) else s

/-- Mark every line of a bitmap. -/
def markAll (b : Nat) (s : State) : State :=
  { s with ld := { s.ld with maps := smDrop s.ld.maps (fun k => k / 512 = b) } }

/-- The lines marked in a bitmap, rising. -/
def markedLines (b : Nat) (s : State) : List Nat × State :=
  (List.range 496).foldl (fun a i =>
    let r := readMap b i a.2
    (a.1 ++ (bitsOf 64 r.1.toNat).map (fun k => i * 64 + k), r.2)) ([], s)

/-- LD_DIRTY: how many lines a bitmap marks. -/
def dirtyCount (s : State) (b : Nat) : Nat :=
  31744 - (s.ld.maps.filter (fun e => e.1 / 512 = b)).foldl
    (fun a e => a + (64 - popCount 64 (judgeStored e.2 0).1.data.toNat)) 0

/-! ### The replica queue (R389, R390) -/

/-- Is a line marked in a stale bitmap? -/
def staleBit (m : SMap 64) (l : Nat) : Bool := (smGet (zeroDefault 64) m (l / 64)).getLsbD (l % 64)

/-- Set or clear a line in a stale bitmap. -/
def setStale (m : SMap 64) (l : Nat) (b : Bool) : SMap 64 :=
  let w := smGet (zeroDefault 64) m (l / 64)
  let k := BitVec.ofNat 64 (1 <<< (l % 64))
  smSet (zeroDefault 64) m (l / 64) (if b then w ||| k else w &&& ~~~k)

/-- How many lines a stale bitmap marks. -/
def staleCount (m : SMap 64) : Nat := m.foldl (fun a e => a + popCount 64 e.2.toNat) 0

/-- TW_STALE follows the bitmaps. -/
def staleRegs (s : State) : State :=
  setF Fld.TW_STALE_SEND (staleCount s.tw.sendStale) (setF Fld.TW_STALE_RECV (staleCount s.tw.recvStale) s)

/-- May this device send replica lines (R388, R394)? -/
def mayQueue (s : State) : Bool :=
  flag s Fld.TW_STATUS_REPL_RUN && !s.tw.lagEndSent && (served s || inService s || saving s)

/-- A write that lands on an own line enqueues it (R389); the 257th distinct line goes stale (R390). -/
def enqueueOwn (l : Nat) (s : State) : State :=
  if !(l < replicaFirst && mayQueue s) || s.tw.queue.contains l then s
  else if s.tw.queue.length < 256 then
    let q := s.tw.queue ++ [l]
    let s1 := { s with tw := { s.tw with queue := q } }
    setF Fld.TW_LAG_MAX (max (getF s1 Fld.TW_LAG_MAX) q.length) s1
  else
    let n := staleCount s.tw.sendStale
    let s1 := staleRegs { s with tw := { s.tw with sendStale := setStale s.tw.sendStale l true } }
    if n = 0 then raise 46 1 s1 else s1

/-! ### Writes (R245, R259) -/

/-- Write one word: the check bits are computed, a waiting write-back of the word is dropped (R255). -/
def putWord (l w : Nat) (d : Dword) (s : State) : State :=
  let s1 := setStored (wordKey l w) (secdedEncode d) s
  { s1 with ld := { s1.ld with scrub := s1.ld.scrub.filter (fun k => k ≠ wordKey l w) } }

/-- A word with all eight check bits inverted (R257). -/
def poisonWord (d : Dword) : BitVec 72 := secdedEncode d ^^^ (0xff#72 <<< 64)

/-- Put the ten words of a line, poisoned or sound, with no dirty mark. -/
def putLine (poison : Bool) (l : Nat) (ws : List Dword) (s : State) : State :=
  (List.range 10).foldl (fun t w =>
    if poison then setStored (wordKey l w) (poisonWord (ws.getD w 0)) t else putWord l w (ws.getD w 0) t) s

/-- A host or executor write of a line: data lands, the line is dirty and, in the own half, queued. -/
def writeLine (l : Nat) (ws : List Dword) (s : State) : State :=
  enqueueOwn l (markDirty l (putLine false l ws s))

/-- A line of zero data with the given check bytes (R279). -/
def clearSlot (checks : Nat) (i : Nat) (s : State) : State :=
  putLine false (slotFirst + i) (burstWords (ofHostLanes [0, 0, 0, 0, checks])) s

/-- The check bytes of an empty slot: C of a table, zero for an empty one (R279). -/
def emptyChecks (h : HctTable) : Nat := if h.rows = 0 then 0 else hctC h

/-- Clear every op slot, with the table in force (R249, R279). -/
def clearSlots (s : State) : State :=
  let c := emptyChecks s.lg.table
  let s1 := { s with ld := { s.ld with
    words := smDrop s.ld.words (fun k => slotFirst * 10 ≤ k), scrub := s.ld.scrub.filter (fun k => k < slotFirst * 10) } }
  if c = 0 then s1 else (List.range 1024).foldl (fun t i => clearSlot c i t) s1

/-- Clear the whole ledger and mark every line in both bitmaps (B3, Table HR-6). -/
def clearLedger (s : State) : State :=
  { s with ld := { s.ld with words := [], maps := [], scrub := [] } }

/-! ### Host accesses through the aperture (R115, R248) -/

/-- Is a line in the replica half while mirroring is in force? -/
def inReplica (s : State) (l : Nat) : Bool :=
  flag s Fld.LD_STATUS_MIRROR_IN_FORCE && replicaFirst ≤ l && l < slotFirst

/-- The line that a host RD or RDA returns (R248, R284). -/
def hostReadLine (l : Nat) (s : State) : Nat × State :=
  if inReplica s l && (!flag s Fld.LD_CFG_REPL_HOST || flag s Fld.LD_STATUS_PARKED) then
    (0, incF Fld.LD_HRD_COUNT s)
  else
    let r := readLine 0 0 l s
    (wordsBurst r.1.1, r.2)

/-! ### Retention (R262 to R264) and the march's damage -/

/-- XOR damage into stored content. Keys below 0x80000 are line words; 0x80000 on, bitmap words; 0x90000 on,
tag words. -/
def damageLedger (l : List (Nat × BitVec 72)) (s : State) : State :=
  l.foldl (fun t e =>
    if e.1 < 0x80000 then setStored e.1 (ledgerStored t e.1 ^^^ e.2) t
    else if e.1 < 0x90000 then
      let k := e.1 - 0x80000
      { t with ld := { t.ld with maps := smSet mapDefault t.ld.maps k (smGet mapDefault t.ld.maps k ^^^ e.2) } }
    else
      let k := e.1 - 0x90000
      { t with ld := { t.ld with tags := smSet (zeroDefault 72) t.ld.tags k (smGet (zeroDefault 72) t.ld.tags k ^^^ e.2) } }) s

/-- Write the tag of a bank or bitmap and its copy in PD_AON (R262). -/
def writeTag (k : Nat) (s : State) : State :=
  { s with ld := { s.ld with
      tags := smSet (zeroDefault 72) s.ld.tags k (secdedEncode (BitVec.ofNat 64 s.aon.toNat)),
      tagCopy := smSet (zeroDefault 49) s.ld.tagCopy k (BitVec.ofNat 49 (2 ^ 48 + s.aon.toNat)) } }

/-- The tag word of a bank or bitmap, read through SECDED. -/
def readTag (s : State) (k : Nat) : WordRead := (judgeStored (smGet (zeroDefault 72) s.ld.tags k) 0).1

/-- Does a tag agree with its copy? -/
def tagAgrees (s : State) (k : Nat) : Bool :=
  let c := smGet (zeroDefault 49) s.ld.tagCopy k
  let j := readTag s k
  c.getLsbD 48 && !j.ue && j.data.toNat = c.toNat % 2 ^ 48

/-- A tag word read with a correctable error is written back; no source is raised (R569). -/
def mendTag (k : Nat) (s : State) : State :=
  let j := readTag s k
  if j.corr then { s with ld := { s.ld with tags := smSet (zeroDefault 72) s.ld.tags k (secdedEncode j.data) } } else s

/-- Uncorrectable and corrected words among the stored words that satisfy `p`. -/
def scanCounts (m : SMap 72) (p : Nat → Bool) : Nat × Nat :=
  m.foldl (fun a e =>
    if p e.1 then
      let j := (judgeStored e.2 0).1
      (a.1 + b2n j.ue, a.2 + b2n j.corr)
    else a) (0, 0)

/-- Write corrected words back where `p` holds (R263). -/
def scanCorrect (d : Nat → BitVec 72) (m : SMap 72) (p : Nat → Bool) : SMap 72 :=
  m.foldl (fun a e =>
    let j := (judgeStored e.2 0).1
    if p e.1 && j.corr then smSet d a e.1 (secdedEncode j.data) else a) m

/-- The events of requester 5's word reads where `p` holds: each corrected or uncorrectable ledger word is raised, counted
and captured (R255, R256). The spec gives the events of words read in parallel no order; the model takes them by rising
address (DESIGN CHOICE, log entry 66). -/
def scanEvents (p : Nat → Bool) (s : State) : State :=
  s.ld.words.foldl (fun t e =>
    let j := judgeStored e.2 0
    if p e.1 && (j.1.ue || j.1.corr) then ledgerEvent j.1.ue 5 (e.1 / 10) (e.1 % 10) j.2 t else t) s

/-- Is a word key in a bank? -/
def inBank (b k : Nat) : Bool := k / 20480 = b

/-- Scan a bank: whether it passes, and how many words were corrected (R263). -/
def bankPasses (s : State) (b : Nat) : Bool × Nat :=
  let c := scanCounts s.ld.words (inBank b)
  (tagAgrees s b && c.1 = 0 && c.2 ≤ getF s Fld.LD_RETAIN_CORR_MAX, c.2)

/-- Scan a bitmap. -/
def mapPasses (s : State) (b : Nat) : Bool × Nat :=
  let c := scanCounts s.ld.maps (fun k => k / 512 = b)
  (tagAgrees s (16 + b) && c.1 = 0 && c.2 ≤ getF s Fld.LD_RETAIN_CORR_MAX, c.2)

/-- The retention check of every bank and both bitmaps (R263, R264). A failed bitmap has all bits set. LD_RSTAT.CORR counts the
corrected words of the lines, the bitmaps and the tags (R569). -/
def retentionCheck (s0 : State) : State :=
  let s := scanEvents (fun _ => true) s0
  let banks := (List.range 16).map (bankPasses s)
  let maps := [mapPasses s 0, mapPasses s 1]
  let failed := ofBits ((List.range 16).filter (fun b => !(banks.getD b (true, 0)).1))
  let mfail := ofBits ((List.range 2).filter (fun b => !(maps.getD b (true, 0)).1))
  let tags := ((List.range 18).filter (fun k => (readTag s k).corr)).length
  let corr := (banks ++ maps).foldl (fun a r => a + r.2) tags
  let m := (List.range 18).foldl (fun t k => mendTag k t) s
  let s1 := { m with ld := { m.ld with
    words := scanCorrect (zeroDefault 72) s.ld.words (fun _ => true),
    maps := scanCorrect mapDefault s.ld.maps (fun _ => true), scrub := [] } }
  let s2 := (List.range 2).foldl (fun t b => if mfail.testBit b then markAll b t else t) s1
  let s3 := setF Fld.LD_RCHK_FAILED failed (setF Fld.LD_RSTAT_VALID 1
    (setF Fld.LD_RSTAT_MAP_FAIL mfail (setF Fld.LD_RSTAT_CORR (sat 0xFFFF corr) s2)))
  if failed = 0 ∧ mfail = 0 then s3 else raise 26 (failed + mfail * 2 ^ 16) s3

/-- The lines of a bank that a commit covers. -/
def bankLines (b : Nat) : List Nat := (List.range 2048).map (fun i => b * 2048 + i) |>.filter (· < slotFirst)

/-! ### Flits out of this device (R379, R380) -/

/-- The twelve field bytes of a control flit: those that Table TW-2 names, the others 0. -/
def fieldBytes (l : List Byte) : List Byte := l.take 12 ++ List.replicate (12 - l.length) 0#8

/-- TYPE and fields of a flit this device sends (Table TW-2). -/
def controlBytes : FlitBody → List Byte
  | .idle => leBytes 1 0x01 ++ fieldBytes []
  | .nak e => leBytes 1 0x02 ++ fieldBytes [e]
  | .ident pos v hb => leBytes 1 0x03 ++ fieldBytes (leBytes 1 (b2n pos) ++ leBytes 3 v.toNat ++ leBytes 4 hb.toNat)
  | .status bs => leBytes 1 0x04 ++ fieldBytes bs
  | .timeReq => leBytes 1 0x05 ++ fieldBytes []
  | .timeRsp t2 t3 => leBytes 1 0x06 ++ fieldBytes (leBytes 6 t2.toNat ++ leBytes 6 t3.toNat)
  | .save c t => leBytes 1 0x07 ++ fieldBytes (c :: leBytes 6 t.toNat)
  | .lagEnd => leBytes 1 0x08 ++ fieldBytes []
  | .bye => leBytes 1 0x09 ++ fieldBytes []
  | .resyncReq first n => leBytes 1 0x0A ++ fieldBytes (leBytes 2 first ++ leBytes 2 n)
  | .line l resync poison d =>
    leBytes 1 0x10 ++ fieldBytes (leBytes 2 (l + b2n resync * 0x4000 + b2n poison * 0x8000) ++ (leBytes 80 d.toNat).take 10)

/-- The payload of data flit `i` of a line: line bytes 10 to 79, 14 a flit. -/
def dataBytes (d : BitVec 640) (i : Nat) : List Byte := ((leBytes 80 d.toNat).drop (10 + 14 * i)).take 14

/-- The flits of a body, numbered from `n`: a LINE is followed by five data flits. -/
def flitsOf (n : Byte) (b : FlitBody) : List HeldFlit :=
  ⟨n, false, controlBytes b⟩ :: match b with
    | .line _ _ _ d => (List.range 5).map (fun i => ⟨n + BitVec.ofNat 8 (i + 1), true, dataBytes d i⟩)
    | _ => []

/-- How many flits a body takes. -/
def flitLen (b : FlitBody) : Nat := (flitsOf 0 b).length

/-- The CRC-16 of a flit's bytes 0 to 13, as its bytes 14 and 15. -/
def crcBytes (l : List Byte) : List Byte :=
  let c := (crc16 l).toNat
  leBytes 1 (c / 256) ++ leBytes 1 (c % 256)

/-- Table TW-1: a flit on its lane; `ack` is the sequence number of the last flit received in order. Flit n travels on lane
n mod 2 (R377). -/
def frameFlit (ack : Byte) (f : HeldFlit) : SentFlit :=
  let b := if f.data then f.bytes else f.bytes.take 1 ++ ack :: f.bytes.drop 1
  ⟨BitVec.ofNat 1 (f.seq.toNat % 2), if f.data then 2 else 1, b ++ crcBytes b⟩

/-- Put flits on the link. -/
def putFlits (l : List HeldFlit) (t : Twin) : Twin := { t with sent := t.sent ++ l.map (frameFlit (t.rxSeq - 1)) }

/-- Flits held for replay. -/
def heldFlits (s : State) : Nat := s.tw.held.length

/-- Give a flit its sequence number and send it; it is held until it is acknowledged. -/
def emitFlit (b : FlitBody) (s : State) : State :=
  let fs := flitsOf s.tw.txSeq b
  { s with tw := { putFlits fs s.tw with
    held := s.tw.held ++ fs, txSeq := s.tw.txSeq + BitVec.ofNat 8 (flitLen b) } }

/-- Is the link up? -/
def linkUp (s : State) : Bool := getF s Fld.TW_STATUS_LINK = 2

/-- Send a flit while the link is up; at 64 unacknowledged flits it waits. A SAVE flit waits ahead of every
LINE flit (R382). -/
def sendFlit (b : FlitBody) (s : State) : State :=
  if !linkUp s then s
  else if s.tw.waiting = [] ∧ heldFlits s + flitLen b ≤ 64 then emitFlit b s
  else match b with
    | .save _ _ => { s with tw := { s.tw with waiting := b :: s.tw.waiting } }
    | _ => { s with tw := { s.tw with waiting := s.tw.waiting ++ [b] } }

/-- Send waiting flits while there is room. -/
def pumpFlits : Nat → State → State
  | 0, s => s
  | n + 1, s =>
    match s.tw.waiting with
    | [] => s
    | b :: rest =>
      if heldFlits s + flitLen b ≤ 64 then pumpFlits n (emitFlit b { s with tw := { s.tw with waiting := rest } })
      else s

/-- SYNCED (R392), and REPL_VALID when SYNCED becomes 1 while the replica runs (R393). The twin reports SEND_CLEAN in bit 4 of
STATUS byte 3. -/
def syncUpdate (s : State) : State :=
  let clean := (getF s Fld.TW_TSTATE_STATE).testBit 12
  let synced := staleCount s.tw.recvStale = 0 && clean
  let s1 := setB Fld.TW_STATUS_SYNCED synced s
  if synced && flag s Fld.TW_STATUS_REPL_RUN then setF Fld.TW_STATUS_REPL_VALID 1 s1 else s1

/-- Mark `n` twin lines from `first` on stale, and ask for them (R392). -/
def requestLines (first n : Nat) (s : State) : State :=
  let m := (List.range n).foldl (fun a i => setStale a (first + i) true) s.tw.recvStale
  syncUpdate (staleRegs (sendFlit (.resyncReq first n) { s with tw := { s.tw with recvStale := m } }))

/-- Every twin line marked stale. -/
def allStale : SMap 64 := (List.range 248).map (fun i => (i, BitVec.allOnes 64))

/-- Ask for the whole replica. -/
def requestAll (s : State) : State :=
  syncUpdate (staleRegs (sendFlit (.resyncReq 0 15872) { s with tw := { s.tw with recvStale := allStale } }))

/-! ### Parking replica banks (R266 to R268) -/

/-- Is a bank parked? -/
def bankParked (s : State) (b : Nat) : Bool := 8 ≤ b && b ≤ 14 && bitF s Fld.LD_STATUS_PARKED (b - 8)

/-- A parked bank proves bad: FS 26, its lines stale and dirty (R267, R392). -/
def bankFail (b : Nat) (s : State) : State :=
  let n := staleCount s.tw.recvStale
  let s1 := requestLines (b * 2048 - replicaFirst) 2048 (raise 26 (2 ^ b + 0x40000) s)
  let s2 := raise 46 (0x10000 + (staleCount s1.tw.recvStale - n)) s1
  (List.range 32).foldl (fun t i =>
    setMap 1 (b * 32 + i) (BitVec.allOnes 64) (setMap 0 (b * 32 + i) (BitVec.allOnes 64) t)) s2

/-- LD_STATUS.SCANNING follows the scans that run. -/
def scanStatus (s : State) : State := setB Fld.LD_STATUS_SCANNING (!s.ld.scanning.isEmpty) s

/-- Completion code of commands that wait for every parked bank to wake (R268). -/
def tokWake : Nat := 14

/-- AUTO_RETAIN and REPL_HOST take the values that waited, once no bank is parked (R268). A bank whose tag differs counts
as woken once R267 has dealt with it (DEDUCED, log entry 66). -/
def wakeSettle (s : State) : State :=
  match s.ld.cfgNext with
  | none => s
  | some c =>
    if flag s Fld.LD_STATUS_PARKED then s
    else completeTokens tokWake "ok" (setB Fld.LD_CFG_AUTO_RETAIN c.1 (setB Fld.LD_CFG_REPL_HOST c.2
      { s with ld := { s.ld with cfgNext := none } }))

/-- Wake a parked bank: the tag is checked, and the background scan starts (R267). -/
def wakeBank (b : Nat) (s : State) : State :=
  if !bankParked s b then s
  else
    let s1 := incF Fld.LD_HOLD_PARK_WAKES (setBitF Fld.LD_STATUS_PARKED (b - 8) false (mendTag b s))
    let s2 := scanStatus { s1 with ld := { s1.ld with scanning := s1.ld.scanning ++ [b] } }
    wakeSettle (if tagAgrees s b then s2 else bankFail b s2)

/-- AUTO_RETAIN and REPL_HOST as last written. -/
def retainAsked (s : State) : Bool × Bool :=
  s.ld.cfgNext.getD (flag s Fld.LD_CFG_AUTO_RETAIN, flag s Fld.LD_CFG_REPL_HOST)

/-- AUTO_RETAIN and REPL_HOST are written (R268): a change that lets go of parked banks waits for them, the others act at
once. Until then both fields read their values in force (DEDUCED, log entry 66). -/
def retainWrite (auto host : Bool) (s : State) : State :=
  if flag s Fld.LD_STATUS_PARKED && (!auto || host) then { s with ld := { s.ld with cfgNext := some (auto, host) } }
  else setB Fld.LD_CFG_AUTO_RETAIN auto (setB Fld.LD_CFG_REPL_HOST host { s with ld := { s.ld with cfgNext := none } })

/-- A port E access to a line wakes its bank. -/
def wakeFor (l : Nat) (s : State) : State := wakeBank (lineBank l) s

/-- The background scan of a bank ends (R267). -/
def scanDone (b : Nat) (s : State) : State :=
  if !s.ld.scanning.contains b then s
  else
    let s0 := scanStatus { s with ld := { s.ld with scanning := s.ld.scanning.filter (fun x => x ≠ b) } }
    let c := scanCounts s0.ld.words (inBank b)
    let s1 := scanEvents (inBank b) s0
    let s2 := { s1 with ld := { s1.ld with words := scanCorrect (zeroDefault 72) s1.ld.words (inBank b) } }
    if c.1 = 0 ∧ c.2 ≤ getF s Fld.LD_RETAIN_CORR_MAX then s2 else bankFail b s2

/-- The banks that may park. -/
def parkBanks : List Nat := [8, 9, 10, 11, 12, 13, 14]

/-- Wake every parked bank that satisfies `p`. -/
def wakeBanks (p : Nat → Bool) (s : State) : State :=
  (parkBanks.filter (fun b => bankParked s b && p b)).foldl (fun t b => wakeBank b t) s

/-! ### The port E window (R253, Table LD-8) -/

/-- Is requester 2 refused (R253)? -/
def portERefused (s : State) (write : Bool) (l : Nat) : Bool :=
  !flag s Fld.LD_STATUS_READY ||
    (write && (slotFirst ≤ l || inReplica s l || s.ps.s1Ended))

/-- S5 and S6 of a save, as PS_STATUS.STEP codes them. -/
def inSteps56 (s : State) : Bool :=
  flag s Fld.PS_STATUS_SAVING && 6 ≤ getF s Fld.PS_STATUS_STEP && getF s Fld.PS_STATUS_STEP ≤ 7

/-- Does port E serve requester 3 alone (R251)? -/
def portEBusy (s : State) : Bool := flag s Fld.LD_STATUS_RELOADING || inSteps56 s

/-- Is requester 4 served (R251): in S5 still, until the replica lag is drained; its own rules end it there (R391, R394)? -/
def portETwin (s : State) : Bool :=
  !flag s Fld.LD_STATUS_RELOADING && !(inSteps56 s && getF s Fld.PS_STATUS_STEP = 7)

/-- The status bits [30:26] of the access just completed. -/
def windowStatus (collide ue corr refused held : Bool) (s : State) : State :=
  setF Fld.LD_ECMD_BUSY 0 (setB Fld.LD_ECMD_COLLIDE collide (setB Fld.LD_ECMD_UE ue
    (setB Fld.LD_ECMD_CORR corr (setB Fld.LD_ECMD_REFUSED refused (setB Fld.LD_ECMD_HELD held s)))))

/-- Count an access that waited on an atomic (Table LD-4). -/
def countHeld (held : Bool) (s : State) : State := if held then incF Fld.LD_HOLD_HOLDS s else s

/-- Count `n` accesses that waited on atomics. -/
def countHolds (n : Nat) (s : State) : State :=
  setF Fld.LD_HOLD_HOLDS (sat 0xFFFF (getF s Fld.LD_HOLD_HOLDS + n)) s

/-- A read of the window (R253). -/
def windowRead (held : Bool) (s : State) : State :=
  let l := getF s Fld.LD_EA_LINE
  if flag s Fld.LD_ECMD_BUSY then s
  else if portERefused s false l then windowStatus false false false true false s
  else if portEBusy s then setF Fld.LD_ECMD_BUSY 1 s
  else
    let r := readWord 1 2 l (getF s Fld.LD_EA_WORD) (wakeFor l (countHeld held s))
    windowStatus false r.1.ue r.1.corr false held
      (setReg Fld.LD_ED0_DATA_LO.addr (BitVec.ofNat 32 r.1.data.toNat)
        (setReg Fld.LD_ED1_DATA_HI.addr (BitVec.ofNat 32 (r.1.data.toNat >>> 32)) r.2))

/-- A write of one word through port E by requester 2. -/
def portEWrite (l w : Nat) (d : Dword) (s : State) : State :=
  enqueueOwn l (markDirty l (putWord l w d (wakeFor l s)))

/-- A write of the window (R253). `collide`: port H wrote the word with different data in the same CCLK. -/
def windowWrite (held collide : Bool) (s : State) : State :=
  let l := getF s Fld.LD_EA_LINE
  if flag s Fld.LD_ECMD_BUSY then s
  else if portERefused s true l then windowStatus false false false true false s
  else if portEBusy s then setF Fld.LD_ECMD_BUSY 1 s
  else
    let d := BitVec.ofNat 64 (getF s Fld.LD_ED0_DATA_LO + getF s Fld.LD_ED1_DATA_HI <<< 32)
    let s1 := countHeld held s
    let s2 := if collide then incF Fld.LD_COLL_H_WRITES (incF Fld.LD_COLL_E_WRITES s1) else s1
    windowStatus collide false false false held (portEWrite l (getF s Fld.LD_EA_WORD) d s2)

/-! ### The commands -/

/-- LEDGER_SCRUB_WRITE_BACK (R255): the oldest corrected word that waits is written back as requester 5; a
write that landed first has removed it from the queue. No dirty bit is set (R259). -/
def execLedgerScrubWriteBack (s : State) : Host.Outcome State Fault Refusal :=
  .next (match s.ld.scrub with
    | [] => s
    | k :: rest =>
      if flag s Fld.LD_STATUS_READY && !portEBusy s then
        let j := (judgeStored (ledgerStored s k) 0).1
        let s1 := { s with ld := { s.ld with scrub := rest } }
        if j.ue then s1 else setStored k (secdedEncode j.data) s1
      else s)

/-- LD_WINDOW_READ (R253). -/
def execLdWindowRead (held : Bool) (s : State) : Host.Outcome State Fault Refusal :=
  .next (if coreOn s then windowRead held s else s)

/-- LD_WINDOW_WRITE (R253). -/
def execLdWindowWrite (held collide : Bool) (s : State) : Host.Outcome State Fault Refusal :=
  .next (if coreOn s then windowWrite held collide s else s)

/-- BANK_PARK (R266): bank 8 + k is tagged and moved to retention. -/
def execBankPark (k : Fin 7) (s : State) : Host.Outcome State Fault Refusal :=
  .next (if flag s Fld.LD_STATUS_READY && (served s || inService s) && flag s Fld.LD_CFG_AUTO_RETAIN
      && s.ld.cfgNext.isNone && !flag s Fld.LD_CFG_REPL_HOST && flag s Fld.LD_STATUS_MIRROR_IN_FORCE && !s.ld.scanning.contains (8 + k.val)
    then setBitF Fld.LD_STATUS_PARKED k.val true (writeTag (8 + k.val) s) else s)

/-- BANK_WAKE (R267, R268): a port E access reaches the parked bank 8 + k, or a change of LD_CFG wakes it; `damage` is what
its content lost. -/
def execBankWake (k : Fin 7) (damage : List (Nat × BitVec 72)) (s : State) : Host.Outcome State Fault Refusal :=
  .next (if bankParked s (8 + k.val) then wakeBank (8 + k.val) (damageLedger damage s) else s)

/-- BANK_SCAN_DONE (R267): while port E serves requester 3 alone the scan waits (R251). -/
def execBankScanDone (k : Fin 7) (s : State) : Host.Outcome State Fault Refusal :=
  .next (if portEBusy s then s else scanDone (8 + k.val) s)

end Sys2Proof.Machine
end

