-- ==== Sys2Proof/Machine/OpSlots.lean ====
section
/-! DEFINITION. Op slots, atomics and the byte-lane rotate (Chapter 12): descriptors, validation, the replay
guard, the operations, the result line. -/

namespace Sys2Proof.Machine

/-! ### Descriptors (R271, R272) -/

/-- Bytes `[d, d + n)` of a burst's 64 data bytes as a little-endian number. -/
def descField (line d n : Nat) : Nat :=
  (List.range n).foldl (fun a i => a + hostByte line ((d + i) / 4) ((d + i) % 4) <<< (8 * i)) 0

def descOpcode (line : Nat) : Nat := descField line 0 2
def descWidth (line : Nat) : Nat := descField line 2 1
def descFlags (line : Nat) : Nat := descField line 3 1
def descTarget (line : Nat) : Nat := descField line 4 4
def descTag (line : Nat) : Nat := descField line 24 8

/-- An operand: only the low 8 × WIDTH bits are used. -/
def descOperand (line d : Nat) : Nat := descField line d 8 % 2 ^ (8 * descWidth line)

/-- FLAGS: ONCE, BIG and AMODE (Table LO-3). -/
def descOnce (line : Nat) : Bool := (descFlags line).testBit 3
def descBig (line : Nat) : Bool := (descFlags line).testBit 2
def descAmode (line : Nat) : Nat := descFlags line % 4

/-- The target line and byte. -/
def descLine (line : Nat) : Nat := descTarget line / 64
def descByte (line : Nat) : Nat := descTarget line % 64

/-- The opcodes of Table LO-2. -/
def opcClear : Nat := 0x4F00
def opcRead : Nat := 0x4F01
def opcAdd : Nat := 0x4F02
def opcSwap : Nat := 0x4F03
def opcCas : Nat := 0x4F04

/-- Is an opcode in Table LO-2? -/
def opcKnown (o : Nat) : Bool := 0x4F00 ≤ o && o ≤ 0x4F04

/-- Does an opcode write its field? -/
def opcWrites (o : Nat) : Bool := o = opcAdd || o = opcSwap || o = opcCas

/-- The status of the first failing check of Table LO-4; 0 when the descriptor is valid. -/
def opStatus (s : State) (line : Nat) : Nat :=
  let o := descOpcode line
  let clear := o = opcClear
  let w := descWidth line
  if flag s Fld.LD_OPCFG_CHECK_DESC && !hctPasses s line then 0x16
  else if !opcKnown o then 0x10
  else if !clear && !(w = 1 || w = 2 || w = 4 || w = 8) then 0x11
  else if 16 ≤ descFlags line || descAmode line = 3 || (descAmode line ≠ 0 && o ≠ opcAdd) then 0x12
  else if !clear && slotFirst ≤ descLine line then 0x13
  else if !clear && 64 < descByte line + w then 0x14
  else if opcWrites o && inReplica s (descLine line) then 0x15
  else 0

/-! ### The rotate network (R276) -/

/-- The field of `w` bytes at line byte `d` of the ten words, as a number. -/
def fieldValue (ws : List Dword) (d w : Nat) (big : Bool) : Nat :=
  (List.range w).foldl (fun a i => a + lineByte ws (d + i) <<< (8 * (if big then w - 1 - i else i))) 0

/-- Word `k` of the line with the field replaced by `v`. -/
def fieldWord (ws : List Dword) (d w : Nat) (big : Bool) (v k : Nat) : Dword :=
  BitVec.ofNat 64 ((List.range 8).foldl (fun a j =>
    let p := 8 * k + j
    let b := if d ≤ p ∧ p < d + w then
        let i := p - d
        (v >>> (8 * (if big then w - 1 - i else i))) % 256
      else lineByte ws p
    a + b <<< (8 * j)) 0)

/-! ### The operations (R277) -/

/-- What an operation leaves in the field (`none`: not written), NEW, the status, RFLAGS [0]. -/
structure OpResult where
  write : Option Nat
  new : Nat
  status : Nat
  rflag : Bool
  deriving DecidableEq, Repr

/-- ADD in its three modes over `w` bytes (Table LO-7). -/
def opAddResult (mode w v a : Nat) : OpResult :=
  let m := 2 ^ (8 * w)
  match mode with
  | 0 => ⟨some ((v + a) % m), (v + a) % m, 1, decide (m ≤ v + a)⟩
  | 1 => if m ≤ v + a then ⟨some (m - 1), m - 1, 1, true⟩ else ⟨some (v + a), v + a, 1, false⟩
  | _ =>
    let t := signed (8 * w) v + signed (8 * w) a
    let hi : Int := (m / 2 : Nat) - 1
    let lo : Int := -((m / 2 : Nat) : Int)
    let r := if hi < t then hi else if t < lo then lo else t
    ⟨some (unsigned (8 * w) r), unsigned (8 * w) r, 1, decide (r ≠ t)⟩

/-- Table LO-7. -/
def opResult (line v : Nat) : OpResult :=
  let o := descOpcode line
  let a := descOperand line 8
  let b := descOperand line 16
  if o = opcAdd then opAddResult (descAmode line) (descWidth line) v a
  else if o = opcSwap then ⟨some a, a, 1, false⟩
  else if o = opcCas then (if v = a then ⟨some b, b, 1, false⟩ else ⟨none, v, 2, false⟩)
  else ⟨none, v, 1, false⟩

/-! ### Check bytes (R278, R282) -/

/-- The check positions that a data change flips: each row's parity over the change (R278). -/
def checkDelta (h : HctTable) (delta : Nat) : Nat :=
  (List.range h.rows).foldl (fun a r =>
    if oddParity (delta &&& hctRow h r) then a ^^^ 1 <<< rowPosition (hctRow h r) else a) 0

/-- The result line of Table LO-8, with synthesised check bytes. -/
def resultLine (h : HctTable) (line status old new seq rflag : Nat) : List Dword :=
  let head := status + descWidth line <<< 16 + descFlags line <<< 24 + descTarget line <<< 32
  let tail := seq + descOpcode line <<< 32 + rflag <<< 48
  let data : List Dword := [BitVec.ofNat 64 head, BitVec.ofNat 64 old, BitVec.ofNat 64 new,
    BitVec.ofNat 64 (descTag line), BitVec.ofNat 64 tail, 0, 0, 0]
  let burst := wordsBurst (data ++ [0, 0])
  let c := synthChecks h burst
  data ++ [BitVec.ofNat 64 c, BitVec.ofNat 64 (c >>> 64)]

/-- Put a result line into a slot. -/
def putResult (slot : Nat) (ws : List Dword) (s : State) : State := putLine false (slotFirst + slot) ws s

/-- Count and capture a result with an error status (Table LO-9). -/
def opError (slot status : Nat) (s : State) : State :=
  let s1 := incF Fld.LD_OPCNT_ERRORS s
  if flag s1 Fld.LD_OPLOG_VALID then s1
  else setReg Fld.LD_OPLOG_VALID.addr (BitVec.ofNat 32 (2 ^ 31 + slot * 2 ^ 16 + status)) s1

/-- The syndrome of FS 2 with subcode 0x4 (R286). -/
def synOp (slot status : Nat) : Nat := 4 * 2 ^ 32 + slot * 2 ^ 16 + status

/-- A descriptor that is stored as received and not executed (R273). -/
def opNotExecuted (slot : Nat) (noHct : Bool) (s : State) : State :=
  let s1 := incF Fld.LD_OPREP_NOT_EXEC s
  if noHct then
    let s2 := if flag s1 Fld.LD_OPLOG_VALID then s1
      else setReg Fld.LD_OPLOG_VALID.addr (BitVec.ofNat 32 (2 ^ 31 + slot * 2 ^ 16 + 0x20)) s1
    raise 2 (synOp slot 0x20) s2
  else s1

/-! ### The replay guard (R285) -/

/-- Does the slot hold the result of the same descriptor? The slot's words are read through SECDED. -/
def opReplay (slot line : Nat) (s : State) : Bool × State :=
  let r := readWords 0 1 (slotFirst + slot) [0, 3, 4] s
  let w := fun i => ((r.1.getD i ⟨0, false, false⟩).data).toNat
  let st := w 0 % 2 ^ 16
  (!r.1.any (·.ue) && (st = 1 || st = 2)
    && natBits (w 0) 23 16 = descWidth line && w 0 >>> 32 = descTarget line
    && w 1 = descTag line && natBits (w 2) 47 32 = descOpcode line, r.2)

/-! ### Execution (R274 to R283) -/

/-- E3 to E7 of a valid descriptor other than CLEAR, with the table of its E1 (R282). -/
def opRun (h : HctTable) (slot line : Nat) (s : State) : State :=
  let l := descLine line
  let d := descByte line
  let w := descWidth line
  let big := descBig line
  let k0 := d / 8
  let k1 := (d + w - 1) / 8
  let idx := (if k1 = k0 then [k0] else [k0, k1]) ++ [8, 9]
  let r := readWords 0 1 l idx s
  let at' := fun i => match idx.findIdx? (· = i) with
    | some j => (r.1.getD j ⟨0, false, false⟩).data
    | none => 0
  let ws := (List.range 10).map at'
  let v := fieldValue ws d w big
  if r.1.any (·.ue) then
    putResult slot (resultLine h line 0x18 v 0 0 0) (opError slot 0x18 r.2)
  else
    let x := opResult line v
    let s1 := match x.write with
      | none => r.2
      | some n =>
        let nws := (List.range 10).map (fun k => if k < 8 then fieldWord ws d w big n k else ws.getD k 0)
        let delta := wordsBurst (List.zipWith (· ^^^ ·) ws nws)
        let c := checkDelta h delta
        let put := fun (t : State) k => if k = k0 || k = k1 then
          (if nws.getD k 0 = ws.getD k 0 then t else putWord l k (nws.getD k 0) t) else t
        let s2 := (List.range 8).foldl put r.2
        let s3 := putWord l 8 (ws.getD 8 0 ^^^ BitVec.ofNat 64 c) s2
        enqueueOwn l (markDirty l (putWord l 9 (ws.getD 9 0 ^^^ BitVec.ofNat 64 (c >>> 64)) s3))
    let seq := (getF s1 Fld.LD_OPSEQ_SEQ + 1) % 2 ^ 32
    let s4 := setF Fld.LD_OPSEQ_SEQ seq s1
    let s5 := if x.status = 2 then incF Fld.LD_OPCNT_CASFAIL s4 else s4
    putResult slot (resultLine h line x.status v x.new seq (b2n x.rflag)) s5

/-- Completion code of commands that wait for EN_IN_FORCE to fall (R287). -/
def waitOps : Nat := 9

/-- E1 and E2 of a descriptor whose last beat has arrived: the table in force is kept for it, it is validated, and a valid one
with ONCE is compared with its slot. E2 ends before the E7 of a descriptor that is still in flight to the slot, so that the
guard never sees that one's result (R281, R285; log entry 67). -/
def opReceive (slot line : Nat) (s : State) : State :=
  let st := opStatus s line
  let g := if st = 0 && descOnce line then opReplay slot line s else (false, s)
  { g.2 with ld := { g.2.ld with ops := g.2.ld.ops ++ [⟨slot, BitVec.ofNat 640 line, s.lg.table, st, g.1⟩] } }

/-- E3 to E7 of a descriptor. -/
def opExecute (o : OpDesc) (s : State) : State :=
  let line := o.line.toNat
  if o.status ≠ 0 then
    let s1 := opError o.slot o.status (putResult o.slot (resultLine o.table line o.status 0 0 0 0) s)
    if o.status = 0x16 then s1 else raise 2 (synOp o.slot o.status) s1
  else if o.replay then incF Fld.LD_OPREP_REPLAYS s
  else if descOpcode line = opcClear then clearSlot (emptyChecks o.table) o.slot s
  else opRun o.table o.slot line s

/-- The oldest descriptor executes when its opcode is `opc`, or when no row has its opcode (R274, R281). -/
def opStep (opc : Nat) (s : State) : State :=
  match s.ld.ops with
  | [] => s
  | o :: rest =>
    let c := descOpcode o.line.toNat
    if c = opc || !opcKnown c then
      let s1 := opExecute o { s with ld := { s.ld with ops := rest } }
      if rest = [] && !flag s1 Fld.LD_OPCFG_EN then completeTokens waitOps "ok" s1 else s1
    else s

/-! ### The commands -/

/-- OP_CLEAR (R279). -/
def execOpClear (s : State) : Host.Outcome State Fault Refusal := .next (opStep opcClear s)

/-- OP_READ (R277). -/
def execOpRead (s : State) : Host.Outcome State Fault Refusal := .next (opStep opcRead s)

/-- OP_ADD (R277). -/
def execOpAdd (s : State) : Host.Outcome State Fault Refusal := .next (opStep opcAdd s)

/-- OP_SWAP (R277). -/
def execOpSwap (s : State) : Host.Outcome State Fault Refusal := .next (opStep opcSwap s)

/-- OP_CAS (R277). -/
def execOpCas (s : State) : Host.Outcome State Fault Refusal := .next (opStep opcCas s)

end Sys2Proof.Machine
end

