-- ==== Sys2Proof/Machine/Keep.lean ====
section
/-! DEFINITION. The keep (Chapter 14): stored words and SECDED, records and their two copies, the persistence
record, wear, the calibration record (R199 to R201), the configuration record (R490, R520). -/

namespace Sys2Proof.Machine

/-! ### Words and regions (R305, R309) -/

/-- The stored 72 bits of a keep word. -/
def keepStored (s : State) (k : Nat) : BitVec 72 := smGet (zeroDefault 72) s.kp.words k

def setKeep (k : Nat) (v : BitVec 72) (s : State) : State :=
  { s with kp := { s.kp with words := smSet (zeroDefault 72) s.kp.words k v } }

/-- The region code of a keep byte address (Table KP-2); 9 beyond the last region. -/
def keepRegion (a : Nat) : Nat :=
  if a < 0x080000 then 0 else if a < 0x0C0000 then 1 else if a < 0x100000 then 2
  else if a < 0x140000 then 3 else if a < 0x1C0000 then 4 else if a < 0x440000 then 5
  else if a < 0x6C0000 then 6 else if a < 0x6D0000 then 7 else if a < 0x6F0000 then 8 else 9

/-- How the cells of the keep took a write, or aged: XOR into stored words in `[lo, hi)`. -/
def keepFlips (lo hi : Nat) (flips : List (Nat × BitVec 72)) (s : State) : State :=
  flips.foldl (fun t e => if lo ≤ e.1 ∧ e.1 < hi then setKeep e.1 (keepStored t e.1 ^^^ e.2) t else t) s

/-- Write whole words from a byte list, the last one filled with zeros, without their flips. -/
def putBytes : Nat → Nat → List Byte → State → State
  | 0, _, _, s => s
  | n + 1, k, bs, s =>
    putBytes n (k + 1) (bs.drop 8) (setKeep k (secdedEncode (BitVec.ofNat 64 (ofLeBytes (bs.take 8)))) s)

/-- Write bytes at a keep address that starts a word. -/
def keepWrite (a : Nat) (bs : List Byte) (flips : List (Nat × BitVec 72)) (s : State) : State :=
  let n := (bs.length + 7) / 8
  keepFlips (a / 8) (a / 8 + n) flips (putBytes n (a / 8) bs s)

/-- `n` bytes at a keep address as a read delivers them, without its events. -/
def keepPeek (s : State) (a n : Nat) : List Byte :=
  ((List.range ((n + 7) / 8)).flatMap (fun i =>
    leBytes 8 (judgeStored (keepStored s (a / 8 + i)) 0).1.data.toNat)).take n

/-! ### Events of a read (R321, R322, R422) -/

/-- The record of a region that contains a keep byte address: calibration slot, or key identity. -/
def recordIndex (a : Nat) : Nat :=
  match keepRegion a with
  | 2 => (a - 0x0C0000) / 0x10000
  | 7 => (a - 0x6C0000) / 0x2000 + 1
  | _ => 0

/-- Capture, count and raise one SECDED event of the keep. -/
def keepCapture (ue : Bool) (k : Nat) (s : State) : State :=
  let log := b2n ue * 0x40000000 + keepRegion (8 * k) * 0x1000000 + k
  let s1 := raise (if ue then 29 else 28) log (incF (if ue then Fld.KP_ECC_UNCORR else Fld.KP_ECC_CORR) s)
  if flag s1 Fld.KP_ELOG0_VALID then s1
  else
    setReg Fld.KP_ELOG1_TIME.addr (BitVec.ofNat 32 s.aon.toNat)
      (setReg Fld.KP_ELOG0_VALID.addr (BitVec.ofNat 32 (0x80000000 + log)) s1)

/-- A corrected word in a record makes the record due to be stored again; 64 of them make a refresh due. -/
def keepCorrected (k : Nat) (s : State) : State :=
  let g := keepRegion (8 * k)
  let r : Nat × Nat := (g, recordIndex (8 * k))
  let due := (g = 1 || g = 2 || g = 7) && !s.kp.rewrite.contains r
  let list := if due then s.kp.rewrite ++ [r] else s.kp.rewrite
  let s1 := { s with kp := { s.kp with corrSince := s.kp.corrSince + 1, rewrite := list } }
  if 64 ≤ s1.kp.corrSince then setF Fld.KP_STATUS_REFRESH_DUE 1 s1 else s1

/-- The whole effect of one SECDED event of the keep. -/
def keepEvent (ue : Bool) (k : Nat) (s : State) : State :=
  if ue then keepCapture true k s else keepCorrected k (keepCapture false k s)

/-- Read `n` bytes: the bytes, whether a word was uncorrectable, and the events. -/
def keepRead (a n : Nat) (s : State) : (List Byte × Bool) × State :=
  let words := (List.range ((n + 7) / 8)).map (· + a / 8)
  let arm := flag s Fld.FC_INJ_KP_ARM && !words.isEmpty
  let inj : Byte := if arm then BitVec.ofNat 8 (getF s Fld.FC_INJ_MASK) else 0
  let js := words.map (fun k => (judgeStored (keepStored s k) (if k = a / 8 then inj else 0)).1)
  let s0 := if arm then setF Fld.FC_INJ_KP_ARM 0 s else s
  let s1 := (words.zip js).foldl (fun t e =>
    if e.2.ue then keepEvent true e.1 t else if e.2.corr then keepEvent false e.1 t else t) s0
  (((js.flatMap (fun j => leBytes 8 j.data.toNat)).take n, js.any (·.ue)), s1)

/-! ### Records (R310, R311) -/

/-- The header of Table KP-3. -/
def recHeader (magic index copy len seq time gen : Nat) : List Byte :=
  leBytes 4 magic ++ leBytes 2 1 ++ leBytes 1 index ++ leBytes 1 copy ++ leBytes 4 len ++ leBytes 4 seq
    ++ leBytes 8 time ++ leBytes 4 gen ++ leBytes 4 0

/-- A record with its check word. -/
def recBytes (head payload : List Byte) : List Byte :=
  head ++ payload ++ leBytes 4 (crc32 (head ++ payload)).toNat

/-- Field of a byte list: `n` bytes from offset `o`, little-endian. -/
def fieldAt (bs : List Byte) (o n : Nat) : Nat := ofLeBytes ((bs.drop o).take n)

/-- What a read of a record copy finds. -/
inductive CopyState where
  | empty
  | invalid
  | valid
  deriving DecidableEq, Repr

/-- Judge the bytes of a copy by its check word and header fields (R311). -/
def judgeCopy (magic index copy len : Nat) (bs : List Byte) : CopyState :=
  if (bs.take 32).all (· = 0) then .empty
  else if fieldAt bs (bs.length - 4) 4 = (crc32 (bs.take (bs.length - 4))).toNat
    && fieldAt bs 0 4 = magic && fieldAt bs 4 2 = 1 && fieldAt bs 6 1 = index && fieldAt bs 7 1 = copy
    && fieldAt bs 8 4 = len then .valid
  else .invalid

/-- The syndrome of FS 30 (Table KP-8). -/
def synFs30 (region index copy : Nat) (write : Bool) : Nat :=
  region * 2 ^ 32 + index * 2 ^ 24 + copy * 2 ^ 16 + b2n write * 2 ^ 8

/-- Raise FS 30 and count it. -/
def crcFail (region index copy : Nat) (write : Bool) (s : State) : State :=
  let s1 := if write then { s with kp := { s.kp with bad := true } } else s
  raise 30 (synFs30 region index copy write) (incF Fld.KP_CRCFAIL_COUNT s1)

/-- Read a record copy at an address: its judgement, its bytes, the events (R311). -/
def readCopy (a magic index copy len : Nat) (s : State) : (CopyState × List Byte) × State :=
  let r := keepRead a (36 + len) s
  let j := judgeCopy magic index copy len r.1.1
  let j := if r.1.2 && j = .valid then .invalid else j
  ((j, r.1.1), if j = .invalid then crcFail (keepRegion a) index copy false r.2 else r.2)

/-- Judge a copy without events, as a write's own bookkeeping does. -/
def peekCopy (s : State) (a magic index copy len : Nat) : CopyState × List Byte :=
  let bs := keepPeek s a (36 + len)
  (judgeCopy magic index copy len bs, bs)

/-- Serial comparison: is `a` newer than `b` (R565)? -/
def newer (a b : Nat) : Bool :=
  let d := unsigned 32 ((a : Int) - (b : Int))
  1 ≤ d && d ≤ 2 ^ 31 - 1

/-! ### Wear (R323) -/

/-- Set a region's wear counter; FS 31 once when it reaches the limit. -/
def setWear (region n : Nat) (s : State) : State :=
  let f := Fld.KP_WEAR_COUNT.bank region
  let old := getF s f
  let s1 := setF f (sat (2 ^ 32 - 1) n) s
  let lim := getF s1 Fld.KP_WCFG_LIMIT
  if old < lim ∧ lim ≤ n then raise 31 (region * 2 ^ 32 + n) s1 else s1

/-- One store of a single-slot region. -/
def wearOne (region : Nat) (s : State) : State := setWear region (getF s (Fld.KP_WEAR_COUNT.bank region) + 1) s

/-- One write into a ring of `n` positions: total writes over positions, rounded up. -/
def wearRing (region n : Nat) (s : State) : State :=
  let t := (smGet (zeroDefault 32) s.kp.ringWrites region).toNat + 1
  setWear region ((t + n - 1) / n)
    { s with kp := { s.kp with ringWrites := smSet (zeroDefault 32) s.kp.ringWrites region (BitVec.ofNat 32 t) } }

/-- One store of a calibration record slot. -/
def wearCal (slot : Nat) (s : State) : State :=
  let t := (smGet (zeroDefault 32) s.kp.calWear slot).toNat + 1
  setWear 2 (max (getF s (Fld.KP_WEAR_COUNT.bank 2)) t)
    { s with kp := { s.kp with calWear := smSet (zeroDefault 32) s.kp.calWear slot (BitVec.ofNat 32 t) } }

/-! ### Two-copy stores (R311, R312) -/

/-- Write copy `c` of a record at an address and verify it (R312). -/
def storeOne (a c : Nat) (bs : List Byte) (ok : List Byte → Bool) (index : Nat) (flips : List (Nat × BitVec 72)) (s : State) :
    Bool × State :=
  let r := keepRead a bs.length (keepWrite a bs flips s)
  if !r.1.2 && ok r.1.1 then (true, r.2) else (false, crcFail (keepRegion a) index c true r.2)

/-- Write copies 0 and 1 of a record, verifying each: copy 1 only after copy 0 (R312). The answer says whether the store
succeeded. -/
def storeTwo (a0 a1 : Nat) (copy : Nat → List Byte) (ok : Nat → List Byte → Bool) (index : Nat)
    (flips : List (Nat × BitVec 72)) (s : State) : Bool × State :=
  let r0 := storeOne a0 0 (copy 0) (ok 0) index flips s
  if r0.1 then storeOne a1 1 (copy 1) (ok 1) index flips r0.2 else r0

/-! ### The persistence record (R313, R566) -/

def magicPersist : Nat := 0x50535452

/-- The address of a position of a ring. -/
def persistAt (ring pos : Nat) : Nat := 0x6D0000 + ring * 0x10000 + pos * 256

/-- The payload of Table KP-4. -/
def persistPayload (s : State) (type kind slot sealSlot sealNo cause : Nat) : List Byte :=
  leBytes 1 type ++ leBytes 1 kind ++ leBytes 1 slot ++ leBytes 1 sealSlot ++ leBytes 4 sealNo
    ++ leBytes 4 cause ++ (List.range 9).flatMap (fun r => leBytes 4 (getF s (Fld.KP_WEAR_COUNT.bank r)))
    ++ leBytes 4 (s.kp.retain / 10000000) ++ List.replicate 168 0

/-- An entry as the device uses it. -/
structure Entry where
  seq : Nat
  type : Nat
  kind : Nat
  slot : Nat
  sealSlot : Nat
  sealNo : Nat
  cause : Nat
  wear : List Nat
  retain : Nat
  deriving DecidableEq, Repr

def entryTypeBegin : Nat := 1
def entryTypeSealed : Nat := 2
def entryTypeConsumed : Nat := 3

/-- Read an entry out of the bytes of a valid copy. -/
def entryOfBytes (bs : List Byte) : Entry :=
  ⟨fieldAt bs 0x0C 4, fieldAt bs 0x20 1, fieldAt bs 0x21 1, fieldAt bs 0x22 1, fieldAt bs 0x23 1,
   fieldAt bs 0x24 4, fieldAt bs 0x28 4, (List.range 9).map (fun r => fieldAt bs (0x2C + 4 * r) 4),
   fieldAt bs 0x50 4⟩

/-- One attempt to write an entry: whether it is usable, and whether ring 1 took it. -/
def entryAttempt (type kind slot sealSlot sealNo cause : Nat) (flips : List (Nat × BitVec 72)) (s : State) :
    Bool × State :=
  let s0 := wearRing 8 256 s
  let seq := (s.kp.pseq.toNat + 1) % 2 ^ 32
  let pos := seq % 256
  let bytes := fun copy => recBytes (recHeader magicPersist pos copy 220 seq s.aon.toNat s.kp.gen.toNat)
    (persistPayload s0 type kind slot sealSlot sealNo cause)
  let good := fun (t : State) ring =>
    let r := keepRead (persistAt ring pos) 256 t
    if !r.1.2 && judgeCopy magicPersist pos ring 220 r.1.1 = .valid then (true, r.2)
    else (false, crcFail 8 pos ring true r.2)
  let s1 := { s0 with kp := { s0.kp with pseq := BitVec.ofNat 32 seq } }
  let r0 := good (keepWrite (persistAt 0 pos) (bytes 0) flips s1) 0
  if r0.1 then (true, setF Fld.KP_PSEQ_SEQ seq (good (keepWrite (persistAt 1 pos) (bytes 1) flips r0.2) 1).2) else r0

/-- Write an entry, with at most two further attempts (R566). KP_PSEQ and SEAL_SLOT report the newest usable
one. -/
def writeEntry (type kind slot sealSlot sealNo cause : Nat) (flips : List (Nat × BitVec 72)) (s : State) :
    Bool × State :=
  let go := entryAttempt type kind slot sealSlot sealNo cause flips
  let r1 := go s
  let r2 := if r1.1 then r1 else go r1.2
  let r3 := if r2.1 then r2 else go r2.2
  (r3.1, if r3.1 then
      setF Fld.KP_STATUS_PERSIST_OK 1 (setF Fld.KP_STATUS_SEAL_SLOT (if sealSlot = 0xFF then 3 else sealSlot) r3.2)
    else r3.2)

/-- The ring positions at which something is stored. -/
def persistPositions (s : State) : List Nat :=
  let ks := s.kp.words.filterMap (fun e =>
    if keepRegion (8 * e.1) = 8 then some ((8 * e.1 - 0x6D0000) % 0x10000 / 256) else none)
  (List.range 256).filter (fun p => ks.contains p)

/-- The newest of two entries; ring 0 comes first and wins a tie (R565). -/
def newestEntry (a : Option Entry) (b : Entry) : Option Entry :=
  match a with
  | none => some b
  | some e => if newer b.seq e.seq then some b else some e

/-- Read both rings: the newest usable entry, whether any position holds an entry, the events (R313, R314). -/
def readPersist (s : State) : (Option Entry × Bool) × State :=
  (persistPositions s).foldl (fun acc p =>
    let one := fun (a : (Option Entry × Bool) × State) ring =>
      let r := readCopy (persistAt ring p) magicPersist p ring 220 a.2
      (match r.1.1 with
        | .empty => a.1
        | .invalid => (a.1.1, true)
        | .valid => (newestEntry a.1.1 (entryOfBytes r.1.2), true), r.2)
    one (one acc 0) 1) ((none, false), s)

/-- Take wear, retention and numbers from an entry (Table RX-8). -/
def loadEntry (e : Entry) (s : State) : State :=
  let s1 := (List.range 9).foldl (fun t r => setF (Fld.KP_WEAR_COUNT.bank r) (e.wear.getD r 0) t) s
  let cal := e.wear.getD 2 0
  let s2 := { s1 with kp := { s1.kp with
    retain := e.retain * 10000000, pseq := BitVec.ofNat 32 e.seq,
    calWear := (List.range 8).foldl (fun m k => smSet (zeroDefault 32) m k (BitVec.ofNat 32 cal)) [],
    ringWrites := [(3, 4096), (4, 32), (8, 256)].foldl (fun m p =>
      smSet (zeroDefault 32) m p.1 (BitVec.ofNat 32 (e.wear.getD p.1 0 * p.2))) [] } }
  setF Fld.KP_STATUS_PERSIST_OK 1 (setF Fld.KP_STATUS_SEAL_SLOT (if e.sealSlot = 0xFF then 3 else e.sealSlot)
    (setF Fld.KP_RETAIN_USED (sat 0xFFFF (e.retain / 100)) (setF Fld.KP_PSEQ_SEQ e.seq s2)))

/-! ### Calibration records (R199 to R201) -/

def magicCal : Nat := 0x43425243

/-- The address of a record copy: rate set `n`, copy `c`. -/
def calAt (n c : Nat) : Nat := 0x0C0000 + (n * 2 + c) * 0x8000

/-- A quality entry's width, height and grade. -/
def qW (q : Nat) : Nat := natBits q 7 0
def qH (q : Nat) : Nat := natBits q 15 8
def qG (q : Nat) : Nat := natBits q 17 16

/-- Grades of eight bits, two bits each, bit 0 lowest. -/
def gradeBits (s : State) (key : Nat → Nat) : Nat :=
  bits8.foldl (fun a i => a + qG (quality s (key i)) <<< (2 * i)) 0

/-- The host lane block of Table CB-8. -/
def calHostBlock (s : State) (n : Nat) : List Byte :=
  bits8.flatMap (fun i =>
    let q := quality s (qHost n i)
    leBytes 1 (getF s (hostDeskew n i)) ++ leBytes 1 (unsigned 8 (getS s (hostOffset n i)))
      ++ leBytes 1 (qW q) ++ leBytes 1 (qH q))
  ++ leBytes 1 (getF s (hostVref n)) ++ leBytes 1 (getF s (Fld.HL_DRV_RTT_WR.lane n))
  ++ leBytes 1 (getF s (Fld.HL_DRV_RTT_PARK.lane n)) ++ leBytes 1 (unsigned 8 (getS s (Fld.HL_DRV_DCC.lane n)))
  ++ leBytes 1 (getF s (Fld.HL_DRV_DRV_PU.lane n)) ++ leBytes 1 (getF s (Fld.HL_DRV_DRV_PD.lane n))
  ++ leBytes 2 0 ++ leBytes 2 (getF s (hostRxDqs n)) ++ leBytes 2 (getF s (Fld.HL_DQS_TX_DQS.lane n))
  ++ leBytes 2 (gradeBits s (qHost n)) ++ List.replicate 18 0

/-- The DRAM lane-rank block of Table CB-8; zero for a rank that is not populated. -/
def calDramBlock (s : State) (d r : Nat) : List Byte :=
  if populated s r then
    bits8.flatMap (fun i =>
      leBytes 1 (getF s (dramRxDeskew r d i)) ++ leBytes 1 (getF s (dramTxDeskew r d i))
        ++ leBytes 1 (unsigned 8 (getS s (dramOffset r d i))) ++ leBytes 1 (qW (quality s (qDram r d i))))
    ++ bits8.flatMap (fun i => leBytes 1 (qH (quality s (qDram r d i))))
    ++ leBytes 2 (getF s (dramRxDqs r d)) ++ leBytes 2 (getF s (dramTxDqs r d))
    ++ leBytes 2 (gradeBits s (qDram r d)) ++ leBytes 1 (getF s (dramVref r d)) ++ List.replicate 17 0
  else List.replicate 64 0

/-- The payload of Table CB-7. -/
def calPayload (s : State) : List Byte :=
  (List.range 5).flatMap (calHostBlock s)
  ++ (List.range 6).flatMap (fun d => rankList.flatMap (fun r => calDramBlock s d r))
  ++ (List.range 6).flatMap (fun d => leBytes 1 (getF s (Fld.DL_DRV_DRV_PU.lane d))
      ++ leBytes 1 (getF s (Fld.DL_DRV_DRV_PD.lane d)) ++ leBytes 1 (unsigned 8 (getS s (Fld.DL_DRV_DCC.lane d)))
      ++ leBytes 1 (getF s (Fld.DL_DRV_RTT_RD.lane d)) ++ leBytes 4 0)
  ++ (List.range 34).flatMap (fun k => leBytes 1 (getF s (caTrim Fld.CA_TRIM_DELAY k))
      ++ leBytes 1 (getF s (caTrim Fld.CA_TRIM_DRV_PD k)) ++ leBytes 1 (getF s (caTrim Fld.CA_TRIM_DRV_PU k)) ++ leBytes 1 0)

/-- The rate set in force. -/
def rateSet (s : State) : Nat := getF s Fld.CK_STATUS_RS_ACTIVE

/-- A whole calibration record (Table CB-6). -/
def calRecord (s : State) (rs copy seq : Nat) (full : Bool) : List Byte :=
  let flags := getF s (Fld.CK_RS_CMD_2N.at rs) + rankEn s * 16 + b2n full * 256
  recBytes (leBytes 4 magicCal ++ leBytes 2 1 ++ leBytes 1 rs ++ leBytes 1 copy
    ++ leBytes 2 (getF s (Fld.CK_RS_RATE.at rs)) ++ leBytes 2 flags ++ leBytes 4 seq ++ leBytes 8 s.aon.toNat
    ++ leBytes 2 (getF s Fld.SN_MAX_CODE) ++ leBytes 2 2040 ++ leBytes 4 0) (calPayload s)

/-- Judge the 2,076 bytes of a calibration record copy (R200, R311). -/
def judgeCal (rs copy : Nat) (bs : List Byte) : CopyState :=
  if (bs.take 32).all (· = 0) then .empty
  else if fieldAt bs 2072 4 = (crc32 (bs.take 2072)).toNat && fieldAt bs 0 4 = magicCal && fieldAt bs 4 2 = 1
    && fieldAt bs 6 1 = rs && fieldAt bs 7 1 = copy && fieldAt bs 0x1A 2 = 2040 then .valid
  else .invalid

/-- Read a calibration record copy with its events. -/
def readCal (rs copy : Nat) (s : State) : (CopyState × List Byte) × State :=
  let r := keepRead (calAt rs copy) 2076 s
  let j := judgeCal rs copy r.1.1
  let j := if r.1.2 && j = .valid then .invalid else j
  ((j, r.1.1), if j = .invalid then crcFail 2 (rs * 2 + copy) copy false r.2 else r.2)

/-- Every home whose trims a calibration record holds. -/
def trimHomes : List Nat :=
  (List.range 5).flatMap (fun n => [(hostVref n).addr, (hostRxDqs n).addr, (Fld.HL_DRV_DCC.lane n).addr]
    ++ bits8.map (fun i => (hostDeskew n i).addr))
  ++ (List.range 6).flatMap (fun d => (Fld.DL_DRV_DCC.lane d).addr :: rankList.flatMap (fun r =>
    [(dramVref r d).addr, (dramRxDqs r d).addr] ++ bits8.map (fun i => (dramRxDeskew r d i).addr)))
  ++ (List.range 34).map (fun k => (caTrim Fld.CA_TRIM_DELAY k).addr)

/-- Remember the trims in force as the stored record holds them. -/
def rememberStored (s : State) : State :=
  let m := trimHomes.foldl (fun m a => smSet regDefault m a (reg s a)) []
  { s with cb := { s.cb with stored := m } }

/-- A field of the stored record. -/
def storedF (s : State) (f : Field) : Nat := natBits (smGet regDefault s.cb.stored f.addr).toNat f.hi f.lo

/-- Has a field moved by at least `n` codes from the stored record (R201)? -/
def movedBy (s : State) (n : Nat) (f : Field) : Bool := n ≤ ((getF s f : Int) - (storedF s f : Int)).natAbs

/-- The movement condition of R201: STORE_DUE. -/
def storeDue (s : State) : Bool :=
  let taps := getF s Fld.CB_STORE_MOVE_TAPS
  let vref := getF s Fld.CB_STORE_MOVE_VREF
  let timing : List Field := (List.range 5).flatMap (fun n => hostRxDqs n :: Fld.HL_DQS_TX_DQS.lane n :: bits8.map (hostDeskew n))
    ++ (popRanks s).flatMap (fun r => (List.range 6).flatMap (fun d =>
      dramRxDqs r d :: dramTxDqs r d :: bits8.flatMap (fun i => [dramRxDeskew r d i, dramTxDeskew r d i])))
    ++ (List.range 34).map (caTrim Fld.CA_TRIM_DELAY)
  let vrefs : List Field := (List.range 5).map hostVref ++ (popRanks s).flatMap (fun r => (List.range 6).map (dramVref r))
  let codes : List Field := (List.range 5).flatMap (fun n => [Fld.HL_DRV_DRV_PU.lane n, Fld.HL_DRV_DRV_PD.lane n,
      Fld.HL_DRV_DCC.lane n, Fld.HL_DRV_RTT_WR.lane n, Fld.HL_DRV_RTT_PARK.lane n])
    ++ (List.range 6).flatMap (fun d => [Fld.DL_DRV_DRV_PU.lane d, Fld.DL_DRV_DRV_PD.lane d,
      Fld.DL_DRV_DCC.lane d, Fld.DL_DRV_RTT_RD.lane d])
    ++ (List.range 34).flatMap (fun k => [caTrim Fld.CA_TRIM_DRV_PU k, caTrim Fld.CA_TRIM_DRV_PD k])
  timing.any (movedBy s taps) || vrefs.any (movedBy s vref) || codes.any (movedBy s 1)

/-- Write one copy of the calibration record in force with a SEQ. -/
def calStoreCopy (c seq : Nat) (full : Bool) (flips : List (Nat × BitVec 72)) (s : State) : Bool × State :=
  let rs := rateSet s
  storeOne (calAt rs c) c (calRecord s rs c seq full) (fun bs => judgeCal rs c bs = .valid) (rs * 2) flips (wearCal (rs * 2 + c) s)

/-- The SEQ of the next store: one above the higher valid SEQ found at the last load or store. -/
def calSeq (s : State) : Nat := (s.cb.seq.toNat + 1) % 2 ^ 32

/-- Store both copies for the rate set in force; a failure sets LAST_STORE_FAIL and is tried once more. A copy that is valid
makes its SEQ the higher one found. -/
def calStoreRun (full again : Bool) (flips : List (Nat × BitVec 72)) (s : State) : State :=
  let rs := rateSet s
  let seq := calSeq s
  let r0 := calStoreCopy 0 seq full flips s
  let r := if r0.1 then calStoreCopy 1 seq full flips r0.2 else r0
  let s1 := { r.2 with cb := { r.2.cb with
    seq := if r0.1 then BitVec.ofNat 32 seq else s.cb.seq, lastStore := s.aon, storing := false } }
  let s2 := setF Fld.CB_STATUS_STORING 0 s1
  if r.1 then
    rememberStored (setF (Fld.CK_RS_CAL_VALID.at rs) 1 (setF Fld.CB_SEQ_SEQ seq (setF Fld.CB_STATUS_LAST_STORE_FAIL 0 s2)))
  else
    let s3 := setF Fld.CB_STATUS_LAST_STORE_FAIL 1 s2
    if again then { s3 with kp := { s3.kp with retry := s3.kp.retry ++ [.cal full] } } else s3

/-- A signed byte of a record as a code of `w` bits. -/
def recSigned (w : Nat) (b : Nat) : Nat := unsigned w (signed 8 b)

/-- Bring the trims of a record into force (R151, R361): payload offsets of Tables CB-7 and CB-8. -/
def calApply (bs : List Byte) (s : State) : State :=
  let ranks := natBits (fieldAt bs 0x0A 2) 7 4
  let host := fun (t : State) n =>
    let o := 0x020 + n * 64
    let b := fun k => fieldAt bs (o + k) 1
    let t1 := bits8.foldl (fun u i => setF (hostDeskew n i) (b (4 * i)) (setF (hostOffset n i) (recSigned 6 (b (4 * i + 1))) u)) t
    let t2 := setF (hostVref n) (b 0x20) (setF (Fld.HL_DRV_RTT_WR.lane n) (b 0x21) (setF (Fld.HL_DRV_RTT_PARK.lane n) (b 0x22)
      (setF (Fld.HL_DRV_DCC.lane n) (recSigned 6 (b 0x23)) (setF (Fld.HL_DRV_DRV_PU.lane n) (b 0x24)
        (setF (Fld.HL_DRV_DRV_PD.lane n) (b 0x25) t1)))))
    let t3 := setF (hostRxDqs n) (fieldAt bs (o + 0x28) 2) (setF (Fld.HL_DQS_TX_DQS.lane n) (fieldAt bs (o + 0x2A) 2) t2)
    let q := bits8.foldl (fun m i => smSet (zeroDefault 19) m (qHost n i)
      (BitVec.ofNat 19 (2 ^ 18 + natBits (fieldAt bs (o + 0x2C) 2) (2 * i + 1) (2 * i) * 2 ^ 16
        + b (4 * i + 3) * 2 ^ 8 + b (4 * i + 2)))) t3.cb.quality
    setKnown (scopeHost n) true { t3 with cb := { t3.cb with quality := q } }
  let dram := fun (t : State) (p : Nat × Nat) =>
    let d := p.1
    let r := p.2
    if !ranks.testBit r then t else
    let o := 0x160 + (d * 4 + r) * 64
    let b := fun k => fieldAt bs (o + k) 1
    let t1 := bits8.foldl (fun u i => setF (dramRxDeskew r d i) (b (4 * i)) (setF (dramTxDeskew r d i) (b (4 * i + 1))
      (setF (dramOffset r d i) (recSigned 6 (b (4 * i + 2))) u))) t
    let t2 := setF (dramRxDqs r d) (fieldAt bs (o + 0x28) 2) (setF (dramTxDqs r d) (fieldAt bs (o + 0x2A) 2)
      (setF (dramVref r d) (b 0x2E) t1))
    let q := bits8.foldl (fun m i => smSet (zeroDefault 19) m (qDram r d i)
      (BitVec.ofNat 19 (2 ^ 18 + natBits (fieldAt bs (o + 0x2C) 2) (2 * i + 1) (2 * i) * 2 ^ 16
        + b (0x20 + i) * 2 ^ 8 + b (4 * i + 3)))) t2.cb.quality
    setKnown (scopeRead r d) true (setKnown (scopeWrite r d) true { t2 with cb := { t2.cb with quality := q } })
  let lane := fun (t : State) d =>
    let o := 0x760 + d * 8
    let b := fun k => fieldAt bs (o + k) 1
    setF (Fld.DL_DRV_DRV_PU.lane d) (b 0) (setF (Fld.DL_DRV_DRV_PD.lane d) (b 1)
      (setF (Fld.DL_DRV_DCC.lane d) (recSigned 6 (b 2)) (setF (Fld.DL_DRV_RTT_RD.lane d) (b 3) t)))
  let ca := fun (t : State) k =>
    let o := 0x790 + k * 4
    setF (caTrim Fld.CA_TRIM_DELAY k) (fieldAt bs o 1) (setF (caTrim Fld.CA_TRIM_DRV_PD k) (fieldAt bs (o + 1) 1)
      (setF (caTrim Fld.CA_TRIM_DRV_PU k) (fieldAt bs (o + 2) 1) t))
  let pairs := (List.range 6).flatMap (fun d => rankList.map (fun r => (d, r)))
  (List.range 34).foldl ca ((List.range 6).foldl lane (pairs.foldl dram ((List.range 5).foldl host s)))

/-- Put every trim at its mid code (Table DP-5, R151): the reset values of their registers. -/
def midCodes (s : State) : State :=
  let p := fun a => (isHostTrim a && a % 0x100 ≠ 0 && a % 0x100 ≠ 0x10 && a % 0x100 ≠ 0x18)
    || (isDramHome a && 8 ≤ a % 0x100)
  { s with regs := smDrop s.regs p, cb := { s.cb with known := [] } }

/-- Load the calibration record of a rate set, or the mid codes (R200, R151); CB_CAV is 0x80 (R214). The time in the record is
that of the last store (R201; DEDUCED, log entry 41). -/
def calLoad (rs : Nat) (s : State) : State :=
  let r0 := readCal rs 0 s
  let r1 := readCal rs 1 r0.2
  let seq := fun (bs : List Byte) => fieldAt bs 0x0C 4
  let pick : Option (Nat × List Byte) :=
    if r0.1.1 = .valid && r1.1.1 = .valid then
      (if newer (seq r1.1.2) (seq r0.1.2) then some (1, r1.1.2) else some (0, r0.1.2))
    else if r0.1.1 = .valid then some (0, r0.1.2)
    else if r1.1.1 = .valid then some (1, r1.1.2)
    else none
  let s1 := setF Fld.CB_CAV_VREF 0x80 (midCodes r1.2)
  match pick with
  | none => setF (Fld.CK_RS_CAL_VALID.at rs) 0 (setF Fld.CB_STATUS_FROM_RECORD 0 s1)
  | some (c, bs) =>
    let s2 := calApply bs s1
    let s3 := { s2 with cb := { s2.cb with seq := BitVec.ofNat 32 (seq bs), lastStore := BitVec.ofNat 48 (fieldAt bs 0x10 6) } }
    rememberStored (setF (Fld.CK_RS_CAL_VALID.at rs) 1 (setF Fld.CB_STATUS_FROM_RECORD 1
      (setF Fld.CB_STATUS_COPY c (setF Fld.CB_SEQ_SEQ (seq bs) s3))))

/-! ### The configuration record (R490, R520, Table RX-8) -/

def magicCfg : Nat := 0x43464731

/-- The staged fields of Table RX-9 but for the trims, with their bits. -/
def cfgStaged : List (Nat × Nat) :=
  [(0x0610, 0x3FFFF), (0x0614, 0x3FFFF), (0x0618, 0x3FFFF), (0x061C, 0x3FFFF), (0x0800, 0xCF0),
   (0x0820, 0xFFFFFFFF), (0x0828, 0xFFFFFFFF), (0x2004, 0xFFFFFFFF), (0x2800, 1)]

/-- The trims among the staged fields of Table RX-9. -/
def cfgTrims : List (Nat × Nat) := (trimHomes ++ [Fld.CB_CAV_VREF.addr]).map (fun a => (a, 0xFFFFFFFF))

/-- The policies of Table CC-4, GN_CFG, FC_CFG, FC_HIST, SN_THR, and the registers that Table RX-8 loads from
the configuration record. -/
def cfgPolicies : List (Nat × Nat) :=
  [(0x060C, 7), (0x0408, 0xFFFF), (0x2000, 0xF), (0x2020, 0xFFFFFFFF), (0x2800, 0xE), (0x2840, 3), (0x240C, 0xFFFF),
   (0x4000, 0x1FFFF), (0x4004, 0xFFFF), (0x4400, 0xFFFF), (0x4C00, 3), (0x3004, 4), (0x3010, 0xFFFFF),
   (0x3014, 0xFFFF0000), (0x3400, 1), (0x3404, 0x1FFF), (0x3408, 0x7F), (0x3440, 0xFF01), (0x3800, 0xFFFFFF03),
   (0x2C08, 7), (0x3C00, 0xFFFFF), (0x3C68, 0xFFFF), (0x441C, 0xFFFFFF)]

/-- FC_SRC and FC_WIN of every source. -/
def cfgSources : List (Nat × Nat) :=
  (List.range 64).flatMap (fun n => [((Fld.FC_SRC_CLASS.bank n).addr, 0xFFFFFFFF), ((Fld.FC_WIN_MS.bank n).addr, 0xFFFFFFFF)])

/-- All homes in record order. The spec gives no byte layout of this payload: the order is the model's. -/
def cfgHomes : List (Nat × Nat) := cfgStaged ++ cfgTrims ++ cfgPolicies ++ cfgSources

/-- The bytes of the register part, and of the whole payload. -/
def cfgRegBytes : Nat := 4 * cfgHomes.length
def cfgLength : Nat := cfgRegBytes + 4 + 2564 * 4

/-- GN_CFG is stored as in force from DEPLOYED onward (R448); it has no staged copy in any case. -/
def cfgPayload (s : State) : List Byte :=
  let rows := s.lg.table.rows
  cfgHomes.flatMap (fun e => leBytes 4 ((committedReg s e.1).toNat &&& e.2))
    ++ leBytes 4 rows ++ (List.range 2564).flatMap (fun i => leBytes 4 (hctWord s.lg.table i))

/-- The address of a copy: A at 0x08_0000, B at 0x0A_0000. -/
def cfgAt (copy : Nat) : Nat := 0x080000 + copy * 0x20000

/-- Read the copy in use: A, else B (R88). The answer is the copy, the payload and GEN. -/
def readCfg (s : State) : Option (Nat × List Byte × Nat) × State :=
  let ra := readCopy (cfgAt 0) magicCfg 0 0 cfgLength s
  let body := fun (bs : List Byte) => (bs.drop 32).take cfgLength
  if ra.1.1 = .valid then (some (0, body ra.1.2, fieldAt ra.1.2 0x18 4), ra.2)
  else
    let rb := readCopy (cfgAt 1) magicCfg 0 1 cfgLength ra.2
    if rb.1.1 = .valid then (some (1, body rb.1.2, fieldAt rb.1.2 0x18 4), rb.2) else (none, rb.2)

/-- The homes with the values of a payload, in order. -/
def cfgValues (payload : List Byte) : List (Nat × Nat × Nat) :=
  (cfgHomes.zip (List.range cfgHomes.length)).map (fun e => (e.1.1, e.1.2, fieldAt payload (4 * e.2) 4))

/-- Bring the record's values at the homes of `p` into force; no record leaves the factory values. -/
def cfgLoad (p : Nat → Bool) (s : State) : State :=
  if s.kp.cfg = [] then s
  else (cfgValues s.kp.cfg).foldl (fun t e =>
    if p e.1 then setReg e.1 (overlay (reg t e.1) (BitVec.ofNat 32 e.2.1) (BitVec.ofNat 32 e.2.2)) t else t) s

/-- Does the record in use hold an HCT, and of how many rows? -/
def cfgHctRows (s : State) : Nat := fieldAt s.kp.cfg cfgRegBytes 4

/-- Put the record's HCT into the window and load it through verification (R179, R361), at once. -/
def cfgLoadHct (s : State) : State :=
  let rows := cfgHctRows s
  if rows = 0 || !hctUsable s then s
  else
    let words := (List.range 2564).foldl (fun m i =>
      smSet (zeroDefault 32) m i (BitVec.ofNat 32 (fieldAt s.kp.cfg (cfgRegBytes + 4 + 4 * i) 4))) []
    hctLoadNow (hctVerify (hctStart rows { s with lg := { s.lg with hct := words } }))

/-- The next SEQ of the configuration record: one above the newest valid copy's. -/
def cfgSeq (s : State) : Nat :=
  let c := fun k => peekCopy s (cfgAt k) magicCfg 0 k cfgLength
  let q := fun k => fieldAt (c k).2 0x0C 4
  match (c 0).1, (c 1).1 with
  | .valid, .valid => (if newer (q 1) (q 0) then q 1 else q 0) + 1
  | .valid, _ => q 0 + 1
  | _, .valid => q 1 + 1
  | _, _ => 1

/-- Store both copies with a generation. On success the generation is in force (R387, R490). -/
def cfgStoreRun (gen : Nat) (again : Bool) (flips : List (Nat × BitVec 72)) (s : State) : Bool × State :=
  let payload := cfgPayload s
  let seq := cfgSeq s % 2 ^ 32
  let r := storeTwo (cfgAt 0) (cfgAt 1)
    (fun c => recBytes (recHeader magicCfg 0 c cfgLength seq s.aon.toNat gen) payload)
    (fun c bs => judgeCopy magicCfg 0 c cfgLength bs = .valid) 0 flips (wearOne 1 s)
  if r.1 then
    (true, { r.2 with kp := { r.2.kp with gen := BitVec.ofNat 32 gen, cfg := payload } })
  else (false, if again then { r.2 with kp := { r.2.kp with retry := r.2.kp.retry ++ [.config gen] } } else r.2)

/-! ### Retention (R324) -/

/-- The largest `n ≤ 2^bits` with `p n`, for a downward closed `p`, by halving. -/
def bisect (p : Nat → Bool) : Nat → Nat → Nat
  | 0, n => n
  | b + 1, n => bisect p b (if p (n + 2 ^ b) then n + 2 ^ b else n)

/-- One minute's share of the retention at a temperature code (0.25 °C), in units of 10^-12: the largest `n`
with n ≤ 10^12 / (60 · 87,600) · 10^((code − 420) / 80). -/
def retainMinute (code : Int) : Nat :=
  let e := code - 420
  bisect (fun n => decide ((n * 5256000) ^ 80 * 10 ^ (-e).toNat ≤ 10 ^ (960 + e.toNat))) 26 0

/-- The grade's maximum junction temperature as a code: 105 °C or 125 °C. -/
def gradeMaxCode (s : State) : Int := if s.fuses.tempX then 500 else 420

/-- Units of `Keep.retain` in one unit of Table KP-4, and in one per mille. -/
def retainUnit : Nat := 10000000
def retainMille : Nat := 1000000000

/-- Add to the retention used; at the limit a refresh is due. -/
def addRetain (n : Nat) (s : State) : State :=
  let r := s.kp.retain + n
  let s1 := setF Fld.KP_RETAIN_USED (sat 0xFFFF (r / retainMille)) { s with kp := { s.kp with retain := r } }
  if getF s1 Fld.KP_RETAIN_LIMIT * retainMille ≤ r then setF Fld.KP_STATUS_REFRESH_DUE 1 s1 else s1

/-- The hottest die sensor's code (R505); the grade's maximum while it is saturated or no conversion has been made. -/
def hottest (s : State) : Int :=
  if flag s Fld.SN_MAX_SAT || !flag s (Fld.SN_TEMP_VALID.at (getF s Fld.SN_MAX_SENSOR)) then gradeMaxCode s
  else signed 16 (getF s Fld.SN_MAX_CODE)

/-! ### The commands -/

/-- May a record store be accepted (R308)? Not from the end of S1 to the next hand-back. -/
def storeOpen (s : State) : Bool :=
  mgtOn s && !(saving s && flag s Fld.CA_STATUS_SAVE_BLOCK) && !restoring s && s.rs.path ≠ .restoreWait

/-- May a record store run now: none runs while a commit does. -/
def storeAllowed (s : State) : Bool := storeOpen s && s.kp.commit.isNone

/-- Begin a calibration store (R201). -/
def calStoreStart (s : State) : State :=
  if coreOn s && storeOpen s && !flag s Fld.CB_STATUS_STORING && flag s Fld.CK_STATUS_RS_VALID then
    setF Fld.CB_STATUS_STORING 1 { s with cb := { s.cb with storing := true } }
  else s

/-- CAL_STORE_AUTO (R201). -/
def execCalStoreAuto (s : State) : Host.Outcome State Fault Refusal :=
  .next (if (served s || inService s) && flag s Fld.CB_CTRL_AUTO_STORE && storeDue s
      && getF s Fld.CB_STORE_INTERVAL * ticksPerS ≤ ticksSince s.aon s.cb.lastStore
    then calStoreStart s else s)

/-- CAL_STORE_NOW (R201). -/
def execCalStoreNow (s : State) : Host.Outcome State Fault Refusal := .next (calStoreStart s)

/-- Completion code of a calibration store. -/
def tokCalStore : Nat := 5

/-- A calibration store runs to its end (R201, R485). -/
def calStoreEnd (full : Bool) (flips : List (Nat × BitVec 72)) (s : State) : State :=
  let s1 := calStoreRun full true flips { s with kp := { s.kp with calDue := false } }
  completeTokens tokCalStore (if flag s1 Fld.CB_STATUS_LAST_STORE_FAIL then "err E60 hardware" else "ok") s1

/-- A store that S1's end met finishes the copy that it was writing and does not start the other (Chapter 8). Which copy it was
is a free value (log entry 41). -/
def calStoreCut (flips : List (Nat × BitVec 72)) (s : State) : State :=
  let full := s.kp.calDue
  let r0 := calStoreCopy 0 (calSeq s) full flips (drew s)
  setF Fld.CB_STATUS_STORING 0
    (if Config.storeSecond s.draws && r0.1 then (calStoreCopy 1 (calSeq s) full flips r0.2).2 else r0.2)

/-- CAL_STORE_DONE (R201): once S1 has ended, only the copy being written is finished. -/
def execCalStoreDone (flips : List (Nat × BitVec 72)) (s : State) : Host.Outcome State Fault Refusal :=
  .next (if !flag s Fld.CB_STATUS_STORING then s
    else if saving s && flag s Fld.CA_STATUS_SAVE_BLOCK then calStoreCut flips s
    else if s.kp.commit.isSome then s
    else calStoreEnd s.kp.calDue flips s)

/-- KEEP_RETAIN_ACCRUE (R324). -/
def execKeepRetainAccrue (s : State) : Host.Outcome State Fault Refusal :=
  .next (if mgtOn s && (inRun s || inService s) then addRetain (retainMinute (hottest s)) s else s)

end Sys2Proof.Machine
end

