-- ==== Sys2Proof/Machine/Garnet.lean ====
section
/-! DEFINITION. Garnet, the key records, the life cycle, tamper and console authentication (Chapter 20). -/

namespace Sys2Proof.Machine

/-! ### Garnet words (R429 to R431) -/

/-- The stored bits of a Garnet word. -/
def garnetStored (s : State) (i : Nat) : BitVec 72 := smGet (zeroDefault 72) s.gn.words i

/-- Write a Garnet word with its check bits. -/
def setGarnet (i : Nat) (d : Dword) (s : State) : State :=
  { s with gn := { s.gn with words := smSet (zeroDefault 72) s.gn.words i (secdedEncode d) } }

/-- XOR decay into Garnet's stored words. -/
def damageGarnet (l : List (Nat × BitVec 72)) (s : State) : State :=
  l.foldl (fun t e => { t with gn := { t.gn with
    words := smSet (zeroDefault 72) t.gn.words e.1 (garnetStored t e.1 ^^^ e.2) } }) s

/-- Read a Garnet word: delivered corrected and written back; FS 27 on any error (R431). -/
def readGarnet (i : Nat) (s : State) : (Dword × Bool) × State :=
  let j := judgeStored (garnetStored s i) 0
  let syn := j.2.toNat * 0x4000 + i
  if j.1.ue then ((j.1.data, true), raise 27 (0x2000 + syn) s)
  else if j.1.corr then ((j.1.data, false), raise 27 syn (setGarnet i j.1.data s))
  else ((j.1.data, false), s)

/-- Read `n` words from `i` on. -/
def readGarnets : Nat → Nat → State → (List Dword × Bool) × State
  | 0, _, s => (([], false), s)
  | n + 1, i, s =>
    let r := readGarnet i s
    let t := readGarnets n (i + 1) r.2
    ((r.1.1 :: t.1.1, r.1.2 || t.1.2), t.2)

/-- Four words as a 256-bit key, word 0 leftmost. -/
def keyOfWords (ws : List Dword) : BitVec 256 :=
  BitVec.ofNat 256 (ws.foldl (fun a w => a * 0x10000000000000000 + w.toNat) 0)

/-- The check value of a key: the leftmost 32 bits of its HMAC over "MLDKCV". -/
def keyCheck (key : BitVec 256) : Nat := (hmac256 key (strBytes "MLDKCV")).toNat >>> 224

/-- First word of a key: identity 1 is the seal key, 2 the console key. -/
def keyWord (k : Nat) : Nat := 4 * (k - 1)

/-- The stored check value of a key identity in word 8. -/
def kcvOf (k : Nat) (w : Dword) : Nat := if k = 1 then w.toNat >>> 32 else w.toNat % 0x100000000

/-- GN_STATUS.SEAL_KEY or CON_KEY. -/
def keyFlag (k : Nat) : Field := if k = 1 then Fld.GN_STATUS_SEAL_KEY else Fld.GN_STATUS_CON_KEY
/-- GN_STATUS.SEAL_REC or CON_REC. -/
def recFlag (k : Nat) : Field := if k = 1 then Fld.GN_STATUS_SEAL_REC else Fld.GN_STATUS_CON_REC
/-- GN_KEYGEN.SEAL or CON. -/
def genField (k : Nat) : Field := if k = 1 then Fld.GN_KEYGEN_SEAL else Fld.GN_KEYGEN_CON
/-- GN_KCV.SEAL or CON. -/
def kcvField (k : Nat) : Field := if k = 1 then Fld.GN_KCV_SEAL else Fld.GN_KCV_CON

/-- Bring a key into Garnet with its generation (R435, Table GN-5). -/
def putKey (k : Nat) (key : BitVec 256) (gen : Nat) (s : State) : State :=
  let kcv := keyCheck key
  let w := (judgeStored (garnetStored s 8) 0).1.data.toNat
  let w8 := if k = 1 then kcv * 0x100000000 + w % 0x100000000 else w / 0x100000000 * 0x100000000 + kcv
  let s1 := (List.range 4).foldl (fun t i =>
    setGarnet (keyWord k + i) (BitVec.ofNat 64 (key.toNat >>> (64 * (3 - i)))) t) s
  setF (keyFlag k) 1 (setF (genField k) (sat 0xFFFF gen) (setF (kcvField k) (kcv / 0x10000)
    (setGarnet 8 (BitVec.ofNat 64 w8) s1)))

/-- A key is absent from Garnet. -/
def dropKey (k : Nat) (s : State) : State :=
  let s1 := (List.range 4).foldl (fun t i => setGarnet (keyWord k + i) 0 t) s
  setF (keyFlag k) 0 (setF (genField k) 0 (setF (kcvField k) 0 s1))

/-- End session authentication (R445). -/
def endAuth (s : State) : State :=
  setF Fld.GN_STATUS_SESS_AUTH 0 (setGarnet 9 0 (setGarnet 10 0 s))

/-- Clear Garnet to zero: no key is present and the session is not authenticated (R439, step L1). -/
def wipeGarnet (s : State) : State :=
  let s1 := setF Fld.GN_STATUS_SESS_AUTH 0 (setReg Fld.GN_KEYGEN_CON.addr 0 (setReg Fld.GN_KCV_SEAL.addr 0
    (setF Fld.GN_STATUS_SEAL_KEY 0 (setF Fld.GN_STATUS_CON_KEY 0 s))))
  { s1 with gn := { s1.gn with words := [] } }

/-! ### Key records (R432 to R434) -/

def magicKey : Nat := 0x4B455952

/-- The address of copy `c` of key identity `k` (R433). -/
def keyAt (k c : Nat) : Nat := 0x6C0000 + (k - 1) * 0x2000 + c * 0x1000

/-- The wrapping key and the tag key (R432). -/
def wrapKey (s : State) : BitVec 256 := hmac256 s.fuses.deviceKey (strBytes "KEEP-WRAP")
def tagKey (s : State) : BitVec 256 := hmac256 s.fuses.deviceKey (strBytes "KEEP-TAG")

/-- The mask that wraps a key: HMAC under KW over the nonce and the identity. -/
def wrapMask (s : State) (nonce : List Byte) (k : Nat) : BitVec 256 :=
  hmac256 (wrapKey s) (nonce ++ [BitVec.ofNat 8 k])

/-- The life-cycle state in force (R436). -/
def lcState (s : State) : Nat := getF s Fld.GN_LC_STATE

/-- A key-record copy (Table GN-2). -/
def keyRecord (s : State) (k c seq gen : Nat) (nonce : BitVec 128) (key : BitVec 256) : List Byte :=
  let n := beBytes 16 nonce.toNat
  let head := recHeader magicKey k c 0x58 seq s.aon.toNat s.kp.gen.toNat
  let body := [BitVec.ofNat 8 k, BitVec.ofNat 8 (lcState s), 0, 0] ++ leBytes 4 gen ++ n
    ++ beBytes 32 (key ^^^ wrapMask s n k).toNat
  recBytes head (body ++ beBytes 32 (hmac256 (tagKey s) (head ++ body)).toNat)

/-- A key record as read. -/
structure KeyRec where
  key : BitVec 256
  keygen : Nat
  seq : Nat
  deriving DecidableEq, Repr

/-- Does the TAG of a copy verify? -/
def tagOk (s : State) (bs : List Byte) : Bool :=
  ofBeBytes ((bs.drop 0x58).take 32) = (hmac256 (tagKey s) (bs.take 0x58)).toNat

/-- The record in the bytes of a copy that passes R311 and R434. -/
def keyOfBytes (s : State) (k : Nat) (bs : List Byte) : KeyRec :=
  ⟨BitVec.ofNat 256 (ofBeBytes ((bs.drop 0x38).take 32)) ^^^ wrapMask s ((bs.drop 0x28).take 16) k,
   fieldAt bs 0x24 4, fieldAt bs 0x0C 4⟩

/-- Judge a copy that R311 finds valid (R434). -/
def keyCopyOk (s : State) (bs : List Byte) : Bool := fieldAt bs 0x21 1 = lcState s && tagOk s bs

/-- Of two copies take the newer, copy 0 on a tie (R434, R565). -/
def newerKey : Option KeyRec → Option KeyRec → Option KeyRec
  | some a, some b => if newer b.seq a.seq then some b else some a
  | some a, none => some a
  | none, b => b

/-- Read a copy of a key record with its events. -/
def readKeyCopy (k c : Nat) (s : State) : Option KeyRec × State :=
  let r := readCopy (keyAt k c) magicKey k c 0x58 s
  if r.1.1 = .valid then
    if !tagOk s r.1.2 then (none, crcFail 7 k c false r.2)
    else if fieldAt r.1.2 0x21 1 = lcState s then (some (keyOfBytes s k r.1.2), r.2)
    else (none, r.2)
  else (none, r.2)

/-- Read the record of a key identity. -/
def readKey (k : Nat) (s : State) : Option KeyRec × State :=
  let r0 := readKeyCopy k 0 s
  let r1 := readKeyCopy k 1 r0.2
  (newerKey r0.1 r1.1, r1.2)

/-- The record without events. -/
def peekKey (s : State) (k : Nat) : Option KeyRec :=
  let one := fun c =>
    let p := peekCopy s (keyAt k c) magicKey k c 0x58
    if p.1 = .valid && keyCopyOk s p.2 then some (keyOfBytes s k p.2) else none
  newerKey (one 0) (one 1)

/-- Highest KEYGEN of a valid copy; 0 without one (R446). -/
def topKeygen (s : State) (k : Nat) : Nat :=
  (List.range 2).foldl (fun a c =>
    let p := peekCopy s (keyAt k c) magicKey k c 0x58
    if p.1 = .valid && keyCopyOk s p.2 then max a (fieldAt p.2 0x24 4) else a) 0

/-- Store a key record, both copies, with a fresh nonce each (R434). -/
def storeKey (k : Nat) (key : BitVec 256) (gen : Nat) (flips : List (Nat × BitVec 72)) (s : State) :
    Bool × State :=
  let seq := (match peekKey s k with
    | none => 1
    | some r => r.seq + 1) % 0x100000000
  let r := storeTwo (keyAt k 0) (keyAt k 1)
    (fun c => keyRecord s k c seq gen (Config.recordNonce (s.draws + c)) key)
    (fun c bs => judgeCopy magicKey k c 0x58 bs = .valid && keyCopyOk s bs) k flips
    (wearOne 7 { s with draws := s.draws + 2 })
  (r.1, if r.1 then setF (recFlag k) 1 r.2 else setB (recFlag k) (peekKey r.2 k).isSome r.2)

/-- Unwrap one key; without a valid copy the key is absent (R435). -/
def unwrapKey (k : Nat) (s : State) : State :=
  let r := readKey k s
  match r.1 with
  | none => dropKey k (setF (recFlag k) 0 r.2)
  | some e => putKey k e.key e.keygen (setF (recFlag k) 1 r.2)

/-- Unwrap both keys (R435), unless the erase of their records is due. -/
def unwrapKeys (s : State) : State := if s.gn.eraseDue then s else unwrapKey 2 (unwrapKey 1 s)

/-- A key as the HMAC engine reads it: an uncorrectable word 0 to 8 makes both keys absent, and they are
unwrapped again (R431). -/
def garnetKey (k : Nat) (s : State) : Option (BitVec 256) × State :=
  let read := fun (t : State) =>
    let a := readGarnets 4 (keyWord k) t
    let b := readGarnet 8 a.2
    ((keyOfWords a.1.1, kcvOf k b.1.1, a.1.2 || b.1.2), b.2)
  let judge := fun (r : (BitVec 256 × Nat × Bool) × State) =>
    if flag r.2 (keyFlag k) && !r.1.2.2 && keyCheck r.1.1 = r.1.2.1 then some r.1.1 else none
  let r := read s
  if r.1.2.2 then
    let r2 := read (unwrapKeys (dropKey 2 (dropKey 1 r.2)))
    (judge r2, r2.2)
  else (judge r, r.2)

/-- Check both keys at U2: one whose check value fails, or whose words have an uncorrectable error, is
unwrapped again (R431). -/
def checkKeys (s : State) : State :=
  let a := readGarnets 9 0 s
  let w := a.1.1
  let bad := fun k => flag s (keyFlag k) && keyCheck (keyOfWords ((w.drop (keyWord k)).take 4)) ≠ kcvOf k (w.getD 8 0)
  if a.1.2 then unwrapKeys (dropKey 2 (dropKey 1 a.2))
  else
    let s1 := if bad 1 then unwrapKey 1 (dropKey 1 a.2) else a.2
    if bad 2 then unwrapKey 2 (dropKey 2 s1) else s1

/-! ### The erase of the key records (R440) -/

/-- Does the erase run (R308, R440): it is due, and the keep controller has its clock? -/
def eraseRuns (s : State) : Bool := s.gn.eraseDue && mgtOn s && flag s Fld.CK_STATUS_MCLK_LOCK

/-- Erase the region and set ERASE_DONE. -/
def eraseKeys (s : State) : State :=
  let s1 := setF Fld.GN_STATUS_ERASE_DONE 1 (setF Fld.GN_STATUS_SEAL_REC 0 (setF Fld.GN_STATUS_CON_REC 0 s))
  { s1 with
    kp := { s1.kp with words := smDrop s1.kp.words (fun k => keepRegion (8 * k) = 7) },
    gn := { s1.gn with eraseDue := false } }

/-! ### Seal key generation (R435) -/

/-- The conditions of R435; `b3` is true at step B3. -/
def mayGenerate (b3 : Bool) (s : State) : Bool :=
  !flag s Fld.GN_STATUS_SEAL_KEY && (peekKey s 1).isNone && !flag s Fld.GN_STATUS_TAMPER_LATCH
    && !s.gn.eraseDue && lcState s ≠ 4 && (b3 || served s || inService s) && !saving s

/-- Generate a seal key: it enters Garnet once its record is stored. -/
def generateSeal (b3 : Bool) (flips : List (Nat × BitVec 72)) (s : State) : State :=
  if mayGenerate b3 s then
    let key := Config.drawnKey s.draws
    let gen := topKeygen s 1 + 1
    let r := storeKey 1 key gen flips (drew s)
    if r.1 then putKey 1 key gen r.2 else r.2
  else s

/-! ### Tamper (R439 to R441) -/

/-- May TAMPER_CLR be accepted, apart from authentication (R441)? -/
def tamperClrReady (s : State) : Bool :=
  !flag s Fld.GN_STATUS_TAMPER_NOW && flag s Fld.GN_STATUS_ERASE_DONE

/-- Is authentication demanded of TAMPER_CLR, and missing? -/
def tamperClrNoAuth (s : State) : Bool :=
  flag s Fld.GN_STATUS_CON_KEY && 2 ≤ lcState s && !flag s Fld.GN_STATUS_SESS_AUTH

/-- Clear the sticky tamper latch when R441 accepts it. -/
def clearTamper (s : State) : State :=
  if tamperClrReady s && !tamperClrNoAuth s then
    setF Fld.GN_STATUS_TAMPER_LATCH 0 { s with gn := { s.gn with tamperMode := none } }
  else s

/-- The tamper report of FS 59 (Table FS-3). -/
def synFs59 (handBack : Bool) (m : Option Nat) : Nat :=
  match m with
  | none => b2n handBack * 16
  | some c => b2n handBack * 16 + b2n (c = modeHold || c = modeDormant) * 8 + c

/-- FS 59 at a hand-back while the latch is set (R439, R367). -/
def tamperAtHandBack (s : State) : State :=
  if flag s Fld.GN_STATUS_TAMPER_LATCH then raise 59 (synFs59 true s.gn.tamperMode) s else s

/-! ### Life cycle (R436, R437) -/

/-- The life-cycle state of a fuse pattern: consecutive blown fuses from LC[0] (R436). -/
def lcOfFuses (f : Nat) : Nat :=
  if !f.testBit 0 then 0 else if !f.testBit 1 then 1 else if !f.testBit 2 then 2 else if !f.testBit 3 then 3 else 4

/-- The name of a life-cycle state (Table GN-3). -/
def lcName (c : Nat) : String :=
  match c with
  | 0 => "BLANK"
  | 1 => "PROVISIONED"
  | 2 => "DEPLOYED"
  | 3 => "RETURNED"
  | _ => "SCRAPPED"

/-- Read the life-cycle fuses (P1, step L3). -/
def readLc (s : State) : State :=
  setF Fld.GN_LC_FUSES s.fuses.lc.toNat (setF Fld.GN_LC_STATE (lcOfFuses s.fuses.lc.toNat) s)

/-- Steps L1 to L5 towards state `stage`; the fuses in `stuck` do not take the burn (R437). -/
def lcTransition (stage : Nat) (stuck : BitVec 4) (s : State) : State :=
  let old := lcState s
  let s1 := wipeGarnet s
  let target : BitVec 4 := BitVec.ofNat 4 (2 ^ stage - 1)
  let lc := s1.fuses.lc ||| (target &&& ~~~stuck)
  let s2 := readLc { s1 with fuses := { s1.fuses with lc := lc } }
  let s3 := setB Fld.GN_STATUS_LC_FAIL (lc &&& target ≠ target) s2
  let s4 := eraseKeys s3
  conEvent false ("! lifecycle " ++ lcName old ++ " -> " ++ lcName (lcState s4))
    (raise 60 (lcState s4 * 16 + old) s4)

/-- Is a key record stored in another life-cycle state (R438)? -/
def staleRecord (s : State) : Bool :=
  [1, 2].any (fun k => (List.range 2).any (fun c =>
    let p := peekCopy s (keyAt k c) magicKey k c 0x58
    p.1 = .valid && tagOk s p.2 && fieldAt p.2 0x21 1 ≠ lcState s))

/-! ### Authentication (R443, R444) -/

/-- The eight nonce bytes in the order printed. -/
def nonceBytes (n : Dword) : List Byte := beBytes 8 n.toNat

/-- Draw and store a nonce for the session on a transport (0 UART, 1 I3C). -/
def authDraw (transport : Nat) (s : State) : Dword × State :=
  let n := Config.authNonce s.draws
  let st := b2n (flag s Fld.GN_STATUS_SESS_AUTH) + 2 + transport * 0x100 + (s.aon.toNat % 0x100000000) * 0x10000
  (n, setGarnet 10 (BitVec.ofNat 64 st) (setGarnet 9 n (drew s)))

/-- The nonce lapses. -/
def lapseNonce (s : State) : State :=
  setGarnet 9 0 (setGarnet 10 (BitVec.ofNat 64 (b2n (flag s Fld.GN_STATUS_SESS_AUTH))) s)

/-- Is a nonce outstanding? -/
def nonceOut (s : State) : Bool := (secdedData (garnetStored s 10)).getLsbD 1

/-- Are 30 s over since it was issued (R443)? Word 10 holds the lower 32 bits of that time. -/
def nonceOld (s : State) : Bool :=
  30 * ticksPerS ≤ (BitVec.ofNat 32 s.aon.toNat - BitVec.ofNat 32 ((secdedData (garnetStored s 10)).toNat >>> 16)).toNat

/-- The proof that R444 expects. -/
def authProof (key : BitVec 256) (nonce : Dword) (transport : Nat) (pos : Bool) : BitVec 128 :=
  BitVec.ofNat 128 ((hmac256 key (strBytes "MLD" ++ nonceBytes nonce
    ++ [BitVec.ofNat 8 transport, BitVec.ofNat 8 (b2n pos)])).toNat >>> 128)

/-- Judge a proof: whether it matches, and the effect (R444). -/
def authJudge (transport : Nat) (proof : BitVec 128) (s : State) : Bool × State :=
  let out := nonceOut s && !nonceOld s
  let n := readGarnet 9 s
  let k := garnetKey 2 n.2
  let s1 := lapseNonce k.2
  let ok := match k.1 with
    | none => false
    | some key => out && !n.1.2 && authProof key n.1.1 transport (flag s Fld.GL_STRAP_TWIN_POS) = proof
  if ok then
    (true, setF Fld.GN_AUTHCNT_FAIL 0 (incF Fld.GN_AUTHCNT_OK (setF Fld.GN_STATUS_SESS_AUTH 1
      (setGarnet 10 (BitVec.ofNat 64 (1 + transport * 0x100)) s1))))
  else
    let s2 := incF Fld.GN_AUTHCNT_FAIL s1
    (false, raise 61 (transport * 0x100 + sat 0xFF (getF s2 Fld.GN_AUTHCNT_FAIL))
      { s2 with gn := { s2.gn with failedAt := some s.aon } })

/-! ### The commands -/

/-- Is TAMPER_N sampled: VAUX is in range in every state the model has. -/
def tamperMode (s : State) : Option Nat := if s.boot = .held then none else some (mode s)

/-- TAMPER_RECOGNISED (R439). Garnet is unpowered in DORMANT and while AONRST_N is low: it holds nothing. -/
def execTamperRecognised (s : State) : Host.Outcome State Fault Refusal :=
  let m := tamperMode s
  let s1 := trace 0x0103 (m.getD 0) (setReg Fld.GN_TAMPT_TIME.addr (BitVec.ofNat 32 s.aon.toNat)
    (setF Fld.GN_STATUS_TAMPER_NOW 1 (setF Fld.GN_STATUS_TAMPER_LATCH 1 (setF Fld.GN_STATUS_ERASE_DONE 0 (wipeGarnet s)))))
  let s2 := { s1 with gn := { s1.gn with eraseDue := true, tamperMode := m } }
  .next (if s.boot ≠ .held && (inRun s || inService s) then raise 59 (synFs59 false m) s2 else s2)

/-- KEY_RECORD_ERASE (R440, R352): not while AONRST_N is low. -/
def execKeyRecordErase (s : State) : Host.Outcome State Fault Refusal :=
  .next (if !s.gn.eraseDue || s.boot = .held then s
    else if mode s = modeHold || mode s = modeDormant then trace 0x0104 1 (eraseKeys s)
    else eraseKeys s)

/-- TAMPER_N_RELEASE (R441). -/
def execTamperNRelease (s : State) : Host.Outcome State Fault Refusal :=
  .next (setF Fld.GN_STATUS_TAMPER_NOW 0 s)

/-- TAMPER_CLR (R441): a refused write is ignored. -/
def execTamperClr (s : State) : Host.Outcome State Fault Refusal :=
  .next (if mgtOn s then clearTamper s else s)

/-- SEAL_KEY_GENERATE (R435). -/
def execSealKeyGenerate (flips : List (Nat × BitVec 72)) (s : State) : Host.Outcome State Fault Refusal :=
  .next (if mgtOn s then generateSeal false flips s else s)

/-- NONCE_LAPSE (R443). -/
def execNonceLapse (s : State) : Host.Outcome State Fault Refusal :=
  .next (if nonceOut s && nonceOld s then lapseNonce s else s)

end Sys2Proof.Machine
end

