-- ==== Sys2Proof/Machine/TwinCore.lean ====
section
/-! DEFINITION. What the twin link does inside other operations (Chapter 17): the STATUS content, when the
replica runs, full resynchronisation and its hold, loss of the link, hand-backs and the module state. -/

namespace Sys2Proof.Machine

/-! ### STATUS (R381) -/

/-- The highest class among the uncleared sticky faults. -/
def stickyClass (s : State) : Nat :=
  (List.range 64).foldl (fun a n =>
    if bitF s (if n < 32 then Fld.FC_STICKY0_STICKY else Fld.FC_STICKY1_STICKY) (n % 32)
    then max a (smGet (zeroDefault 2) s.fc.cls n).toNat else a) 0

/-- Bytes 2 to 13 of a STATUS flit. SAVING is that of a save; the steps of a SERVICE entry are none (DEDUCED from R333
and R383, log entry 32). -/
def statusBytes (s : State) : List Byte :=
  let b3 := b2n (flag s Fld.PS_STATUS_SAVING) + b2n (restoring s) * 2 + b2n (errnLow s) * 4 + b2n (flag s Fld.CK_STATUS_TICK_DISC) * 8
    + b2n (staleCount s.tw.sendStale = 0) * 16 + b2n (flag s Fld.LD_STATUS_MIRROR_IN_FORCE) * 32
    + b2n (flag s Fld.TW_STATUS_REPL_VALID) * 64
  leBytes 1 (mode s + sub s * 16) ++ leBytes 1 b3
    ++ leBytes 1 (stickyClass s + getF s Fld.FC_FIRST_SOURCE * 4)
    ++ leBytes 1 (s.tw.hbKind + s.tw.hbLedger * 16 + b2n s.tw.hbToggle * 128)
    ++ leBytes 1 (s.tw.hbWarm + s.tw.hbCold * 16) ++ leBytes 3 s.sw.version.toNat ++ leBytes 4 s.kp.gen.toNat

/-! ### When the replica runs (R376, R386 to R388, R392, R393) -/

/-- Does the twin report mirroring in force: in a STATUS since the link came up (DEDUCED, log entry 20)? -/
def twinMirror (s : State) : Bool := s.tw.status.isSome && (getF s Fld.TW_TSTATE_STATE).testBit 13

/-- Is the replica refused or paused? -/
def replBarred (s : State) : Bool :=
  flag s Fld.TW_STATUS_POS_CONFLICT || flag s Fld.TW_STATUS_VER_MISMATCH || flag s Fld.TW_STATUS_GEN_MISMATCH

/-- The conditions of R388. -/
def replMayRun (s : State) : Bool :=
  twinEn s && linkUp s && flag s Fld.LD_STATUS_MIRROR_IN_FORCE && twinMirror s && !replBarred s

/-- Is a full request to be held (R393)? -/
def holdDue (s : State) : Bool :=
  flag s Fld.TW_CFG_RESYNC_HOLD && flag s Fld.TW_STATUS_REPL_VALID && s.tw.holdNew
    && (getF s Fld.TW_TREST_KIND = 1 || getF s Fld.TW_TREST_LEDGER = 3 || getF s Fld.TW_TREST_LEDGER = 4)

/-- Request a full resynchronisation, or hold it (R392, R393). While it is held the twin's lines count as stale,
so that SYNCED reads 0 (DEDUCED from the worked case of Chapter 17, log entry 20). -/
def fullRequest (s : State) : State :=
  if holdDue s then
    conEvent false "! twin resync held" (setF Fld.TW_STATUS_RESYNC_HELD 1
      (syncUpdate (staleRegs { s with tw := { s.tw with recvStale := allStale, holdNew := false } })))
  else if flag s Fld.TW_STATUS_RESYNC_HELD then s
  else requestAll { s with tw := { s.tw with holdNew := false } }

/-- Bring REPL_RUN up to date; a start requests everything, a refusal or pause empties the queue. -/
def replUpdate (s : State) : State :=
  let run := replMayRun s
  let was := flag s Fld.TW_STATUS_REPL_RUN
  let s1 := setB Fld.TW_STATUS_REPL_RUN run s
  let s2 := if replBarred s then { s1 with tw := { s1.tw with queue := [] } } else s1
  if run && !was then fullRequest s2 else s2

/-- Release a held resynchronisation (R393). -/
def resumeResync (s : State) : State :=
  if flag s Fld.TW_STATUS_RESYNC_HELD then requestAll (setF Fld.TW_STATUS_RESYNC_HELD 0 s) else s

/-! ### The link (R378, R380) -/

/-- The link goes down with a cause of Table TW-5: FS 40 unless a BYE came or LINK_EN is 0. -/
def linkLost (cause : Nat) (s : State) : State :=
  let drain := saving s && 3 ≤ getF s Fld.PS_STATUS_STEP && !flag s Fld.TW_STATUS_LAG_DRAINED
  let s1 := incF Fld.TW_DOWN_DOWNS (setF Fld.TW_STATUS_LINK 3 s)
  let s2 := { s1 with tw := { s1.tw with held := [], waiting := [], retraining := false, t1 := none } }
  let s3 := replUpdate s2
  if s.tw.byeSeen || !flag s Fld.TW_CFG_LINK_EN then s3 else raise 40 (cause + b2n drain * 256) s3

/-- Retrain the link (R380). -/
def retrain (s : State) : State :=
  if linkUp s then
    replUpdate (incF Fld.TW_DOWN_RETRAINS (setF Fld.TW_STATUS_LINK 1 { s with tw := { s.tw with retraining := true } }))
  else s

/-- XOSC failure or a stop of XOSC takes the link down (R78). -/
def linkNoXosc (s : State) : State :=
  if linkUp s || s.tw.retraining then linkLost 3 s
  else if getF s Fld.TW_STATUS_LINK = 1 then setF Fld.TW_STATUS_LINK 3 s else s

/-- The training conditions of R378. -/
def mayTrain (s : State) : Bool :=
  mgtOn s && twinEn s && flag s Fld.CK_STATUS_XOSC_RUN && flag s Fld.TW_CFG_LINK_EN

/-- Start link training when its conditions hold and the link is off or down. -/
def trainLink (s : State) : State :=
  if mayTrain s && (getF s Fld.TW_STATUS_LINK = 0 || getF s Fld.TW_STATUS_LINK = 3) then setF Fld.TW_STATUS_LINK 1 s
  else s

/-! ### Hand-backs and the module state (R374, R393, R395) -/

/-- A time of this device on the pair's timeline, that of position A (R375): device B adds the offset, unless both claim one
position (R376). -/
def pairTime (s : State) (t : Time) : Time :=
  if twinEn s && flag s Fld.GL_STRAP_TWIN_POS && !flag s Fld.TW_STATUS_POS_CONFLICT then
    t + BitVec.ofNat 48 (getF s Fld.TW_OFFH_OFF_HI * 2 ^ 32 + getF s Fld.TW_OFFL_OFF_LO)
  else t

/-- All warm, all cold, or neither, as PS_RSTAT.MODULE codes it. -/
def moduleCode (warm cold : Bool) : Nat := if warm then 1 else if cold then 2 else 3

/-- The name of a module state. -/
def moduleName (c : Nat) : String := if c = 1 then "warm" else if c = 2 then "cold" else "mixed"

/-- Did this device's last hand-back find every populated rank warm, or cold? -/
def ownAllWarm (s : State) : Bool := s.tw.hbKind ≠ 1 && s.tw.hbCold = 0
def ownAllCold (s : State) : Bool := s.tw.hbKind = 1 || s.tw.hbWarm = 0

/-- The same for the twin. -/
def twinAllWarm (s : State) : Bool := getF s Fld.TW_TREST_KIND ≠ 1 && getF s Fld.TW_TREST_COLD = 0
def twinAllCold (s : State) : Bool := getF s Fld.TW_TREST_KIND = 1 || getF s Fld.TW_TREST_WARM = 0

/-- Set MODULE from both devices' results and tell the console (R395). -/
def setModule (s : State) : State :=
  let c := moduleCode (ownAllWarm s && twinAllWarm s) (ownAllCold s && twinAllCold s)
  ibi 0x11 (some c) <| conEvent false ("! twin module=" ++ moduleName c)
    (setF Fld.PS_RSTAT_MODULE c { s with tw := { s.tw with moduleDue := false } })

/-- What a hand-back means for the twin link. `kind`: 1 cold bring-up, 2 restore; `valid`: the ledger source's
seal shows mirroring in force. -/
def twinHandBack (kind ledger warm cold : Nat) (valid : Bool) (s : State) : State :=
  let s0 := { s with tw := { s.tw with
    hbToggle := !s.tw.hbToggle, hbTime := BitVec.ofNat 32 s.aon.toNat, hbAt := s.aon, hbKind := kind, hbLedger := ledger,
    hbWarm := warm, hbCold := cold, lagEndSent := false, saveSeen := false, upSeen := linkUp s } }
  let s1 := setB Fld.TW_STATUS_REPL_VALID (twinEn s && kind = 2 && ledger ≤ 3 && valid) s0
  if !twinEn s then setF Fld.PS_RSTAT_MODULE (moduleCode (ownAllWarm s1) (ownAllCold s1)) s1
  else
    let s2 := if s1.tw.twinNew then setModule s1
      else setF Fld.PS_RSTAT_MODULE 0 { s1 with tw := { s1.tw with moduleDue := true } }
    let run := flag s2 Fld.TW_STATUS_REPL_RUN
    let s3 := replUpdate s2
    if run && flag s3 Fld.TW_STATUS_REPL_RUN then fullRequest s3 else s3

/-- A save or a SERVICE entry begins: the twin's next hand-back will be new, a hold ends, the lag is to be
drained (R393 to R395). -/
def twinSaveBegin (s : State) : State :=
  setF Fld.TW_STATUS_LAG_DRAINED 0 (setF Fld.TW_STATUS_RESYNC_HELD 0
    { s with tw := { s.tw with twinNew := false, holdNew := false, moduleDue := false } })

end Sys2Proof.Machine
end

