-- ==== Sys2Proof/Machine/Commit.lean ====
section
/-! DEFINITION. Commits (Table KP-6), the seal block (Table SV-4), the trace spill (R513), checkpoints (R319), the
keep refresh (R325), record rewrites and retries (R312, R321). -/

namespace Sys2Proof.Machine

/-! ### Slots (R315, R316) -/

/-- The keep address of a snapshot slot. -/
def slotAt (x : Nat) : Nat := 0x1C0000 + x * 0x280000
def poisonAt (x : Nat) : Nat := slotAt x + 0x26C000
def cmapAt (x : Nat) : Nat := slotAt x + 0x26D000
def sealAt (x : Nat) : Nat := slotAt x + 0x26E000
def magicSeal : Nat := 0x5345414C

/-- SEAL_SLOT as an entry codes it: 0xFF for none. -/
def sealSlot (s : State) : Nat := if getF s Fld.KP_STATUS_SEAL_SLOT = 3 then 0xFF else getF s Fld.KP_STATUS_SEAL_SLOT

/-- The seal number of that seal; 0 for none. -/
def sealNo (s : State) : Nat := if sealSlot s = 0xFF then 0 else getF s Fld.PS_SEALNO_SEALNO

/-- The slot that the next commit writes (R316). -/
def commitSlot (s : State) : Nat := if sealSlot s = 0 then 1 else 0

/-- The bytes of a map of 31,744 bits. -/
def mapBytes (m : SMap 1) : List Byte :=
  (List.range 3968).map (fun i => BitVec.ofNat 8 (ofBits ((List.range 8).filter (fun k =>
    smGet (zeroDefault 1) m (8 * i + k) = 1))))

/-- A map read from bytes. -/
def mapOfBytes (bs : List Byte) : SMap 1 :=
  ((List.range bs.length).flatMap (fun i => (bitsOf 8 (bs.getD i 0).toNat).map (fun k => (8 * i + k, 1#1))))

/-! ### C1 to C3 (R317, R341) -/

/-- COMMITTING in both status registers. -/
def commitStatus (on : Bool) (s : State) : State :=
  setB Fld.KP_STATUS_COMMITTING on (setB Fld.LD_STATUS_COMMITTING on s)

/-- C1: the BEGIN entry. A save whose entry cannot be written is unrecorded (R566). -/
def commitEntry (kind slot cause : Nat) (flips : List (Nat × BitVec 72)) (s : State) : State :=
  let r := writeEntry entryTypeBegin kind slot (sealSlot s) (sealNo s) cause flips s
  if r.1 || kind ≠ 0 then r.2 else setF Fld.PS_STATUS_UNRECORDED 1 r.2

/-- C1 and C2 of a commit to a slot. Lines not written now keep the poison bits of earlier commits. -/
def commitBegin (kind slot cause : Nat) (flips : List (Nat × BitVec 72)) (s : State) : State :=
  let s1 := commitEntry kind slot cause flips (wearOne (5 + slot) (commitStatus true s))
  let s2 := keepWrite (sealAt slot) (List.replicate 8 0) flips s1
  let p := mapOfBytes (keepPeek s2 (poisonAt slot) 3968)
  { s2 with kp := { s2.kp with commit := some ⟨slot, kind, s.aon, getF s2 Fld.KP_PSEQ_SEQ, [], p⟩ } }

/-- Commit one line: it is written as read, its mark in the slot's bitmap is cleared (R256, R260). -/
def commitLine (c : Commit) (l : Nat) (s : State) : Commit × State :=
  let r := readLine 1 3 l s
  let w := slotAt c.slot / 8 + l * 10
  let s1 := (List.range 10).foldl (fun t i => setKeep (w + i) (secdedEncode (r.1.1.getD i 0)) t) r.2
  ({ c with lines := smSet (zeroDefault 1) c.lines l 1,
            poison := smSet (zeroDefault 1) c.poison l (if r.1.2 then 1 else 0) }, unmarkIn c.slot l s1)

/-- C3: every marked line. Parked banks with marked lines are woken first (R341). -/
def commitLines (flips : List (Nat × BitVec 72)) (s : State) : State :=
  match s.kp.commit with
  | none => s
  | some c =>
    let m := markedLines c.slot s
    let s1 := wakeBanks (fun b => m.1.any (fun l => lineBank l = b)) m.2
    let m1 := markedLines c.slot s1
    let r := m1.1.foldl (fun a l => commitLine a.1 l a.2) (c, m1.2)
    let base := slotAt c.slot / 8
    let s2 := keepFlips base (base + 317440) flips r.2
    { s2 with kp := { s2.kp with commit := some r.1 } }

/-! ### C4 to C6 (R342, R343) -/

/-- The state byte of a rank in RANK_STATE. -/
def rankStateByte (s : State) (r : Nat) : Nat :=
  b2n (rankSecond s r) * 128 + b2n (rankPl s r) * 64 + b2n (rankErased s r) * 32
    + b2n (s.lg.fails.any (fun f => f.rank = r)) * 16 + erasedLane s r

/-- The PEND byte of a rank. -/
def rankPendByte (s : State) (r : Nat) : Nat :=
  match s.lg.fails.find? (fun f => f.rank = r) with
  | none => 0
  | some f => 128 + f.lane * 16 + f.cause

/-- FLAGS of the seal. -/
def sealFlags (s : State) (save noKey : Bool) : Nat :=
  b2n (flag s Fld.LD_STATUS_MIRROR_IN_FORCE) + b2n (save && flag s Fld.TW_STATUS_LAG_DRAINED) * 2 + b2n noKey * 4
    + b2n (save && flag s Fld.PS_STATUS_FS32) * 8 + b2n (save && flag s Fld.PS_STATUS_OVERRUN) * 16

/-- Bytes 0x20 to 0x1BF of the seal block. -/
def sealFields (s : State) (c : Commit) (no : Nat) (noKey : Bool) : List Byte :=
  let save := c.kind = 0
  let v := fun (n : Nat) => if save then n else 0
  leBytes 4 no ++ leBytes 1 c.slot ++ leBytes 1 c.kind ++ leBytes 1 (v (getF s Fld.PS_STATUS_CAUSE))
    ++ leBytes 1 (sealFlags s save noKey)
    ++ leBytes 4 (v (getF s Fld.PS_NONCEL_NONCE_LO)) ++ leBytes 4 (v (getF s Fld.PS_NONCEH_NONCE_HI))
    ++ leBytes 8 (v s.ps.s0.toNat) ++ leBytes 4 c.pseq ++ leBytes 4 c.lines.length
    ++ leBytes 1 (rateSet s) ++ leBytes 1 (rankEn s + getF s Fld.CA_CFG_DENSITY * 16)
    ++ leBytes 1 (getF s Fld.PM_RANK_COLD_MARK) ++ leBytes 1 (v (getF s Fld.PS_STATUS_CANARY))
    ++ leBytes 4 (reg s Fld.LG_MAPF_MAP.addr).toNat
    ++ rankList.flatMap (fun r => leBytes 1 (rankStateByte s r))
    ++ rankList.flatMap (fun r => leBytes 2 (getF s (Fld.LG_RFAIL_COUNT.at r)))
    ++ leBytes 4 (reg s 0x0828).toNat ++ leBytes 4 (reg s 0x0820).toNat ++ leBytes 4 s.sw.version.toNat
    ++ leBytes 4 (getF s Fld.LD_OPSEQ_SEQ) ++ rankList.flatMap (fun r => leBytes 1 (rankPendByte s r))
    ++ List.replicate 344 0

/-- The header of a seal block. -/
def sealHeader (s : State) (slot : Nat) (seq : Nat) : List Byte :=
  recHeader magicSeal slot 0 0x1DC seq s.aon.toNat s.kp.gen.toNat

/-- C4: both maps. -/
def commitMaps (c : Commit) (flips : List (Nat × BitVec 72)) (s : State) : State :=
  keepWrite (cmapAt c.slot) (mapBytes c.lines) flips (keepWrite (poisonAt c.slot) (mapBytes c.poison) flips s)

/-- C5 and C6 (R343): the seal block, the SEALED entry, and for a checkpoint the CONSUMED entry. The seal's SEQ is
its seal number: the spec names none for it. -/
def commitSeal (c : Commit) (key : Option (BitVec 256)) (flips : List (Nat × BitVec 72)) (s : State) : State :=
  let no := (getF s Fld.PS_SEALNO_SEALNO + 1) % 0x100000000
  let head := sealHeader s c.slot no ++ sealFields s c no key.isNone
  let tag := match key with
    | none => List.replicate 32 0
    | some k => beBytes 32 (hmac256 k (head ++ mapBytes c.poison ++ mapBytes c.lines)).toNat
  let body := head ++ tag ++ List.replicate 28 0
  let s1 := keepWrite (sealAt c.slot) (body ++ leBytes 4 (crc32 body).toNat) flips s
  let v := keepRead (sealAt c.slot) 512 s1
  let s2 := if !v.1.2 && judgeCopy magicSeal c.slot 0 0x1DC v.1.1 = .valid then v.2
    else crcFail (5 + c.slot) c.slot 0 true v.2
  let cause := if c.kind = 0 then getF s Fld.PS_STATUS_CAUSE else 0
  let s3 := (writeEntry entryTypeSealed c.kind c.slot c.slot no cause flips s2).2
  let s4 := setF Fld.PS_SEALNO_SEALNO no s3
  if c.kind = 0 then s4 else (writeEntry entryTypeConsumed c.kind c.slot c.slot no 0 flips s4).2

/-- The commit is over. -/
def commitEnd (s : State) : State := commitStatus false { s with kp := { s.kp with commit := none } }

/-! ### Trace spill (R513) -/

def magicSpill : Nat := 0x54525350
def spillAt (p : Nat) : Nat := 0x140000 + p * 0x4000

/-- The bytes of a trace entry (R508). -/
def entryBytes (e : TraceEntry) : List Byte := leBytes 6 e.time.toNat ++ leBytes 2 e.code.toNat ++ leBytes 8 e.args.toNat

/-- A trace entry from 16 bytes. -/
def entryOf16 (bs : List Byte) : TraceEntry :=
  ⟨BitVec.ofNat 48 (fieldAt bs 0 6), BitVec.ofNat 16 (fieldAt bs 6 2), BitVec.ofNat 64 (fieldAt bs 8 8)⟩

/-- LENGTH of the spill stored at a position, as its header states it. -/
def spillLength (s : State) (p : Nat) : Nat := min (fieldAt (keepPeek s (spillAt p) 32) 8 4) 16336

/-- The valid spill of a position: its SEQ. -/
def spillSeq (s : State) (p : Nat) : Option Nat :=
  let c := peekCopy s (spillAt p) magicSpill p 0 (spillLength s p)
  if c.1 = .valid then some (fieldAt c.2 0x0C 4) else none

/-- The newest valid spill: position and SEQ; the lower position on a tie (R565). -/
def newestSpill (s : State) : Option (Nat × Nat) :=
  (List.range 32).foldl (fun a p =>
    match spillSeq s p, a with
    | none, _ => a
    | some q, none => some (p, q)
    | some q, some (_, b) => if newer q b then some (p, q) else a) none

/-- Stop the ring and spill its newest entries; entries go to the AON FIFO from then on (R509, R513). -/
def spillTrace (flips : List (Nat × BitVec 72)) (s : State) : State :=
  if !flag s Fld.TR_STATUS_RUNNING then s
  else
    let ring := s.tr.ring
    let keep := ring.drop (ring.length - min 1021 ring.length)
    let last := newestSpill s
    let p := match last with
      | none => 0
      | some e => (e.1 + 1) % 32
    let seq := match last with
      | none => 1
      | some e => (e.2 + 1) % 0x100000000
    let len := 16 * keep.length
    let s1 := setF Fld.TR_STATUS_RUNNING 0 (wearRing 4 32 s)
    let s2 := keepWrite (spillAt p) (recBytes (recHeader magicSpill p 0 len seq s.aon.toNat s.kp.gen.toNat)
      (keep.flatMap entryBytes)) flips s1
    let v := keepRead (spillAt p) (36 + len) s2
    let s3 := if !v.1.2 && judgeCopy magicSpill p 0 len v.1.1 = .valid then v.2 else crcFail 4 p 0 true v.2
    setF Fld.TR_SPILL_VALID 1 (setF Fld.TR_SPILL_POS p (setF Fld.TR_SPILL_ENTRIES keep.length s3))

/-! ### Checkpoints (R319, R320) -/

/-- May a checkpoint or a refresh begin (R319)? -/
def checkpointAllowed (s : State) : Bool :=
  served s && s.kp.commit.isNone && !saving s && !flag s Fld.KP_STATUS_CHECKPOINT && !flag s Fld.KP_STATUS_REFRESHING

/-- C1 to C3 of a checkpoint. -/
def checkpointBegin (kind : Nat) (flips : List (Nat × BitVec 72)) (s : State) : State :=
  commitLines flips (commitBegin kind (commitSlot s) 0 flips s)

/-- C4 to C6 of a checkpoint. Without the seal key it stops before C5 (Chapter 14). -/
def checkpointEnd (flips : List (Nat × BitVec 72)) (s : State) : State :=
  match s.kp.commit with
  | none => s
  | some c =>
    let s1 := commitMaps c flips s
    let k := garnetKey 1 s1
    let s2 := if k.1.isSome then commitSeal c k.1 flips k.2 else { k.2 with kp := { k.2.kp with bad := true } }
    setF Fld.KP_CKPT_SLOT c.slot (setF Fld.KP_CKPT_LINES (c.lines.length % 0x8000)
      (setF Fld.KP_CKTIME_US (ticksSince s.aon c.start / 4) (commitEnd s2)))

/-- Token codes of deferred commands. -/
def tokCommit : Nat := 1
def tokService : Nat := 2
def tokCheckpoint : Nat := 3
def tokRefresh : Nat := 4
def tokCfgStore : Nat := 6
def tokRun : Nat := 11

/-- The result of a deferred checkpoint or refresh (R489). -/
def workResult (s : State) : String := if s.kp.bad then "err E60 hardware" else "ok"

/-- Begin a checkpoint that a command or register write asked for. -/
def checkpointStart (flips : List (Nat × BitVec 72)) (s : State) : State :=
  if checkpointAllowed s then
    setF Fld.KP_STATUS_CHECKPOINT 1 (checkpointBegin 1 flips { s with kp := { s.kp with bad := false } })
  else s

/-! ### Records rewritten as they stand (R321, R325) -/

/-- Store the configuration record again. -/
def cfgAgain (again : Bool) (flips : List (Nat × BitVec 72)) (s : State) : State :=
  let r := readCfg s
  match r.1 with
  | none => r.2
  | some (_, payload, _) =>
    let seq := cfgSeq r.2 % 0x100000000
    let w := storeTwo (cfgAt 0) (cfgAt 1)
      (fun c => recBytes (recHeader magicCfg 0 c cfgLength seq s.aon.toNat s.kp.gen.toNat) payload)
      (fun c bs => judgeCopy magicCfg 0 c cfgLength bs = .valid) 0 flips (wearOne 1 r.2)
    if w.1 || !again then w.2 else { w.2 with kp := { w.2.kp with retry := w.2.kp.retry ++ [.configAgain] } }

/-- The newer valid copy of a calibration record, without events. -/
def peekCal (s : State) (rs : Nat) : Option (List Byte) :=
  let c := fun k => keepPeek s (calAt rs k) 2076
  let ok := fun k => judgeCal rs k (c k) = .valid
  let q := fun k => fieldAt (c k) 0x0C 4
  if ok 0 && ok 1 then some (if newer (q 1) (q 0) then c 1 else c 0)
  else if ok 0 then some (c 0) else if ok 1 then some (c 1) else none

/-- Store the calibration record of a rate set again, with the next SEQ. -/
def calAgain (rs : Nat) (again : Bool) (flips : List (Nat × BitVec 72)) (s : State) : State :=
  match peekCal s rs with
  | none => s
  | some bs =>
    let seq := (fieldAt bs 0x0C 4 + 1) % 0x100000000
    let rec' := fun (c : Nat) =>
      let body := bs.take 7 ++ leBytes 1 c ++ (bs.drop 8).take 4 ++ leBytes 4 seq ++ leBytes 8 s.aon.toNat
        ++ (bs.drop 0x18).take 2048
      body ++ leBytes 4 (crc32 body).toNat
    let w := storeTwo (calAt rs 0) (calAt rs 1) rec' (fun c b => judgeCal rs c b = .valid) (rs * 2) flips
      (wearCal (rs * 2 + 1) (wearCal (rs * 2) s))
    let s1 := if w.1 && rs = rateSet s then
        setF Fld.CB_SEQ_SEQ seq { w.2 with cb := { w.2.cb with seq := BitVec.ofNat 32 seq } } else w.2
    if w.1 || !again then s1 else { s1 with kp := { s1.kp with retry := s1.kp.retry ++ [.calAgain rs] } }

/-- Rewrite a valid key record with new nonces and the same KEYGEN (R434). -/
def keyAgain (k : Nat) (again : Bool) (flips : List (Nat × BitVec 72)) (s : State) : State :=
  let r := readKey k s
  match r.1 with
  | none => r.2
  | some e =>
    let w := storeKey k e.key e.keygen flips r.2
    if w.1 || !again then w.2 else { w.2 with kp := { w.2.kp with retry := w.2.kp.retry ++ [.keyAgain k] } }

/-- LENGTH of the patch record as its header states it. -/
def patchLength (s : State) : Nat := min (fieldAt (keepPeek s 0 32) 8 4) 524252
def magicPatch : Nat := 0x50544348

/-- Write the patch in place, and once more 1 s later where its verify fails (R312, R325). -/
def patchWrite (bytes : List Byte) (again : Bool) (flips : List (Nat × BitVec 72)) (s : State) : State :=
  let w := storeOne 0 0 bytes (fun bs => judgeCopy magicPatch 0 0 (bytes.length - 36) bs = .valid) 0 flips (wearOne 0 s)
  if w.1 || !again then w.2 else { w.2 with kp := { w.2.kp with retry := w.2.kp.retry ++ [.patch bytes] } }

/-- Rewrite a valid patch in place (R325). -/
def patchAgain (flips : List (Nat × BitVec 72)) (s : State) : State :=
  let r := readCopy 0 magicPatch 0 0 (patchLength s) s
  if r.1.1 = .valid then patchWrite r.1.2 true flips r.2 else r.2

/-- Store a console key that `auth install` brought; it enters Garnet once its record is stored (R446). -/
def installKey (key : BitVec 256) (again : Bool) (flips : List (Nat × BitVec 72)) (s : State) : State :=
  let gen := topKeygen s 2 + 1
  let w := storeKey 2 key gen flips s
  if w.1 then putKey 2 key gen (endAuth w.2)
  else if again then { w.2 with kp := { w.2.kp with retry := w.2.kp.retry ++ [.install key] } } else w.2

/-- Steps 1 to 3 of a refresh, and the bitmaps of step 4 (R325). -/
def refreshBegin (flips : List (Nat × BitVec 72)) (s : State) : State :=
  let s1 := (List.range 4).foldl (fun t rs => calAgain rs true flips t) (cfgAgain true flips s)
  let s2 := keyAgain 2 true flips (keyAgain 1 true flips (patchAgain flips s1))
  markAll 1 (markAll 0 (setF Fld.KP_STATUS_REFRESHING 1 s2))

/-- Begin a refresh that a command, a register write or REFRESH_DUE asked for. -/
def refreshStart (flips : List (Nat × BitVec 72)) (s : State) : State :=
  if checkpointAllowed s then refreshBegin flips { s with kp := { s.kp with bad := false } } else s

/-! ### The commands -/

/-- KEEP_CHECKPOINT (R319). -/
def execKeepCheckpoint (flips : List (Nat × BitVec 72)) (s : State) : Host.Outcome State Fault Refusal :=
  .next (checkpointStart flips s)

/-- KEEP_CHECKPOINT_DONE (R317): a checkpoint that a save has taken over is not finished here. `holds`: how many of its
line reads waited on an atomic (Table LD-4). -/
def execKeepCheckpointDone (flips : List (Nat × BitVec 72)) (holds : BitVec 16) (s : State) : Host.Outcome State Fault Refusal :=
  .next (if flag s Fld.KP_STATUS_CHECKPOINT && !saving s then
      let s1 := checkpointEnd flips (countHolds holds.toNat s)
      completeTokens tokCheckpoint (workResult s1) (setF Fld.KP_STATUS_CHECKPOINT 0 s1)
    else s)

/-- KEEP_REFRESH (R325): by register write, or by itself when due and AUTO_REFRESH allows it. -/
def execKeepRefresh (flips : List (Nat × BitVec 72)) (s : State) : Host.Outcome State Fault Refusal :=
  .next (refreshStart flips s)

/-- KEEP_REFRESH_DONE (R325): both refresh checkpoints, then the counts are cleared. A refresh that a save met
stops; it runs again from step 1 while REFRESH_DUE stays set. -/
def execKeepRefreshDone (flips : List (Nat × BitVec 72)) (holds : BitVec 16) (s : State) : Host.Outcome State Fault Refusal :=
  .next (if !flag s Fld.KP_STATUS_REFRESHING then s
    else if saving s then setF Fld.KP_STATUS_REFRESHING 0 s
    else
      let s1 := checkpointEnd flips (checkpointBegin 2 flips (countHolds holds.toNat s))
      let s2 := checkpointEnd flips (checkpointBegin 2 flips s1)
      let s3 := { s2 with kp := { s2.kp with retain := 0, corrSince := 0 } }
      completeTokens tokRefresh (workResult s3) (setF Fld.KP_STATUS_REFRESHING 0 (setF Fld.KP_STATUS_REFRESH_DUE 0
        (setF Fld.KP_RETAIN_USED 0 s3))))

/-- RECORD_STORE_RETRY (R312): the oldest failed store is tried once more. -/
def execRecordStoreRetry (flips : List (Nat × BitVec 72)) (s : State) : Host.Outcome State Fault Refusal :=
  .next (match s.kp.retry with
    | [] => s
    | r :: rest =>
      if storeAllowed s then
        let s1 := { s with kp := { s.kp with retry := rest } }
        match r with
        | .config gen =>
          let w := cfgStoreRun gen false flips s1
          completeTokens tokCfgStore (if w.1 then "ok" else "err E60 hardware") w.2
        | .cal full => calStoreRun full false flips s1
        | .configAgain => cfgAgain false flips s1
        | .calAgain rs => calAgain rs false flips s1
        | .keyAgain k => keyAgain k false flips s1
        | .install key => installKey key false flips s1
        | .patch bytes => patchWrite bytes false flips s1
      else s)

/-- KEEP_RECORD_REWRITE (R321): in RUN.LIVE and RUN.DEGRADED, the oldest record due is stored again. -/
def execKeepRecordRewrite (flips : List (Nat × BitVec 72)) (s : State) : Host.Outcome State Fault Refusal :=
  .next (match s.kp.rewrite with
    | [] => s
    | (g, i) :: rest =>
      if served s && storeAllowed s then
        let s1 := { s with kp := { s.kp with rewrite := rest } }
        if g = 1 then cfgAgain true flips s1
        else if g = 2 then calAgain (i / 2) true flips s1
        else keyAgain i true flips s1
      else s)

end Sys2Proof.Machine
end

