-- ==== Sys2Proof/Machine/DataLanes.lean ====
section
/-! DEFINITION. Host and DRAM data lanes (Chapter 6): snooped mode registers, host write bursts, DRAM alerts, the
values of the training responder. -/

namespace Sys2Proof.Machine

/-! ### Snooped mode registers (R135 to R138, R254) -/

/-- CL_SHORT follows the snooped CL and the aperture in force (R254). -/
def clShort (s : State) : State :=
  let short := flag s Fld.CA_APER_EN && decide (getF s Fld.HL_SNOOP_CL < 28)
  if short && !flag s Fld.LD_STATUS_CL_SHORT then trace 0x0801 (getF s Fld.HL_SNOOP_CL) (setF Fld.LD_STATUS_CL_SHORT 1 s)
  else setB Fld.LD_STATUS_CL_SHORT short s

/-- The settings that every rank must share (R136): their number, their field and the value that an MRW sets. -/
def sharedOf : MrwEffect → Option (Nat × Field × Nat)
  | .cl v => some (0, Fld.HL_SNOOP_CL, v.toNat)
  | .readPre v => some (1, Fld.HL_SNOOP_RPRE, v.toNat)
  | .writePre v => some (2, Fld.HL_SNOOP_WPRE, v.toNat)
  | .writeCrc on => some (3, Fld.HL_SNOOP_WRCRC_ON, b2n on)
  | _ => none

/-- Does an effect set a shared setting to a value that differs from the copy held? -/
def changesShared (s : State) (e : MrwEffect) : Bool :=
  match sharedOf e with
  | some (_, f, v) => getF s f ≠ v
  | none => false

/-- The ranks that have received a setting since its last change. -/
def skewGot (kind ranks : Nat) (l : List (Nat × Nat)) : List (Nat × Nat) :=
  l.map (fun e => if e.1 = kind then (e.1, e.2 ||| ranks) else e)

/-- A shared setting takes a value for every rank; a change starts the list of the ranks that have received it. -/
def snoopShared (ranks : Nat) (e : MrwEffect) (s : State) : State :=
  match sharedOf e with
  | none => s
  | some (kind, f, v) =>
    let l := if getF s f = v then skewGot kind ranks s.dl.skew else (kind, ranks) :: s.dl.skew.filter (fun x => x.1 ≠ kind)
    setF f v { s with dl := { s.dl with skew := l } }

/-- RANK_SKEW clears when every populated rank has received the same value of every setting since its last change (R136). -/
def skewSettle (s : State) : State :=
  let left := s.dl.skew.filter (fun e => rankEn s &&& e.2 ≠ rankEn s)
  setB Fld.HL_SNOOP_RANK_SKEW (!left.isEmpty) { s with dl := { s.dl with skew := left } }

/-- Enter or leave a training step (Table DP-3); steps 1 to 4 pause the host-side engines at once (Table CH-2). -/
def trainStep (on : Bool) (n : Nat) (s : State) : State :=
  if on then
    let s1 := { s with dl := { s.dl with step := n } }
    if n ≤ 4 then pauseHostAll s1 else s1
  else { s with dl := { s.dl with step := if s.dl.step = n then 0 else s.dl.step } }

/-- What an MRW sets beside the shared settings (R138, R145). In read preamble training the device drives HDQS with the snooped
preamble from its own transmitters. -/
def snoopOne (s : State) : MrwEffect → State
  | .readCrc on =>
    let s1 := setB Fld.HL_SNOOP_RDCRC_ON on s
    if on then trace 0x0501 (reg s1 Fld.HL_SNOOP_CL.addr).toNat s1 else s1
  | .pattern on => trainStep on 5 (setB Fld.HL_SNOOP_PATTERN on s)
  | .writeLeveling on => trainStep on 3 s
  | .readPreambleTraining on =>
    let s1 := trainStep on 4 s
    if on then { s1 with dl := { s1.dl with readPre := getF s1 Fld.HL_SNOOP_RPRE } } else s1
  | _ => s

/-- A forwarded MRW is snooped (R135): where it changes shared settings it sets RANK_SKEW and writes one trace entry (R136). -/
def snoop (ranks : Nat) (sets : List MrwEffect) (s : State) : State :=
  let s1 := sets.foldl (fun t e => snoopShared ranks e t) s
  let s2 := if sets.any (changesShared s) then
      let t := setF Fld.HL_SNOOP_RANK_SKEW 1 s1
      trace 0x0501 (reg t Fld.HL_SNOOP_CL.addr).toNat t
    else s1
  clShort (sets.foldl snoopOne (skewSettle s2))

/-! ### The responder's training answers (R145, Table DP-3) -/

/-- A value on the eight HDQ bits of every lane, by lane. -/
def onLanes (f : Nat → Nat) : BitVec 40 := BitVec.ofNat 40 ((List.range 5).foldl (fun a n => a + f n <<< (8 * n)) 0)

/-- In CS and CA training the device's own C/A receivers sample the host's cycle, and the result goes out on HDQ. -/
def trainAnswer (p : CaPins) (s : State) : State :=
  if s.dl.step = 1 then { s with dl := { s.dl with reply := some (onLanes (fun _ => (Config.csTraining p.hcsN).toNat)) } }
  else if s.dl.step = 2 then
    { s with dl := { s.dl with reply := some (onLanes (fun _ => if oddParity p.hca1.toNat then 0xFF else 0)) } }
  else s

/-- In write leveling each HDQS pair samples HCK: the sample, a free value, stands on all eight bits of the lane. -/
def levelAnswer (s : State) : State :=
  if s.dl.step = 3 then
    drew { s with dl := { s.dl with reply := some (onLanes (fun n => if (Config.levelSample s.draws).getLsbD n then 0xFF else 0)) } }
  else s

/-! ### Write bursts (R139 to R142, R158, R159, R182) -/

/-- The lanes that a host burst sends to the DRAM: parity over the bytes as received, the erased lane under
LG_CTRL.ERASED_WRITE. -/
def dramBurst (s : State) (rank line : Nat) : Nat :=
  let zero := rankErased s rank && flag s Fld.LG_CTRL_ERASED_WRITE
  let hosts := (List.range 5).map (hostLane line)
  ofDramLanes ((List.range 6).map (fun d =>
    if d = parLane s then xorAll hosts
    else if zero && d = erasedLane s rank then 0
    else match (List.range 5).find? (fun n => mapLane s n = d) with
      | none => 0
      | some n => hosts.getD n 0))

/-- A field of HL_SNOOP as it stood when the burst's command was issued (R135). -/
def snooped (o : OpenBurst) (f : Field) : Nat := natBits o.snoop.toNat f.hi f.lo

/-- The CRC beats of the lanes `ls`, lane 0 lowest (R139). -/
def crcBeats (ls : List Nat) : Nat :=
  (ls.zip (List.range 6)).foldl (fun a e => a + (Config.laneCrc (BitVec.ofNat 128 e.1)).toNat <<< (16 * e.2)) 0

/-- Send a burst to the DRAM, with fresh CRC beats over the data sent while write CRC is on (R139). -/
def toDram (o : OpenBurst) (line : Nat) (s : State) : State :=
  let w := if flag s Fld.CA_STATUS_SAVE_BLOCK then s.dl.writtenS1 ||| (1 <<< o.rank) else s.dl.writtenS1
  let d := dramBurst s o.rank line
  let c := if snooped o Fld.HL_SNOOP_WRCRC_ON = 1 then some (BitVec.ofNat 96 (crcBeats ((List.range 6).map (dramLane d)))) else none
  { s with dl := { s.dl with dramWrite := some ⟨o.rank, BitVec.ofNat 768 d, c⟩, writtenS1 := w } }

/-- The host lanes whose CRC beats do not fit their data, while they are checked (R139). -/
def crcFails (o : OpenBurst) (line crc : Nat) (s : State) : Nat :=
  if snooped o Fld.HL_SNOOP_WRCRC_ON = 1 && flag s Fld.HL_CFG_CRC_CHECK then
    ofBits ((List.range 5).filter (fun n =>
      (Config.laneCrc (BitVec.ofNat 128 (hostLane line n))).toNat ≠ natBits crc (16 * n + 15) (16 * n)))
  else 0

/-- The bits of HL_CRCLOG [15:0], and the syndrome of FS 8 (R140). -/
def crcBits (o : OpenBurst) (lanes : Nat) : Nat :=
  let aper := match o.kind with
    | .aperture l _ => 32 + b2n (slotFirst ≤ l) * 0x1000
    | _ => 0
  o.rank * 256 + aper + lanes

/-- A burst whose CRC failed on some lanes (R140). -/
def crcFailed (o : OpenBurst) (lanes : Nat) (s : State) : State :=
  if lanes = 0 then s
  else
    let b := crcBits o lanes
    let s1 := halert 1 (raise 8 b s)
    let s2 := (bitsOf 5 lanes).foldl (fun t n => incF (Fld.HL_CRCCNT_COUNT.lane n) t) s1
    if flag s2 Fld.HL_CRCLOG_VALID then s2
    else setReg Fld.HL_CRCLOG_VALID.addr (BitVec.ofNat 32 (0x80000000 + b)) s2

/-- The host write check (R182): kind 9 reports the failing rows. -/
def writeCheck (o : OpenBurst) (line : Nat) (s : State) : State :=
  if flag s Fld.LG_CTRL_WR_CHECK && flag s Fld.LG_STATUS_HCT_LOADED && !hctPasses s line then
    raise 9 (synRead 9 7 o 0 + hctFailBits s line) (incF Fld.LG_WCNT_COUNT s)
  else s

/-- A descriptor line arrives in slot `i` (R273). -/
def slotWrite (i line : Nat) (failed : Bool) (s : State) : State :=
  let en := flag s Fld.LD_OPCFG_EN && flag s Fld.CA_APER_EN
  let hct := flag s Fld.LG_STATUS_HCT_LOADED
  if en && hct && !failed then opReceive i line s
  else opNotExecuted i (en && !hct && !failed) (putLine false (slotFirst + i) (burstWords line) s)

/-- The ledger takes a host burst (R115, R117). -/
def ledgerBurst (o : OpenBurst) (l line : Nat) (failed : Bool) (s : State) : State :=
  if o.bo ≠ 0 || inReplica s l then s
  else if slotFirst ≤ l then slotWrite (l - slotFirst) line failed s
  else writeLine l (burstWords line) s

/-- A host write burst that a command opened: sampled for the host lanes' evaluations (R206), judged, written. -/
def takeBurst (o : OpenBurst) (line crc mon : Nat) (held : Bool) (s : State) : State :=
  let lanes := crcFails o line crc s
  let s1 := levelAnswer (hostSample line mon { s with dl := { s.dl with writePre := snooped o Fld.HL_SNOOP_WPRE } })
  let s2 := writeCheck o line (crcFailed o lanes s1)
  match o.kind with
  | .aperture l fwd =>
    let s3 := ledgerBurst o l line (lanes ≠ 0) (countHeld held s2)
    if fwd then toDram o line s3 else s3
  | _ => toDram o line s2

/-- A host write burst for the oldest write that waits for its data. Data that no command opened, and those of a command that
was dropped, are ignored (R142). -/
def writeBurst (line crc mon : Nat) (held : Bool) (s : State) : State :=
  match s.dl.writes with
  | [] => s
  | o :: rest =>
    let s1 := { s with dl := { s.dl with writes := rest } }
    if o.kind = .dropped then s1 else takeBurst o line crc mon held s1

/-! ### DRAM alerts (R143, R144, R235) -/

/-- Is the device between the end of S1 and the end of S4? S2 to S4 are steps 3 to 5 of PS_STATUS.STEP; a SERVICE entry has its
own. -/
def inDrain (s : State) : Bool :=
  (flag s Fld.PS_STATUS_SAVING && 3 ≤ getF s Fld.PS_STATUS_STEP && getF s Fld.PS_STATUS_STEP ≤ 5)
    || (!flag s Fld.PS_STATUS_SAVING && s.ps.entry = 3)

/-- A recognised DALERT_N event; `ranks` received a write burst in the 64 tCK before. -/
def dalert (ranks : Nat) (s : State) : State :=
  let drain := inDrain s
  let syn := ranks * 0x10000 + b2n (flag s Fld.HL_SNOOP_WRCRC_ON) * 2 + b2n drain
  let s1 := halert 2 (raise 20 syn (incF Fld.DL_ALERT_COUNT (setF Fld.DL_ALERT_RANKS ranks s)))
  let s2 := gapAlert s1
  if drain then
    setF Fld.PM_RANK_COLD_MARK (getF s Fld.PM_RANK_COLD_MARK ||| (if ranks = 0 then s.dl.writtenS1 else ranks)) s2
  else s2

/-! ### The training responder (R147, R148) -/

/-- The bit of a lane with the lowest stored width. -/
def selWorst (s : State) : Nat := worstStored s (qHost s.dl.sel)

/-- The value of a word of page 4 (Table DP-4); `none` where the word is not an MRR word. -/
def responderWord (s : State) (w : Nat) : Option Nat :=
  let q := quality s (qHost s.dl.sel (selWorst s))
  match w with
  | 0 => some (s.dl.step * 32 + getF s Fld.CB_HSTAT_LAST_ACC)
  | 1 => some s.dl.sel
  | 2 => some (qW q)
  | 3 => some (qH q)
  | 4 => some (bits8.foldl (fun a i => min a (qG (quality s (qHost s.dl.sel i)))) 3)
  | 5 => some (b2n s.dl.hold)
  | 6 => some (getF s (hostVref s.dl.sel))
  | 7 => some (sat 255 s.dl.evals)
  | _ => none

/-! ### The commands -/

/-- WRITE_BURST (R140). `crc`: the CRC beats of the five lanes, 16 bits a lane; `mon`: what the monitor samplers decide (R187);
`held`: the access waited for an atomic (Table LD-4). -/
def execWriteBurst (data : BitVec 640) (crc : BitVec 80) (mon : BitVec 640) (held : Bool) (s : State) :
    Host.Outcome State Fault Refusal :=
  .next (if coreOn s then writeBurst data.toNat crc.toNat mon.toNat held s else s)

/-- DALERT_EVENT (R143). -/
def execDalertEvent (ranks : BitVec 4) (s : State) : Host.Outcome State Fault Refusal :=
  .next (if coreOn s then dalert ranks.toNat s else s)

/-- TR_HOLD_LAPSE (R147): HOLD ends 2 s after it was set. -/
def execTrHoldLapse (s : State) : Host.Outcome State Fault Refusal :=
  .next (if s.dl.hold then trace 0x0502 0 (resumeLanes { s with dl := { s.dl with hold := false } }) else s)

end Sys2Proof.Machine
end

