-- ==== Sys2Proof/Machine/Resets.lean ====
section
/-! DEFINITION. What resets and power changes do to registers and units (R519, Table RX-8), the domains (R54), the
hold island (R36), CHIPRST (R66) and AONRST_N (R25). -/

namespace Sys2Proof.Machine

/-! ### Registers by class -/

/-- Is a home in a class? -/
def inClass (c : ResetClass) (a : Nat) : Bool :=
  match regRow a with
  | none => false
  | some r => r.cls = c

/-- Registers whose home satisfies `p` return to their reset values, with their copies. -/
def resetRegs (p : Nat → Bool) (s : State) : State :=
  { s with regs := smDrop s.regs p, staged := smDrop s.staged p, committed := smDrop s.committed p,
           latch := smDrop s.latch p }

/-- The configuration record's values at the homes of a class come into force (Table RX-8). -/
def loadClass (c : ResetClass) (s : State) : State := cfgLoad (inClass c) s

/-! ### Domains -/

/-- Set the states of the domains (Table PM-9). -/
def setDomains (ldg mgt core hio dio : Nat) (s : State) : State :=
  setF Fld.PM_DOMAIN_LDG ldg (setF Fld.PM_DOMAIN_MGT mgt (setF Fld.PM_DOMAIN_CORE core
    (setF Fld.PM_DOMAIN_HIO hio (setF Fld.PM_DOMAIN_DIO dio s))))

/-- Is the DRAM PHY on? -/
def dioOn (s : State) : Bool := getF s Fld.PM_DOMAIN_DIO = 1

/-- The island's levels, while VDDQD powers it (R36, R37). -/
def setIsland (l : Island) (s : State) : State :=
  { s with pins := { s.pins with island := if s.pins.island = .undefined then .undefined else l } }

/-- The hold island releases the pins to the DRAM PHY (B6, U4). -/
def giveIsland (s : State) : State := { s with pins := { s.pins with given := true } }

/-- The DRAM PHY goes off, and the hold island drives the level set that it has latched: after a cold bring-up its reset
levels, after a restore its self-refresh levels (R36 names no other moment of a change; DEDUCED, log entry 58). -/
def takeIsland (s : State) : State := { s with pins := { s.pins with given := false } }

/-- The HPLL takes XOSC as its reference (R80); without XOSC it has none. -/
def hpllToXosc (s : State) : State :=
  let ok := !flag s Fld.CK_STATUS_XOSC_FAIL
  setB Fld.CK_STATUS_HPLL_REF_XOSC ok (setB Fld.CK_STATUS_HPLL_LOCK ok s)

/-- The HPLL is off with PD_CORE (Table CK-1). -/
def hpllOff (s : State) : State := setF Fld.CK_STATUS_HPLL_REF_XOSC 0 (setF Fld.CK_STATUS_HPLL_LOCK 0 s)

/-! ### A fuse burn that is cut short (R302) -/

/-- The fuse entry that names a column: valid, with odd parity. -/
def fuseEntry (col : Nat) : BitVec 9 :=
  let e := 256 + col
  BitVec.ofNat 9 (if oddParity e then e else e + 128)

/-- Put entry `key` into the fuses: what is blown stays blown. -/
def blowFuses (key : Nat) (e : BitVec 9) (f : Fuses) : Fuses :=
  { f with spares := smSet (zeroDefault 9) f.spares key (smGet (zeroDefault 9) f.spares key ||| e) }

/-- The fuses as a collapse leaves them (Table MT-6): nothing blows before 204.8 µs; then each bit takes 20 µs, the column first,
the parity bit, the valid bit last, and the one in hand may have blown. -/
def fusesLeft (s : State) : Fuses :=
  match s.mt.burn with
  | none => s.fuses
  | some (b, k, col) =>
    let ns := ticksSince s.aon s.mt.start * 250
    if ns < 204800 then s.fuses
    else
      let n := min 9 ((ns - 204800) / 20000)
      let blown := 2 ^ n - 1 + (if Config.fuseHalf s.draws then 2 ^ n else 0)
      blowFuses (b * 4 + k) (fuseEntry col &&& BitVec.ofNat 9 blown) s.fuses

/-- The draws after such a collapse. -/
def drawsLeft (s : State) : Nat := s.draws + b2n s.mt.burn.isSome

/-- HCT_OUT and TRACE_OUT as MT_STATUS holds them: they stand until a cold bring-up whose march passes the target, whatever
resets and power-downs come between (R294; DEDUCED, log entry 68). -/
def marchOut (s : State) : Nat := (reg s Fld.MT_STATUS_HCT_OUT.addr).toNat / 0x10000 % 4 * 0x10000

/-- PD_CORE is reset: its registers, and everything that its units hold. TR_LOST.FIFO is in PD_AON; MT_SPARE.GOOD changes at P1
and by a spare pass alone (R300). -/
def coreReset (s : State) : State :=
  let lost := getF s Fld.TR_LOST_FIFO
  let s1 := resetRegs (inClass .core) s
  setReg Fld.MT_STATUS_HCT_OUT.addr (BitVec.ofNat 32 (marchOut s)) (setF Fld.TR_LOST_FIFO lost { s1 with
    tr := { s1.tr with ring := [] }, ca := .init, dl := .init, lg := .init, cb := .init,
    ld := { s1.ld with scrub := [], ops := [], scanning := [], cfgNext := none }, mt := { s1.mt with burn := none },
    fuses := fusesLeft s, draws := drawsLeft s })

/-- PD_CORE powers up: reset, then its configuration from the record. -/
def coreUp (s : State) : State :=
  let s1 := loadClass .core (coreReset s)
  setReg Fld.LG_MAPF_MAP.addr (reg s1 0x2004) s1

/-- The session ends (R453): authentication, staged values, queues and the completion lines of deferred commands. -/
def sessionEnd (s : State) : State :=
  if holder s = 0 then s
  else
    let n := s.staged.length
    let con := { s.con with line := [], long := false, overrun := false, badByte := false, input := [], reply := [], out := [],
                            events := [], dropped := 0, tokens := [], last := none, busy := false, ending := false }
    let s1 := setReg Fld.CN_SESS_HOLDER.addr 0 (endAuth { s with staged := [], con := con })
    if n = 0 then s1 else trace 0x0C01 n s1

/-- The console's buffers, tokens and interrupts are gone with PD_MGT. -/
def consoleReset (s : State) : State := { s with con := { Console.init with tx := s.con.tx } }

/-- What the twin link keeps while PD_MGT is off: its own last hand-back, and the twin's as last seen (log
entry 21). -/
def twinReset (s : State) : State :=
  let t := s.tw
  { s with tw := { Twin.init with
    hbToggle := t.hbToggle, hbTime := t.hbTime, hbAt := t.hbAt, hbKind := t.hbKind, hbLedger := t.hbLedger, hbWarm := t.hbWarm,
    hbCold := t.hbCold, hbBase := t.hbBase, hbSeen := t.hbSeen, sent := t.sent } }

/-- The fault collector's working state in PD_MGT is reset; its capture state, the waiting history and the CHIPRST
count stay (R418). -/
def collectorReset (s : State) : State :=
  { s with fc := { s.fc with events := [], writes := [], irq := [], nmt := [], nmtRun := none } }

/-- The factory values that the fused grade decides (Table CK-2, R506): the register map holds those of an 80-grade
C part. -/
def gradeValues (s : State) : State :=
  let s1 := if s.fuses.speed = 64 then setReg (Fld.CK_RS_RATE.at 3).addr 0 s else s
  if s.fuses.tempX then setReg Fld.SN_THR_WARN.addr 0x00058273 s1 else s1

/-- PD_MGT is reset: its registers, console, twin link, and the Steward; XOSC is off, so that the windows of the tick's
discipline start again (R73 to R75). -/
def mgtReset (s : State) : State :=
  let s1 := collectorReset (twinReset (consoleReset (gradeValues (resetRegs (inClass .mgt) s))))
  { s1 with kp := { s1.kp with commit := none, retry := [], rewrite := [], genNext := none },
            sw := { s1.sw with halted := false, tookOver := false },
            clk := { s1.clk with discGood := 0, discBad := 0, offCounts := 0, fits := false } }

/-! ### The resets -/

/-- What every reset keeps of GN_STATUS: the latch and ERASE_DONE. -/
def tamperBits (s : State) : Nat := (reg s Fld.GN_STATUS_TAMPER_LATCH.addr).toNat % 4

/-- TAMPER_NOW is the level of a pin: it is the same after a reset. -/
def gnStatusKept (s : State) : Word :=
  BitVec.ofNat 32 (tamperBits s + b2n (flag s Fld.GN_STATUS_TAMPER_NOW) * 2048)

/-- What no reset touches: fuses, the keep's content, the hold island's latch and its supply, PGOOD's level, the tamper
state, the commands that wait, the model's counter of draws. Where the reset comes from RUN the island had given up the pins;
the spec names no level set for it then, and the model lets it drive the set it had latched (DEDUCED, log entry 58). The TAP
returns to Test-Logic-Reset: R66 does not keep it. -/
def resetBase (s : State) : State :=
  let s1 := { State.reset with
    fuses := fusesLeft s, draws := drawsLeft s, pending := s.pending,
    pins := { Pins.init with pgood := s.pins.pgood, vddqd := s.pins.vddqd, island := s.pins.island },
    kp := { Keep.init with words := s.kp.words },
    gn := { Garnet.init with eraseDue := s.gn.eraseDue },
    tap := .init, con := Console.init, regs := [], tr := TraceUnit.init }
  setReg Fld.MT_STATUS_HCT_OUT.addr (BitVec.ofNat 32 (marchOut s)) (setReg Fld.GN_TAMPT_TIME.addr
    (reg s Fld.GN_TAMPT_TIME.addr) (setReg Fld.GN_STATUS_TAMPER_LATCH.addr (gnStatusKept s) s1))

/-- AONRST_N falls (R25): everything but `resetBase` is reset, and stays so until the pin rises. The TAP is held in
Test-Logic-Reset (Table BS-9). -/
def aonReset (s : State) : State := { resetBase s with boot := .held }

/-- AONRST_N rises: PM_LAST and its trace entry (R55). -/
def aonRelease (s : State) : State :=
  { s with boot := .starting, tr := { s.tr with fifo := [resetEntry] } }

/-- CHIPRST (R66): the always-on state that R66 lists is kept, a strap entry that waits for the ring (R34), the latch of CK_AONH
with the timer (R76), and discipline that FS 51 has stopped stays stopped (R75); the device goes on as after AONRST_N. -/
def chipReset (s0 : State) : State :=
  let s := sessionEnd s0
  let kept := s.regs.filter (fun e => inClass .aonKept e.1 || e.1 = 0x0008)
  let b := resetBase s
  let s1 := kept.foldl (fun t e => setReg e.1 e.2 t) { b with
    aon := s.aon, boot := .starting,
    tr := { TraceUnit.init with fifo := s.tr.fifo, s7Time := s.tr.s7Time, strapOwed := s.tr.strapOwed },
    latch := s.latch.filter (fun e => e.1 = Fld.CK_AONH_AON_HI.addr),
    clk := { Clocks.init with bootFrom := s.aon, discStopped := s.clk.discStopped, discOnce := s.clk.discOnce },
    ps := { s.ps with entry := 0 },
    fc := { FaultUnit.init with cls := s.fc.cls, hist := s.fc.hist, lastHist := s.fc.lastHist, histPos := s.fc.histPos,
                                resetReport := s.fc.resetReport } }
  let s2 := setF Fld.TR_LOST_FIFO (getF s Fld.TR_LOST_FIFO) s1
  let s3 := setReg Fld.PM_LAST_CAUSE.addr (BitVec.ofNat 32 (0x0E1100 + sub s * 0x10 + mode s)) s2
  trace 0x0201 (0x0E1100 + sub s * 0x10 + mode s)
    (setReg Fld.PM_LAST_TH_TIME_HI.addr (BitVec.ofNat 32 (s.aon.toNat >>> 32))
      (setReg Fld.PM_LAST_TL_TIME_LO.addr (BitVec.ofNat 32 s.aon.toNat) s3))

end Sys2Proof.Machine
end

