-- ==== Sys2Proof/Machine/MarchPlan.lean ====
section
/-! DEFINITION. What a march run does, word by word (R288 to R293, R297): its algorithms, its backgrounds, the order and the
time of its operations. -/

namespace Sys2Proof.Machine

/-! ### Targets (Table MT-1) -/

/-- The target of an array: 0 to 15 the ledger banks, 16 the bitmaps and tag words, 17 Garnet, 18 the HCT RAM, 19 the trace
RAM (MT_SEL). -/
def arrayTarget (a : Nat) : Nat := if a < 16 then 0 else a - 15

/-- Words of an array: 992 bitmap words come before the 18 tag words. -/
def arrayWords (a : Nat) : Nat :=
  if a < 16 then 20480 else if a = 16 then 1010 else if a = 17 then 8192 else if a = 18 then 1282 else 2048

/-- Width of its words. -/
def arrayWidth (a : Nat) : Nat := if a < 18 then 72 else 64

/-! ### Algorithms and backgrounds -/

/-- One operation on a word: a read or a write of data value 0 or 1 of the background. -/
structure MarchOp where
  read : Bool
  one : Bool

def w0 : MarchOp := ⟨false, false⟩
def w1 : MarchOp := ⟨false, true⟩
def r0 : MarchOp := ⟨true, false⟩
def r1 : MarchOp := ⟨true, true⟩

/-- An element: does it descend, and its operations per word. -/
structure MarchElement where
  down : Bool
  ops : List MarchOp

/-- Table MT-2. Elements that may run either way run upwards (DESIGN CHOICE, log entry 68). -/
def marchElements (ext : Bool) : List MarchElement :=
  if ext then [⟨false, [w0]⟩, ⟨false, [r0, w1, r1]⟩, ⟨false, [r1, w0, r0]⟩, ⟨true, [r0, w1, r1]⟩, ⟨true, [r1, w0, r0]⟩,
    ⟨false, [r0]⟩]
  else [⟨false, [w0]⟩, ⟨false, [r0, w1]⟩, ⟨false, [r1, w0]⟩, ⟨true, [r0, w1]⟩, ⟨true, [r1, w0]⟩, ⟨false, [r0]⟩]

/-- Operations per word of some elements. -/
def opsOf (l : List MarchElement) : Nat := l.foldl (fun n e => n + e.ops.length) 0

/-- Operations per word of an algorithm: 10 or 14. -/
def opsPerWord (ext : Bool) : Nat := opsOf (marchElements ext)

/-- Bit `i` of word `a` for data value 0 of a background (Table MT-3). -/
def backgroundBit (bg a i : Nat) : Bool :=
  match bg with
  | 0 => false
  | 1 => (i + a) % 2 = 1
  | 2 => i % 2 = 1
  | _ => a % 2 = 1

/-- The value that an operation writes, or expects to read, at word `a` of an array. -/
def marchValue (array bg a : Nat) (one : Bool) : BitVec 72 :=
  BitVec.ofNat 72 (ofBits ((List.range (arrayWidth array)).filter (fun i => backgroundBit bg a i != one)))

/-! ### The run -/

/-- A run: its targets and banks, the algorithm, the backgrounds in order, whether it preserves content and whether it takes
the spare pass. -/
structure MarchRun where
  targets : Nat
  banks : Nat
  ext : Bool
  bgs : List Nat
  preserve : Bool
  spares : Bool

/-- The run that MT_CTRL and MT_BANKS ask for (Table MT-7). A preserving run ignores SPARE_PASS (R297). -/
def runOf (ctrl banks : Word) : MarchRun :=
  let c := ctrl.toNat
  { targets := natBits c 20 16, banks := banks.toNat % 0x10000, ext := natBits c 13 12 = 2, bgs := bitsOf 4 (natBits c 7 4),
    preserve := c.testBit 8, spares := !c.testBit 8 && c.testBit 9 }

/-- The start-up march (R293): every target, four backgrounds, destructive, with the spare pass. -/
def startupRun (ext : Bool) : MarchRun := ⟨31, 0xFFFF, ext, [0, 1, 2, 3], false, true⟩

/-- Does a run test an array? -/
def arrayTested (r : MarchRun) (a : Nat) : Bool :=
  a < 20 && r.targets.testBit (arrayTarget a) && (16 ≤ a || r.banks.testBit a)

/-- One part of a run: its phase of Table MT-4, the arrays that it tests at once, and whether it is the spare pass. -/
structure MarchPart where
  phase : Nat
  spare : Bool
  arrays : List Nat

/-- The four ledger groups (R292). -/
def bankGroup (g : Nat) : List Nat := (List.range 4).map (g * 4 + ·)

/-- The parts of a run in their order (R292, Table MT-4). -/
def marchParts (r : MarchRun) : List MarchPart :=
  let spare := if r.spares then (List.range 4).map (fun g => ⟨5, true, bankGroup g⟩) else []
  let all : List MarchPart := ⟨1, false, bankGroup 0 ++ [18, 19]⟩
    :: (List.range 3).map (fun g => ⟨g + 2, false, bankGroup (g + 1)⟩) ++ spare ++ [⟨6, false, [17]⟩, ⟨7, false, [16]⟩]
  (all.map (fun (p : MarchPart) => { p with arrays := p.arrays.filter (arrayTested r) })).filter (fun p => !p.arrays.isEmpty)

/-- The run as a part makes it: the spare pass always runs March C− with the solid background (R300). -/
def partRun (r : MarchRun) (p : MarchPart) : MarchRun := if p.spare then { r with ext := false, bgs := [0] } else r

/-- MCLK that a word takes: with its copies to and from the shadow in preserving mode (R297). -/
def wordTime (r : MarchRun) : Nat := opsPerWord r.ext * r.bgs.length + (if r.preserve then 2 else 0)

/-- MCLK that a part takes: one operation per MCLK on each of its arrays. -/
def partTime (r : MarchRun) (p : MarchPart) : Nat :=
  p.arrays.foldl (fun n a => max n (arrayWords a * wordTime (partRun r p))) 0

/-- MCLK from the start of the run to the end of its last part. -/
def runTime (r : MarchRun) : Nat := (marchParts r).foldl (fun n p => n + partTime r p) 0

/-- The part that runs `t` MCLK after the start. -/
def partAt (r : MarchRun) : Nat → List MarchPart → Option MarchPart
  | _, [] => none
  | t, p :: ps => if t < partTime r p then some p else partAt r (t - partTime r p) ps

/-- The phase of Table MT-4 then; after the last part a destructive run clears (8). -/
def phaseAt (r : MarchRun) (t : Nat) : Nat :=
  match partAt r t (marchParts r) with
  | some p => p.phase
  | none => if r.preserve then ((marchParts r).getLast?.map (·.phase)).getD 1 else 8

/-! ### The reads -/

/-- When a part makes the read of operation `x.op` of element `x.element` at word `x.word` with background `x.bg`: MCLK after
its start; none if it makes no such read. Each background runs the whole algorithm once, element after element over all words; a
preserving run does so word by word. -/
def readTime (r : MarchRun) (x : MarchRead) : Option Nat :=
  let es := marchElements r.ext
  let i := x.bg.toNat
  let k := x.element.toNat
  match es[k]?, r.bgs.findIdx? (· = i) with
  | some e, some bi =>
    match e.ops[x.op.toNat]? with
    | some o =>
      let n := arrayWords x.array
      let a := x.word.toNat
      if !o.read || n ≤ a then none
      else
        let before := opsOf (es.take k)
        if r.preserve then some (a * wordTime r + 1 + bi * opsPerWord r.ext + before + x.op.toNat)
        else
          let pos := if e.down then n - 1 - a else a
          some (bi * (n * opsPerWord r.ext) + n * before + pos * e.ops.length + x.op.toNat)
    | none => none
  | _, _ => none

/-- When a run makes a read: MCLK after its start. -/
def readAt (r : MarchRun) (x : MarchRead) : Nat → List MarchPart → Option Nat
  | _, [] => none
  | t, p :: ps =>
    if p.spare = x.spare && p.arrays.contains x.array then (readTime (partRun r p) x).map (t + ·)
    else readAt r x (t + partTime r p) ps

/-- The bits of a read that differ from the data value that its operation expects. -/
def failBits (r : MarchRun) (x : MarchRead) : BitVec 72 :=
  let one := (((marchElements (r.ext && !x.spare))[x.element.toNat]?).bind (fun e => e.ops[x.op.toNat]?)).any (·.one)
  (x.data ^^^ marchValue x.array x.bg.toNat x.word.toNat one)
    &&& BitVec.ofNat 72 (2 ^ arrayWidth x.array - 1)

/-- A failing read of a run: its place in the order of execution, and the bits that failed. Reads of one MCLK follow one another
by array number (DESIGN CHOICE, log entry 68). -/
structure MarchFail where
  at_ : Nat
  read : MarchRead
  bits : BitVec 72

/-- `f` among failing reads in the order of execution; each read is made once. -/
def insertFail (f : MarchFail) : List MarchFail → List MarchFail
  | [] => [f]
  | g :: l => if f.at_ < g.at_ then f :: g :: l else if f.at_ = g.at_ then g :: l else g :: insertFail f l

/-- The failing reads of a run, in the order of execution: `reads` are those whose data is not what they expect; a run makes no
others. -/
def marchFails (r : MarchRun) (reads : List MarchRead) : List MarchFail :=
  reads.foldl (fun l x =>
    match readAt r x 0 (marchParts r) with
    | none => l
    | some t => if failBits r x = 0 then l else insertFail ⟨t * 32 + x.array, x, failBits r x⟩ l) []

end Sys2Proof.Machine
end

