-- ==== Sys2Proof/Machine/MarchRepair.lean ====
section
/-! DEFINITION. The march engine and column repair (Chapter 13). What the memory cells return to the reads of a run, and the
fuses that do not take a burn, are operands; what a run expects, and so what fails, is MarchPlan's. -/

namespace Sys2Proof.Machine

def marchBusy (s : State) : Bool := flag s Fld.MT_STATUS_BUSY && !flag s Fld.MT_STATUS_BURNING

/-- Is the engine on a destructive run? -/
def destructive (s : State) : Bool := getF s Fld.MT_CTRL_MODE = 0

/-- May a run start (Table MT-5)? -/
def marchAllowed (s : State) : Bool :=
  if destructive s then inService s && coreOn s
  else (inService s && coreOn s) || (served s && getF s Fld.MT_CTRL_TARGETS / 2 = 0)

/-! ### Spares (R299) -/

/-- A steering entry: [8] valid, [7] parity, [6:0] column. -/
def steerEntry (s : State) (b k : Nat) : BitVec 9 := smGet (zeroDefault 9) s.mt.steer (b * 4 + k)

/-- Valid, with its parity, and a column below 72. -/
def entrySound (e : BitVec 9) : Bool := e.getLsbD 8 && oddParity e.toNat && e.toNat % 128 < 72

/-- Does an entry name a column: sound, and not of a burn that failed its verify? -/
def entryNames (s : State) (b k : Nat) : Bool := entrySound (steerEntry s b k) && !s.mt.torn.contains (b * 4 + k)

/-- Is an entry used? Two entries of one bank that name the same column are both ignored. -/
def spareUsed (s : State) (b k : Nat) : Bool :=
  entryNames s b k && (List.range 4).all (fun j =>
    j = k || !entryNames s b j || (steerEntry s b j).toNat % 128 ≠ (steerEntry s b k).toNat % 128)

/-- Torn: some bit blown, or a burn that failed, and not used. -/
def spareTorn (s : State) (b k : Nat) : Bool :=
  (steerEntry s b k ≠ 0 || s.mt.torn.contains (b * 4 + k)) && !spareUsed s b k

def spareGood (s : State) (b k : Nat) : Bool := !(smGet (zeroDefault 4) s.mt.bad b).getLsbD k

/-- MT_SPARE of a bank (Table MT-7). -/
def spareWord (s : State) (b : Nat) : Nat :=
  if 16 ≤ b then 0
  else ofBits ((List.range 4).filter (spareGood s b)) + ofBits ((List.range 4).filter (spareUsed s b)) * 16
    + ofBits ((List.range 4).filter (spareTorn s b)) * 4096

/-- MT_FUSE of a bank: VALID and COL of each entry. -/
def fuseWord (s : State) (b : Nat) : Nat :=
  if 16 ≤ b then 0
  else (List.range 4).foldl (fun a k =>
    let e := steerEntry s b k
    a + (e.toNat % 128 + b2n (e.getLsbD 8) * 128) * 2 ^ (8 * k)) 0

/-- P1 loads the fuse entries into the steering map, and every spare is good again (R299, R300). -/
def loadSteering (s : State) : State :=
  { s with mt := { s.mt with steer := s.fuses.spares, torn := s.fuses.spoilt, bad := [] } }

/-! ### Results (R298) -/

/-- The result registers of every array return to 0 at the start of a run. -/
def clearResults (s : State) : State :=
  resetRegs (fun a =>
    let b := a % 0x10000
    (0x4C18 ≤ b && b ≤ 0x4C28) || b = 0x4C10 || b = 0x4C38)
    (setReg Fld.MT_STATUS_BUSY.addr (BitVec.ofNat 32 ((reg s Fld.MT_STATUS_BUSY.addr).toNat / 0x10000 % 4 * 0x10000)) s)

/-- The spares that a failing read of the spare pass is charged to: those steered in place of bit positions 0 to 3 (R300). -/
def chargedSpares (s : State) (f : MarchFail) : List Nat :=
  if f.read.spare then (List.range 4).filter (fun k => f.bits.getLsbD k && !spareUsed s f.read.array k) else []

/-- The lowest bit that failed. -/
def firstBit (f : MarchFail) : Nat := (((List.range 72).filter (fun i => f.bits.getLsbD i))[0]?).getD 0

/-- MT_FIRST of a failing read. -/
def firstWord (f : MarchFail) : Nat :=
  2 ^ 31 + b2n f.read.spare * 2 ^ 30 + f.read.bg.toNat * 2 ^ 28 + f.read.element.toNat * 2 ^ 25 + firstBit f * 2 ^ 15
    + f.read.word.toNat

/-- A failing spare is no longer good. -/
def spareBad (b : Nat) (hit : List Nat) (s : State) : State :=
  let bad := (smGet (zeroDefault 4) s.mt.bad b).toNat ||| ofBits hit
  { s with mt := { s.mt with bad := smSet (zeroDefault 4) s.mt.bad b (BitVec.ofNat 4 bad) } }

/-- Record a failing read in the registers of its array (R298): the mask of the bits that failed, but for the positions of
steered spares; the first failure; the count. -/
def recordFail (f : MarchFail) (s : State) : State :=
  let a := f.read.array
  let hit := chargedSpares s f
  let m := f.bits.toNat - ofBits hit
  let s1 := setF (Fld.MT_COL0_COL.bank a) (getF s (Fld.MT_COL0_COL.bank a) ||| natBits m 31 0)
    (setF (Fld.MT_COL1_COL.bank a) (getF s (Fld.MT_COL1_COL.bank a) ||| natBits m 63 32)
      (setF (Fld.MT_COL2_COL.bank a) (getF s (Fld.MT_COL2_COL.bank a) ||| natBits m 71 64) s))
  let s2 := if flag s (Fld.MT_FIRST_VALID.bank a) then s1
    else setReg (Fld.MT_FIRST_VALID.bank a).addr (BitVec.ofNat 32 (firstWord f)) s1
  let s3 := incF (Fld.MT_FCNT_COUNT.bank a) s2
  let s4 := if a < 16 then setBitF Fld.MT_BFAIL_BANKS a true s3 else s3
  if hit.isEmpty then s4 else spareBad a hit s4

/-- The failed targets of a list of failing reads. -/
def failedTargets (fs : List MarchFail) : Nat := ofBits (fs.map (fun f => arrayTarget f.read.array))

/-- The failed ledger banks. -/
def failedBanks (fs : List MarchFail) : Nat := ofBits ((fs.map (·.read.array)).filter (· < 16))

/-- The syndrome of FS 62, whose first failing read is the first in the order of execution. -/
def synFs62 (fs : List MarchFail) : Nat :=
  match fs with
  | [] => 0
  | f :: _ => arrayTarget f.read.array * 2 ^ 56 + (if f.read.array < 16 then f.read.array * 2 ^ 52 else 0)
      + b2n f.read.spare * 2 ^ 51 + f.read.element.toNat * 2 ^ 48 + f.read.bg.toNat * 2 ^ 46 + firstBit f * 2 ^ 39
      + f.read.word.toNat * 2 ^ 24 + failedTargets fs * 2 ^ 16 + failedBanks fs

/-- Record the failing reads of a run, in the order of execution; FS 62 once if there are any (R298). -/
def recordRun (r : MarchRun) (reads : List MarchRead) (s : State) : State :=
  let fs := marchFails r reads
  let s1 := fs.foldl (fun t f => recordFail f t) s
  let s2 := setB Fld.MT_STATUS_PASS fs.isEmpty (setF Fld.MT_STATUS_MEM_FAIL (failedTargets fs) s1)
  if fs.isEmpty then s2 else raise 62 (synFs62 fs) s2

/-! ### After a destructive run (R296) -/

/-- The tested banks are zero, every line of them marked in both bitmaps. -/
def clearBanks (banks : Nat) (s : State) : State :=
  let hit := fun (k : Nat) => banks.testBit (k / 20480)
  let s1 := { s with ld := { s.ld with
    words := smDrop s.ld.words hit, scrub := s.ld.scrub.filter (fun k => !hit k),
    maps := smDrop s.ld.maps (fun k => banks.testBit (k % 512 / 32)) } }
  if banks.testBit 15 then clearSlots s1 else s1

/-- The HCT RAM holds no table: none is in force, in verification or in the window (R296). -/
def hctScrap (s : State) : State :=
  setF Fld.LG_HCTC_PENDING 0 (hctClear { s with lg := { s.lg with hct := [], pend := .none } })

/-- Each target of the run returns to a defined state. -/
def restoreTargets (targets banks : Nat) (s : State) : State :=
  let s1 := if targets.testBit 0 then clearBanks banks s else s
  let s2 := if targets.testBit 1 then
      { s1 with ld := { s1.ld with maps := [], tags := [] } } else s1
  let s3 := if targets.testBit 2 then unwrapKeys (wipeGarnet s2) else s2
  let s4 := if targets.testBit 3 then cfgLoadHct (hctScrap s3) else s3
  if targets.testBit 4 then
    let s5 := { s4 with tr := { s4.tr with ring := [] } }
    if flag s5 Fld.TR_STATUS_RUNNING then trace 0x0001 3 s5 else s5
  else s4

/-! ### Runs on request -/

/-- Token code of commands that wait for BUSY to fall (R304). -/
def tokMarch : Nat := 10

/-- A run on request starts (R295). -/
def marchBegin (s : State) : State :=
  let s1 := clearResults s
  setF Fld.MT_STATUS_PHASE (phaseAt (runOf (reg s Fld.MT_CTRL_MODE.addr) (reg s Fld.MT_BANKS_BANKS.addr)) 0) (setF Fld.MT_STATUS_ORIGIN 2 (setF Fld.MT_STATUS_BUSY 1
    { s1 with mt := { s1.mt with start := s.aon, ctrl := reg s Fld.MT_CTRL_MODE.addr, banks := reg s Fld.MT_BANKS_BANKS.addr } }))

/-- Start when idle and permitted. -/
def marchStart (s : State) : State :=
  if flag s Fld.MT_STATUS_BUSY || saving s || !marchAllowed s then s else marchBegin s

/-- The word that the end line prints. -/
def marchWord (aborted pass : Bool) : String := if aborted then "aborted" else if pass then "pass" else "fail"

/-- A run on request ends (R296, R298, R304). A destructive run that a save stops is cleared when S5 starts. -/
def marchEnd (aborted : Bool) (reads : List MarchRead) (s : State) : State :=
  if !marchBusy s then s
  else
    let r := runOf s.mt.ctrl s.mt.banks
    let s1 := recordRun r reads s
    let s2 := if r.preserve then s1
      else if saving s then { s1 with mt := { s1.mt with clearDue := some (r.targets, r.banks) } }
      else restoreTargets r.targets r.banks s1
    let us := sat 0xFFFFFFFF (ticksSince s.aon s.mt.start / 4)
    let s3 := setF Fld.MT_TIME_US us (setB Fld.MT_STATUS_ABORTED aborted (setF Fld.MT_STATUS_DONE 1
      (setF Fld.MT_STATUS_PHASE 0 (setF Fld.MT_STATUS_BUSY 0 s2))))
    completeTokens tokMarch "ok"
      (conEvent false ("! test done " ++ marchWord aborted (flag s3 Fld.MT_STATUS_PASS) ++ " t=" ++ decStr us ++ "us") s3)

/-- Something other than a command of its own stops the run: what its reads had returned is a free value. -/
def marchStop (s : State) : State := if marchBusy s then marchEnd true (Config.marchFound s.draws) (drew s) else s

/-- What a destructive run that the save stopped had tested is cleared, as S5 starts. -/
def clearTested (s : State) : State :=
  match s.mt.clearDue with
  | none => s
  | some (targets, banks) => restoreTargets targets banks { s with mt := { s.mt with clearDue := none } }

/-- The phase that MT_STATUS shows (Tables MT-4, MT-6): a run's by the time since its start, at 50 MCLK a tick; a burn migrates
for 204.8 µs. -/
def phaseNow (s : State) : Nat :=
  let ticks := ticksSince s.aon s.mt.start
  if marchBusy s then phaseAt (runOf s.mt.ctrl s.mt.banks) (ticks * 50)
  else if flag s Fld.MT_STATUS_BURNING then (if ticks * 250 < 204800 then 9 else 10)
  else 0

/-- The start-up march of B3 and its verdict (R293, R294); the clears follow it. MT_TIME is the time of Table MT-4. -/
def startupMarch (reads : List MarchRead) (s : State) : State :=
  if getF s Fld.MT_CFG_STARTUP = 0 then s
  else
    let r := startupRun (getF s Fld.MT_CFG_STARTUP = 2)
    let s1 := recordRun r reads (setF Fld.MT_STATUS_ORIGIN 1 (clearResults s))
    let m := getF s1 Fld.MT_STATUS_MEM_FAIL
    setF Fld.MT_TIME_US (runTime r / 200) (setF Fld.MT_STATUS_DONE 1
      (setB Fld.MT_STATUS_HCT_OUT (m.testBit 3) (setB Fld.MT_STATUS_TRACE_OUT (m.testBit 4) s1)))

/-! ### Burning a spare-column fuse (R301, R302) -/

/-- Refused with E20? -/
def burnBad (s : State) (b k col : Nat) : Bool :=
  spareUsed s b k || spareTorn s b k || !spareGood s b k || 71 < col
    || (List.range 4).any (fun j => spareUsed s b j && (steerEntry s b j).toNat % 128 = col)

/-- Refused with E50? -/
def burnMode (s : State) : Bool := !inService s || !coreOn s || lcState s = 4

/-- The burn starts. -/
def burnStart (b k col : Nat) (s : State) : State :=
  setF Fld.MT_STATUS_PHASE 9 (setF Fld.MT_STATUS_BURNING 1 (setF Fld.MT_STATUS_BUSY 1
    { s with mt := { s.mt with burn := some (b, k, col), start := s.aon } }))

/-- Burn, verify and switch; the fuses in `stuck` did not blow. Fuses cannot be unblown; an entry that fails its verify is torn
at the next P1 (R302). -/
def burnEnd (stuck : BitVec 9) (s : State) : State :=
  match s.mt.burn with
  | none => s
  | some (b, k, col) =>
    let key := b * 4 + k
    let f := blowFuses key (fuseEntry col &&& ~~~stuck) s.fuses
    let ok := smGet (zeroDefault 9) f.spares key = fuseEntry col
    let spoilt := s.fuses.spoilt.filter (· ≠ key)
    let s1 := { s with fuses := { f with spoilt := if ok then spoilt else key :: spoilt }, mt := { s.mt with burn := none } }
    let s2 := if ok then { s1 with mt := { s1.mt with
        steer := smSet (zeroDefault 9) s1.mt.steer key (fuseEntry col), torn := s1.mt.torn.filter (· ≠ key) } } else s1
    setF Fld.MT_STATUS_PHASE 0 (setF Fld.MT_STATUS_BURNING 0 (setF Fld.MT_STATUS_BUSY 0
      (setB Fld.MT_STATUS_BURN_FAIL (!ok) s2)))

/-! ### The commands -/

/-- MARCH_START (R295): ignored while busy or where the mode forbids the run. -/
def execMarchStart (s : State) : Host.Outcome State Fault Refusal := .next (marchStart s)

/-- MARCH_ABORT (R304): ignored during a burn. `reads`: what the arrays
returned, up to the word it stopped at, where that is not what a read expects. -/
def execMarchAbort (reads : List MarchRead) (s : State) : Host.Outcome State Fault Refusal :=
  .next (marchEnd true reads s)

/-- MARCH_DONE (R298). -/
def execMarchDone (reads : List MarchRead) (s : State) : Host.Outcome State Fault Refusal :=
  .next (marchEnd false reads s)

/-- BURN_GO (R301): a refused write is ignored. -/
def execBurnGo (bank : BitVec 4) (spare : BitVec 2) (col : BitVec 7) (s : State) : Host.Outcome State Fault Refusal :=
  .next (if burnMode s || flag s Fld.MT_STATUS_BUSY || saving s || burnBad s bank.toNat spare.toNat col.toNat then s
    else burnStart bank.toNat spare.toNat col.toNat s)

/-- BURN_DONE (R302). -/
def execBurnDone (stuck : BitVec 9) (s : State) : Host.Outcome State Fault Refusal := .next (burnEnd stuck s)

end Sys2Proof.Machine
end

