-- ==== Sys2Proof/Machine/Save.lean ====
section
/-! DEFINITION. Saving (Chapter 15): triggers, the SAVE pair, steps S0 to S7, the SERVICE entry that shares S1 to
S4 (R63), and DORMANT (R61). -/

namespace Sys2Proof.Machine

/-! ### Shared helpers -/

/-- Disarm FC_INJ (R423). -/
def injClear (s : State) : State :=
  setF Fld.FC_INJ_HCT 0 (setF Fld.FC_INJ_LD_ARM 0 (setF Fld.FC_INJ_KP_ARM 0 (setF Fld.FC_INJ_CA_N 0
    (setF Fld.FC_INJ_TW_N 0 s))))

/-- Microseconds since an AON time, saturated to a width. -/
def usSince (w : Nat) (s : State) (past : Time) : Nat := sat (2 ^ w - 1) (ticksSince s.aon past / 4)

/-- PS_STATUS.STEP of the running save, and moving it on. -/
def saveStep (s : State) : Nat := getF s Fld.PS_STATUS_STEP
def setStep (n : Nat) (s : State) : State := setF Fld.PS_STATUS_STEP n s

/-- Does a save run (R333)? A SERVICE entry is not one. -/
def inSave (s : State) : Bool := flag s Fld.PS_STATUS_SAVING

/-- FS 36, once per save (R344). `step` is 0 to 7 for S0 to S7. -/
def overrun (step : Nat) (s : State) : State :=
  if flag s Fld.PS_STATUS_OVERRUN then s
  else raise 36 (step * 2 ^ 32 + usSince 32 s s.ps.s0) (setF Fld.PS_STATUS_OVERRUN 1 s)

/-! ### Triggers (R327, R333) -/

/-- Can a trigger start a save: in RUN unless it waits, and in SERVICE (R327). -/
def saveable (s : State) : Bool :=
  s.boot = .up && !inSave s && ((inRun s && !flag s Fld.PM_MODE_WAITING) || inService s)

/-- S0 begins: the cause and the AON time are latched, the last save's flags fall (Table SV-7). A SERVICE entry
that runs is taken over (DEDUCED, log entry 22). -/
def saveBegin (cause : Nat) (fs32 : Bool) (s : State) : State :=
  let keep := (reg s Fld.PS_STATUS_STEP.addr).toNat / 2 ^ 30 % 2 * 2 ^ 30
  let w := 2 ^ 31 + keep + b2n fs32 * 2 ^ 28 + cause * 2 ^ 16 + 1
  let s1 := setReg Fld.PS_STATUS_STEP.addr (BitVec.ofNat 32 w) (setF Fld.PM_MODE_SAVING 1 s)
  setF Fld.PS_IN_DISC_RUN 0 { s1 with ps := { s1.ps with s0 := s1.aon } }

/-- A trigger with its cause code: it starts a save, or is traced and ignored while one runs. -/
def saveTrigger (cause : Nat) (s : State) : State :=
  if saveable s then saveBegin cause false s
  else if inSave s then trace 0x0106 cause s else s

/-! ### The SAVE pair (R328 to R330) -/

/-- FS 32 and its save: the timer of channel `ch` expired after `n` ticks. -/
def discExpire (ch n : Nat) (s : State) : State :=
  let s1 := setF Fld.PS_DISC_EXPIRED 1 (setF Fld.PS_DISC_CHANNEL ch (setF Fld.PS_DISC_TICKS n s))
  saveBegin 0x02 true (raise 32 (ch * 0x10000 + n) s1)

/-- Row 5: the assertion is ignored. -/
def discIgnore (ch n : Nat) (s : State) : State :=
  trace 0x0105 (n * 0x10000 + ch) (incF Fld.PS_DISC_COUNT (setF Fld.PS_DISC_EXPIRED 0
    (setF Fld.PS_DISC_CHANNEL ch (setF Fld.PS_DISC_TICKS n (setF Fld.PS_IN_DISC_RUN 0 s)))))

/-- Start the timer for a channel. -/
def discStart (ch : Nat) (s : State) : State :=
  setF Fld.PS_IN_DISC_RUN 1 (setF Fld.PS_IN_DISC_CH ch (setF Fld.PS_IN_DISC_TICKS 0 s))

/-- Table SV-2 at one tick. A running timer has one more tick behind it than its register shows, so that TICKS
ticks of assertion expire it (R329, log entry 23). -/
def savePair (low0 low1 : Bool) (s : State) : State :=
  let run := flag s Fld.PS_IN_DISC_RUN
  let ch := getF s Fld.PS_IN_DISC_CH
  let n := getF s Fld.PS_IN_DISC_TICKS + 1
  let mine := if ch = 0 then low0 else low1
  if low0 && low1 then saveBegin 0x02 false s
  else if !run then (if low0 then discStart 0 s else if low1 then discStart 1 s else s)
  else if mine then
    if getF s Fld.PS_TDSC_TICKS ≤ n then discExpire ch n s else setF Fld.PS_IN_DISC_TICKS n s
  else if low0 || low1 then discStart (1 - ch) s
  else discIgnore ch n s

/-- The recognised levels and the entry of their change. -/
def saveLevels (low0 low1 : Bool) (s : State) : State :=
  let s1 := setB Fld.PS_IN_SAVE0_LOW low0 (setB Fld.PS_IN_SAVE1_LOW low1 s)
  if flag s Fld.PS_IN_SAVE0_LOW = low0 ∧ flag s Fld.PS_IN_SAVE1_LOW = low1 then s1
  else trace 0x0101 (b2n (!low0) + b2n (!low1) * 2) s1

/-- One tick of the pair: where no save can start the timer does not run (R333, R351); during a save a new
recognition is traced. -/
def savePairTick (low0 low1 : Bool) (s : State) : State :=
  let was := flag s Fld.PS_IN_SAVE0_LOW && flag s Fld.PS_IN_SAVE1_LOW
  let s1 := saveLevels low0 low1 s
  if saveable s1 then savePair low0 low1 s1
  else
    let s2 := setF Fld.PS_IN_DISC_RUN 0 s1
    if inSave s && low0 && low1 && !was then trace 0x0106 0x02 s2 else s2

/-! ### S0 and S1 -/

/-- The nonce of R337. -/
def formNonce (s : State) : State :=
  setF Fld.PS_NONCEH_NONCE_HI ((getF s Fld.PS_SEALNO_SEALNO + 1) % 2 ^ 32)
    (setF Fld.PS_NONCEL_NONCE_LO (s.ps.s0.toNat % 2 ^ 32) s)

/-- Is the device at the end of a bring-up or restore sequence that a save now stops? -/
def bringingUp (s : State) : Bool := s.rs.path = .coldReady
def restoreStopped (s : State) : Bool := s.rs.path = .restoreReady || s.rs.path = .serviceReady

/-- The save message (R331): once, at the start of S2. -/
def saveMessage (s : State) : State :=
  let c := getF s Fld.PS_STATUS_CAUSE
  if twinEn s && inSave s && c ≠ 0x03 then sendFlit (.save (BitVec.ofNat 8 c) s.ps.s0) s else s


/-- `mode service` is accepted (R63): S1 of the entry begins, with a nonce of its own (R65). -/
def serviceBegin (s : State) : State :=
  let s1 := formNonce { s with ps := { s.ps with s0 := s.aon, entry := 2 } }
  setF Fld.PM_MODE_SAVING 1 { s1 with tw := { s1.tw with twinNew := false, holdNew := false, moduleDue := false } }

/-- The end of S1 (R335): the host interface is blocked, RDY falls, the engines and a march stop. -/
def blockHost (reads : List MarchRead) (s : State) : State :=
  let s1 := stopEngines (marchEnd true reads s)
  let s2 := setF Fld.CA_STATUS_SAVE_BLOCK 1 s1
  { s2 with
    pins := { s2.pins with rdy := false, halertBusy := false, halertOwed := false },
    ca := { s2.ca with slot := .deselect, arm := .none, probing := 0, probeDue := 0, grantPend := none, clearing := false },
    cb := { s2.cb with storing := false }, dl := { s2.dl with writtenS1 := 0 } }

/-- S1 of a save has ended: S2 begins with the save message. -/
def saveS2 (s : State) : State := saveMessage (setStep 3 { s with ps := { s.ps with s1Ended := true } })

/-- Has S1 zero length: the host is not served, as during bring-up or a restore, in the park and in SERVICE (R333, R335,
Chapters 3 and 4)? -/
def noHost (s : State) : Bool := inTrain s || parked s || inService s

/-- S0 (Table SV-3). It goes on with S1, or with S2 where S1 has ended in a SERVICE entry or has zero length. -/
def saveS0 (s : State) : State :=
  let s1 := twinSaveBegin (injClear (formNonce s))
  let s2 := setB Fld.PS_STATUS_IN_BRINGUP (bringingUp s) (setF Fld.PM_MODE_RESTORING 0 s1)
  let s3 := conEvent false "! save begin" { s2 with ps := { s2.ps with entry := 0 } }
  if s.ps.entry = 3 then saveS2 s3
  else if noHost s then saveS2 (blockHost [] (marchStop s3))
  else setStep 2 s3

/-! ### S2 to S4 -/

/-- The most REFab commands that JESD79-5 lets a rank owe (PRESUMED, log entry 24). -/
def debtMax : Nat := 4

/-- A REFab is given to a rank. -/
def markRefresh (r : Nat) (s : State) : State :=
  { s with ca := { s.ca with refAt := smSet (zeroDefault 49) s.ca.refAt r (BitVec.ofNat 49 (2 ^ 48 + s.aon.toNat)) } }

/-- The refresh debt of a rank (R336): 3.9 µs intervals since its last REFab, less one. -/
def refreshDebt (s : State) (r : Nat) : Nat :=
  let t := smGet (zeroDefault 49) s.ca.refAt r
  if t.getLsbD 48 then min debtMax (ticksSince s.aon (BitVec.ofNat 48 t.toNat) * 250 / 3900 - 1) else debtMax

/-- The ranks that the DRAM side reaches. -/
def reachable (s : State) : List Nat := if dioOn s then popRanks s else []

/-- The REFab commands of the debts, ranks in turn. -/
def debtCmds (s : State) (ranks : List Nat) : List OwnCmd :=
  (List.range debtMax).flatMap (fun i => (ranks.filter (fun r => i < refreshDebt s r)).map OwnCmd.refab)

/-- S2: open banks closed, the debt paid. -/
def drain (s : State) : State :=
  let live := (reachable s).filter (fun r => !inSr s r)
  let cmds := (live.filter (rankOpen s)).map OwnCmd.preab ++ debtCmds s live
  let s1 := live.foldl (fun t r => if refreshDebt s r = 0 then t else markRefresh r t) s
  let s2 := setF Fld.CA_STATUS_GRANT 0 (setReg Fld.CA_GRANT_ACTIVE.addr 0 (trackClosed (fun _ => true) (issue cmds s1)))
  setF Fld.CA_APSTAT_OPEN 0 (setF Fld.CA_APSTAT_ROW 0 s2)

/-- The ranks whose canaries are written: none without a clock in the park, only the warm ones of a stopped
restore (R337, Chapters 3 and 4). -/
def canaryRanks (s : State) : List Nat :=
  if parked s && flag s Fld.CK_STATUS_XOSC_FAIL then []
  else if restoreStopped s then (reachable s).filter (fun r => s.rs.warm.testBit r)
  else reachable s

/-- The ranks that get COLD_MARK in S3. -/
def canaryCold (s : State) : List Nat :=
  if parked s && flag s Fld.CK_STATUS_XOSC_FAIL then popRanks s
  else if restoreStopped s then (popRanks s).filter (fun r => !s.rs.warm.testBit r)
  else []

/-- The PRBS-31 bytes of a canary row's lane (R337). -/
def canaryLane (nonce : Dword) (rank row lane : Nat) : List Byte := prbsBytes 1024 (canarySeed nonce rank row lane)

/-- S3: canaries. -/
def canaries (s : State) : State :=
  let ranks := canaryRanks s
  let out := (ranks.filter (inSr s)).map OwnCmd.srx
  let s1 := issue (out ++ ranks.flatMap (fun r => [.canary r 0, .canary r 1])) s
  let s2 := setF Fld.PS_STATUS_CANARY (ofBits ranks) { s1 with dl := { s1.dl with writtenS1 := s1.dl.writtenS1 ||| ofBits ranks } }
  setF Fld.PM_RANK_COLD_MARK (getF s Fld.PM_RANK_COLD_MARK ||| ofBits (canaryCold s)) s2

/-- S4: self-refresh, and once every populated rank is in it the hold island's levels (R36, R338). -/
def selfRefresh (s : State) : State :=
  let ranks := reachable s
  let s1 := issue (ranks.map OwnCmd.sre) s
  let s2 := setF Fld.PM_RANK_SR_STATE (getF s Fld.PM_RANK_SR_STATE ||| ofBits ranks) s1
  takeIsland (if (popRanks s2).all (inSr s2) then setIsland .selfRefresh s2 else s2)

/-- Is everything in flight finished (R336)? -/
def drained (s : State) : Bool :=
  s.dl.writes.all (fun o => o.kind = .dropped) && s.dl.reads.isEmpty && s.ld.ops.isEmpty

/-- PD_CORE and the PHYs switch off; what they held is gone (R54, R423), and the HPLL with them (Table CK-1). -/
def coreDown (s : State) : State :=
  hpllOff (setF Fld.PM_DOMAIN_CORE 0 (setF Fld.PM_DOMAIN_HIO 0 (setF Fld.PM_DOMAIN_DIO 3 (takeIsland (injClear (coreReset s))))))

/-- In SERVICE with PGOOD low PD_CORE and the PHYs are off (Table PM-3, R69); a march that runs ends (log entry 31). -/
def serviceDown (s : State) : State :=
  coreDown (marchStop { s with ld := { s.ld with mirrorHeld := flag s Fld.LD_STATUS_MIRROR_IN_FORCE } })

/-- SERVICE is entered at the end of the entry's S4 (R63); with PGOOD low already its domains go off (R54). -/
def serviceEnter (s : State) : State :=
  let s1 := transition modeService 0 0x09 (setF Fld.PM_MODE_SAVING 0 { s with ps := { s.ps with entry := 0 } })
  let s2 := completeTokens tokService "ok" s1
  if s.pins.pgood then s2 else serviceDown s2

/-- S2 to S4 of a save or a SERVICE entry. -/
def drainDone (s : State) : State :=
  let s1 := selfRefresh (canaries (drain s))
  if s.ps.entry = 3 then serviceEnter s1
  else setStep 5 (setF Fld.PS_TS4_US (usSince 24 s s.ps.s0) s1)

/-! ### S5 and S6 -/

/-- FS 49, FS 52 or FS 53 was collected while the Steward carries the save: no more is written (R339, R340). -/
def stewardLost (s : State) : State :=
  let begun := match s.kp.commit with
    | none => false
    | some c => c.kind = 0 && getF s Fld.KP_PSEQ_SEQ = c.pseq && !flag s Fld.PS_STATUS_UNRECORDED
  let s1 := setF Fld.PS_STATUS_NO_STEWARD 1 (overrun (saveStep s - 1) s)
  let s2 := if begun then s1 else setF Fld.PS_STATUS_UNRECORDED 1 s1
  setStep 8 (commitEnd s2)

/-- What a collection of FS 49, FS 52 or FS 53 does to a save. -/
def stewardStopped (s : State) : State :=
  if inSave s && (saveStep s = 6 || saveStep s = 7) then stewardLost s else s

/-- S5, C1 to C3: a running checkpoint is taken over with its slot (R320). -/
def saveCommit (flips : List (Nat × BitVec 72)) (s' : State) : State :=
  let s := clearTested s'
  let s0 := { s with sw := { s.sw with tookOver := true } }
  if flag s Fld.PS_STATUS_IN_BRINGUP then setStep 6 s0
  else
    let cause := getF s Fld.PS_STATUS_CAUSE
    let slot := match s.kp.commit with
      | some c => c.slot
      | none => commitSlot s
    let old := s.kp.commit
    let s1 := setF Fld.KP_STATUS_CHECKPOINT 0 (commitBegin 0 slot cause flips s0)
    let s2 := match old, s1.kp.commit with
      | some o, some c => { s1 with kp := { s1.kp with commit := some { c with lines := o.lines, poison := o.poison } } }
      | _, _ => s1
    setStep 6 (commitLines flips s2)

/-- Is the replica lag drained, or its drain abandoned (R341, R394)? -/
def lagDone (s : State) : Bool :=
  !flag s Fld.TW_STATUS_REPL_RUN || flag s Fld.TW_STATUS_RESYNC_HELD || flag s Fld.TW_STATUS_LAG_DRAINED

/-- S6 of a save that has a commit (R343). -/
def saveSeal (c : Commit) (flips : List (Nat × BitVec 72)) (s : State) : State :=
  let s1 := spillTrace flips (commitMaps c flips (setF Fld.PS_LINES_LINES (sat 0xFFFF c.lines.length) s))
  let k := garnetKey 1 s1
  let s2 := commitSeal c k.1 flips (setB Fld.PS_STATUS_NO_KEY k.1.isNone k.2)
  conEvent false "! save sealed" (commitEnd s2)

/-- The end of S5 and S6. -/
def saveFinish (flips : List (Nat × BitVec 72)) (s : State) : State :=
  let s1 := setF Fld.PS_TS5_US (usSince 24 s s.ps.s0) (commitLines flips s)
  let s2 := match s1.kp.commit with
    | none => s1
    | some c => if c.kind = 0 then saveSeal c flips s1 else s1
  setStep 8 (setF Fld.PS_TS6_US (usSince 24 s s.ps.s0) s2)

/-! ### S7 (R59, Table PM-5) -/

/-- The tags of every bank and bitmap, as the ledger moves to retention (R262). -/
def writeTags (s : State) : State := (List.range 18).foldl (fun t k => writeTag k t) s

/-- Bit `b` of a reaction set (Table FC-1). -/
def rxIrq : Nat := 0
def rxNmt : Nat := 1
def rxBlk : Nat := 2
def rxChip : Nat := 3
def rxPin : Nat := 4

/-- Has FC_CFG.CHIPRST_MAX been reached (R408)? -/
def chipLimited (s : State) : Bool :=
  flag s Fld.FC_CFG_CHIPRST_MAX && getF s Fld.FC_CFG_CHIPRST_MAX ≤ getF s Fld.FC_STATUS_RST_COUNT

/-- The device resets for a collection of source `n` (R407): counted, with its report owed after the start-up
phase. -/
def faultReset (n : Nat) (s : State) : State :=
  let s1 := incF Fld.FC_STATUS_RST_COUNT s
  chipReset { s1 with fc := { s1.fc with resetReport := some n } }

/-- At the end of S7 deferred NMT and BLKRST are discarded; CHIPRST is held in PD_AON (R346). -/
def keepDeferred (s : State) : State :=
  let chip := (s.fc.deferred.filter (fun d => d.2.testBit rxChip)).map (fun d => (d.1, 2 ^ rxChip))
  setB Fld.PS_STATUS_DEFER_CHIPRST (!chip.isEmpty || flag s Fld.PS_STATUS_DEFER_CHIPRST)
    { s with fc := { s.fc with deferred := chip } }

/-- PD_CORE and the PHYs off, PD_MGT off: ERR_N holds the level it had (R29). The always-on logic goes on counting
HCK against the rate sets of the configuration record and sampling HRST_N (log entry 25). -/
def powerDown (s0 : State) : State :=
  let s := sessionEnd s0
  let lvl := errnLow s
  let ck := BitVec.ofNat 32 ((reg s Fld.CK_STATUS_XOSC_RUN.addr).toNat &&& 0x2C0)
  let s1 := setReg Fld.CK_HCKCNT_COUNT.addr (reg s Fld.CK_HCKCNT_COUNT.addr)
    (setReg Fld.CK_STATUS_XOSC_RUN.addr ck (loadClass .mgt (mgtReset (coreReset s))))
  setDomains (if getF s Fld.PM_DOMAIN_LDG = 1 then 2 else getF s Fld.PM_DOMAIN_LDG) 0 0 0 3
    { s1 with pins := { s1.pins with errHeld := some lvl } }

/-- PM_DORM expires: the tag copy is cleared, PD_LDG is off and Garnet is lost (R61, R352). -/
def goDormant (s : State) : State :=
  let s1 := transition modeDormant 0 0x06 (wipeGarnet (clearLedger (setF Fld.PM_DOMAIN_LDG 0 s)))
  { s1 with ld := { s1.ld with tags := [], tagCopy := [] }, ps := { s1.ps with dormAt := some s1.aon } }

/-- The end of S7: mode HOLD, HOLDACK high; with PM_DORM 0 DORMANT at once. -/
def enterHold (s : State) : State :=
  let s1 := setStep 15 (setF Fld.PS_STATUS_SAVING 0 (setF Fld.PS_TS7_US (usSince 24 s s.ps.s0)
    (setF Fld.PM_MODE_SAVING 0 (keepDeferred s))))
  let s2 := transition modeHold 0 (getF s Fld.PS_STATUS_CAUSE) s1
  let s3 := { s2 with
    pins := { s2.pins with holdack := true }, tr := { s2.tr with s7Time := some s2.aon },
    ps := { s2.ps with holdAt := some s2.aon, dormAt := none }, rs := { s2.rs with path := .idle } }
  if getF s Fld.PM_DORM_DORMANT_AFTER = 0 then goDormant s3 else s3

/-- S7. The twin gets a BYE first (R380). -/
def saveHold (s : State) : State :=
  let s1 := sendFlit .bye s
  let s2 := if getF s Fld.PM_DOMAIN_LDG = 1 then writeTags s1 else s1
  enterHold (powerDown s2)

/-! ### The commands -/

/-- SAVE_PAIR_SAMPLE (R328): the recognised levels at one tick. -/
def execSavePairSample (save0Low save1Low : Bool) (s : State) : Host.Outcome State Fault Refusal :=
  .next (if s.boot = .held then s else savePairTick save0Low save1Low s)

/-- DISCREPANCY_EXPIRY (R328, row 3). -/
def execDiscrepancyExpiry (s : State) : Host.Outcome State Fault Refusal :=
  .next (if saveable s && flag s Fld.PS_IN_DISC_RUN && s.boot = .up
    then discExpire (getF s Fld.PS_IN_DISC_CH) (getF s Fld.PS_TDSC_TICKS) s else s)

/-- SAVE_NOW (R332). -/
def execSaveNow (s : State) : Host.Outcome State Fault Refusal := .next (if mgtOn s then saveTrigger 0x04 s else s)

/-- SAVE_RECOGNISED (R334). -/
def execSaveRecognised (s : State) : Host.Outcome State Fault Refusal :=
  .next (if inSave s && saveStep s = 1 then saveS0 s else s)

/-- QUIESCE_END (R335). `reads`: what the arrays had returned to a march that this ends. -/
def execQuiesceEnd (reads : List MarchRead) (s : State) : Host.Outcome State Fault Refusal :=
  .next (if inSave s && saveStep s = 2 then saveS2 (blockHost reads s)
    else if !inSave s && s.ps.entry = 2 then
      let s1 := blockHost reads s
      { s1 with ps := { s1.ps with entry := 3 } }
    else s)

/-- DRAIN_DONE (R336 to R338): once everything in flight is finished. -/
def execDrainDone (s : State) : Host.Outcome State Fault Refusal :=
  .next (if drained s && ((inSave s && saveStep s = 3) || (!inSave s && s.ps.entry = 3)) then drainDone s else s)

/-- SAVE_COMMIT_START (R341): the Steward takes over S5. -/
def execSaveCommitStart (flips : List (Nat × BitVec 72)) (s : State) : Host.Outcome State Fault Refusal :=
  .next (if inSave s && saveStep s = 5 && !s.sw.halted && flag s Fld.CK_STATUS_MCLK_LOCK then saveCommit flips s else s)

/-- STEWARD_TAKEOVER_TIMEOUT (R339). -/
def execStewardTakeoverTimeout (s : State) : Host.Outcome State Fault Refusal :=
  .next (if inSave s && saveStep s = 5 then
      setStep 8 (setF Fld.PS_STATUS_UNRECORDED 1 (setF Fld.PS_STATUS_NO_STEWARD 1 (overrun 5 (clearTested s))))
    else s)

/-- COMMIT_LINES_DONE (R343): S6, once no line is marked and the lag is drained. -/
def execCommitLinesDone (flips : List (Nat × BitVec 72)) (s : State) : Host.Outcome State Fault Refusal :=
  .next (if inSave s && saveStep s = 6 && lagDone s then saveFinish flips s else s)

/-- SEAL_DONE (R59): S7. -/
def execSealDone (s : State) : Host.Outcome State Fault Refusal :=
  .next (if inSave s && saveStep s = 8 then saveHold s else s)

/-- SAVE_DEADLINE_OVERRUN (R344). -/
def execSaveDeadlineOverrun (s : State) : Host.Outcome State Fault Refusal :=
  .next (if inSave s then overrun (saveStep s - 1) s else s)

/-- Has PM_DORM expired: that many seconds of the AON timer since the end of S7, never with 0xFFFF (R61)? PM_DORM cannot be
written in HOLD, so that the value is the one in force at S7 (R62). -/
def dormantDue (s : State) : Bool :=
  getF s Fld.PM_DORM_DORMANT_AFTER ≠ 0xFFFF
    && s.ps.holdAt.any (fun h => getF s Fld.PM_DORM_DORMANT_AFTER * ticksPerS ≤ ticksSince s.aon h)

/-- DORMANT_ENTRY (R61). -/
def execDormantEntry (s : State) : Host.Outcome State Fault Refusal :=
  .next (if mode s = modeHold && dormantDue s then goDormant s else s)

end Sys2Proof.Machine
end

