-- ==== Sys2Proof/Machine/CommandPath.lean ====
section
/-! DEFINITION. The command and address path (Chapter 5): reception, parity, the paths of Table CA-1, tracking,
buffer control words, the aperture, reserved rows, probes, grants and the parity block; boundaries (Table CB-3). -/

namespace Sys2Proof.Machine

/-! ### Boundaries -/

/-- The bank of an aperture register value is tracked as precharged. -/
def aperClosed (s : State) (v : Nat) : Bool := (openRow s (natBits v 29 28) (natBits v 26 24) (natBits v 21 20)).isNone

/-- CA_APSTAT follows the aperture in force and the tracked row of its bank. -/
def apstat (s : State) : State :=
  let row := openRow s (getF s Fld.CA_APER_RANK) (getF s Fld.CA_APER_BG) (getF s Fld.CA_APER_BANK)
  let s1 := setB Fld.CA_APSTAT_IN_FORCE (flag s Fld.CA_APER_EN) s
  match row with
  | none => setF Fld.CA_APSTAT_OPEN 0 (setF Fld.CA_APSTAT_ROW 0 s1)
  | some r =>
    let hit := (aperOffset s (getF s Fld.CA_APER_RANK) (getF s Fld.CA_APER_BG) (getF s Fld.CA_APER_BANK) r).isSome
    setB Fld.CA_APSTAT_OPEN hit (setF Fld.CA_APSTAT_ROW (if hit then r else 0) s1)

/-- Is CA_APER committed and waiting? -/
def aperWaits (s : State) : Bool := s.committed.any (fun e => e.1 = Fld.CA_APER_EN.addr)

/-- A boundary with the old and the new aperture bank precharged and no op slot executing: committed aperture
fields come into force (R112, R113). -/
def aperBoundary (s : State) : State :=
  let old := (reg s Fld.CA_APER_EN.addr).toNat
  let new := (committedReg s Fld.CA_APER_EN.addr).toNat
  if aperWaits s && aperClosed s old && aperClosed s new && s.ld.ops.isEmpty then
    apstat (clShort (applyCommitted (fun a => a = Fld.CA_APER_EN.addr) s))
  else s

/-- Does a commit wait for a boundary (R469)? Values for a later bring-up or restore do not count. -/
def commitPending (s : State) : Bool := s.committed.any (fun e => isTrim e.1 || e.1 = Fld.CA_APER_EN.addr)

/-- The last committed value came into force: a deferred commit completes. -/
def commitSettle (s : State) : State := if commitPending s then s else completeTokens tokCommit "ok" s

/-- The Lane Guard changes of a rank at its boundary (R568); before hand-back they wait for it (R173). Where several fall due at
one boundary of a rank the spec gives no order: the erasure comes first, then the second failure, then an accepted readmission
(DESIGN CHOICE, log entry 64). -/
def guardRank (r : Nat) (s : State) : State :=
  if inTrain s then s else readmitEffect r (secondEffect r (erasureEffect r s))

/-- Whatever else a boundary of any kind brings into force. -/
def everyBoundary (s : State) : State := commitSettle (aperBoundary (guardBoundary s))

/-- The boundary of a rank. -/
def boundaryRank (r : Nat) (s : State) : State := guardRank r (rankBoundary r s)

/-- The idle boundary, or a free point of the device's own sequence. -/
def boundaryAll (s : State) : State := everyBoundary (rankList.foldl (fun t r => guardRank r t) (anyBoundary s))

/-! ### Re-drive (R103) -/

/-- The slot of this command is deselect on the DRAM side; DCA holds its levels. -/
def slotDeselect (s : State) : State := { s with ca := { s.ca with slot := .deselect, dcsN := 0xF } }

/-- Does a command select a rank of a half: 0 for DCA_A (ranks 0, 1), 1 for DCA_B? -/
def onHalf (p : CaPins) (h : Nat) : Bool := (selected p).any (fun r => r / 2 = h)

/-- The levels of the last cycle. -/
def lastCycle (p : CaPins) : BitVec 14 := if p.two then p.hca2 else p.hca1

/-- Forward a command 1 tCK later. The copy of a half without a populated rank stays static (Table BS-13). -/
def forward (p : CaPins) (s : State) : State :=
  let l := lastCycle p
  let moves := fun h => halfUsed s h && (onHalf p h || !flag s Fld.CA_CFG_QUIET)
  { s with ca := { s.ca with
    slot := .command p, dcsN := p.hcsN,
    dcaA := if moves 0 then l else s.ca.dcaA,
    dcaB := if moves 1 then l else s.ca.dcaB } }

/-! ### Reception (R97, R99 to R102, R106) -/

/-- Is the host's command bus listened to (R91, R126, R335)? -/
def hostHeard (s : State) : Bool := served s && s.pins.rdy && !flag s Fld.CA_STATUS_SAVE_BLOCK && coreOn s

/-- Are host commands received and forwarded? The park forwards none (R92, Table CK-7). -/
def hostLive (s : State) : Bool := hostHeard s && !parked s

/-- A command that fails parity (R100, R101). -/
def parityFail (p : CaPins) (s : State) : State :=
  let s1 := halert 0 (raise 0 (synFs0 p) (incF Fld.CA_PCNT_COUNT (slotDeselect s)))
  let s2 := if flag s1 Fld.CA_PLOG0_VALID then s1
    else setReg Fld.CA_PLOG1_HCS_N.addr (BitVec.ofNat 32 p.hcsN.toNat)
      (setReg Fld.CA_PLOG0_VALID.addr (BitVec.ofNat 32 (2 ^ 31 + plogBits p)) s1)
  if flag s2 Fld.CA_PAR_MODE_MODE then s2 else setF Fld.CA_STATUS_PAR_BLOCKED 1 s2

/-- A command of Table CA-5. -/
def illegal (code : Nat) (p : CaPins) (s : State) : State :=
  let s1 := incF Fld.CA_ILL_COUNT (raise 1 (synFs1 code p) (slotDeselect s))
  if flag s1 Fld.CA_ILL_VALID then s1 else setF Fld.CA_ILL_VALID 1 (setF Fld.CA_ILL_SUBCODE code s1)

/-- The granted ranks while a grant is active. -/
def grantedRanks (s : State) : Nat := if flag s Fld.CA_STATUS_GRANT then getF s Fld.CA_GRANT_RANKS else 0

/-- The first subcode that a command meets, in R106's order. -/
def illCode (reserved single badMrw : Bool) (p : CaPins) (s : State) : Option Nat :=
  let sel := selected p
  if reserved then some 4
  else if sel.any (fun r => !populated s r) then some 2
  else if sel.any (fun r => (grantedRanks s).testBit r) then some 5
  else if sel.any (fun r => s.ca.probing.testBit r) then some 6
  else if single && 1 < sel.length then some 1
  else if badMrw then some 3 else none

/-- A command for a rank on which a probe was issued since the last tick: does the probe still run (R122)? That is a free
value; once it has ended the rank is free (log entry 45). -/
def probeEnds (p : CaPins) (s : State) : State :=
  let hit := ofBits ((selected p).filter (fun r => s.ca.probing.testBit r))
  if hit = 0 then s
  else if Config.probeRuns s.draws then drew s
  else drew { s with ca := { s.ca with probing := s.ca.probing &&& (15 - hit) } }

/-- Receive a host command (in the park a buffer control word only, R94, R107): deselect; a low HCS_N is sampled for the C/A
evaluation and the responder (R145, R213); then parity with injection, the parity block, illegal commands, and its effect. -/
def receive (p : CaPins) (bcw reserved single badMrw : Bool) (effect : State → State) (s0 : State) : State :=
  if !hostHeard s0 || (parked s0 && !bcw) then s0
  else if (selected p).isEmpty then slotDeselect s0
  else
    let s := probeEnds p (trainAnswer p (caSample p s0))
    let n := getF s Fld.FC_INJ_CA_N
    let s1 := if n = 0 then s else setF Fld.FC_INJ_CA_N (n - 1) s
    if n ≠ 0 || (flag s1 Fld.CA_PAR_MODE_EN && parityOdd p) then parityFail p s1
    else if flag s1 Fld.CA_STATUS_PAR_BLOCKED && !bcw then slotDeselect s1
    else match illCode reserved single badMrw p s1 with
      | some c => illegal c p s1
      | none => effect s1

/-! ### Activates, precharges, refreshes (R98, R114) -/

/-- A forwarded ACT opens its row. -/
def actEffect (p : CaPins) (bg bank row : Nat) (s : State) : State :=
  apstat (trackOpen (rankOf p) bg bank row (forward p s))

/-- A forwarded precharge closes its rows. -/
def preEffect (p : CaPins) (kind : PreKind) (bg bank : Nat) (s : State) : State :=
  let sel := selected p
  let hit := fun (k : Nat) => sel.contains (k / 32) && (match kind with
    | .pb => k % 32 = bg * 4 + bank
    | .sb => k % 4 = bank
    | .ab => true)
  apstat (trackClosed hit (forward p s))

/-- N of CA_GAP: one probe in N REFab commands. -/
def probeEvery (s : State) : Nat := if getF s Fld.CA_GAP_N = 0 then 64 else getF s Fld.CA_GAP_N

/-- The reservation in ns. -/
def reservationNs (s : State) : Nat := if flag s Fld.CA_GAP_RES then 120 else 90

/-- The length in tCK of a read probe, from the end of TRFC until the reserved bank is precharged (R570). -/
def readProbeTck (rate : Nat) (t : DramTimings) : Nat :=
  3 + max (inTck rate t.tRas) (inTck rate t.tRcd + inTck rate t.tRtp) + inTck rate t.tRp

/-- The length in tCK of a write probe (R570). -/
def writeProbeTck (rate : Nat) (t : DramTimings) : Nat :=
  3 + max (inTck rate t.tRas) (inTck rate t.tRcd + t.cwl + 8 + inTck rate t.tWr) + inTck rate t.tRp

/-- Is a number of tCK no longer than the reservation? -/
def fitsReservation (s : State) (tck : Nat) : Bool := tck * 2000 ≤ reservationNs s * activeRate s

/-- Do a read and a write probe fit the reservation (R570)? -/
def fitRead (s : State) : Bool := s.ca.timings.any (fun t => fitsReservation s (readProbeTck (activeRate s) t))
def fitWrite (s : State) : Bool := s.ca.timings.any (fun t => fitsReservation s (writeProbeTck (activeRate s) t))

/-- A REFab counts toward the probe of its rank; the probe slot of the N-th begins when TRFC has elapsed (R122). -/
def countProbe (r : Nat) (s : State) : State :=
  if !flag s Fld.CA_GAP_EN then s
  else
    let n := (smGet (zeroDefault 8) s.ca.refCount r).toNat + 1
    let due := probeEvery s ≤ n
    let s1 := { s with ca := { s.ca with
      refCount := smSet (zeroDefault 8) s.ca.refCount r (BitVec.ofNat 8 (if due then 0 else n)) } }
    if due then { s1 with ca := { s1.ca with probeDue := s1.ca.probeDue ||| (1 <<< r) } } else s1

/-- What a REFab to a rank does: banks precharged, the refresh noted, its boundary if the lanes are free. -/
def refRank (free : Bool) (r : Nat) (s : State) : State :=
  let s1 := markRefresh r (closeRank r s)
  if free then boundaryRank r s1 else s1

/-- A forwarded REFab (R122, Table CB-3). `hostFree`, `dramFree`, `rankFree`: no burst on the host lanes, on the
DRAM lanes of any rank, on the DRAM lanes of a rank now and within 16 CCLK. -/
def refEffect (p : CaPins) (hostFree dramFree : Bool) (rankFree : Nat) (s : State) : State :=
  let sel := selected p
  let s1 := sel.foldl (fun t r => countProbe r (refRank (rankFree.testBit r) r t)) (forward p s)
  let s2 := if hostFree then hostBoundary s1 else s1
  let s3 := if dramFree then commonBoundary s2 else s2
  let any := hostFree || dramFree || sel.any (fun r => rankFree.testBit r)
  apstat (if any then everyBoundary s3 else s3)

/-- A forwarded SRE. -/
def sreEffect (p : CaPins) (s : State) : State :=
  let sel := selected p
  let s1 := sel.foldl (fun t r => closeRank r t) (forward p s)
  apstat (setF Fld.PM_RANK_SR_STATE (getF s1 Fld.PM_RANK_SR_STATE ||| ofBits sel) s1)

/-- A forwarded command that the other rows do not name; a self-refresh exit ends SR_STATE. -/
def otherEffect (p : CaPins) (srx : Bool) (s : State) : State :=
  let s1 := forward p s
  if srx then (selected p).foldl (fun t r => setBitF Fld.PM_RANK_SR_STATE r false t) s1 else s1

/-! ### Reads and writes (R115 to R117, R121) -/

/-- A burst to an open reserved row is counted (R121), and spoils a gap trial when the row is a scratch row (R234). -/
def reservedHit (r idx : Nat) (write : Bool) (s : State) : State :=
  let first := getF s Fld.CA_RSVHIT_COUNT = 0
  let s1 := incF Fld.CA_RSVHIT_COUNT (setF Fld.CA_RSVHIT_LAST_RANK r (setF Fld.CA_RSVHIT_LAST_ROW idx
    (setB Fld.CA_RSVHIT_LAST_WRITE write s)))
  let s2 := if first then trace 0x0401 (reg s1 Fld.CA_RSVHIT_COUNT.addr).toNat s1 else s1
  if 2 ≤ idx then gapHit r s2 else s2

/-- Close the row of an auto-precharged bank. -/
def autoClose (auto : Bool) (r bg bank : Nat) (s : State) : State :=
  if auto then trackClosed (fun k => k = bankKey r bg bank) s else s

/-- The lane that a sweep reads shifted, for a read of rank `r` whose sweep is over but whose samplers are not yet back, as an
earlier read of the rank in flight shows (R221). -/
def sweptBefore (s : State) (r : Nat) : Option Nat :=
  (s.dl.reads.find? (fun o => o.rank = r && o.swept.isSome)).bind (·.swept)

/-- A burst that a command opens, with the mode-register settings of now. -/
def openBurst (r bg bank row col bo : Nat) (k : BurstKind) (s : State) : OpenBurst :=
  ⟨r, bg, bank, row, col, bo, k, reg s Fld.HL_SNOOP_CL.addr, sweptBefore s r⟩

/-- A burst to a DRAM row. A bank tracked as precharged has no row: row 0 stands in its place. -/
def dramAccess (p : CaPins) (bg bank col bo : Nat) (write auto : Bool) (s : State) : State :=
  let r := rankOf p
  let row := openRow s r bg bank
  let o := openBurst r bg bank (row.getD 0) col bo .dram s
  let s1 := forward p s
  let s2 := match row with
    | none => s1
    | some w => match rsvIndex s bg bank w with
      | none => s1
      | some i => reservedHit r i write s1
  let s3 := if write then { s2 with dl := { s2.dl with writes := s2.dl.writes ++ [o] } }
    else { s2 with dl := { s2.dl with reads := s2.dl.reads ++ [o] } }
  apstat (autoClose auto r bg bank s3)

/-- FS 2 for a protocol violation, once an access (Table CA-8). -/
def aperViolation (s0 : State) (l off bo : Nat) (write : Bool) (s : State) (col : Nat) : State :=
  if bo ≠ 0 then raise 2 (synFs2 (if write then 2 else 1) off col write) s
  else if write && inReplica s0 l then raise 2 (synFs2 3 off col true) s else s

/-- A burst to an open aperture row: the ledger serves it; with auto-precharge the command is forwarded too. -/
def aperAccess (p : CaPins) (bg bank row off col bo : Nat) (write auto held : Bool) (s : State) : State :=
  let r := rankOf p
  let l := off * 64 + col
  let o := openBurst r bg bank row col bo (.aperture l auto) s
  let s1 := aperViolation s l off bo write (if auto then forward p s else slotDeselect s) col
  let s2 := if write then { s1 with dl := { s1.dl with writes := s1.dl.writes ++ [o] } }
    else
      let d := hostReadLine l (countHeld (held && !flag s1 Fld.LD_STATUS_CL_SHORT) s1)
      let t := { d.2 with dl := { d.2.dl with hostRead := some (BitVec.ofNat 640 d.1), readPre := getF s Fld.HL_SNOOP_RPRE } }
      if auto then { t with dl := { t.dl with reads := t.dl.reads ++ [o] } } else t
  apstat (autoClose auto r bg bank s2)

/-- The data of a write that was dropped comes all the same, and is not received (R142). -/
def dropWrite (p : CaPins) (s : State) : State :=
  if served s && coreOn s && !parked s then
    { s with dl := { s.dl with writes := s.dl.writes ++ [openBurst (rankOf p) 0 0 0 0 0 .dropped s] } }
  else s

/-- RD, WR, RDA and WRA. -/
def access (p : CaPins) (bg bank col bo : Nat) (write auto held : Bool) (s : State) : State :=
  match openRow s (rankOf p) bg bank with
  | none => dramAccess p bg bank col bo write auto s
  | some row => match aperOffset s (rankOf p) bg bank row with
    | none => dramAccess p bg bank col bo write auto s
    | some off => aperAccess p bg bank row off col bo write auto held s

/-- A WR or WRA: where it opens no burst it was dropped. -/
def receiveWrite (p : CaPins) (bg bank col bo : Nat) (auto : Bool) (s : State) : State :=
  let t := receive p false false true false (access p bg bank col bo true auto false) s
  if !(selected p).isEmpty && t.dl.writes = s.dl.writes then dropWrite p t else t

/-! ### Buffer control words (R107 to R110) -/

/-- Raise FS 3 for an access to a word of the page in force. -/
def bcwError (grant mrr : Bool) (word data : Nat) (s : State) : State :=
  raise 3 (synFs3 false grant mrr s.ca.page word data) s

/-- Any BCW command but SAVE_GO breaks a pending arm (R109). -/
def breakArm (s : State) : State :=
  if s.ca.arm = .armed then { s with ca := { s.ca with arm := .broken } } else s

/-- End the parity block 16 tCK from now (R101). -/
def unblock (s : State) : State :=
  if flag s Fld.CA_STATUS_PAR_BLOCKED then { s with ca := { s.ca with clearing := true } } else s

/-- SAVE_ARM. R109 does not say what a second write of 0x53 does to an arm that is pending: it takes its place, and no FS 3 is
raised for the first. An arm that another BCW command has broken raises its FS 3 as its 64 tCK lapse (DESIGN CHOICE, log
entry 61). -/
def saveArm (data : Nat) (s : State) : State :=
  if data = 0x53 then { s with ca := { s.ca with arm := .armed } }
  else bcwError false false 0 data { s with ca := { s.ca with arm := .none } }

/-- SAVE_GO: a save with cause 0x05, or only a trace entry with BCW_EN = 0 (Table SV-1). -/
def saveGo (data : Nat) (s : State) : State :=
  let s1 := { s with ca := { s.ca with arm := .none } }
  if data = 0x56 && s.ca.arm = .armed then
    if flag s Fld.PS_CTRL_BCW_EN then saveTrigger 0x05 s1 else trace 0x0106 0x05 s1
  else bcwError false false 1 data s1

/-- GRANT_LEN: a grant 16 tCK later, or a refusal (R123). While one waits its 16 tCK a second is refused as if a grant were
active, and the ranks are those of GRANT_RANK as the grant starts (DESIGN CHOICE, log entry 61). -/
def grantLen (data : Nat) (s : State) : State :=
  let ranks := s.ca.grantRank &&& rankEn s
  let refused := flag s Fld.CA_STATUS_GRANT || s.ca.grantPend.isSome || ranks = 0 || 5 < data % 8
    || rankList.any (fun r => ranks.testBit r && rankOpen s r)
  if refused then bcwError true false 1 data s
  else { s with ca := { s.ca with grantPend := some (data % 8) } }

/-- An MRW to word `w` of the page in force. -/
def bcwWrite (w data : Nat) (s : State) : State :=
  let pg := s.ca.page
  if pg = 1 && w = 1 then saveGo data s
  else if pg = 1 && w = 0 then saveArm data s
  else
    let s1 := breakArm s
    if w = 15 then
      if data ≤ 4 then { s1 with ca := { s1.ca with page := data } } else bcwError false false 15 data s1
    else if pg = 2 && w = 0 then { s1 with ca := { s1.ca with grantRank := data % 16 } }
    else if pg = 2 && w = 1 then grantLen data s1
    else if pg = 3 && w = 0 then setF Fld.CA_STATUS_APLOCK (data % 2) s1
    else if pg = 3 && w = 1 then (if data = 1 then unblock s1 else bcwError false false 1 data s1)
    else if pg = 4 && w = 1 then
      if data % 8 ≤ 4 then { s1 with dl := { s1.dl with sel := data % 8 } } else bcwError false false 1 data s1
    else if pg = 4 && w = 5 then resumeLanes { s1 with dl := { s1.dl with hold := data.testBit 0 } }
    else bcwError false false w data s1

/-- GUARD of Table CA-6. -/
def guardWord (s : State) : Nat :=
  b2n (rankList.any (rankPl s)) * 128 + b2n (flag s Fld.LG_STATUS_HCT_LOADED) * 64
    + ofBits ((rankList.filter (rankErased s)).map (erasedLane s))

/-- The value of word `w` of the page in force; `none` where it is no MRR word (Tables CA-6 and DP-4). -/
def bcwValue (s : State) (w : Nat) : Option Nat :=
  if w = 15 then some s.ca.page
  else match s.ca.page, w with
    | 0, 0 => some 0x00
    | 0, 1 => some 0x68
    | 0, 2 => some 0x01
    | 0, 3 => some (b2n (errnLow s) * 128 + sub s * 16 + mode s)
    | 0, 4 => some s.ca.restoreWord
    | 0, 5 => some (guardWord s)
    | 0, 6 => some s.ca.alerts
    | 2, 0 => some s.ca.grantRank
    | 2, 2 => some (b2n (flag s Fld.CA_STATUS_GRANT))
    | 3, 0 => some (b2n (flag s Fld.CA_STATUS_APLOCK))
    | 3, 2 => some (sat 127 (getF s Fld.CA_PCNT_COUNT) * 2 + b2n (flag s Fld.CA_STATUS_PAR_BLOCKED))
    | 4, w => responderWord s w
    | _, _ => none

/-- The value returned to the host: every host lane carries the same burst (R148). -/
def mrrAnswer (v : Nat) (s : State) : State :=
  let b := (Config.mrrLane (BitVec.ofNat 8 v)).toNat
  { s with dl := { s.dl with
      hostMrr := some (BitVec.ofNat 8 v), hostRead := some (BitVec.ofNat 640 (ofHostLanes (List.replicate 5 b))),
      readPre := getF s Fld.HL_SNOOP_RPRE } }

/-- An MRR of word `w`; a read of ALERTS clears it. -/
def bcwRead (p : CaPins) (w : Nat) (s : State) : State :=
  let s1 := breakArm s
  if 1 < (selected p).length then mrrAnswer 0 (bcwError false true w 0 s1)
  else match bcwValue s1 w with
    | none => mrrAnswer 0 (bcwError false true w 0 s1)
    | some v =>
      let s2 := mrrAnswer v s1
      if s1.ca.page = 0 ∧ w = 6 then { s2 with ca := { s2.ca with alerts := 0 } } else s2

/-- A buffer control word MRW from the host. -/
def hostBcwWrite (p : CaPins) (w data : Nat) (s : State) : State :=
  receive p true false false false (fun t => bcwWrite w data (slotDeselect t)) s

/-- A buffer control word MRR from the host. -/
def hostBcwRead (p : CaPins) (w : Nat) (s : State) : State :=
  receive p true false false false (fun t => bcwRead p w (slotDeselect t)) s

/-! ### Mode registers and training -/

/-- Is an MRW one that R106 stops? -/
def mrwBad (sets : List MrwEffect) : Bool := sets.any (fun e => e = .burst false || e = .dataMask true)

/-- A forwarded MRW. -/
def mrwEffect (p : CaPins) (sets : List MrwEffect) (s : State) : State :=
  snoop (ofBits (selected p)) sets (forward p s)

/-- A forwarded MRR. -/
def mrrEffect (p : CaPins) (s : State) : State :=
  let s1 := forward p s
  { s1 with dl := { s1.dl with reads := s1.dl.reads ++ [openBurst (rankOf p) 0 0 0 0 0 .mrr s] } }

/-- A consumed training MPC (R145). -/
def mpcEffect (step : MpcStep) (s : State) : State :=
  let s1 := slotDeselect s
  match step with
  | .cs => trainStep true 1 s1
  | .ca => trainStep true 2 s1
  | .leave => trainStep false 1 (trainStep false 2 s1)

/-! ### Grants, probes, the parity block -/

/-- A grant begins (R123, R233). -/
def grantBegin (len : Nat) (s : State) : State :=
  let ranks := s.ca.grantRank &&& rankEn s
  let w := 2 ^ 31 + ranks * 2 ^ 16 + len
  let s1 := setF Fld.CA_STATUS_GRANT 1 (setReg Fld.CA_GRANT_ACTIVE.addr (BitVec.ofNat 32 w)
    { s with ca := { s.ca with grantPend := none } })
  (bitsOf 4 ranks).foldl (fun t r => gapStart r t) s1

/-- The column after one: column order 0 to 63, then again from 0 (R230). -/
def nextCol (c : Nat) : Nat := (c + 1) % 64

/-- The next access of a rank's gap trial (R230 to R233). A write trial writes a burst to scratch row 3 at the transmit offsets
under test, and its next access reads it back; a read trial first fills scratch row 2, then reads it. -/
def trialAccess (g : GapTrial) (data mon : Nat) (s : State) : State :=
  if g.write then
    match g.sent with
    | none =>
      let b := nextWrite s g.rank
      issue [.probeWrite g.rank 3 g.col b (testOffsets g)]
        (prbsSent g.rank (putGap { g with sent := some b, reached := true } s))
    | some b =>
      let g1 := gapFeed b.toNat data { g with sent := none, col := nextCol g.col, reached := true }
      issue [.probeRead g.rank 3 g.col] (incF Fld.CB_DGAP_PAIRS (putGap g1 s))
  else if g.fill ≠ 0 then
    issue [.probeWrite g.rank 2 (64 - g.fill) (row2Burst g.rank (64 - g.fill)) []]
      (putGap { g with fill := g.fill - 1, reached := true } s)
  else
    let g1 := gapFeed data mon { g with col := nextCol g.col, reached := true }
    issue [.probeRead g.rank 2 g.col] (incF Fld.CB_DGAP_READS (putGap g1 s))

/-- Is the next access of a trial a write? -/
def writesNext (g : GapTrial) : Bool := if g.write then g.sent.isNone else g.fill ≠ 0

/-- The probe of a rank (R122, R233): the next access of its trial, or a read of scratch row 2 that gives nothing to any engine.
A kind that does not fit the reservation is not issued (R570). -/
def probe (r data mon : Nat) (s : State) : State :=
  let run := fun (t : State) => { t with ca := { t.ca with probing := t.ca.probing ||| (1 <<< r) } }
  match s.cb.gaps.find? (fun g => g.rank = r) with
  | none => if fitRead s then run (issue [.probeRead r 2 0] s) else s
  | some g => if (if writesNext g then fitWrite s else fitRead s) then run (trialAccess g data mon s) else s

/-- May the probe slot of a rank be used (R122, Table CD-2)? -/
def probeOpen (s : State) (r : Nat) : Bool :=
  served s && !saving s && !parked s && !flag s Fld.CA_STATUS_SAVE_BLOCK && flag s Fld.CB_CTRL_GAP_EN
    && !inSr s r && !(grantedRanks s).testBit r && !flag s Fld.CA_STATUS_PAR_BLOCKED

/-- TRFC has elapsed after the N-th REFab of a rank. -/
def probeSlot (r data mon : Nat) (s : State) : State :=
  if s.ca.probeDue.testBit r then
    let s1 := { s with ca := { s.ca with probeDue := s.ca.probeDue &&& (15 - 1 <<< r) } }
    if probeOpen s1 r then probe r data mon s1 else s1
  else s

/-- The probes issued before a tick have ended by it (log entry 45); a pause that waited for them takes effect. -/
def probesOver (s : State) : State :=
  if s.ca.probing = 0 then s else gapPause { s with ca := { s.ca with probing := 0 } }

/-- One access of a grant goes to the running trial of its rank (R233). -/
def grantAccess (a : GapAccess) (s : State) : State :=
  if (grantedRanks s).testBit a.rank.val then
    match s.cb.gaps.find? (fun g => g.rank = a.rank.val) with
    | none => s
    | some g => trialAccess g a.data.toNat a.mon.toNat s
  else s

/-- A grant ends: the accesses made in it, and every bank of its ranks precharged (R123). -/
def grantFinish (work : List GapAccess) (s : State) : State :=
  let ranks := bitsOf 4 (grantedRanks s)
  let s1 := work.foldl (fun t a => grantAccess a t) s
  let s2 := { s1 with cb := { s1.cb with gaps := s1.cb.gaps.map (fun g =>
    if ranks.contains g.rank then { g with reached := true } else g) } }
  let s3 := ranks.foldl (fun t r => closeRank r t) s2
  gapPause (apstat (setF Fld.CA_STATUS_GRANT 0 (setReg Fld.CA_GRANT_ACTIVE.addr 0 s3)))

/-- Does an open burst use the DRAM lanes of a rank that satisfies `p`? -/
def dramBusy (p : Nat → Bool) (s : State) : Bool :=
  (s.dl.writes ++ s.dl.reads).any (fun o => p o.rank && (match o.kind with
    | .aperture _ fwd => fwd
    | .dropped => false
    | _ => true))

/-- The refreshes of a parity block (R102): open rows closed first; each is a boundary of its rank, and of the codes that serve
every rank, where no burst opened before is still to come (Table CB-3). -/
def blockRefresh (s : State) : State :=
  let ranks := (popRanks s).filter (fun r => !inSr s r && !(grantedRanks s).testBit r)
  let cmds := (ranks.filter (rankOpen s)).map OwnCmd.preab ++ ranks.map OwnCmd.refab
  let free := ranks.filter (fun r => !dramBusy (fun q => q = r) s)
  let s1 := ranks.foldl (fun t r => refRank (free.contains r) r t) (issue cmds s)
  let s2 := if ranks.isEmpty || dramBusy (fun _ => true) s then s1 else commonBoundary s1
  apstat (if free.isEmpty then s2 else everyBoundary s2)

/-! ### The commands -/

/-- CMD_ACT (R114). -/
def execCmdAct (p : CaPins) (bg : BitVec 3) (bank : BitVec 2) (row : BitVec 17) (s : State) :
    Host.Outcome State Fault Refusal :=
  .next (receive p false false true false (actEffect p bg.toNat bank.toNat row.toNat) s)

/-- CMD_RD (R115). `held`: a ledger access waited for an atomic (Table LD-4). -/
def execCmdRd (p : CaPins) (bg : BitVec 3) (bank : BitVec 2) (col : BitVec 6) (bo : BitVec 4) (held : Bool)
    (s : State) : Host.Outcome State Fault Refusal :=
  .next (receive p false false true false (access p bg.toNat bank.toNat col.toNat bo.toNat false false held) s)

/-- CMD_WR (R115). -/
def execCmdWr (p : CaPins) (bg : BitVec 3) (bank : BitVec 2) (col : BitVec 6) (bo : BitVec 4) (s : State) :
    Host.Outcome State Fault Refusal :=
  .next (receiveWrite p bg.toNat bank.toNat col.toNat bo.toNat false s)

/-- CMD_RDA (R116). -/
def execCmdRda (p : CaPins) (bg : BitVec 3) (bank : BitVec 2) (col : BitVec 6) (bo : BitVec 4) (held : Bool)
    (s : State) : Host.Outcome State Fault Refusal :=
  .next (receive p false false true false (access p bg.toNat bank.toNat col.toNat bo.toNat false true held) s)

/-- CMD_WRA (R116). -/
def execCmdWra (p : CaPins) (bg : BitVec 3) (bank : BitVec 2) (col : BitVec 6) (bo : BitVec 4) (s : State) :
    Host.Outcome State Fault Refusal :=
  .next (receiveWrite p bg.toNat bank.toNat col.toNat bo.toNat true s)

/-- CMD_PRE (R114): only the per-bank precharge must select a single rank. -/
def execCmdPre (p : CaPins) (kind : PreKind) (bg : BitVec 3) (bank : BitVec 2) (s : State) :
    Host.Outcome State Fault Refusal :=
  .next (receive p false false (kind = .pb) false (preEffect p kind bg.toNat bank.toNat) s)

/-- CMD_REFAB (R122). -/
def execCmdRefab (p : CaPins) (hostFree dramFree : Bool) (rankFree : BitVec 4) (s : State) :
    Host.Outcome State Fault Refusal :=
  .next (receive p false false false false (refEffect p hostFree dramFree rankFree.toNat) s)

/-- CMD_SRE (R114). -/
def execCmdSre (p : CaPins) (s : State) : Host.Outcome State Fault Refusal :=
  .next (receive p false false false false (sreEffect p) s)

/-- CMD_MRW (R135): one to MR 240 and above is a buffer control word (R107). -/
def execCmdMrw (p : CaPins) (mr data : Byte) (sets : List MrwEffect) (s : State) : Host.Outcome State Fault Refusal :=
  .next (if 240 ≤ mr.toNat then hostBcwWrite p (mr.toNat - 240) data.toNat s
    else receive p false false false (mrwBad sets) (mrwEffect p sets) s)

/-- CMD_MRR (R97). -/
def execCmdMrr (p : CaPins) (mr : Byte) (s : State) : Host.Outcome State Fault Refusal :=
  .next (if 240 ≤ mr.toNat then hostBcwRead p (mr.toNat - 240) s
    else receive p false false false false (mrrEffect p) s)

/-- CMD_MPC_TRAINING (R145). -/
def execCmdMpcTraining (p : CaPins) (step : MpcStep) (s : State) : Host.Outcome State Fault Refusal :=
  .next (receive p false false false false (mpcEffect step) s)

/-- CMD_OTHER_FORWARDED (R97): `reserved`, an encoding that JESD79-5 reserves; `srx`, a self-refresh exit. -/
def execCmdOtherForwarded (p : CaPins) (reserved srx : Bool) (s : State) : Host.Outcome State Fault Refusal :=
  .next (receive p false reserved false false (otherEffect p srx) s)

/-- BCW_PAGE_SELECT (R107). -/
def execBcwPageSelect (p : CaPins) (data : Byte) (s : State) : Host.Outcome State Fault Refusal :=
  .next (hostBcwWrite p 15 data.toNat s)

/-- BCW_MRR (R108). -/
def execBcwMrr (p : CaPins) (word : BitVec 4) (s : State) : Host.Outcome State Fault Refusal :=
  .next (hostBcwRead p word.toNat s)

/-- SAVE_ARM (R109): an MRW to word 0; on another page it reaches that page's word. -/
def execSaveArm (p : CaPins) (data : Byte) (s : State) : Host.Outcome State Fault Refusal :=
  .next (hostBcwWrite p 0 data.toNat s)

/-- SAVE_GO (R109): an MRW to word 1. -/
def execSaveGo (p : CaPins) (data : Byte) (s : State) : Host.Outcome State Fault Refusal :=
  .next (hostBcwWrite p 1 data.toNat s)

/-- SAVE_ARM_LAPSE (R109): 64 tCK after an arm that no SAVE_GO took. -/
def execSaveArmLapse (s : State) : Host.Outcome State Fault Refusal :=
  .next (if s.ca.arm = .none || !hostHeard s then s
    else raise 3 (synFs3 true false false 1 0 0x53) { s with ca := { s.ca with arm := .none } })

/-- GRANT_RANK (R123): an MRW to word 0. -/
def execGrantRank (p : CaPins) (data : Byte) (s : State) : Host.Outcome State Fault Refusal :=
  .next (hostBcwWrite p 0 data.toNat s)

/-- GRANT_LEN (R123): an MRW to word 1. -/
def execGrantLen (p : CaPins) (data : Byte) (s : State) : Host.Outcome State Fault Refusal :=
  .next (hostBcwWrite p 1 data.toNat s)

/-- GRANT_START (R123). -/
def execGrantStart (s : State) : Host.Outcome State Fault Refusal :=
  .next (match s.ca.grantPend with
    | none => s
    | some len => if coreOn s then grantBegin len s else s)

/-- GRANT_END (R123). `work`: the accesses that the grant's time held, in order, with what each returned. -/
def execGrantEnd (work : List GapAccess) (s : State) : Host.Outcome State Fault Refusal :=
  .next (if flag s Fld.CA_STATUS_GRANT then grantFinish work s else s)

/-- APLOCK (R119): an MRW to word 0. -/
def execAplock (p : CaPins) (data : Byte) (s : State) : Host.Outcome State Fault Refusal :=
  .next (hostBcwWrite p 0 data.toNat s)

/-- PAR_CLEAR (R101): an MRW to word 1. -/
def execParClear (p : CaPins) (data : Byte) (s : State) : Host.Outcome State Fault Refusal :=
  .next (hostBcwWrite p 1 data.toNat s)

/-- PARITY_BLOCK_END (R101). -/
def execParityBlockEnd (s : State) : Host.Outcome State Fault Refusal :=
  .next (if s.ca.clearing then
      setF Fld.CA_STATUS_PAR_BLOCKED 0 { s with ca := { s.ca with clearing := false } }
    else s)

/-- PARITY_BLOCK_REFRESH (R102): until S2 of a save. -/
def execParityBlockRefresh (s : State) : Host.Outcome State Fault Refusal :=
  .next (if hostLive s && flag s Fld.CA_STATUS_PAR_BLOCKED then blockRefresh s else s)

/-- TR_SEL (R148): an MRW to word 1. -/
def execTrSel (p : CaPins) (data : Byte) (s : State) : Host.Outcome State Fault Refusal :=
  .next (hostBcwWrite p 1 data.toNat s)

/-- TR_CTRL_HOLD (R147): an MRW to word 5. -/
def execTrCtrlHold (p : CaPins) (data : Byte) (s : State) : Host.Outcome State Fault Refusal :=
  .next (hostBcwWrite p 5 data.toNat s)

/-- RESERVATION_PROBE (R122). `data`, `mon`: what the main and the monitor samplers decide of the burst that a read returns. -/
def execReservationProbe (rank : Rank) (data mon : BitVec 768) (s : State) : Host.Outcome State Fault Refusal :=
  .next (if coreOn s then probeSlot rank.val data.toNat mon.toNat s else s)

/-- IDLE_BOUNDARY (R196): host deselect for 64 tCK, or a free point in training, SERVICE or the park. -/
def execIdleBoundary (s : State) : Host.Outcome State Fault Refusal :=
  .next (if coreOn s && (!flag s Fld.CA_STATUS_SAVE_BLOCK || (inService s && !inSave s)) then boundaryAll s else s)

/-- BCW_ACCESS_ERROR (R110): an MRW to a word of the page in force. -/
def execBcwAccessError (p : CaPins) (word : BitVec 4) (data : Byte) (s : State) : Host.Outcome State Fault Refusal :=
  .next (hostBcwWrite p word.toNat data.toNat s)

end Sys2Proof.Machine
end

