-- ==== Sys2Proof/Machine/Clocks.lean ====
section
/-! DEFINITION. The clocks (Chapter 4): tick discipline, the AON timer's wrap, XOSC, MCLK, rate sets and the HCK count,
the host-absent park, the Steward's watchdog (R428). -/

namespace Sys2Proof.Machine

/-! ### The Steward and its clock -/

/-- Does the Steward run? -/
def stewardRuns (s : State) : Bool := mgtOn s && !s.sw.halted && flag s Fld.CK_STATUS_MCLK_LOCK

/-- Has the Steward work pending: a save, a restore or training, a march or a burn, a keep store, a commit, a history
entry, a trap or console input (R52; DESIGN CHOICE, log entry 11)? -/
def workPending (s : State) : Bool :=
  saving s || restoring s || inTrain s || flag s Fld.MT_STATUS_BUSY || flag s Fld.CB_STATUS_STORING
    || flag s Fld.KP_STATUS_CHECKPOINT || flag s Fld.KP_STATUS_REFRESHING || s.kp.commit.isSome || s.kp.genNext.isSome
    || !s.kp.retry.isEmpty || !s.kp.rewrite.isEmpty || !s.fc.hist.isEmpty || !s.fc.nmt.isEmpty || s.fc.nmtRun.isSome
    || !s.con.input.isEmpty

/-- Does the Steward sleep, in RUN or SERVICE with MGT_SLEEP = 1 and no work pending (R52)? -/
def asleep (s : State) : Bool :=
  (served s || inService s) && flag s Fld.PM_CTRL_MGT_SLEEP && stewardRuns s && !workPending s

/-- Is MCLK stopped? Not while the UART holds the lease (R455). -/
def mclkStopped (s : State) : Bool := asleep s && getF s Fld.CN_SESS_HOLDER ≠ 1

/-- Is XOSC stopped until the next wake event: KEEP_OSC = 0 and no twin (R77)? R77 names no exception for a parked device,
whose HPLL takes XOSC as its reference: the model lets XOSC stop with the sleeping Steward there too (DESIGN CHOICE, log
entry 59). -/
def xoscStopped (s : State) : Bool := mclkStopped s && !twinEn s && !flag s Fld.CK_CTRL_KEEP_OSC

/-- The fault reference bit of FS 49: the management PLL locks to the tick. -/
def mclkFromTick (s : State) : Bool := flag s Fld.CK_STATUS_XOSC_FAIL && flag s Fld.CK_CTRL_MCLK_FALLBACK

/-- MCLK is locked, to the tick or to XOSC. -/
def mclkLocked (tick : Bool) (s : State) : State :=
  setB Fld.CK_STATUS_MCLK_ON_TICK tick (setF Fld.CK_STATUS_MCLK_LOCK 1 s)

/-- No lock within 100 µs: FS 49 and one retry; if it fails the Steward stays halted (R79). Bit [0] of the one
syndrome tells whether the retry failed (DEDUCED, log entry 27). -/
def mclkTimeout (retryOk : Bool) (s : State) : State :=
  let s1 := raise 49 (b2n (mclkFromTick s) * 2 + b2n (!retryOk)) s
  if retryOk then mclkLocked (flag s Fld.CK_CTRL_MCLK_FALLBACK) s1
  else
    let s2 := setF Fld.CK_STATUS_MCLK_LOCK 0 (setF Fld.CK_STATUS_MCLK_ON_TICK 0 s1)
    { s2 with sw := { s2.sw with halted := true } }

/-- Step P4 and U0: the management PLL locks. -/
def mclkStart (w : WakeUp) (s : State) : State :=
  if w.lockOk then mclkLocked (mclkFromTick s) s else mclkTimeout w.retryOk s

/-! ### Tick discipline (R73 to R75) -/

/-- TICK_DISC falls and the windows start again. -/
def discRestart (s : State) : State :=
  let s1 := setF Fld.CK_STATUS_TICK_DISC 0 s
  { s1 with clk := { s1.clk with discGood := 0, discBad := 0 } }

/-- A write of 1 to DISC_EN, or the BLKRST of FS 51. R75 does not say whether its `after TICK_DISC was once set` counts from
before such a restart: the model forgets it, so that the 16 bad windows count again only once TICK_DISC has been set anew
(DESIGN CHOICE, log entry 59). -/
def discEnable (s : State) : State :=
  let s1 := setF Fld.CK_TICK_DISC_EN 1 s
  if s.clk.discStopped then
    { s1 with clk := { s1.clk with discStopped := false, discOnce := false, discGood := 0, discBad := 0 } }
  else s1

/-- Discipline stops and TRIM is held: FS 51. -/
def discStop (atEnd : Bool) (s : State) : State :=
  let s1 := setF Fld.CK_STATUS_TICK_DISC 0 s
  raise 51 (b2n atEnd * 2 ^ 16 + getF s Fld.CK_TICK_ERR * 2 ^ 8 + getF s Fld.CK_TICK_TRIM)
    { s1 with clk := { s1.clk with discStopped := true, discGood := 0, discBad := 0 } }

/-- TRIM one step toward zero error: a tick that is too fast is slowed down. -/
def discTrim (err : Int) (s : State) : Int :=
  let t := signed 8 (getF s Fld.CK_TICK_TRIM)
  if 0 < err then max (-128) (t - 1) else if err < 0 then min 127 (t + 1) else t

/-- A measured error as CK_TICK.ERR holds it: steps of 0.025 % are 6.25 of the units of `err`. -/
def discErr (err : Int) : Int := max (-128) (min 127 ((err * 4).tdiv 25))

/-- The counts of good and bad windows after one more. -/
def discCounts (err : Int) (s : State) : State :=
  let n := err.natAbs
  { s with clk := { s.clk with
    discGood := if n ≤ 25 then min 4 (s.clk.discGood + 1) else 0,
    discBad := if 125 < n then min 16 (s.clk.discBad + 1) else 0 } }

/-- TICK_DISC after the last four windows; once set, it is remembered. -/
def discFlag (s : State) : State :=
  let on := s.clk.discGood = 4
  let s1 := setB Fld.CK_STATUS_TICK_DISC on s
  { s1 with clk := { s1.clk with discOnce := s.clk.discOnce || on } }

/-- One window. `err`: the tick's error in XOSC cycles of 25,000 (0.004 %), positive when the tick is too fast. -/
def discWindow (err : Int) (s : State) : State :=
  let t := discTrim err s
  let s1 := setF Fld.CK_TICK_ERR (unsigned 8 (discErr err)) (setF Fld.CK_TICK_TRIM (unsigned 8 t) s)
  let s2 := discFlag (discCounts err s1)
  if (t = 127 ∨ t = -128) ∧ 25 < err.natAbs then discStop true s2
  else if s2.clk.discOnce && s2.clk.discBad = 16 then discStop false s2
  else s2

/-! ### XOSC (R77, R78) -/

/-- XOSC has failed. XOSC_RUN falls for a wrong frequency as well, so that the oscillator counts as recovered only after a
restart attempt (R78 does not say; DESIGN CHOICE, log entry 59). An HPLL that refers to XOSC loses its lock. -/
def xoscFailed (syn : Nat) (s : State) : State :=
  let s1 := raise 50 syn (setF Fld.CK_STATUS_XOSC_FAIL 1 (setF Fld.CK_STATUS_XOSC_RUN 0 s))
  let s2 := linkNoXosc (discRestart (if flag s1 Fld.CK_STATUS_HPLL_REF_XOSC then hpllOff s1 else s1))
  if !flag s2 Fld.CK_STATUS_MCLK_LOCK then s2
  else if flag s2 Fld.CK_CTRL_MCLK_FALLBACK then mclkLocked true s2
  else setF Fld.CK_STATUS_MCLK_LOCK 0 s2

/-- Steps P3 and U0: XOSC is enabled, and runs or fails after 8 ticks without an edge. -/
def xoscStart (ok : Bool) (s : State) : State :=
  if ok then setF Fld.CK_STATUS_XOSC_RUN 1 s else xoscFailed 0x10000 s

/-- XOSC has run within ±5 % for 1 ms: MCLK returns to it (DEDUCED, log entry 28), the HPLL of a parked device locks to it,
and the link trains. -/
def xoscBack (s : State) : State :=
  let s1 := setF Fld.CK_STATUS_XOSC_FAIL 0 (setF Fld.CK_STATUS_XOSC_RUN 1 s)
  let s2 := if parked s1 && !flag s1 Fld.CK_STATUS_HPLL_LOCK then hpllToXosc s1 else s1
  trainLink (if s.sw.halted then s2 else mclkLocked false s2)

/-! ### Rate sets (R81 to R85) -/

/-- The maximum rate of the SPEED grade in MT/s (R5). -/
def gradeRate (s : State) : Nat := s.fuses.speed.toNat * 100

/-- A rate set's register as the next window is matched against it: with what is committed (Chapter 4). -/
def rateWord (s : State) (n : Nat) : Nat := (committedReg s (0x0610 + 4 * n)).toNat

def setEnabled (w : Nat) : Bool := w.testBit 16
def setRate (w : Nat) : Nat := w % 0x10000

/-- Is a count within `p` per cent of a rate? -/
def within (p count rate : Nat) : Bool := ((count : Int) - (rate : Int)).natAbs * 100 ≤ rate * p

/-- Does a count exceed 1.04 times the grade's rate (R84)? -/
def overspeed (s : State) (count : Nat) : Bool := gradeRate s * 104 < count * 100

/-- The enabled rate set that a count matches (R83); none above the grade (R84). -/
def matchSet (s : State) (count : Nat) : Option Nat :=
  if overspeed s count then none
  else (List.range 4).find? (fun n => setEnabled (rateWord s n) && within 4 count (setRate (rateWord s n)))

/-- Arguments of a HCK entry (Table SN-3). -/
def hckArgs (count : Nat) (hit fast pgood : Bool) : Nat :=
  count + b2n hit * 2 ^ 16 + b2n fast * 2 ^ 17 + b2n pgood * 2 ^ 18

/-- A tick-gated count: what it sets, and its trace entry. -/
def noteCount (count : Nat) (s : State) : State :=
  let m := matchSet s count
  let fast := overspeed s count
  let changed := s.clk.lastMatch.isSome ≠ m.isSome || (fast && !flag s Fld.CK_STATUS_OVERSPEED)
  let s1 := setF Fld.CK_HCKCNT_COUNT count (setF Fld.CK_HCKCNT_XOSC_GATED 0 s)
  let s2 := setB Fld.CK_STATUS_OVERSPEED fast (setB Fld.CK_STATUS_HCK_PRESENT m.isSome s1)
  let s3 := { s2 with clk := { s2.clk with lastMatch := m, fits := flag s Fld.CK_STATUS_RS_VALID && within 4 count (activeRate s) } }
  if changed then trace 0x0301 (hckArgs count m.isSome fast false) s3 else s3

/-- The confirming count (R85): whether it lies within ±1 % of the matched set. Without XOSC the ±4 % match stands. -/
def confirmSet (n count : Nat) (s : State) : Bool × State :=
  if flag s Fld.CK_STATUS_XOSC_FAIL then (true, s)
  else
    let ok := within 1 count (setRate (rateWord s n))
    let s1 := setF Fld.CK_HCKCNT_COUNT count (setF Fld.CK_HCKCNT_XOSC_GATED 1 s)
    if ok then (true, s1)
    else (false, setF Fld.CK_STATUS_HCK_PRESENT 0 { s1 with clk := { s1.clk with lastMatch := none } })

/-- Committed rate fields come into force (R82). -/
def ratesInForce (s : State) : State := applyCommitted (fun a => 0x0610 ≤ a && a ≤ 0x061C) s

/-- A rate set is in force, and the HPLL locks to HCK. -/
def rateInForce (n : Nat) (s : State) : State :=
  setF Fld.CK_STATUS_RS_VALID 1 (setF Fld.CK_STATUS_RS_ACTIVE n (setF Fld.CK_STATUS_HPLL_LOCK 1
    (setF Fld.CK_STATUS_HPLL_REF_XOSC 0 (setF Fld.CK_STATUS_RATE_MISMATCH 0 s))))

/-! ### The restore conditions (R56) -/

/-- PGOOD high, HCK present, both SAVE inputs high. -/
def restoreConditions (s : State) : Bool :=
  s.pins.pgood && flag s Fld.CK_STATUS_HCK_PRESENT && !flag s Fld.PS_IN_SAVE0_LOW && !flag s Fld.PS_IN_SAVE1_LOW

/-! ### The host-absent park (R92 to R94, Table CK-7) -/

/-- The engines' trials are discarded uncounted (Tables CH-2, CD-2). -/
def parkEngines (s : State) : State := rankList.foldl (fun t r => dropGap r t) (dropSweep (pauseHostAll s))

/-- The DRAM is parked: open ranks precharged, every populated rank in self-refresh. -/
def parkDram (s : State) : State :=
  let ranks := popRanks s
  let cmds := (ranks.filter (rankOpen s)).map OwnCmd.preab ++ (ranks.filter (fun r => !inSr s r)).map OwnCmd.sre
  let s1 := trackClosed (fun _ => true) (issue cmds s)
  apstat (setF Fld.PM_RANK_SR_STATE (getF s1 Fld.PM_RANK_SR_STATE ||| ofBits ranks) s1)

/-- Enter the park. `cause`: 0 for HRST_N, else the code of FS 10. Pending values come into force, as the park is a
free point of the device's own sequence (Table CB-3). -/
def parkEnter (cause : Nat) (s : State) : State :=
  let s1 := if cause ≠ 0 && !hrstLow s then raise 10 (synFs10 s cause) s else s
  let s2 := parkDram (parkEngines (slotDeselect s1))
  let s3 := hpllToXosc (setF Fld.CK_STATUS_PARKED 1 s2)
  boundaryAll { s3 with
    clk := { s3.clk with clockPark := cause ≠ 0, offCounts := 0 },
    pins := { s3.pins with halertBusy := false, halertOwed := false } }

/-- May the device park: RUN.LIVE or RUN.DEGRADED, not parked yet, no save running (R345). -/
def mayPark (s : State) : Bool := served s && !parked s && !saving s && s.boot = .up

/-- Every rank exits self-refresh and commands are forwarded again (R93). Committed rate fields apply (R82). -/
def parkLeave (s : State) : State :=
  let s1 := setF Fld.PM_RANK_SR_STATE 0 (issue ((popRanks s).map OwnCmd.srx) s)
  let s2 := setF Fld.CK_STATUS_PARKED 0 (setF Fld.CK_STATUS_RATE_MISMATCH 0 (setF Fld.CK_STATUS_HPLL_REF_XOSC 0
    (setF Fld.CK_STATUS_HPLL_LOCK 1 s1)))
  ratesInForce { s2 with clk := { s2.clk with clockPark := false, offCounts := 0 } }

/-- HCK is lost while the device is past B10 or U7 and waits for HRST_N: the ranks go into self-refresh and the device
waits. A cold bring-up goes on later, a restore runs again (DEDUCED for a restore, log entry 29). -/
def handBackLost (s : State) : State :=
  let s1 := parkDram s
  match s.rs.path with
  | .coldReady => setF Fld.PM_MODE_WAITING 1 (hpllToXosc { s1 with rs := { s1.rs with path := .coldHeld } })
  | _ =>
    let s2 := setF Fld.PM_DOMAIN_LDG 0 (wipeGarnet (clearLedger (coreDown s1)))
    setF Fld.PM_MODE_WAITING 1 (setF Fld.PM_MODE_RESTORING 0
      { s2 with rs := { s2.rs with path := .restoreWait, origin := 0 } })

/-- Has a sequence ended but for its hand-back? -/
def handBackWaits (s : State) : Bool :=
  s.rs.path = .coldReady || s.rs.path = .restoreReady || s.rs.path = .serviceReady

/-- A clock event (R80, R92, R345). In SERVICE there is no park: the HPLL has lost its lock. -/
def clockLost (cause : Nat) (s0 : State) : State :=
  let s := { s0 with clk := { s0.clk with fits := false } }
  if saving s then
    let s1 := hpllToXosc s
    if hrstLow s then s1 else raise 10 (synFs10 s1 5) s1
  else if mayPark s then parkEnter cause s
  else if inTrain s && handBackWaits s then handBackLost s
  else if parked s || cause = 3 then s
  else setF Fld.CK_STATUS_HPLL_LOCK 0 s

/-- HCK is back after a loss past B10 (Chapter 4): at the set in force B11 follows, at another bring-up starts again. -/
def coldResume (n : Nat) (s : State) : State :=
  if n = getF s Fld.CK_STATUS_RS_ACTIVE then
    setF Fld.CK_STATUS_HPLL_LOCK 1 (setF Fld.CK_STATUS_HPLL_REF_XOSC 0 (setF Fld.PM_MODE_WAITING 0
      (setF Fld.PM_RANK_SR_STATE 0 (issue ((popRanks s).map OwnCmd.srx)
        { s with rs := { s.rs with path := .coldReady } }))))
  else { s with rs := { s.rs with path := .coldWait } }

/-- A count while the host is served (R92). -/
def countServed (count : Nat) (s : State) : State :=
  if within 4 count (activeRate s) then { s with clk := { s.clk with offCounts := 0 } }
  else if s.clk.offCounts = 0 then { s with clk := { s.clk with offCounts := 1 } }
  else clockLost 3 s

/-- A count while parked: another enabled set is a mismatch (R94). -/
def countParked (s : State) : State :=
  let other := match s.clk.lastMatch with
    | none => false
    | some n => n ≠ getF s Fld.CK_STATUS_RS_ACTIVE
  let s1 := setB Fld.CK_STATUS_RATE_MISMATCH other s
  if other && !flag s Fld.CK_STATUS_RATE_MISMATCH && !hrstLow s then raise 10 (synFs10 s 4) s1 else s1

/-- What a count means for the state the device is in. -/
def countEffect (count : Nat) (s : State) : State :=
  if mayPark s then countServed count s
  else if parked s then (if saving s then s else countParked s)
  else if inTrain s && handBackWaits s then
    (if within 4 count (activeRate s) then s else handBackLost s)
  else if s.rs.path = .coldHeld then
    match s.clk.lastMatch with
    | none => s
    | some n => coldResume n s
  else s

/-! ### The commands -/

/-- TICK_DISC_WINDOW (R73 to R75, R77). -/
def execTickDiscWindow (err : Int) (s : State) : Host.Outcome State Fault Refusal :=
  .next (if mgtOn s && s.boot ≠ .held && flag s Fld.CK_STATUS_XOSC_RUN && !flag s Fld.CK_STATUS_XOSC_FAIL
      && flag s Fld.CK_TICK_DISC_EN && !s.clk.discStopped && !xoscStopped s then discWindow err s else s)

/-- XOSC_FAIL (R77, R78): XOSC is not enabled while it is stopped for the sleep. -/
def execXoscFail (noEdge : Bool) (cycles : BitVec 16) (s : State) : Host.Outcome State Fault Refusal :=
  .next (if mgtOn s && flag s Fld.CK_STATUS_XOSC_RUN && !flag s Fld.CK_STATUS_XOSC_FAIL && !xoscStopped s
    then xoscFailed (b2n noEdge * 0x10000 + cycles.toNat) s else s)

/-- XOSC_RESTART_ATTEMPT (R78). -/
def execXoscRestartAttempt (started : Bool) (s : State) : Host.Outcome State Fault Refusal :=
  .next (if mgtOn s && flag s Fld.CK_STATUS_XOSC_FAIL then setB Fld.CK_STATUS_XOSC_RUN started s else s)

/-- XOSC_RECOVERED (R78). -/
def execXoscRecovered (s : State) : Host.Outcome State Fault Refusal :=
  .next (if mgtOn s && flag s Fld.CK_STATUS_XOSC_FAIL && flag s Fld.CK_STATUS_XOSC_RUN then xoscBack s else s)

/-- MPLL_LOCK_TIMEOUT (R79). -/
def execMpllLockTimeout (retryOk : Bool) (s : State) : Host.Outcome State Fault Refusal :=
  .next (if mgtOn s && s.boot ≠ .held then mclkTimeout retryOk s else s)

/-- AON_WRAP (R76): the count after 0xFFFF_FFFF_FFFF. -/
def execAonWrap (s : State) : Host.Outcome State Fault Refusal :=
  .next (if s.boot = .held || s.aon ≠ BitVec.allOnes 48 then s else trace 0x0107 0 { s with aon := 0 })

/-- WATCHDOG_EXPIRY (R428). -/
def execWatchdogExpiry (pc : Word) (s : State) : Host.Outcome State Fault Refusal :=
  .next (if stewardRuns s then
      raise 52 (b2n s.fc.nmtRun.isSome * 2 ^ 32 + pc.toNat) { s with sw := { s.sw with halted := true } }
    else s)

/-- HCK_COUNT (R83, R84), where HCK is received (Table BS-9, R48). -/
def execHckCount (count : BitVec 16) (s : State) : Host.Outcome State Fault Refusal :=
  .next (if hckPins s then countEffect count.toNat (noteCount count.toNat s) else s)

/-- HCK_EDGES_MISSING (R92). -/
def execHckEdgesMissing (s : State) : Host.Outcome State Fault Refusal :=
  .next (if coreOn s && s.boot = .up then clockLost 1 s else s)

/-- HPLL_LOCK_LOST (R80). -/
def execHpllLockLost (s : State) : Host.Outcome State Fault Refusal :=
  .next (if coreOn s && flag s Fld.CK_STATUS_HPLL_LOCK && !flag s Fld.CK_STATUS_HPLL_REF_XOSC then
      clockLost 2 (raise 48 (b2n (saving s) * 2 ^ 16 + getF s Fld.CK_HCKCNT_COUNT) s)
    else s)

/-- PARK_EXIT (R93): a count since HCK was lost matches the rate set in force. -/
def execParkExit (s : State) : Host.Outcome State Fault Refusal :=
  .next (if parked s && served s && !saving s && !hrstLow s && s.clk.fits then parkLeave s else s)

/-- HRST_N_LOW (R86, R92); ignored in HOLD and DORMANT (Table BS-9). -/
def execHrstNLow (s : State) : Host.Outcome State Fault Refusal :=
  .next (if hostPins s then
      let s1 := setF Fld.CK_STATUS_HRST_LOW 1 s
      if hrstLow s1 && mayPark s1 then parkEnter 0 s1 else s1
    else s)

/-- HRST_N_HIGH (R86): what it permits is COLD_HAND_BACK, RESTORE_HAND_BACK or PARK_EXIT. -/
def execHrstNHigh (s : State) : Host.Outcome State Fault Refusal :=
  .next (if hostPins s then setF Fld.CK_STATUS_HRST_LOW 0 s else s)

/-- DISC_EN_WRITE (R75). -/
def execDiscEnWrite (s : State) : Host.Outcome State Fault Refusal :=
  .next (if mgtOn s && s.boot ≠ .held then discEnable s else s)

end Sys2Proof.Machine
end

