-- ==== Sys2Proof/Machine/BlockReset.lean ====
section
/-! DEFINITION. BLKRST (R406, Table FC-2), and the Steward's start with its patch and its configuration (P5, P6, U0,
R88). -/

namespace Sys2Proof.Machine

/-! ### The Steward's patch and the configuration (R88) -/

/-- P5: the patch is read; one whose check word fails is not applied. -/
def patchStart (s : State) : State :=
  let r := readCopy 0 magicPatch 0 0 (patchLength s) s
  if r.1.1 = .valid then
    let w : Word := BitVec.ofNat 32 (fieldAt r.1.2 (r.1.2.length - 4) 4)
    setF Fld.CK_BOOT_PATCH_OK 1 { r.2 with sw := { r.2.sw with version := Config.patchVersion w } }
  else setF Fld.CK_BOOT_PATCH_OK 0 { r.2 with sw := { r.2.sw with version := Steward.init.version } }

/-- P6: the configuration record, copy A, else copy B, else the factory values. -/
def configStart (s : State) : State :=
  let r := readCfg s
  match r.1 with
  | none => setF Fld.CK_BOOT_CFG_B 0 (setF Fld.CK_BOOT_CFG_DEFAULT 1 { r.2 with kp := { r.2.kp with cfg := [], gen := 0 } })
  | some (c, payload, gen) =>
    setF Fld.CK_BOOT_CFG_B c (setF Fld.CK_BOOT_CFG_DEFAULT 0
      { r.2 with kp := { r.2.kp with cfg := payload, gen := BitVec.ofNat 32 gen } })

/-- CAL_VALID of every rate set: does the keep hold a valid record for it (Table CK-12)? -/
def calValidStart (s : State) : State :=
  (List.range 4).foldl (fun t n => setB (Fld.CK_RS_CAL_VALID.at n) (peekCal s n).isSome t) s

/-- Is a home one of the policies of the configuration record, or of the collector's configuration? -/
def isPolicy (a : Nat) : Bool := (cfgPolicies ++ cfgSources).any (fun e => e.1 = a)

/-- The Steward restarts from ROM and patch; policies are reloaded from the record, the session ends. -/
def stewardRestart (s : State) : State :=
  let s1 := patchStart { s with sw := { s.sw with halted := false }, fc := { s.fc with nmtRun := none } }
  sessionEnd (cfgLoad isPolicy s1)

/-! ### The blocks -/

/-- The HCT of the configuration record goes into verification again. -/
def hctReload (s : State) : State :=
  let rows := cfgHctRows s
  if rows = 0 || !hctUsable s then s
  else
    let words := (List.range 2564).foldl (fun m i =>
      smSet (zeroDefault 32) m i (BitVec.ofNat 32 (fieldAt s.kp.cfg (cfgRegBytes + 4 + 4 * i) 4))) []
    hctStart rows { s with lg := { s.lg with hct := words } }

/-- The exclusions of R225 are lifted, and its counts restart. -/
def liftExclusions (s : State) : State :=
  (List.range 24).foldl (fun t k => setF (Fld.CB_DLQ_EXCLUDED.bank k) 0 (setF (Fld.CB_DLQ_CONSEC.bank k) 0 t)) s

/-- A record store that runs is abandoned, and retried 1 s later. -/
def storeAbandon (s : State) : State :=
  let cal := flag s Fld.CB_STATUS_STORING
  let full := s.kp.calDue
  let r1 := if cal then [Retry.cal full] else []
  let r2 := match s.kp.genNext with
    | none => []
    | some g => [Retry.config g.toNat]
  let s1 := { s with kp := { s.kp with retry := s.kp.retry ++ r1 ++ r2, genNext := none, calDue := s.kp.calDue && !cal } }
  setF Fld.CB_STATUS_STORING 0 { s1 with cb := { s1.cb with storing := false } }

/-- BLKRST of the block that owns a source in PD_CORE. The HPLL relocks to the reference in use: XOSC, while it runs; to HCK it
locks with its edges, by the clock's own events. -/
def resetCoreBlock (src : Nat) (s : State) : State :=
  if src ≤ 3 then setF Fld.CA_ILL_VALID 0 (setF Fld.CA_PLOG0_VALID 0 (unblock s))
  else if src ≤ 11 then setF Fld.HL_CRCLOG_VALID 0 (pauseHostAll s)
  else if src ≤ 19 || src = 23 then hctReload s
  else if src ≤ 22 then
    liftExclusions (setF Fld.CB_RLOG_VALID 0 (rankList.foldl (fun t r => dropGap r t) (dropSweep s)))
  else if src ≤ 27 then setF Fld.LD_ELOG0_VALID 0 { s with ld := { s.ld with scrub := [] } }
  else if src = 62 then marchStop s
  else if flag s Fld.CK_STATUS_HPLL_REF_XOSC && !flag s Fld.CK_STATUS_XOSC_FAIL then setF Fld.CK_STATUS_HPLL_LOCK 1 s
  else s

/-- BLKRST of the block that owns a source in PD_MGT. -/
def resetMgtBlock (src : Nat) (s : State) : State :=
  if src ≤ 31 then setF Fld.KP_ELOG0_VALID 0 (storeAbandon s)
  else if src ≤ 46 then retrain s
  else if src = 49 then mclkLocked (mclkFromTick s) s
  else if src = 51 then discEnable s
  else if src = 52 || src = 53 then stewardRestart s
  else if src = 61 then sessionEnd s
  else s

/-- Does a source's block lie in PD_CORE? -/
def coreBlock (src : Nat) : Bool := src ≤ 27 || src = 48 || src = 62

/-- Has the source a block that BLKRST resets? FS 50 and FS 56 to 58 have one whose restart is the environment's next
event: an attempt to start XOSC, a conversion. -/
def hasBlock (src : Nat) : Bool :=
  src ≤ 31 || (40 ≤ src && src ≤ 46) || (48 ≤ src && src ≤ 53) || src = 61 || src = 62

/-- BLKRST (R406); a block that is switched off is not reset. -/
def blockReset (src : Nat) (s : State) : State :=
  if !hasBlock src then s
  else if coreBlock src then (if coreOn s then resetCoreBlock src s else s)
  else if mgtOn s then resetMgtBlock src s else s

end Sys2Proof.Machine
end

