-- ==== Sys2Proof/Machine/Bringup.lean ====
section
/-! DEFINITION. What cold bring-up and restore share: the trace ring (R509, R514), impedance calibration (R38), the
DRAM's initialisation (B6, U4), full training (R236, R237, R90), hand-back (R367, B11). -/

namespace Sys2Proof.Machine

/-! ### The trace ring -/

/-- A strap entry that waits is written once the ring runs (R34). -/
def strapEntry (s : State) : State :=
  if s.tr.strapOwed then trace 0x0202 (reg s 0x0008).toNat { s with tr := { s.tr with strapOwed := false } } else s

/-- The ring starts with `old`, then RING_START, then what `after` holds; the FIFO is empty. With TRACE_OUT it does
not run (R294). -/
def ringStart (origin : Nat) (old after : List TraceEntry) (s : State) : State :=
  if flag s Fld.MT_STATUS_TRACE_OUT then s
  else
    let s1 := setF Fld.TR_STATUS_RUNNING 1 { s with tr := { s.tr with ring := old.drop (old.length - 1024), fifo := [] } }
    strapEntry (after.foldl (fun t e => ringPush e t) (trace 0x0001 origin s1))

/-- The ring starts empty; the FIFO entries follow RING_START. -/
def ringFresh (origin : Nat) (s : State) : State := ringStart origin [] s.tr.fifo s

/-- A trace spill as read. -/
structure Spill where
  pos : Nat
  seq : Nat
  time : Nat
  entries : List TraceEntry
  deriving DecidableEq, Repr

/-- The spill in the bytes of a valid copy. -/
def spillOfBytes (p : Nat) (bs : List Byte) : Spill :=
  ⟨p, fieldAt bs 0x0C 4, fieldAt bs 0x10 8 % 2 ^ 48,
   (List.range (fieldAt bs 8 4 / 16)).map (fun i => entryOf16 ((bs.drop (32 + 16 * i)).take 16))⟩

/-- Of two spills the newer; the one at the lower position on a tie (R565). -/
def newerSpill (a : Option Spill) (b : Spill) : Option Spill :=
  match a with
  | none => some b
  | some e => if newer b.seq e.seq then some b else some e

/-- Read every spill position: the newest valid spill, and the events of the reads. -/
def readSpills (s : State) : Option Spill × State :=
  (List.range 32).foldl (fun a p =>
    let r := readCopy (spillAt p) magicSpill p 0 (spillLength a.2 p) a.2
    (if r.1.1 = .valid then newerSpill a.1 (spillOfBytes p r.1.2) else a.1, r.2)) (none, s)

/-- Put an entry after every entry whose time is equal or earlier. -/
def insertTimed (e : TraceEntry) (l : List TraceEntry) : List TraceEntry :=
  let n := (l.reverse.dropWhile (fun x => e.time.toNat < x.time.toNat)).length
  l.take n ++ e :: l.drop n

/-- Arguments of ENTER_HOLD. -/
def enterArgs (sp : Option Spill) (s : State) : Nat :=
  let c := getF s Fld.PS_STATUS_CAUSE
  match sp with
  | none => c + 0xFF * 2 ^ 8
  | some p => c + p.pos * 2 ^ 8 + p.entries.length * 2 ^ 16 + b2n (p.time < s.ps.s0.toNat) * 2 ^ 32

/-- Arguments of LEAVE_HOLD. -/
def leaveArgs (s : State) : Nat :=
  (if s.ps.dormAt.isSome then 2 else 1) + (s.ps.heldT / ticksPerS + s.ps.dormT / ticksPerS) * 2 ^ 8

/-- The entries that the merged ring begins with (R514). -/
def mergedEntries (sp : Option Spill) (s : State) : List TraceEntry :=
  let old := match sp with
    | none => []
    | some p => p.entries
  match s.tr.s7Time with
  | none =>
    let t := match sp with
      | none => 0
      | some p => p.time
    old ++ ⟨s.aon, 0x0005, BitVec.ofNat 64 t⟩ :: s.tr.fifo
  | some t =>
    insertTimed ⟨s.rs.t0, 0x0003, BitVec.ofNat 64 (leaveArgs s)⟩
      (insertTimed ⟨t, 0x0002, BitVec.ofNat 64 (enterArgs sp s)⟩
        (s.tr.fifo.foldl (fun l e => insertTimed e l) old))

/-- The end of U2: the ring is rebuilt. -/
def mergeTrace (s : State) : State :=
  if flag s Fld.MT_STATUS_TRACE_OUT then s
  else
    let r := readSpills s
    let s1 := ringStart 2 (mergedEntries r.1 r.2) [] r.2
    match r.1 with
    | none => s1
    | some p =>
      setF Fld.TR_STATUS_RELOADED 1 (setF Fld.TR_SPILL_VALID 1 (setF Fld.TR_SPILL_POS p.pos
        (setF Fld.TR_SPILL_ENTRIES p.entries.length s1)))

/-! ### Impedance (R38) -/

/-- Codes take a value at once. -/
def codesNow (fs : List Field) (v : Nat) (s : State) : State := fs.foldl (fun t f => setF f v t) s

/-- Codes take their fused defaults. -/
def codesDefault (fs : List Field) (s : State) : State :=
  fs.foldl (fun t f => setF f (natBits (regDefault f.addr).toNat f.hi f.lo) t) s

def hostPu : List Field := (List.range 5).map Fld.HL_DRV_DRV_PU.lane
def hostPd : List Field := (List.range 5).map Fld.HL_DRV_DRV_PD.lane
def dramPu : List Field := (List.range 6).map Fld.DL_DRV_DRV_PU.lane
def dramPd : List Field := (List.range 6).map Fld.DL_DRV_DRV_PD.lane

/-- ZQH and ZQD are calibrated; a measurement that saturates is rejected and the fused defaults stay. -/
def zqCalibrate (m : ZqMeasure) (s : State) : State :=
  let s1 := if m.hostSat then rejectWith 11 0 8 0 0 0 0 0 0 0 0 (codesDefault (hostPu ++ hostPd) s)
    else codesNow hostPd m.hostDown.toNat (codesNow hostPu m.hostUp.toNat s)
  if m.dramSat then rejectWith 21 0 8 1 0 0 0 0 0 0 0 (codesDefault (dramPu ++ dramPd) s1)
  else codesNow dramPd m.dramDown.toNat (codesNow dramPu m.dramUp.toNat s1)

/-! ### The DRAM side comes up (B6, U4) -/

/-- The snooped copy as loaded for the rate set in force (R135, log entry 26). -/
def snoopLoad (s : State) : State :=
  let w := (Config.initSnoop (activeRate s)).toNat
  let s1 := setF Fld.HL_SNOOP_CL (natBits w 6 0) (setF Fld.HL_SNOOP_RPRE (natBits w 23 20)
    (setF Fld.HL_SNOOP_WPRE (natBits w 27 24) (setF Fld.HL_SNOOP_WRCRC_ON (natBits w 29 29) s)))
  let s2 := setF Fld.HL_SNOOP_RDCRC_ON 0 (setF Fld.HL_SNOOP_PATTERN 0 (setF Fld.HL_SNOOP_RANK_SKEW 0 s1))
  clShort { s2 with dl := { s2.dl with step := 0 } }

/-- The island releases the pins, the device's commands bring the populated ranks up, every rank is refreshed from
here on. -/
def dramUp (cmds : List OwnCmd) (s : State) : State :=
  let s1 := trackClosed (fun _ => true) (issue cmds (giveIsland s))
  apstat ((popRanks s).foldl (fun t r => markRefresh r t) (snoopLoad (setF Fld.PM_RANK_SR_STATE 0 s1)))

/-! ### Full training (R236, R237) -/

/-- A lane for which a pass found nothing. -/
def noLane : LaneTrain := ⟨⟨none, 0⟩, ⟨none, 0⟩, ⟨none, 0⟩, ⟨none, 0⟩, [], [], [], []⟩
def noRank : RankTrain := ⟨[], 0, []⟩

/-- F1 of a rank: the trims of the C/A outputs (R104), or FS 21 with lane 6. -/
def trainCa (r : Nat) (t : RankTrain) (s' : State) : State :=
  let s := issue [.train r 1 6] s'
  if t.caReason ≠ 0 then rejectWith 21 4 t.caReason 1 r 6 0 0 0 0 0 s
  else t.ca.foldl (fun u e =>
    if e.index < 34 then
      setF (caTrim Fld.CA_TRIM_DELAY e.index) e.delay.toNat (setF (caTrim Fld.CA_TRIM_DRV_PU e.index) e.drvPu.toNat
        (setF (caTrim Fld.CA_TRIM_DRV_PD e.index) e.drvPd.toNat u))
    else u) s

/-- F2 to F6 of some lanes of a rank: the state and the lanes left unaccepted. -/
def trainLanes (r : Nat) (t : RankTrain) (lanes : List Nat) (s : State) : State × List Nat :=
  lanes.foldl (fun a d =>
    let x := trainLane r d (t.lanes.getD d noLane) a.1
    (x.1, if x.2 then a.2 else a.2 ++ [d])) (s, [])

/-- One pass over ranks and their lanes: the state and what is left. -/
def trainPass (first : Bool) (p : List RankTrain) (todo : List (Nat × List Nat)) (s : State) :
    State × List (Nat × List Nat) :=
  todo.foldl (fun a e =>
    let t := p.getD e.1 noRank
    let x := trainLanes e.1 t e.2 (if first then trainCa e.1 t a.1 else a.1)
    (x.1, if x.2 = [] then a.2 else a.2 ++ [(e.1, x.2)])) (s, [])

/-- Up to `n` passes, while a lane is left: the state, what is left, and how many passes ran. -/
def trainPasses : Nat → Bool → List (List RankTrain) → List (Nat × List Nat) → State → State × List (Nat × List Nat) × Nat
  | 0, _, _, todo, s => (s, todo, 0)
  | n + 1, first, ps, todo, s =>
    if todo = [] then (s, [], 0)
    else
      let x := trainPass first (ps.headD []) todo s
      let y := trainPasses n false ps.tail x.2 x.1
      (y.1, y.2.1, y.2.2 + 1)

/-- Every lane of some ranks. -/
def allLanes (ranks : List Nat) : List (Nat × List Nat) := ranks.map (fun r => (r, List.range 6))

/-- Lanes left after the last pass are erased, or declare a second failure, at hand-back (R90, R167, R239). -/
def eraseLeft (todo : List (Nat × List Nat)) (s : State) : State :=
  todo.foldl (fun t e => e.2.foldl (fun u d => eraseLane e.1 d 2 u) t) s

/-! ### Hand-back (R367, B11) -/

/-- What waits on a rank takes effect, in R173's order. -/
def handBackRank (r : Nat) (s : State) : State :=
  let old := !rankProtected s r
  let thr := getF s Fld.LG_POLICY_SECOND_THR
  let s1 := match s.lg.fails.find? (fun f => f.rank = r && !f.second) with
    | none => s
    | some f => if rankProtected s r then eraseNow r f.lane f.cause s else s
  let s2 := match s.lg.fails.find? (fun f => f.rank = r && f.second) with
    | none => s1
    | some f => if rankSecond s1 r then s1 else secondNow r f.cause s1
  let s3 := if old && !rankSecond s2 r && (if thr = 0 then 1 else thr) ≤ getF s2 (Fld.LG_RFAIL_COUNT.at r)
    then secondNow r 0 s2 else s2
  { s3 with lg := { s3.lg with fails := s3.lg.fails.filter (fun f => f.rank ≠ r) } }

/-- Steps 1 and 2 of R367, and what else ends at every hand-back. -/
def handBackClear (s : State) : State :=
  let s1 := guardStatus (rankList.foldl (fun t r => handBackRank r t) s)
  let s2 := setF Fld.CA_STATUS_SAVE_BLOCK 0 (setF Fld.CA_STATUS_APLOCK 0 (setF Fld.CA_STATUS_PAR_BLOCKED 0
    (liftExclusions (injClear (clearSlots s1)))))
  let s3 := setF Fld.CB_CAQ_VALID 0 { s2 with
    ca := { s2.ca with page := 0, arm := .none, clearing := false, probing := 0, probeDue := 0, grantPend := none },
    dl := { s2.dl with hold := false, step := 0, writes := [], reads := [], evals := 0 },
    cb := { s2.cb with rejects := [], hosts := [] },
    ps := { s2.ps with s1Ended := false } }
  hostPauses true s3

/-- Every reaction that was held for the hand-back is performed (R371). -/
def handBackDeferred (s : State) : State :=
  let due := s.fc.deferred.filter (fun d => d.2.testBit rxBlk)
  let s1 := { s with fc := { s.fc with deferred := s.fc.deferred.filter (fun d => !d.2.testBit rxBlk) } }
  due.foldl (fun t d => blockReset d.1 t) s1

/-- Step 5 and 6: FS 59, ERR_N afresh, the mode, RDY. -/
def handBackRun (s : State) : State :=
  let s1 := tamperAtHandBack s
  let sound := rankList.all (rankProtected s1)
  let s2 := transition modeRun (if sound then subLive else subDegraded) 0x0F { s1 with pins := { s1.pins with errHeld := none } }
  let s3 := setF Fld.PM_MODE_RESTORING 0 (setF Fld.PM_MODE_WAITING 0 s2)
  { s3 with pins := { s3.pins with rdy := true }, rs := { s3.rs with path := .idle }, clk := { s3.clk with offCounts := 0 } }

/-- CK_BOOTT. -/
def bootTime (s : State) : State := setF Fld.CK_BOOTT_TICKS (sat 0xFFFFFFFF (ticksSince s.aon s.clk.bootFrom)) s

end Sys2Proof.Machine
end

