-- ==== Sys2Proof/Machine/Restore.lean ====
section
/-! DEFINITION. Restore (Chapter 16) and `mode run` (R65): U0 to U7 as one step, the refresh while hand-back waits, the
hand-back. -/

namespace Sys2Proof.Machine

/-! ### U0 and U1 -/

/-- HOLD or DORMANT ends: how long each lasted. -/
def outageEnds (s : State) : State :=
  let held := match s.ps.holdAt with
    | none => 0
    | some h => ticksSince (s.ps.dormAt.getD s.aon) h
  let dorm := match s.ps.dormAt with
    | none => 0
    | some d => ticksSince s.aon d
  { s with ps := { s.ps with heldT := held, dormT := dorm } }

/-- t = 0: HOLDACK falls, the transition with cause 0x07. -/
def restoreBegin (s : State) : State :=
  let origin := if mode s = modeHold then 1 else if mode s = modeDormant then 2 else 0
  let s1 := if origin = 0 then s else outageEnds s
  let s2 := { s1 with
    pins := { s1.pins with holdack := false },
    rs := { RestoreUnit.init with path := .restoreWait, t0 := s.aon, origin := origin } }
  setF Fld.PM_MODE_WAITING 0 (setF Fld.PM_MODE_RESTORING 1 (setF Fld.CK_BOOT_PATH 2 (transition modeRun subTrain 0x07 s2)))

/-- PD_MGT comes back from HOLD or DORMANT (U0): XOSC, MCLK, the Steward with its patch, the configuration, the twin
link. -/
def mgtWake (w : WakeUp) (s : State) : State :=
  let s1 := mclkStart w (xoscStart w.xoscOk (setF Fld.PM_DOMAIN_MGT 1 s))
  if s1.sw.halted then s1
  else setF Fld.CK_BOOT_PATH 2 (trainLink (calValidStart (loadClass .mgt (configStart (patchStart s1)))))

/-- The device waits in RUN.TRAIN: everything off but PD_AON and PD_MGT (Table PM-3). -/
def trainWait (p : Path) (s : State) : State :=
  let s1 := setF Fld.PM_DOMAIN_LDG 0 (wipeGarnet (clearLedger (coreDown s)))
  setF Fld.PM_MODE_WAITING 1 (setF Fld.PM_MODE_RESTORING 0
    { s1 with ld := { s1.ld with tags := [], tagCopy := [] }, rs := { s1.rs with path := p, origin := 0 } })

/-- The rate set that the last count matched is confirmed and comes into force (R85). -/
def confirmRate (count : Nat) (s : State) : Bool × State :=
  match s.clk.lastMatch with
  | none => (false, s)
  | some n =>
    let c := confirmSet n count s
    if c.1 then (true, rateInForce n c.2) else c

/-- U1 (Table PM-6): PD_LDG returns from retention and is checked, or comes up empty. -/
def restorePower (damage garnetDamage : List (Nat × BitVec 72)) (s : State) : State :=
  let off := getF s Fld.PM_DOMAIN_LDG = 0
  let s1 := setF Fld.LD_STATUS_READY 1 (coreUp (setDomains 1 1 1 1 1 s))
  let s2 := { s1 with rs := { s1.rs with ldgOff := off } }
  if off then s2 else retentionCheck (damageGarnet garnetDamage (damageLedger damage s2))

/-! ### U2: the seal check (R357 to R359) -/

/-- What the check of one slot found: 0 when its seal verifies, else the reason of Table HR-7. -/
structure SealCheck where
  slot : Nat
  reason : Nat
  no : Nat
  bytes : List Byte
  deriving DecidableEq, Repr

/-- The reason for which the maps of a slot fail its seal. -/
def sealMaps (key : BitVec 256) (slot : Nat) (bs : List Byte) (s : State) : Nat × State :=
  let p := keepRead (poisonAt slot) 3968 s
  let c := keepRead (cmapAt slot) 3968 p.2
  (if p.1.2 || c.1.2 then 5
   else if ofBeBytes ((bs.drop 0x1C0).take 32) = (hmac256 key (bs.take 0x1C0 ++ p.1.1 ++ c.1.1)).toNat then 0 else 6, c.2)

/-- Check the seal of a slot against the seal number that the entry names for it, if it names one. -/
def checkSeal (slot : Nat) (named : Option Nat) (key : Option (BitVec 256)) (s : State) : SealCheck × State :=
  let r := readCopy (sealAt slot) magicSeal slot 0 0x1DC s
  let bs := r.1.2
  let no := fieldAt bs 0x20 4
  let fail := fun (why : Nat) => ((⟨slot, why, no, bs⟩ : SealCheck), r.2)
  if r.1.1 ≠ .valid then fail 1
  else if named.any (fun n => n ≠ no) then fail 2
  else if (fieldAt bs 0x27 1).testBit 2 then fail 3
  else match key with
    | none => fail 4
    | some k =>
      let m := sealMaps k slot bs r.2
      (⟨slot, m.1, no, bs⟩, m.2)

/-- The seal number that an entry names for a slot. -/
def namedNo (e : Option Entry) (slot : Nat) : Option Nat :=
  match e with
  | none => none
  | some x => if x.sealSlot = slot then some x.sealNo else none

/-- The verifying check with the higher SEAL_NO; the first on a tie. -/
def bestSeal (l : List SealCheck) : Option SealCheck :=
  (l.filter (fun c => c.reason = 0)).foldl (fun a c =>
    match a with
    | none => some c
    | some b => if b.no < c.no then some c else some b) none

/-- FS 35: one event for each slot that fails, with one syndrome. -/
def raiseSeals (l : List SealCheck) (s : State) : State :=
  let why := fun i => ((l[i]?).map (·.reason)).getD 0
  let first := ((l[0]?).map (·.slot)).getD 0
  let syn := why 1 * 2 ^ 16 + first * 2 ^ 8 + why 0
  (l.filter (fun c => c.reason ≠ 0)).foldl (fun t _ => raise 35 syn t) s

/-- The kind of the newest entry that Table HR-4 distinguishes. -/
inductive EntryCase where
  | sealed (slot : Nat)
  | begun (slot seq : Nat)
  | missing
  | other
  deriving DecidableEq, Repr

def entryCase (e : Option Entry) : EntryCase :=
  match e with
  | none => .missing
  | some x =>
    if x.kind = 0 && x.type = entryTypeSealed then .sealed (x.slot % 2)
    else if x.kind = 0 && x.type = entryTypeBegin then .begun (x.slot % 2) x.seq
    else .other

/-- The outcome of the seal check: what was checked, the ledger source. -/
def sealOutcome (source : Option SealCheck) (checks : List SealCheck) (s : State) : Option SealCheck × State :=
  let s1 := raiseSeals checks s
  match source with
  | none => (none, { s1 with rs := { s1.rs with source := none, sealSlot := 0xFF, sealNo := 0 } })
  | some c => (source, { s1 with rs := { s1.rs with source := some c.slot, sealSlot := c.slot, sealNo := c.no } })

/-- Both slots are checked (Table HR-4). -/
def checkBoth (e : Option Entry) (key : Option (BitVec 256)) (s : State) : Option SealCheck × State :=
  let a := checkSeal 0 (namedNo e 0) key s
  let b := checkSeal 1 (namedNo e 1) key a.2
  sealOutcome (bestSeal [a.1, b.1]) [a.1, b.1] b.2

/-- Table HR-4. -/
def sealCheck (e : Option Entry) (key : Option (BitVec 256)) (s : State) : Option SealCheck × State :=
  match entryCase e with
  | .sealed x =>
    let s0 := { s with rs := { s.rs with named := some x, entrySlot := x } }
    let a := checkSeal x (namedNo e x) key s0
    if a.1.reason = 0 then
      let r := sealOutcome (some a.1) [a.1] a.2
      (r.1, { r.2 with rs := { r.2.rs with sealOk := true } })
    else
      let b := checkSeal (1 - x) (namedNo e (1 - x)) key a.2
      sealOutcome (if b.1.reason = 0 then some b.1 else none) [a.1, b.1] b.2
  | .begun x seq =>
    let s0 := raise 33 (x * 2 ^ 32 + seq) { s with rs := { s.rs with begun := true, entrySlot := x } }
    match e.map (·.sealSlot) with
    | some 0 =>
      let a := checkSeal 0 (namedNo e 0) key s0
      sealOutcome (if a.1.reason = 0 then some a.1 else none) [a.1] a.2
    | some 1 =>
      let a := checkSeal 1 (namedNo e 1) key s0
      sealOutcome (if a.1.reason = 0 then some a.1 else none) [a.1] a.2
    | _ => sealOutcome none [] s0
  | .missing => checkBoth none key s
  | .other =>
    let x := ((e.map (·.slot)).getD 0) % 2
    checkBoth e key (raise 33 (2 ^ 33) { s with rs := { s.rs with begun := true, entrySlot := x } })

/-- GN_KEYGEN and GN_KCV of a key that retained Garnet still holds, after PD_MGT was off. -/
def keyReport (k : Nat) (s : State) : State :=
  if flag s (keyFlag k) then
    let w8 := (judgeStored (garnetStored s 8) 0).1.data
    setF (genField k) (sat 0xFFFF (((peekKey s k).map (·.keygen)).getD 0)) (setF (kcvField k) (kcvOf k w8 / 0x10000) s)
  else s

/-- The keys of U2: from retained Garnet, else unwrapped; a key-record erase is waited for (R359). -/
def restoreKeys (s : State) : State :=
  let s1 := if s.gn.eraseDue then eraseKeys s else s
  if s.rs.origin = 1 then keyReport 2 (keyReport 1 (checkKeys s1)) else unwrapKeys s1

/-- U2: the persistence record with what an outage adds to the retention used, the keys, the seal, the trace ring. The
Boolean is true when the device goes on with a cold bring-up instead (R358). -/
def restoreSeal (s : State) : Bool × Option SealCheck × State :=
  let p := readPersist (restoreKeys s)
  let s1 := match p.1.1 with
    | none => p.2
    | some e => addRetain (retainMinute (gradeMaxCode p.2) * (p.2.ps.heldT + p.2.ps.dormT) / 240000000) (loadEntry e p.2)
  if entryCase p.1.1 = .other && flag s1 Fld.PS_STATUS_IN_BRINGUP then (true, none, s1)
  else
    let k := garnetKey 1 s1
    let r := sealCheck p.1.1 k.1 k.2
    (false, r.1, mergeTrace r.2)

/-! ### U3: the calibration load (R360, R361) -/

/-- The Lane Guard state and the pending entry of one rank, from a seal. -/
def sealRank (bs : List Byte) (s : State) (r : Nat) : State :=
  let st := fieldAt bs (0x48 + r) 1
  let p := fieldAt bs (0x64 + r) 1
  let s1 := setB (Fld.LG_RANK_SECOND.at r) (st.testBit 7) (setB (Fld.LG_RANK_PL_FAULT.at r) (st.testBit 6)
    (setB (Fld.LG_RANK_ERASED.at r) (st.testBit 5) (setF (Fld.LG_RANK_LANE.at r) (st % 8)
      (setF (Fld.LG_RFAIL_COUNT.at r) (fieldAt bs (0x4C + 2 * r) 2) s))))
  if p.testBit 7 then
    { s1 with lg := { s1.lg with fails := s1.lg.fails ++ [⟨r, natBits p 6 4, p % 8, st.testBit 5⟩] } }
  else s1

/-- The values of the ledger source's seal. -/
def sealValues (bs : List Byte) (s : State) : State :=
  let ranks := fieldAt bs 0x41 1
  let s1 := setF Fld.CA_CFG_RANK_EN (ranks % 16) (setF Fld.CA_CFG_DENSITY (natBits ranks 5 4)
    (setReg 0x0828 (BitVec.ofNat 32 (fieldAt bs 0x54 4)) (setReg 0x0820 (BitVec.ofNat 32 (fieldAt bs 0x58 4))
      (setReg Fld.LG_MAPF_MAP.addr (BitVec.ofNat 32 (fieldAt bs 0x44 4)) s))))
  let s2 := rankList.foldl (sealRank bs) s1
  let mir := (fieldAt bs 0x27 1).testBit 0
  guardStatus (setB Fld.LD_STATUS_MIRROR_IN_FORCE (mir && twinEn s) (setF Fld.PM_RANK_COLD_MARK (fieldAt bs 0x42 1)
    (setF Fld.LD_OPSEQ_SEQ (fieldAt bs 0x60 4) { s2 with rs := { s2.rs with mirrorSeal := mir } })))

/-- The same from the configuration record, which PD_CORE loaded as it powered up. -/
def configSource (s : State) : State :=
  setB Fld.LD_STATUS_MIRROR_IN_FORCE (flag s Fld.LD_CFG_MIRROR && twinEn s) (setF Fld.PM_RANK_COLD_MARK 0 s)

/-- The HCT, the calibration record of the rate set, ZQ; the DRAM timings of the rate (R570). -/
def calibrationLoad (b : BringUp) (s : State) : State :=
  let s1 := zqCalibrate b.zq (calLoad (rateSet s) (cfgLoadHct s))
  { s1 with ca := { s1.ca with timings := some b.timings } }

/-! ### U4 and U5 (R362 to R364) -/

/-- Self-refresh exit. In `mode run` only the ranks still in self-refresh leave it. -/
def selfRefreshExit (run : Bool) (s : State) : State :=
  dramUp (((popRanks s).filter (fun r => !run || inSr s r)).map OwnCmd.srx) s

/-- The pattern of burst `k` of the canary rows of a rank, on its six lanes (R337). -/
def canaryBurst (nonce : Dword) (r k : Nat) : Nat :=
  ofDramLanes ((List.range 6).map (fun d => ofLeBytes (((canaryLane nonce r (k / 64) d).drop (k % 64 * 16)).take 16)))

/-- The bits of a burst that differ from the pattern in both reads. -/
def canaryBits (nonce : Dword) (r : Nat) (x : CanaryRead) : Nat :=
  let e := canaryBurst nonce r x.burst
  (x.readA.toNat ^^^ e) &&& (x.readB.toNat ^^^ e)

/-- Mismatching bits of each lane of a rank (R363); a burst counts once. -/
def canaryMiss (nonce : Dword) (r : Nat) (c : RankCheck) : List Nat :=
  let bits := (List.range 128).filterMap (fun k => (c.canary.find? (fun x => x.burst = k)).map (canaryBits nonce r))
  (List.range 6).map (fun d => (bits.map (fun b => popCount 128 (dramLane b d))).sum)

/-- The worst lane of a rank, and whether its canaries match: the erased lane is judged only with ELANE_CHECK. -/
def canaryWorst (miss : List Nat) : Nat := miss.foldl max 0
def canaryMatch (s : State) (r : Nat) (miss : List Nat) : Bool :=
  (List.range 6).all (fun d =>
    (rankErased s r && erasedLane s r = d && !flag s Fld.PS_RCFG_ELANE_CHECK)
      || miss.getD d 0 ≤ getF s Fld.PS_RCFG_CANARY_TOL)

/-- A rank whose canaries return their pattern, and of which nothing else is known. -/
def noCheck : RankCheck := ⟨[], []⟩

/-- The code of Table HR-5. `proof`: a verified seal of a save, or `mode run`; `mask`: the ranks whose canaries were
written, with `nonce`. -/
def rankCode (proof : Bool) (mask : Nat) (nonce : Dword) (cs : List RankCheck) (s : State) (r : Nat) : Nat :=
  if !populated s r then 5
  else if !proof then 4
  else if bitF s Fld.PM_RANK_COLD_MARK r then 2
  else if !mask.testBit r then 3
  else if canaryMatch s r (canaryMiss nonce r (cs.getD r noCheck)) then 0 else 1

/-- Is a code one whose canaries were read? -/
def judgedCode (c : Nat) : Bool := c = 0 || c = 1

/-- U5: every populated rank gets its result. -/
def canaryCheck (proof : Bool) (mask : Nat) (nonce : Dword) (cs : List RankCheck) (s : State) : State :=
  let code := rankCode proof mask nonce cs s
  let sel := fun p => ofBits (rankList.filter p)
  let miss := rankList.foldl (fun a r =>
    a + (if judgedCode (code r) then sat 255 (canaryWorst (canaryMiss nonce r (cs.getD r noCheck))) else 0) * 2 ^ (8 * r)) 0
  let bad := sel (fun r => code r = 1)
  let s1 := { s with rs := { s.rs with
    warm := sel (fun r => code r = 0), cold := sel (fun r => 1 ≤ code r && code r ≤ 4),
    reason := rankList.foldl (fun a r => a + code r * 2 ^ (4 * r)) 0, miss := miss,
    noProof := rankList.any (fun r => code r = 4) } }
  if bad = 0 then s1 else raise 34 (miss * 2 ^ 32 + bad) s1

/-! ### U6 (R238, R239, R365) -/

/-- W of a bit as the calibration record loaded holds it; none when no valid record exists. -/
def recordW (s : State) (r d i : Nat) : Option Nat :=
  let q := quality s (qDram r d i)
  if flag s Fld.CB_STATUS_FROM_RECORD && q.testBit 18 then some (qW q) else none

/-- W of a bit as the timing phase of the quick check measured it; 0 where an edge is missing. -/
def scanW (thr : Nat) (b : BitScan) : Nat :=
  match timeEdges .single thr b with
  | (some l, some r) => (r - l).toNat
  | _ => 0

/-- The bits that fail the check of a rank: lane, W measured, W recorded. -/
def quickFails (c : RankCheck) (s : State) (r : Nat) : List (Nat × Nat × Nat) :=
  (List.range 6).flatMap (fun d =>
    if rankErased s r && erasedLane s r = d then []
    else bits8.filterMap (fun i =>
      let m := scanW (edgeThr (repNow s)) ((c.scans.getD d []).getD i noScan)
      match recordW s r d i with
      | none => some (d, m, 0)
      | some w => if m * 100 < w * getF s Fld.CB_DQCK_PCT then some (d, m, w) else none))

/-- A failing bit is worse the smaller its W against the recorded W. -/
def worseBit (a b : Nat × Nat × Nat × Nat) : Bool := b.2.2.1 * a.2.2.2 < a.2.2.1 * b.2.2.2

/-- The syndrome of FS 37 (Table CD-5). Entries are (rank, lane, W measured, W recorded). -/
def synFs37 (s : State) (failing : Nat) (bits : List (Nat × Nat × Nat × Nat)) : Nat :=
  match bits with
  | [] => failing * 2 ^ 60
  | b :: t =>
    let w := t.foldl (fun a x => if worseBit a x then x else a) b
    failing * 2 ^ 60 + w.2.1 * 2 ^ 56 + w.1 * 2 ^ 52 + b2n (!flag s Fld.CB_STATUS_FROM_RECORD) * 2 ^ 16
      + sat 255 w.2.2.1 * 2 ^ 8 + sat 255 w.2.2.2

/-- U6: the quick check, and one training pass where a rank is cold or fails. -/
def quickCheck (cs : List RankCheck) (b : BringUp) (s : State) : State :=
  let warm := rankList.filter (fun r => s.rs.warm.testBit r)
  let fails := fun r => quickFails (cs.getD r noCheck) s r
  let failing := warm.filter (fun r => fails r ≠ [])
  let cold := rankList.filter (fun r => s.rs.cold.testBit r)
  let s1 := setF Fld.CB_DQCK_FAIL (ofBits failing) (setF Fld.CB_DQCK_SKIPPED (ofBits cold) s)
  let s2 := if failing = [] then s1
    else raise 37 (synFs37 s (ofBits failing) (failing.flatMap (fun r => (fails r).map (fun e => (r, e))))) s1
  let todo := rankList.filter (fun r => failing.contains r || cold.contains r)
  if todo = [] then s2
  else
    let x := trainPass true (b.passes.headD []) (allLanes todo) s2
    let s3 := issue (cold.map OwnCmd.reserved) (eraseLeft x.2 x.1)
    { s3 with rs := { s3.rs with fallback := true }, kp := { s3.kp with calDue := true } }

/-! ### U7 (R366, Table HR-6) -/

/-- Reload one line from a slot, poisoned where the map says so. -/
def reloadLine (slot : Nat) (poison : SMap 1) (s : State) (l : Nat) : State :=
  let r := keepRead (slotAt slot + l * 80) 80 s
  let ws := (List.range 10).map (fun w => BitVec.ofNat 64 (fieldAt r.1.1 (8 * w) 8))
  let mapBad := smGet (zeroDefault 1) poison l = 1#1
  (List.range 10).foldl (fun t w =>
    let d : Dword := ws.getD w 0
    let ue := (judgeStored (keepStored s (slotAt slot / 8 + l * 10 + w)) 0).1.ue
    if mapBad || ue then setStored (wordKey l w) (poisonWord d) t else putWord l w d t) r.2

/-- The lines of some banks that a reload can change: any line with a stored keep word, a poison mark, or one that is
not zero in the ledger. Every other line is zero on both sides. -/
def reloadLines (slot banks : Nat) (poison : SMap 1) (s : State) : List Nat :=
  let base := slotAt slot / 8
  let ks := s.kp.words.filterMap (fun e => if base ≤ e.1 && e.1 < base + 317440 then some ((e.1 - base) / 10) else none)
  let ls := s.ld.words.map (fun e => e.1 / 10)
  (List.range slotFirst).filter (fun l => banks.testBit (lineBank l) && (ks.contains l || ls.contains l || poison.any (fun e => e.1 = l)))

/-- The bitmaps after a reload (R261, R264): the slot's own is cleared for the lines reloaded unless it failed the
retention check, the other is set. -/
def reloadMaps (slot banks : Nat) (s : State) : State :=
  let failed := bitF s Fld.LD_RSTAT_MAP_FAIL slot
  (List.range 496).foldl (fun t i =>
    if banks.testBit (i / 32) then
      let t1 := setMap (1 - slot) i (BitVec.allOnes 64) t
      if failed then t1 else setMap slot i 0 t1
    else t) s

/-- Reload the lines of some banks from a slot. -/
def reloadBanks (slot banks : Nat) (s : State) : State :=
  let p := keepRead (poisonAt slot) 3968 s
  let m := mapOfBytes p.1.1
  let s1 := (reloadLines slot banks m p.2).foldl (reloadLine slot m) p.2
  setF Fld.LD_RCHK_RELOADED banks (reloadMaps slot banks s1)

/-- U7. -/
def ledgerReload (s : State) : State :=
  let failed := getF s Fld.LD_RCHK_FAILED
  let done := fun (code : Nat) (t : State) => { t with rs := { t.rs with ledger := code } }
  match s.rs.source with
  | none => done 4 (setF Fld.LD_RCHK_RELOADED 0 (clearLedger s))
  | some x =>
    if s.rs.named ≠ some x then done 3 (reloadBanks x 0xFFFF s)
    else if s.rs.ldgOff then done 2 (reloadBanks x 0xFFFF s)
    else if failed ≠ 0 then done 1 (reloadBanks x failed s)
    else done 0 (setF Fld.LD_RCHK_RELOADED 0 s)

/-! ### The sequence -/

/-- U3 to U7. -/
def restoreRest (b : BringUp) (cs : List RankCheck) (src : Option SealCheck) (s : State) : State :=
  let s1 := match src with
    | none => configSource s
    | some c => sealValues c.bytes s
  let mask := match src with
    | none => 0
    | some c => fieldAt c.bytes 0x43 1
  let nonce : Dword := BitVec.ofNat 64 ((src.map (fun c => fieldAt c.bytes 0x28 8)).getD 0)
  let s2 := canaryCheck s1.rs.sealOk mask nonce cs (selfRefreshExit false (calibrationLoad b s1))
  let s3 := ledgerReload (quickCheck cs b s2)
  { s3 with rs := { s3.rs with path := .restoreReady } }

/-- U0 to U7 once the device has begun. Committed rate fields apply from here (R82). Where the record sends the device to the
cold path it waits for COLD_BRINGUP with its domains off (Table PM-3). -/
def restoreRun (w : WakeUp) (b : BringUp) (damage garnetDamage : List (Nat × BitVec 72)) (cs : List RankCheck)
    (s : State) : State :=
  let s1 := if s.rs.origin = 0 then s else mgtWake w s
  if s1.sw.halted then trainWait .restoreWait s1
  else
    let c := confirmRate b.confirm.toNat (ratesInForce s1)
    if !c.1 then trainWait .restoreWait c.2
    else
      let r := restoreSeal (restorePower damage garnetDamage c.2)
      if r.1 then trainWait .coldWait r.2.2 else restoreRest b cs r.2.1 r.2.2

/-- HOLDACK stays high for two ticks at least (R347). -/
def holdackShown (s : State) : Bool := s.ps.holdAt.all (fun h => 2 ≤ ticksSince s.aon h)

/-- May a restore start (R354)? -/
def mayRestore (s : State) : Bool :=
  restoreConditions s && s.boot = .up && !s.sw.halted && (!s.pins.holdack || holdackShown s) &&
    (mode s = modeHold || mode s = modeDormant || (inTrain s && s.rs.path = .restoreWait))

/-- A CHIPRST that a save deferred is performed in place of U0 (R346). -/
def restoreStart (w : WakeUp) (b : BringUp) (damage garnetDamage : List (Nat × BitVec 72)) (cs : List RankCheck)
    (s : State) : State :=
  if !mayRestore s then s
  else if flag s Fld.PS_STATUS_DEFER_CHIPRST && !chipLimited s then
    let s1 := outageEnds s
    faultReset ((s.fc.deferred.headD (0, 0)).1) (setF Fld.PS_STATUS_DEFER_CHIPRST 0
      { s1 with pins := { s1.pins with holdack := false }, fc := { s1.fc with deferred := [] } })
  else if flag s Fld.PS_STATUS_DEFER_CHIPRST then
    restoreRun w b damage garnetDamage cs (restoreBegin (setF Fld.FC_STATUS_RST_LIMIT 1
      (setF Fld.PS_STATUS_DEFER_CHIPRST 0 { s with fc := { s.fc with deferred := [] } })))
  else restoreRun w b damage garnetDamage cs (restoreBegin s)

/-! ### Hand-back (R367, R369) -/

/-- The results of U0 to U8 (R373). -/
def restoreResults (s : State) : State :=
  let r := s.rs
  let w := 2 ^ 31 + r.ledger * 2 ^ 28 + 8 * 2 ^ 24 + r.warm * 2 ^ 20 + r.cold * 2 ^ 16 + r.origin * 2 ^ 14
    + b2n r.fallback * 2 ^ 13 + b2n r.sealOk * 2 ^ 12 + b2n r.begun * 2 ^ 11 + b2n r.noProof * 2 ^ 10
    + r.source.getD 0 * 2 ^ 9
  let s1 := setReg Fld.PS_RSTAT_VALID.addr (BitVec.ofNat 32 w) s
  let s2 := setReg Fld.PS_RREASON_RANK0.addr (BitVec.ofNat 32 r.reason) (setReg Fld.PS_RMISS_RANK0.addr (BitVec.ofNat 32 r.miss) s1)
  setF Fld.PS_RTIME_US (usSince 24 s r.t0) (setF Fld.PS_HOLDT_S (s.ps.heldT / ticksPerS)
    (setF Fld.PS_DORMT_S (s.ps.dormT / ticksPerS) s2))

def ledgerName (c : Nat) : String :=
  match c with
  | 0 => "retained"
  | 1 => "banks"
  | 2 => "reloaded"
  | 3 => "reverted"
  | _ => "cleared"

/-- The restore line, its IBI, and the RESTORE word. -/
def restoreReport (s : State) : State :=
  let r := s.rs
  let word := if r.cold = 0 then "warm" else if r.warm = 0 then "cold" else "partial"
  ibi 0x10 (some (r.cold * 16 + r.warm)) <| conEvent false ("! restore " ++ word ++ " warm=0x" ++ hexStrU 1 r.warm ++ " cold=0x" ++ hexStrU 1 r.cold
      ++ " ledger=" ++ ledgerName r.ledger ++ " t=" ++ decStr (ticksSince s.aon r.t0 / ticksPerMs))
    { s with ca := { s.ca with restoreWord := r.warm + r.cold * 16 } }

/-- Step 4: the CONSUMED entry. -/
def consume (flips : List (Nat × BitVec 72)) (s : State) : State :=
  (writeEntry entryTypeConsumed 0 (s.rs.source.getD s.rs.entrySlot) s.rs.sealSlot s.rs.sealNo 0 flips s).2

/-- U8; `run` for `mode run`, which consumes no seal. -/
def restoreHandBack (run : Bool) (flips : List (Nat × BitVec 72)) (s : State) : State :=
  let r := s.rs
  let s1 := handBackClear s
  let s2 := setF Fld.PM_RANK_COLD_MARK ((15 - r.cold) &&& getF s1 Fld.PM_RANK_COLD_MARK) s1
  let s3 := restoreResults (handBackRun (if run then s2 else bootTime (consume flips s2)))
  let valid := if run then flag s Fld.TW_STATUS_REPL_VALID else r.mirrorSeal
  let s4 := twinHandBack 2 r.ledger r.warm r.cold valid (restoreReport s3)
  let s5 := boundaryAll (handBackDeferred { s4 with ps := { s4.ps with heldT := 0, dormT := 0 } })
  let s6 := if run then completeTokens tokRun "ok" s5 else s5
  if s.kp.calDue then calStoreStart s6 else s6

/-! ### `mode run` (R65) -/

/-- May `mode run` begin? In SERVICE, nothing running, the restore conditions present. -/
def runReady (s : State) : Bool :=
  inService s && !saving s && !flag s Fld.MT_STATUS_BUSY && restoreConditions s && coreOn s

/-- The nonce of the last save or SERVICE entry (R65, R337). -/
def nonceNow (s : State) : Dword := BitVec.ofNat 64 (getF s Fld.PS_NONCEH_NONCE_HI * 2 ^ 32 + getF s Fld.PS_NONCEL_NONCE_LO)

/-- U3 to U6 without a seal, on the ledger in SRAM. -/
def serviceRun (b : BringUp) (cs : List RankCheck) (s : State) : State :=
  let s1 := setF Fld.PM_MODE_RESTORING 1 (transition modeRun subTrain 0x0A s)
  let src := s.rs.source
  let s2 := { s1 with rs := { RestoreUnit.init with path := .serviceReady, t0 := s.aon, origin := 0, source := src } }
  let s3 := canaryCheck true (getF s Fld.PS_STATUS_CANARY) (nonceNow s) cs (selfRefreshExit true (calibrationLoad b s2))
  let s4 := quickCheck cs b s3
  { s4 with rs := { s4.rs with noProof := false, source := none } }

/-! ### The commands -/

/-- RESTORE_START (R354): U0 to U7. -/
def execRestoreStart (w : WakeUp) (b : BringUp) (damage garnetDamage : List (Nat × BitVec 72)) (checks : List RankCheck)
    (s : State) : Host.Outcome State Fault Refusal := .next (restoreStart w b damage garnetDamage checks s)

/-- RESTORE_REFRESH (R356): a REFab to each populated rank while hand-back waits. -/
def execRestoreRefresh (s : State) : Host.Outcome State Fault Refusal :=
  .next (if inTrain s && (s.rs.path = .restoreReady || s.rs.path = .serviceReady) then
      (popRanks s).foldl (fun t r => markRefresh r t) (issue ((popRanks s).map OwnCmd.refab) s)
    else s)

/-- RESTORE_HAND_BACK (R367): U8, once HRST_N is recognised high or ignored. -/
def execRestoreHandBack (flips : List (Nat × BitVec 72)) (s : State) : Host.Outcome State Fault Refusal :=
  .next (if !inTrain s || hrstLow s then s
    else if s.rs.path = .restoreReady then restoreHandBack false flips s
    else if s.rs.path = .serviceReady then restoreHandBack true flips s
    else s)

end Sys2Proof.Machine
end

