-- ==== Sys2Proof/Machine/ColdBringup.lean ====
section
/-! DEFINITION. Cold bring-up (R89, Table CK-5): B1 to B10 as one step, and the hand-back B11. -/

namespace Sys2Proof.Machine

/-- B2: the domains are powered. What was committed for the next cold bring-up comes into force (R105, R120, R157,
R247). -/
def coldPower (s : State) : State :=
  let kept := if coreOn s then s.committed else []
  let s1 := coreUp (setDomains 1 1 1 1 1 s)
  let s2 := applyCommitted (fun _ => true) { s1 with committed := kept }
  let s3 := setReg Fld.LG_MAPF_MAP.addr (reg s2 0x2004) s2
  setB Fld.LD_STATUS_MIRROR_IN_FORCE (flag s3 Fld.LD_CFG_MIRROR && twinEn s3) s3

/-- B3: the start-up march, the ledger and Garnet cleared, the keys unwrapped or a seal key generated, the trace
ring. -/
def coldMemories (reads : List MarchRead) (flips : List (Nat × BitVec 72)) (s : State) : State :=
  let s1 := wipeGarnet (clearLedger (startupMarch reads s))
  let s2 := generateSeal true flips (unwrapKeys { s1 with ld := { s1.ld with tags := [], tagCopy := [] } })
  ringFresh 1 (setF Fld.LD_STATUS_READY 1 (clearSlots s2))

/-- B6 to B8: initialisation, training, reserved rows. -/
def coldTrain (b : BringUp) (s : State) : State :=
  let ranks := popRanks s
  let s1 := setF Fld.PM_RANK_COLD_MARK 0 (dramUp (ranks.map OwnCmd.init) s)
  let x := trainPasses 5 true b.passes (allLanes ranks) s1
  let s2 := setF Fld.CK_BOOT_PASSES x.2.2 (eraseLeft x.2.1 x.1)
  issue (ranks.map OwnCmd.init ++ ranks.map OwnCmd.reserved) s2

/-- B1 to B10. -/
def coldRun (b : BringUp) (reads : List MarchRead) (flips : List (Nat × BitVec 72)) (s : State) : State :=
  let c := confirmRate b.confirm.toNat (ratesInForce s)
  if !c.1 then trainWait .coldWait c.2
  else
    let s1 := coldTrain b (calibrationLoad b (coldMemories reads flips (coldPower c.2)))
    let s2 := setF Fld.CK_BOOT_STEP 10 (calStoreRun true true flips s1)
    { s2 with rs := { s2.rs with path := .coldReady } }

/-- t0: the transition with cause 0x08. -/
def coldBegin (s : State) : State :=
  let s1 := setF Fld.PM_MODE_WAITING 0 (transition modeRun subTrain 0x08 s)
  setF Fld.CK_BOOT_PATH 1 (setF Fld.CK_BOOT_STEP 0 { s1 with rs := { RestoreUnit.init with path := .coldWait, t0 := s.aon } })

/-- May cold bring-up begin? -/
def mayBringUp (s : State) : Bool :=
  restoreConditions s && s.boot = .up && !s.sw.halted && inTrain s && s.rs.path = .coldWait

/-- B11. -/
def coldHandBack (s : State) : State :=
  let s0 := setF Fld.CK_BOOT_STEP 11 (bootTime (handBackRun (handBackClear s)))
  let s1 := { s0 with ca := { s0.ca with restoreWord := rankEn s * 16 } }
  let s2 := twinHandBack 1 4 0 (rankEn s) false s1
  boundaryAll (handBackDeferred s2)

/-! ### The commands -/

/-- COLD_BRINGUP (R89). -/
def execColdBringup (b : BringUp) (reads : List MarchRead) (flips : List (Nat × BitVec 72)) (s : State) :
    Host.Outcome State Fault Refusal :=
  .next (if mayBringUp s then coldRun b reads flips (coldBegin s) else s)

/-- COLD_HAND_BACK (R89): B11, once HRST_N is recognised high or ignored. -/
def execColdHandBack (s : State) : Host.Outcome State Fault Refusal :=
  .next (if inTrain s && s.rs.path = .coldReady && !hrstLow s then coldHandBack s else s)

end Sys2Proof.Machine
end

