-- ==== Sys2Proof/Machine/Power.lean ====
section
/-! DEFINITION. The start-up phase (R87, R88, Table CK-4) with its path decision (R57, R314), AONRST_N, PGOOD (R69) and
the rails VAUX and VDDQD (R36, R37, R440). -/

namespace Sys2Proof.Machine

/-! ### P1 and P2 -/

/-- P1: the fuses. -/
def fuseStart (s : State) : State :=
  readLc (loadSteering (gradeValues (setF Fld.CK_TICK_TRIM s.fuses.tickTrim.toNat s)))

/-- The majority of three samples, and whether they disagree. -/
def majority (v : BitVec 3) : Bool := 2 ≤ popCount 3 v.toNat
def unstable (v : BitVec 3) : Bool := v ≠ 0 && v ≠ 7

/-- P2 (R30, R33, R34). -/
def strapSample (pos en : BitVec 3) (s : State) : State :=
  let w := b2n (unstable en) * 8 + b2n (unstable pos) * 4 + b2n (majority en) * 2 + b2n (majority pos)
  { setReg 0x0008 (BitVec.ofNat 32 w) s with tr := { s.tr with strapOwed := unstable en || unstable pos } }

/-- Does the start-up phase follow a CHIPRST? PM_LAST tells (R66). -/
def afterChip (s : State) : Bool := getF s Fld.PM_LAST_CAUSE = 0x0E

/-! ### P6 -/

/-- The persistence record gives the keep's counters, and the newest seal (Table RX-8, R88). -/
def persistStart (chip : Bool) (s : State) : State × Path :=
  let p := readPersist s
  let s1 := match p.1.1 with
    | none => setF Fld.PS_SEALNO_SEALNO 0 (setF Fld.KP_STATUS_PERSIST_OK 0 p.2)
    | some e => addRetain 0 (setF Fld.PS_SEALNO_SEALNO e.sealNo (loadEntry e p.2))
  let s2 := if chip then s1 else setF Fld.KP_STATUS_REFRESH_DUE 1 s1
  (s2, match entryCase p.1.1 with
    | .sealed _ => .restoreWait
    | .begun _ _ => .restoreWait
    | .missing => if p.1.2 then .restoreWait else .coldWait
    | .other => .coldWait)

/-- The erase of the key records that the tamper latch forces (R440), or a record of another life-cycle state (R438). -/
def keyStart (s : State) : State :=
  if s.gn.eraseDue then setF Fld.CK_BOOT_TAMPER_WIPE 1 (eraseKeys s)
  else
    let s1 := (readKey 2 (readKey 1 s).2).2
    if staleRecord s1 then setF Fld.GN_STATUS_LC_ERASE 1 (eraseKeys s1) else s1

/-- The registers in PD_AON that every P6 loads from the record; without a record they take their factory values. -/
def p6Homes (a : Nat) : Bool := a = 0x3404 || a = 0x3408 || a = 0x3440 || a = 0x0408

/-- The configuration in force (R88, Table RX-8). -/
def configLoad (s : State) : State :=
  let s1 := configStart s
  calValidStart (cfgLoad p6Homes (loadClass .mgt (resetRegs p6Homes s1)))

/-- The reset report of R407, once the start-up phase has ended. -/
def resetReport (s : State) : State :=
  match s.fc.resetReport with
  | none => s
  | some n =>
    let held := flag s Fld.FC_FIRST_VALID && getF s Fld.FC_FIRST_SOURCE = n
    let cls := if held then getF s Fld.FC_FIRST_CLASS else getF s (Fld.FC_SRC_CLASS.bank n)
    let prom := held && flag s Fld.FC_FIRST_PROMOTED
    conEvent true ("! reset cause=fault fs=" ++ decStr n)
      (ibi (0x20 + cls) (some (n + b2n prom * 128)) { s with fc := { s.fc with resetReport := none } })

/-- DORMANT with cause 0x10: HOLDACK stays low (R57, R353). -/
def waitDormant (s : State) : State :=
  let s1 := powerDown (setF Fld.PM_MODE_WAITING 0 (transition modeDormant 0 0x10 s))
  { s1 with ld := { s1.ld with tags := [], tagCopy := [] },
            ps := { s1.ps with holdAt := none, dormAt := some s1.aon, heldT := 0, dormT := 0 },
            rs := { s1.rs with path := .idle } }

/-- P6 and the path decision. -/
def recordsStart (chip : Bool) (s : State) : State :=
  let p := persistStart chip s
  let s1 := trainLink (configLoad (keyStart p.1))
  let s2 := resetReport (setF Fld.PM_MODE_WAITING 1 { s1 with boot := .up, rs := { s1.rs with path := p.2 } })
  if p.2 = .restoreWait && !restoreConditions s2 && flag s2 Fld.PM_CTRL_WAIT_DORMANT then waitDormant s2 else s2

/-- P1 to P6. Without MCLK the Steward stays halted until the next reset (R79), and no path is chosen. -/
def startUp (pos en : BitVec 3) (w : WakeUp) (s : State) : State :=
  let chip := afterChip s
  let s1 := fuseStart s
  let s2 := mclkStart w (xoscStart w.xoscOk (if chip then s1 else strapSample pos en s1))
  if s2.sw.halted then { s2 with boot := .up } else recordsStart chip (patchStart s2)

/-! ### PGOOD (R69) -/

/-- In SERVICE they come back; the ring starts (R509). -/
def serviceUp (s : State) : State :=
  let s1 := coreUp (setDomains 1 (getF s Fld.PM_DOMAIN_MGT) 1 1 1 s)
  let s2 := setB Fld.LD_STATUS_MIRROR_IN_FORCE s1.ld.mirrorHeld (setF Fld.LD_STATUS_READY 1 s1)
  ringFresh 3 (setF Fld.CK_STATUS_HPLL_LOCK 1 s2)

/-- A sequence that waits for its hand-back stops: a cold bring-up restarts from its beginning, a restore runs
again. -/
def sequenceStop (s : State) : State :=
  match s.rs.path with
  | .coldReady => trainWait .coldWait s
  | .coldHeld => trainWait .coldWait s
  | .restoreReady => trainWait .restoreWait s
  | .serviceReady => completeTokens tokRun "err E60 hardware" (trainWait .restoreWait s)
  | _ => s

/-- PGOOD recognised low. -/
def pgoodLow (s : State) : State :=
  let s1 := trace 0x0102 0 { s with pins := { s.pins with pgood := false } }
  let s2 := if inRun s || inService s then
      trace 0x0301 (hckArgs (getF s Fld.CK_HCKCNT_COUNT) (flag s Fld.CK_STATUS_HCK_PRESENT) (flag s Fld.CK_STATUS_OVERSPEED) true) s1
    else s1
  if inService s && coreOn s then serviceDown s2
  else if inTrain s && !inSave s then sequenceStop s2
  else s2

/-- PGOOD recognised high. -/
def pgoodHigh (s : State) : State :=
  let s1 := trace 0x0102 1 { s with pins := { s.pins with pgood := true } }
  if inService s && !coreOn s && !inSave s then serviceUp s1 else s1

/-! ### The commands -/

/-- AONRST_N_FALL (R25). -/
def execAonrstNFall (s : State) : Host.Outcome State Fault Refusal := .next (aonReset s)

/-- START_UP_PHASE (R87): the rising edge of AONRST_N, or what follows a CHIPRST. -/
def execStartUpPhase (pos en : BitVec 3) (w : WakeUp) (s : State) : Host.Outcome State Fault Refusal :=
  .next (match s.boot with
    | .held => startUp pos en w (aonRelease s)
    | .starting => startUp pos en w s
    | .up => s)

/-- PGOOD_RISE (R24): ignored while AONRST_N is low (Table BS-9). -/
def execPgoodRise (s : State) : Host.Outcome State Fault Refusal :=
  .next (if s.boot = .held || s.pins.pgood then s else pgoodHigh s)

/-- PGOOD_FALL (R69). -/
def execPgoodFall (s : State) : Host.Outcome State Fault Refusal :=
  .next (if s.boot = .held || !s.pins.pgood then s else pgoodLow s)

/-- VAUX_RISE (R440): the device was off; AONRST_N is low (R68). The two non-volatile cells keep their values. -/
def execVauxRise (s : State) : Host.Outcome State Fault Refusal :=
  .next (setReg Fld.GN_TAMPT_TIME.addr 0 (setF Fld.GN_STATUS_TAMPER_NOW 0 (aonReset s)))

/-- VDDQD_RISE (R36). -/
def execVddqdRise (s : State) : Host.Outcome State Fault Refusal :=
  .next (if s.pins.vddqd then s else { s with pins := { s.pins with vddqd := true, island := .reset, given := false } })

/-- VDDQD_LOSS (R37). -/
def execVddqdLoss (s : State) : Host.Outcome State Fault Refusal :=
  .next ({ s with pins := { s.pins with vddqd := false, island := .undefined } })

end Sys2Proof.Machine
end

