-- ==== Sys2Proof/Machine/Twin.lean ====
section
/-! DEFINITION. The twin link's events (Chapter 17): training, flits received and sent, time, disagreement, the
replica. -/

namespace Sys2Proof.Machine

/-! ### Disagreement (R386, R387) -/

/-- The Steward versions are compared: FS 42 once per link-up. -/
def versionCheck (v : BitVec 24) (s : State) : State :=
  let s1 := setF Fld.TW_TVER_VERSION v.toNat s
  if v = s.sw.version then setF Fld.TW_STATUS_VER_MISMATCH 0 s1
  else
    let s2 := setF Fld.TW_STATUS_VER_MISMATCH 1 { s1 with tw := { s1.tw with queue := [], verRaised := true } }
    if s.tw.verRaised then s2 else raise 42 (s.sw.version.toNat * 2 ^ 32 + v.toNat) s2

/-- Does this device, and did the twin, hand back? -/
def handedBack (s : State) : Bool := served s || inService s
def twinHandedBack (s : State) : Bool :=
  let b := getF s Fld.TW_TSTATE_STATE
  b % 8 = modeService || (b % 8 = modeRun && natBits b 5 4 ≠ subTrain)

/-- Generations, and mirroring in force once both devices have handed back (DEDUCED, log entry 33): FS 43 as the
disagreement begins. -/
def generationCheck (gen : Word) (s : State) : State :=
  let mirror := flag s Fld.LD_STATUS_MIRROR_IN_FORCE ≠ twinMirror s && handedBack s && twinHandedBack s
  if gen ≠ s.kp.gen || mirror then
    let s1 := setF Fld.TW_STATUS_GEN_MISMATCH 1 { s with tw := { s.tw with queue := [] } }
    if flag s Fld.TW_STATUS_GEN_MISMATCH then s1 else raise 43 (s.kp.gen.toNat * 2 ^ 32 + gen.toNat) s1
  else setF Fld.TW_STATUS_GEN_MISMATCH 0 s

/-- The twin saves, or says BYE, and no SAVE flit came: the save prevails (R383). -/
def contagion (s : State) : State :=
  if saveable s && !s.tw.saveSeen then raise 45 1 (saveTrigger 0x03 s) else s

/-! ### Receiving (R379, R380) -/

/-- Flits up to and including sequence number `a` are acknowledged. -/
def ackFlits (a : Byte) (s : State) : State :=
  let left := s.tw.held.dropWhile (fun h => (a - h.seq).toNat < 128)
  let n := if left.length = s.tw.held.length then s.tw.replays else 0
  pumpFlits s.tw.waiting.length { s with tw := { s.tw with held := left, replays := n } }

/-- A flit received in error: it and those after it are discarded, and NAK is sent. -/
def flitError (s : State) : State := sendFlit (.nak s.tw.rxSeq) (incF Fld.TW_CNT_CRCERR s)

/-- One flit as it arrives: bytes 0 to 13, its CRC, whether its sync header and TYPE are those of Tables TW-1 and TW-2, and
the ACK of a control flit. -/
structure WireIn where
  framed : Bool
  bytes : List Byte
  crc : BitVec 16
  ack : Option Byte

/-- A control flit of type `type` with its fields. -/
def controlIn (type : Nat) (fields : List Byte) (ack : Byte) (w : FlitWire) : WireIn :=
  ⟨w.sync = 1 && w.type.toNat = type, w.type :: ack :: fieldBytes fields, w.crc, some ack⟩

/-- A data flit. -/
def dataIn (bytes : List Byte) (w : DataWire) : WireIn := ⟨w.sync = 2, bytes, w.crc, none⟩

/-- The CRC as the receiver takes it: injection inverts it, and counts the flit (Table FC-5). -/
def crcTaken (crc : BitVec 16) (s : State) : BitVec 16 × State :=
  if flag s Fld.FC_INJ_TW_N then (~~~crc, setF Fld.FC_INJ_TW_N (getF s Fld.FC_INJ_TW_N - 1) s) else (crc, s)

/-- A flit whose sequence number is `seq` arrives: whether it is taken in order, and then its ACK counts. One received in error
is discarded with a NAK, one out of order without (R379, R380). -/
def receiveOne (x : WireIn) (seq : Byte) (s : State) : Bool × State :=
  let c := crcTaken x.crc s
  if !x.framed || c.1 ≠ crc16 x.bytes then (false, flitError c.2)
  else if seq ≠ c.2.tw.rxSeq then (false, c.2)
  else
    let s1 := { c.2 with tw := { c.2.tw with rxSeq := seq + 1 } }
    (true, match x.ack with | some a => ackFlits a s1 | none => s1)

/-- A control flit arrives; `f` is what it does when it is taken. -/
def receiveFlit (type : Nat) (fields : List Byte) (seq ack : Byte) (w : FlitWire) (f : State → State) (s : State) : State :=
  if !linkUp s then s
  else
    let r := receiveOne (controlIn type fields ack w) seq s
    if r.1 then f r.2 else r.2

/-- The data flits of a line, in order behind its LINE flit. -/
def receiveTail : Byte → List Byte → List DataWire → Bool × State → Bool × State
  | _, _, [], r => r
  | seq, bytes, w :: ws, r => receiveTail (seq + 1) (bytes.drop 14) ws (receiveOne (dataIn (bytes.take 14) w) seq r.2)

/-- The sender replays from flit `expected`; the eighth replay without success gives FS 41 and a retrain. -/
def nakReceived (expected : Byte) (s : State) : State :=
  let s1 := ackFlits (expected - 1) s
  match s1.tw.held with
  | [] => s1
  | h :: _ =>
    if s1.tw.replays = 8 then retrain (raise 41 (h.seq.toNat % 2 * 256 + h.seq.toNat) s1)
    else incF Fld.TW_CNT_REPLAYS { s1 with tw := { putFlits s1.tw.held s1.tw with replays := s1.tw.replays + 1 } }

/-! ### Link training (R378) -/

/-- The link is up: sequence numbers start afresh, except after a retrain, after which the held flits are sent
again (R380). -/
def linkComesUp (inv : BitVec 2) (s : State) : State :=
  let t := s.tw
  let tw := if t.retraining then { putFlits t.held t with retraining := false, replays := 0, verRaised := false }
    else { t with rxSeq := 0, txSeq := 0, held := [], waiting := [], sent := [], replays := 0, t1 := none, sample := none,
                  status := none, byeSeen := false, verRaised := false }
  let s1 := setF Fld.TW_STATUS_LINK 2 (setF Fld.TW_STATUS_INV inv.toNat { s with tw := { tw with upSeen := true } })
  replUpdate (sendFlit (.ident (flag s Fld.GL_STRAP_TWIN_POS) s.sw.version s.tw.hbTime) s1)

/-- LINK_EN is written: 1 starts training, 0 takes the link down after a SAVE flit that waits. -/
def linkEnable (on : Bool) (s : State) : State :=
  if on then trainLink (setF Fld.TW_CFG_LINK_EN 1 s)
  else
    let s1 := setF Fld.TW_CFG_LINK_EN 0 s
    match getF s Fld.TW_STATUS_LINK with
    | 0 => s1
    | 2 =>
      let urgent := s.tw.waiting.filter (fun b => match b with | .save _ _ => true | _ => false)
      linkLost 0 (urgent.foldl (fun t b => emitFlit b t) s1)
    | _ => setF Fld.TW_STATUS_LINK 0 { s1 with tw := { s1.tw with retraining := false, held := [], waiting := [] } }

/-! ### Flits that carry state -/

/-- IDENT (R376, R386, R395). -/
def identReceived (pos : Bool) (version : BitVec 24) (hb : Word) (s : State) : State :=
  let s1 := setF Fld.TW_THB_HB_TIME hb.toNat s
  let s2 := if pos = flag s Fld.GL_STRAP_TWIN_POS then
      raise 45 2 (setF Fld.TW_STATUS_POS_CONFLICT 1 { s1 with tw := { s1.tw with queue := [] } })
    else setF Fld.TW_STATUS_POS_CONFLICT 0 s1
  let s3 := versionCheck version s2
  let new := hb ≠ 0 && s.tw.hbSeen ≠ some hb
  replUpdate { s3 with tw := { s3.tw with hbSeen := some hb, identNew := s3.tw.identNew || new } }

/-- What the twin's STATUS says, as the registers hold it. -/
def statusRegs (b2 b3 b4 b5 b6 : Byte) (gen : Word) (s : State) : State :=
  let r := natBits b5.toNat 6 4 * 0x1000 + b5.toNat % 8 * 0x100 + b6.toNat / 16 * 0x10 + b6.toNat % 16
  setF Fld.TW_TSTATE_STATE (b2.toNat + b3.toNat * 2 ^ 8 + b4.toNat * 2 ^ 16)
    (setReg Fld.TW_TREST_LEDGER.addr (BitVec.ofNat 32 r) (setF Fld.TW_TGEN_GEN gen.toNat s))

/-- A hand-back of the twin that is new (R395). -/
def hbToggled (b5 : Byte) (s : State) : State :=
  let tog := b5.getLsbD 7
  let new := s.tw.identNew || s.tw.hbBase = some (!tog)
  let s1 := { s with tw := { s.tw with hbBase := some tog } }
  if new && b5.toNat % 8 ≠ 0 then
    let s2 := { s1 with tw := { s1.tw with identNew := false, twinNew := true, holdNew := true } }
    if s2.tw.moduleDue then setModule s2 else s2
  else s1

/-- STATUS (R381). -/
def statusReceived (b2 b3 b4 b5 b6 : Byte) (version : BitVec 24) (gen : Word) (s : State) : State :=
  let s1 := statusRegs b2 b3 b4 b5 b6 gen { s with tw := { s.tw with
    status := some ([b2, b3, b4, b5, b6] ++ leBytes 3 version.toNat ++ leBytes 4 gen.toNat) } }
  let s2 := hbToggled b5 (generationCheck gen (versionCheck version s1))
  let s3 := replUpdate (syncUpdate s2)
  if b3.getLsbD 0 then contagion s3 else s3

/-! ### Time (R384, R385) -/

/-- TIME_REQ is sent; t1 is noted. -/
def timeRequest (s : State) : State :=
  if linkUp s then sendFlit .timeReq { s with tw := { s.tw with t1 := some s.aon } } else s

/-- The drift in ppm between two samples. -/
def drift (new old : Int) (elapsed : Nat) : Int := if elapsed = 0 then 0 else ((new - old) * 1000000).tdiv elapsed

/-- A sample is compared with the one before: a jump of more than 1 ms prevails over a drift. -/
def timeCompare (off : Int) (old : Time × Time) (s : State) : State :=
  let prev := signed 48 old.1.toNat
  let ppm := drift off prev (ticksSince s.aon old.2)
  let kind := if 4000 < (off - prev).natAbs then 2 else if getF s Fld.TW_CFG_DRIFT * 10 < ppm.natAbs then 1 else 0
  let s1 := setF Fld.TW_DRIFT_PPM (unsigned 16 (max (-32768) (min 32767 ppm))) s
  if kind = 0 then s1
  else timeRequest (raise 44 (kind * 2 ^ 62 + sat 0x3FFF ppm.natAbs * 2 ^ 48 + unsigned 48 off)
    { s1 with tw := { s1.tw with sample := none } })

/-- TIME_RSP. -/
def timeResponse (t2 t3 : Time) (s : State) : State :=
  match s.tw.t1 with
  | none => s
  | some t1 =>
    let off : Int := (((t2.toNat : Int) - t1.toNat) + ((t3.toNat : Int) - s.aon.toNat)).tdiv 2
    let w := unsigned 48 off
    let s1 := setF Fld.TW_OFFL_OFF_LO (w % 2 ^ 32) (setF Fld.TW_OFFH_OFF_HI (w / 2 ^ 32)
      { s with tw := { s.tw with t1 := none, sample := some (BitVec.ofNat 48 w, s.aon) } })
    match s.tw.sample with
    | none => s1
    | some old => timeCompare off old s1

/-! ### The replica (R389 to R394) -/

/-- Are received lines written (R391)? In a save, until the end of its C3. -/
def acceptsLines (s : State) : Bool :=
  flag s Fld.TW_STATUS_REPL_RUN && !flag s Fld.TW_STATUS_RESYNC_HELD && handedBack s && portETwin s

/-- A LINE with its data flits, written as requester 4. `held`: the write waited on an atomic (Table LD-4). -/
def lineReceived (l : Nat) (poison : Bool) (data : Nat) (held : Bool) (s : State) : State :=
  if !acceptsLines s || replicaFirst ≤ l then incF Fld.TW_DROP_COUNT s
  else
    let k := replicaFirst + l
    let s1 := markDirty k (putLine poison k (burstWords data) (wakeFor k (countHeld held s)))
    syncUpdate (staleRegs { s1 with tw := { s1.tw with recvStale := setStale s1.tw.recvStale l false } })

/-- Lines that the twin asks for. -/
def resyncRequested (first count : Nat) (s : State) : State :=
  let m := (List.range count).foldl (fun a i => if first + i < replicaFirst then setStale a (first + i) true else a) s.tw.sendStale
  staleRegs { s with tw := { s.tw with sendStale := m } }

/-- Read an own line as requester 4 and send it. -/
def sendLine (l : Nat) (resync : Bool) (s : State) : State :=
  let r := readLine 1 4 l (wakeFor l s)
  sendFlit (.line l resync r.1.2 (BitVec.ofNat 640 (wordsBurst r.1.1))) r.2

/-- The lowest own line that is stale for sending. -/
def firstStale (s : State) : Option Nat := (List.range replicaFirst).find? (staleBit s.tw.sendStale)

/-- Is there a line to send? -/
def replicaDue (s : State) : Bool := !s.tw.queue.isEmpty || (firstStale s).isSome

/-- The next line of the replica: a queued one, else a stale one (R389, R390). -/
def replicaSend (s : State) : State :=
  match s.tw.queue with
  | l :: rest => sendLine l false { s with tw := { s.tw with queue := rest } }
  | [] =>
    match firstStale s with
    | none => s
    | some l =>
      let s1 := staleRegs { s with tw := { s.tw with sendStale := setStale s.tw.sendStale l false } }
      sendLine l true (if s1.tw.sendStale = [] then trace 0x0A01 1 s1 else s1)

/-- Is there room for a line among the 64 held flits? -/
def lineRoom (s : State) : Bool := s.tw.waiting.isEmpty && heldFlits s + 6 ≤ 64

/-! ### The commands -/

/-- LINK_UP (R378). -/
def execLinkUp (inv : BitVec 2) (s : State) : Host.Outcome State Fault Refusal :=
  .next (if getF s Fld.TW_STATUS_LINK = 1 && mayTrain s then linkComesUp inv s else s)

/-- LINK_TRAIN_RETRY (R378). -/
def execLinkTrainRetry (s : State) : Host.Outcome State Fault Refusal := .next (trainLink s)

/-- LINK_DOWN (R380): block lock lost. -/
def execLinkDown (s : State) : Host.Outcome State Fault Refusal := .next (if linkUp s then linkLost 1 s else s)

/-- RETRAIN_TIMEOUT (R380). -/
def execRetrainTimeout (s : State) : Host.Outcome State Fault Refusal :=
  .next (if s.tw.retraining && !linkUp s then linkLost 2 s else s)

/-- Are UP_WAIT seconds over since this device's hand-back (R380)? -/
def upWaitOver (s : State) : Bool := getF s Fld.TW_CFG_UP_WAIT * ticksPerS ≤ ticksSince s.aon s.tw.hbAt

/-- UP_WAIT_EXPIRY (R380): once after each hand-back. -/
def execUpWaitExpiry (s : State) : Host.Outcome State Fault Refusal :=
  .next (if mgtOn s && twinEn s && flag s Fld.TW_CFG_LINK_EN && handedBack s && !s.tw.upSeen && !linkUp s && upWaitOver s
    then raise 40 4 { s with tw := { s.tw with upSeen := true } } else s)

/-- IDLE (R379). -/
def execFlitIdle (seq ack : Byte) (w : FlitWire) (s : State) : Host.Outcome State Fault Refusal :=
  .next (receiveFlit 0x01 [] seq ack w id s)

/-- NAK (R380). -/
def execFlitNak (seq ack : Byte) (w : FlitWire) (expected : Byte) (s : State) : Host.Outcome State Fault Refusal :=
  .next (receiveFlit 0x02 [expected] seq ack w (nakReceived expected) s)

/-- IDENT (R376). -/
def execFlitIdent (seq ack : Byte) (w : FlitWire) (pos : Bool) (version : BitVec 24) (hbTime : Word) (s : State) :
    Host.Outcome State Fault Refusal := 
  .next (receiveFlit 0x03 (leBytes 1 (b2n pos) ++ leBytes 3 version.toNat ++ leBytes 4 hbTime.toNat) seq ack w
    (identReceived pos version hbTime) s)

/-- STATUS (R381). -/
def execFlitStatus (seq ack : Byte) (w : FlitWire) (b2 b3 b4 b5 b6 : Byte) (version : BitVec 24) (gen : Word) (s : State) :
    Host.Outcome State Fault Refusal := 
  .next (receiveFlit 0x04 ([b2, b3, b4, b5, b6] ++ leBytes 3 version.toNat ++ leBytes 4 gen.toNat) seq ack w
    (statusReceived b2 b3 b4 b5 b6 version gen) s)

/-- STATUS_SEND (R381). -/
def execStatusSend (s : State) : Host.Outcome State Fault Refusal := .next (sendFlit (.status (statusBytes s)) s)

/-- TIME_REQ_SEND (R384). -/
def execTimeReqSend (s : State) : Host.Outcome State Fault Refusal := .next (timeRequest s)

/-- TIME_REQ (R384). -/
def execFlitTimeReq (seq ack : Byte) (w : FlitWire) (s : State) : Host.Outcome State Fault Refusal :=
  .next (receiveFlit 0x05 [] seq ack w (fun t => sendFlit (.timeRsp t.aon t.aon) t) s)

/-- TIME_RSP (R385). -/
def execFlitTimeRsp (seq ack : Byte) (w : FlitWire) (t2 t3 : Time) (s : State) : Host.Outcome State Fault Refusal :=
  .next (receiveFlit 0x06 (leBytes 6 t2.toNat ++ leBytes 6 t3.toNat) seq ack w (timeResponse t2 t3) s)

/-- SAVE (R382): while this device saves it is ignored and traced. -/
def execFlitSave (seq ack : Byte) (w : FlitWire) (cause : Byte) (aonS0 : Time) (s : State) : Host.Outcome State Fault Refusal :=
  .next (receiveFlit 0x07 (cause :: leBytes 6 aonS0.toNat) seq ack w (fun t =>
    let t1 := { t with tw := { t.tw with saveSeen := true } }
    let t2 := saveTrigger 0x03 t1
    if inSave t then trace 0x0A01 2 t2 else t2) s)

/-- LAG_END (R394). -/
def execFlitLagEnd (seq ack : Byte) (w : FlitWire) (s : State) : Host.Outcome State Fault Refusal :=
  .next (receiveFlit 0x08 [] seq ack w (setF Fld.TW_STATUS_LAG_DRAINED 1) s)

/-- Can no own-half write land any more (R394): S1 has ended, and no write burst or descriptor is under way? -/
def ownWritesOver (s : State) : Bool :=
  s.ps.s1Ended && s.ld.ops.isEmpty && s.dl.writes.all (fun o => match o.kind with | .aperture _ _ => false | _ => true)

/-- LAG_END_SEND (R394): the queue is empty and no own-half write can still land. -/
def execLagEndSend (s : State) : Host.Outcome State Fault Refusal :=
  .next (if linkUp s && inSave s && ownWritesOver s && s.tw.queue.isEmpty && !s.tw.lagEndSent
    then sendFlit .lagEnd { s with tw := { s.tw with lagEndSent := true } } else s)

/-- BYE (R383). -/
def execFlitBye (seq ack : Byte) (w : FlitWire) (s : State) : Host.Outcome State Fault Refusal :=
  .next (receiveFlit 0x09 [] seq ack w (fun t => contagion { t with tw := { t.tw with byeSeen := true } }) s)

/-- RESYNC_REQ (R392). -/
def execFlitResyncReq (seq ack : Byte) (w : FlitWire) (first count : BitVec 16) (s : State) : Host.Outcome State Fault Refusal :=
  .next (receiveFlit 0x0A (leBytes 2 first.toNat ++ leBytes 2 count.toNat) seq ack w (resyncRequested first.toNat count.toNat) s)

/-- LINE (R391), with its five data flits. A flit of the line in error is replayed, and the line is complete with its last
flit in order. -/
def execFlitLine (seq ack : Byte) (w : FlitWire) (l : BitVec 14) (resync poison : Bool) (data : BitVec 640) (tails : List DataWire)
    (held : Bool) (s : State) : Host.Outcome State Fault Refusal :=
  let bytes := leBytes 80 data.toNat
  let head := controlIn 0x10 (leBytes 2 (l.toNat + b2n resync * 0x4000 + b2n poison * 0x8000) ++ bytes.take 10) ack w
  .next (if !linkUp s then s
    else
      let r := receiveTail (seq + 1) (bytes.drop 10) tails (receiveOne head seq s)
      if r.1 then lineReceived l.toNat poison data.toNat held r.2 else r.2)

/-- REPLICA_LINE_SEND (R389). `held`: the read waited on an atomic (Table LD-4). -/
def execReplicaLineSend (held : Bool) (s : State) : Host.Outcome State Fault Refusal :=
  .next (if linkUp s && mayQueue s && lineRoom s && portETwin s && replicaDue s then replicaSend (countHeld held s) else s)

/-- TW_RESUME (R393). -/
def execTwResume (s : State) : Host.Outcome State Fault Refusal := .next (if mgtOn s then resumeResync s else s)

/-- TW_RESYNC (R392). -/
def execTwResync (s : State) : Host.Outcome State Fault Refusal :=
  .next (if mgtOn s && flag s Fld.TW_STATUS_REPL_RUN then fullRequest s else s)

/-- TW_RETRAIN (R380). -/
def execTwRetrain (s : State) : Host.Outcome State Fault Refusal := .next (if mgtOn s then retrain s else s)

end Sys2Proof.Machine
end

