-- ==== Sys2Proof/Machine/SensorsTrace.lean ====
section
/-! DEFINITION. Temperature sensing and the trace commands (Chapter 23). -/

namespace Sys2Proof.Machine

/-! ### Conversions (R503 to R506) -/

/-- The code of a temperature in units of 0.25 °C, saturated to −60 °C and +150 °C (R504). -/
def sensorCode (t : Int) : Int := if t < -240 then -240 else if 600 < t then 600 else t

/-- Did the conversion saturate? -/
def sensorOut (t : Int) : Bool := decide (t < -240) || decide (600 < t)

/-- The syndrome of FS 58 (Table FS-3). -/
def synFs58 (n : Nat) (t : Int) : Nat :=
  b2n (decide (600 < t)) * 2 ^ 34 + n * 2 ^ 32 + unsigned 16 (sensorCode t)

/-- SN_TEMPn after a conversion; a saturated one raises FS 58 (R504). -/
def sensorStore (n : Nat) (t : Int) (s : State) : State :=
  let w := 2 ^ 31 + b2n (sensorOut t) * 2 ^ 30 + b2n (decide (600 < t)) * 2 ^ 29 + unsigned 16 (sensorCode t)
  let s1 := setReg (Fld.SN_TEMP_CODE.at n).addr (BitVec.ofNat 32 w) (setBitF Fld.SN_STATUS_RANGE n (sensorOut t) s)
  if sensorOut t then raise 58 (synFs58 n t) s1 else s1

/-- The hottest of (sensor, temperature) pairs; the lowest sensor on a tie. -/
def hottestOf (l : List (Nat × Int)) : Option (Nat × Int) :=
  l.foldl (fun a e => match a with
    | none => some e
    | some b => if b.2 < e.2 then some e else some b) none

/-- SN_HOT, SN_MAX and SN_PEAK after a conversion (R505). -/
def sensorSummary (l : List (Nat × Int)) (s : State) : State :=
  let codes := l.map (fun e => (e.1, sensorCode e.2))
  let s1 := match hottestOf codes with
    | none => s
    | some m =>
      let out := l.any (fun e => e.1 = m.1 && sensorOut e.2)
      setReg Fld.SN_MAX_CODE.addr (BitVec.ofNat 32 (b2n out * 2 ^ 31 + m.1 * 2 ^ 28 + unsigned 16 m.2)) s
  match hottestOf (l.filter (fun e => !sensorOut e.2)) with
  | none => setReg Fld.SN_HOT_CODE.addr 0 s1
  | some h =>
    let s2 := setReg Fld.SN_HOT_CODE.addr (BitVec.ofNat 32 (2 ^ 31 + h.1 * 2 ^ 28 + unsigned 16 h.2)) s1
    if signed 16 (getF s2 Fld.SN_PEAK_CODE) < h.2 then setF Fld.SN_PEAK_CODE (unsigned 16 h.2) s2 else s2

/-- One threshold after a conversion with a valid SN_HOT (R506): its state, its source, its trace codes. -/
def thresholdStep (on : Field) (thr src codeOn : Nat) (h : Nat × Int) (s : State) : State :=
  let hyst := getF s Fld.SN_THR_HYST
  let mark := fun (k : Nat) => k + h.1 * 2 ^ 8 + unsigned 16 h.2 * 2 ^ 16
  if flag s on then
    if h.2 < ((thr : Int) - (hyst : Int)) * 4 then trace 0x0D01 (mark (codeOn + 1)) (setF on 0 s) else s
  else if (thr : Int) * 4 ≤ h.2 then
    trace 0x0D01 (mark codeOn) (raise src (synTemp h.1 (unsigned 16 h.2)) (setF on 1 s))
  else s

/-- A conversion of the four sensors ends. -/
def sensorEnd (ts : List Int) (s : State) : State :=
  let l := (List.range 4).zip ts
  let s1 := sensorSummary l (l.foldl (fun t e => sensorStore e.1 e.2 t) s)
  match hottestOf (l.filter (fun e => !sensorOut e.2)) with
  | none => s1
  | some h =>
    thresholdStep Fld.SN_STATUS_CRIT_ON (getF s1 Fld.SN_THR_CRIT) 57 3 h
      (thresholdStep Fld.SN_STATUS_WARN_ON (getF s1 Fld.SN_THR_WARN) 56 1 h s1)

/-! ### The trace ring (R510) -/

/-- TR_CTRL.CLEAR: the ring is empty, and RING_START is written while it runs. -/
def ringClear (s : State) : State :=
  let s1 := { s with tr := { s.tr with ring := [] } }
  if flag s Fld.TR_STATUS_RUNNING then trace 0x0001 0 s1 else s1

/-- The entry that TR_IDX selects: its 16 bytes; zeros beyond COUNT. -/
def ringEntry (s : State) (age : Nat) : List Byte :=
  match s.tr.ring.reverse.drop age with
  | [] => List.replicate 16 0
  | e :: _ => entryBytes e

/-! ### The commands -/

/-- SENSOR_CONVERSION (R503): the temperatures in units of 0.25 °C, before saturation. -/
def execSensorConversion (t0 t1 t2 t3 : Int) (s : State) : Host.Outcome State Fault Refusal :=
  .next (if mgtOn s then sensorEnd [t0, t1, t2, t3] s else s)

/-- TR_CLEAR (R510). -/
def execTrClear (s : State) : Host.Outcome State Fault Refusal := .next (if coreOn s then ringClear s else s)

end Sys2Proof.Machine
end

