-- ==== Sys2Proof/Machine/RegRead.lean ====
section
/-! DEFINITION. Reading registers (R8 to R10, R154, R482, R516 to R518, R523): the home that an address reaches,
the value that a read shows, the latched groups. -/

namespace Sys2Proof.Machine

/-! ### Replies -/

/-- The error codes of Table CP-4. -/
inductive ErrCode where
  | e10
  | e11
  | e20
  | e21
  | e30
  | e31
  | e40
  | e41
  | e50
  | e60
  deriving DecidableEq, Repr

/-- The code and text of an error (Table CP-4). -/
def errText (e : ErrCode) : String :=
  match e with
  | .e10 => "E10 syntax"
  | .e11 => "E11 unknown"
  | .e20 => "E20 range"
  | .e21 => "E21 locked"
  | .e30 => "E30 busy"
  | .e31 => "E31 deferred"
  | .e40 => "E40 auth required"
  | .e41 => "E41 auth failed"
  | .e50 => "E50 mode"
  | .e60 => "E60 hardware"

/-! ### Addresses -/

/-- The first address beyond the register space (R10). -/
def regSpaceEnd : Nat := 0x5000

/-- What is wrong with an address (R10, R482). -/
def addrError (a : Nat) : Option ErrCode :=
  if regSpaceEnd ≤ a || a % 4 ≠ 0 then some .e20
  else if (regRow a).isNone then some .e11
  else none

/-- The lane-relative part of an address in the HL or DL block. -/
def laneReg (a : Nat) : Nat := a % 0x100

/-- The lane whose block holds an address. -/
def laneBase (a : Nat) : Nat := a - a % 0x100

/-- The source that FC_SEL selects. -/
def fcSel (s : State) : Nat := getF s Fld.FC_SEL_SOURCE

/-- The lane-rank that CB_QSEL selects, as the bank of CB_DLQ. -/
def qselLaneRank (s : State) : Nat := getF s Fld.CB_QSEL_RANK * 6 + getF s Fld.CB_QSEL_LANE

/-- The bank of CB_CNT that CB_QSEL selects; the rank is ignored on the host side. -/
def qselCnt (s : State) : Nat :=
  let side := getF s Fld.CB_QSEL_SIDE
  cntBank side (if side = 1 then getF s Fld.CB_QSEL_RANK else 0) (getF s Fld.CB_QSEL_LANE)

/-- A field of the SEL register of the DRAM lane whose block holds `a`. -/
def laneSel (s : State) (a hi lo : Nat) : Nat := getF s ⟨laneBase a + 4, hi, lo⟩

/-- The bank that the selectors give an address (R154, Tables CA-4, CB-11, FC-7, KP and MT). -/
def bankOf (s : State) (a : Nat) : Nat :=
  if 0x1000 ≤ a && a < 0x1500 then
    (if laneReg a = 0x14 then getF s ⟨laneBase a + 0x10, 2, 0⟩ else 0)
  else if 0x1800 ≤ a && a < 0x1E00 then
    (if laneReg a = 0x08 || laneReg a = 0x0C then laneSel s a 5 4
     else if laneReg a = 0x14 then laneSel s a 5 4 * 8 + laneSel s a 2 0 else 0)
  else if a = 0x0844 then getF s Fld.CA_TRIM_SEL_INDEX
  else if a = 0x2428 then qselCnt s
  else if a = 0x245C then qselLaneRank s
  else if a = 0x3C48 || a = 0x3C4C || a = 0x3C50 then fcSel s
  else if a = 0x300C then getF s Fld.KP_WSEL_REGION
  else if 0x4C18 ≤ a && a ≤ 0x4C28 then getF s Fld.MT_SEL_SEL
  else 0

/-- The home of the register that an address reaches. -/
def homeOf (s : State) (a : Nat) : Nat := a + 0x10000 * bankOf s a

/-! ### Values that a read computes -/

/-- CB_Q: the figures of the bit that CB_QSEL selects (R191). -/
def qualityWord (s : State) : Nat :=
  let lane := getF s Fld.CB_QSEL_LANE
  let bit := getF s Fld.CB_QSEL_BIT
  let q := quality s (if flag s Fld.CB_QSEL_SIDE then qDram (getF s Fld.CB_QSEL_RANK) lane bit else qHost lane bit)
  natBits q 18 18 * 2 ^ 31 + q % 2 ^ 18

/-- Is any field of FC_INJ armed or counting (R423)? -/
def injActive (s : State) : Bool := (reg s Fld.FC_INJ_MASK.addr).toNat &&& 0xD000FFFF ≠ 0

/-- FC_STATUS (Table FC-6). -/
def fcStatus (s : State) : Nat :=
  (reg s Fld.FC_STATUS_ERRN.addr).toNat % 0x1000 / 0x100 * 0x100 + b2n (errnLow s) * 0x80 + stickyClass s * 0x20
    + b2n (!s.fc.nmt.isEmpty) * 0x10 + b2n (!s.fc.deferred.isEmpty) * 8 + b2n (flag s Fld.FC_STATUS_RST_LIMIT) * 4
    + b2n (!s.fc.hist.isEmpty) * 2 + b2n (injActive s)

/-- CN_SESS (Table CP-7). -/
def sessWord (s : State) : Nat :=
  let seq := match s.con.last with
    | none => 0
    | some l => l.1
  s.con.tokens.length * 2 ^ 16 + seq % 256 * 2 ^ 8 + b2n (flag s Fld.GN_STATUS_SESS_AUTH) * 8 + b2n (scriptMode s) * 4
    + holder s

/-- Does any staged value differ from its value in force (Table CP-5)? -/
def anyStaged (s : State) : Bool := s.staged.any (fun e => stagedReg s e.1 ≠ reg s e.1)

/-- GL_CSTAT. -/
def cstatWord (s : State) : Nat :=
  b2n (commitPending s) * 2 ^ 31 + (reg s Fld.GL_CSTAT_REJECT.addr).toNat % 2 ^ 31 / 2 * 2 + b2n (anyStaged s)

/-- Two computed registers of the ledger: LD_DIRTY and LD_OPSTAT. -/
def dirtyWord (s : State) : Nat := dirtyCount s 1 * 2 ^ 16 + dirtyCount s 0

def opstatWord (s : State) : Nat :=
  (reg s Fld.LD_OPSTAT_NO_HCT.addr).toNat / 4 % 2 * 4
    + b2n (flag s Fld.LD_OPCFG_EN || !s.ld.ops.isEmpty) * 2 + b2n (!s.ld.ops.isEmpty)

/-- Is the keep controller active (Table KP-9): a commit, a record store or the key-record erase? -/
def keepBusy (s : State) : Bool :=
  flag s Fld.KP_STATUS_COMMITTING || flag s Fld.CB_STATUS_STORING || s.kp.genNext.isSome || eraseRuns s

/-- A register's stored value with a computed bit field on top. -/
def withBits (s : State) (f : Field) (v : Nat) : Word := putBits (stagedReg s f.addr) f v

/-- Computed values of the GL, CK, PM and CA blocks. -/
def viewLow (s : State) (a : Nat) : Option Word :=
  if a = 0x0004 then some (BitVec.ofNat 32 (b2n s.fuses.tempX * 256 + s.fuses.speed.toNat))
  else if a = 0x0010 then some (BitVec.ofNat 32 (cstatWord s))
  else if a = 0x0608 then some (withBits s Fld.CK_TICK_FUSE_TRIM s.fuses.tickTrim.toNat)
  else if a = 0x0628 then some (BitVec.ofNat 32 s.aon.toNat)
  else if a = 0x062C then some (BitVec.ofNat 32 (s.aon.toNat >>> 32))
  else if a = 0x0804 then some (withBits s Fld.CA_STATUS_GAP_FIT (b2n (fitRead s && fitWrite s)))
  else none

/-- Computed values of the LG, CB and LD blocks. -/
def viewMid (s : State) (a : Nat) : Option Word :=
  if a = 0x2108 then some (smGet (zeroDefault 32) s.lg.hct (getF s Fld.LG_HCTA_ADDR))
  else if a = 0x2414 then some (withBits s Fld.CB_STATUS_STORE_DUE (b2n (storeDue s)))
  else if a = 0x2424 then some (BitVec.ofNat 32 (qualityWord s))
  else if a = 0x2434 then some (withBits s Fld.CB_HSTAT_HOLD (b2n (s.dl.hold && s.cb.holdOn)))
  else if a = 0x2458 then some (withBits s Fld.CB_DSTAT_GAPMODE (gapModeBits s))
  else if a = 0x245C then some (if flag s Fld.CB_QSEL_SIDE then reg s (homeOf s a) else 0)
  else if a = 0x2828 then some (BitVec.ofNat 32 (dirtyWord s))
  else if a = 0x2844 then some (BitVec.ofNat 32 (opstatWord s))
  else none

/-- Computed values of the KP, TW, FC, CN, TR and MT blocks. -/
def viewHigh (s : State) (a : Nat) : Option Word :=
  if 0x3800 ≤ a && a < 0x3840 && !twinEn s then some (regDefault a)
  else if a = 0x2C04 then some (withBits s Fld.GN_STATUS_ERASING (b2n (eraseRuns s)))
  else if a = 0x3000 then some (putBits (withBits s Fld.KP_STATUS_BUSY (b2n (keepBusy s))) Fld.KP_STATUS_ERASING (b2n (eraseRuns s)))
  else if a = 0x382C then some (withBits s Fld.TW_LAG_DEPTH s.tw.queue.length)
  else if a = 0x3C04 then some (BitVec.ofNat 32 (fcStatus s))
  else if a = 0x3C30 then some (BitVec.ofNat 32 (liveBits s))
  else if a = 0x3C34 then some (BitVec.ofNat 32 (liveBits s >>> 32))
  else if a = 0x4004 && !flag s Fld.CN_CFG_AUTOBAUD then some (withBits s Fld.CN_UART_BAUD (getF s Fld.CN_UART_RATE))
  else if a = 0x400C then some (BitVec.ofNat 32 (sessWord s))
  else if a = 0x4804 then some (withBits s Fld.TR_STATUS_COUNT s.tr.ring.length)
  else if a = 0x480C then some (BitVec.ofNat 32 s.tr.fifo.length)
  else if 0x4818 ≤ a && a ≤ 0x4824 then
    some (BitVec.ofNat 32 (fieldAt (ringEntry s (getF s Fld.TR_IDX_AGE)) (a - 0x4818) 4))
  else if a = 0x4C0C then some (withBits s Fld.MT_STATUS_PHASE (phaseNow s))
  else if a = 0x4C2C then some (BitVec.ofNat 32 (spareWord s (getF s Fld.MT_SEL_SEL)))
  else if a = 0x4C30 then some (BitVec.ofNat 32 (fuseWord s (getF s Fld.MT_SEL_SEL)))
  else none

/-- The value that a read of an address shows: write-only fields and reserved bits read 0 (R8, R9), staged fields
their staged value. -/
def viewReg (s : State) (a : Nat) : Word :=
  let v := match viewLow s a with
    | some v => v
    | none => match viewMid s a with
      | some v => v
      | none => (viewHigh s a).getD (stagedReg s (homeOf s a))
  v &&& regMask a

/-! ### Latched groups (R523) -/

/-- The registers that a read of the first latches (Table RX-11). -/
def latchesOf (a : Nat) : List Nat :=
  if a = 0x0628 then [0x062C]
  else if a = 0x0410 then [0x0414, 0x0418]
  else if a = 0x341C then [0x3420]
  else if a = 0x3C0C then [0x3C10]
  else if a = 0x3C14 then [0x3C18]
  else if a = 0x3820 then [0x3824]
  else if a = 0x4818 then [0x481C, 0x4820, 0x4824]
  else []

/-- Is a register read from its latch? -/
def isLatched (a : Nat) : Bool := [0x062C, 0x0414, 0x0418, 0x3420, 0x3C10, 0x3C18, 0x3824, 0x481C, 0x4820, 0x4824].contains a

/-- Latch the companions of a first register. -/
def latchGroup (a : Nat) (s : State) : State :=
  { s with latch := (latchesOf a).foldl (fun m b => smSet (zeroDefault 32) m b (viewReg s b)) s.latch }

/-- Read a register that exists and is powered: its value, and what the read does. -/
def readReg (a : Nat) (s : State) : Word × State :=
  if isLatched a then (smGet (zeroDefault 32) s.latch a, s)
  else if a = 0x2108 then (viewReg s a, hctReadStep s)
  else (viewReg s a, latchGroup a s)

/-- `rd` of an address: an error, or the value and what the read does (R482, R128, R326). -/
def readAddr (a : Nat) (s : State) : Option ErrCode × Word × State :=
  match addrError a with
  | some e => (some e, 0, s)
  | none =>
    if !regPowered s a then (some .e50, 0, s)
    else
      let r := readReg a s
      (none, r.1, r.2)

/-! ### The command -/

/-- LATCHED_PAIR_READ (R523): a read of the register at `addr`. -/
def execLatchedPairRead (addr : Nat) (s : State) : Host.Outcome State Fault Refusal := .next (readAddr addr s).2.2

end Sys2Proof.Machine
end

