-- ==== Sys2Proof/Machine/RegWrite.lean ====
section
/-! DEFINITION. Writing registers (R8, R482, R522): the checks in the order of Table CP-3, the access codes, the
registers whose write acts, and the commit of staged values (R469, R470, R521). -/

namespace Sys2Proof.Machine

/-! ### Commit (R469) -/

/-- Does APLOCK hold back the staged fields of a home (R119)? -/
def lockedHome (s : State) (a : Nat) : Bool := flag s Fld.CA_STATUS_APLOCK && (a = 0x0820 || a = 0x0828)

/-- Is a home staged and taken by a commit? -/
def commitTakes (s : State) (a : Nat) : Bool := s.staged.any (fun e => e.1 = a) && !lockedHome s a

/-- A register as the commit would leave it committed. -/
def proposed (s : State) (a : Nat) : Nat := (if lockedHome s a then committedReg s a else stagedReg s a).toNat

/-- The rates of the enabled sets as proposed. -/
def proposedRates (s : State) : List Nat :=
  ((List.range 4).map (fun n => proposed s (0x0610 + 4 * n))).filterMap
    (fun w => if setEnabled w then some (setRate w) else none)

/-- R82: range, grade, and a ratio of at least 1.10 between any two enabled sets. -/
def ratesFit (s : State) : Bool :=
  let l := proposedRates s
  l.all (fun r => 3200 ≤ r && r ≤ 8000 && r ≤ gradeRate s)
    && (List.range l.length).all (fun i => (List.range l.length).all (fun j =>
      i = j || (let a := l.getD i 0; let b := l.getD j 0; if a ≤ b then a * 11 ≤ b * 10 else b * 11 ≤ a * 10)))

/-- R111, against the density, the ranks and the reserved rows in force. -/
def aperFits (s : State) : Bool :=
  let v := proposed s 0x0820
  let base := v % 2 ^ 17
  let den := getF s Fld.CA_CFG_DENSITY
  let rsv := (reg s 0x0828).toNat
  let first := rsvFirst rsv den
  !v.testBit 31 || (base % 512 = 0 && base + 511 ≤ lastRow den && populated s (natBits v 29 28)
    && !(natBits v 26 24 = natBits rsv 26 24 && natBits v 21 20 = natBits rsv 21 20
      && base ≤ first + 3 && first ≤ base + 511))

/-- R120, against the density that this commit leaves committed. -/
def rsvFits (s : State) : Bool :=
  let base := proposed s 0x0828 % 2 ^ 17
  base = 0 || (base % 4 = 0 && base ≤ lastRow (natBits (proposed s 0x0800) 11 10) - 3)

/-- R157. -/
def mapFits (s : State) : Bool :=
  let v := proposed s 0x2004
  let l := (List.range 6).map (fun n => natBits v (4 * n + 2) (4 * n))
  l.all (· ≤ 5) && (List.range 6).all (fun i => (List.range 6).all (fun j => i = j || l.getD i 0 ≠ l.getD j 0))

/-- The block, as base [15:8], of the first consistency rule that fails (Table RX-9). -/
def commitFails (s : State) : Option Nat :=
  if (List.range 4).any (fun n => commitTakes s (0x0610 + 4 * n)) && !ratesFit s then some 0x06
  else if commitTakes s 0x0800 && natBits (proposed s 0x0800) 11 10 = 3 then some 0x08
  else if commitTakes s 0x0820 && !aperFits s then some 0x08
  else if commitTakes s 0x0828 && !rsvFits s then some 0x08
  else if commitTakes s 0x2004 && !mapFits s then some 0x20
  else none

/-- GL_CSTAT.REJECT and BLOCK. -/
def commitReport (block : Option Nat) (s : State) : State :=
  match block with
  | none => setF Fld.GL_CSTAT_REJECT 0 (setF Fld.GL_CSTAT_BLOCK 0 s)
  | some b => setF Fld.GL_CSTAT_REJECT 1 (setF Fld.GL_CSTAT_BLOCK b s)

/-- Every staged value that the lock does not hold back is committed. -/
def commitAll (s : State) : State :=
  let s1 := s.staged.foldl (fun t e =>
    if lockedHome s e.1 then t else { t with committed := mergeEntry t.committed e.1 (maskOf e.2) (valOf e.2) }) s
  { s1 with staged := s.staged.filter (fun e => lockedHome s e.1) }

/-- Does the device stand at a boundary of every scope: no host traffic, and no DRAM command in flight? -/
def freePoint (s : State) : Bool := !served s || parked s

/-- The commit: its refusal, or what is committed (R469). -/
def commitNow (s : State) : Option ErrCode × State :=
  if commitPending s then (some .e30, s)
  else match commitFails s with
    | some b => (some .e20, commitReport (some b) s)
    | none =>
      let s1 := commitAll (commitReport none s)
      (none, if freePoint s1 then boundaryAll s1 else s1)

/-- Every staged value returns to the value last committed for it. -/
def discardStaged (s : State) : State := { s with staged := [] }

/-! ### The checks of a write (Tables CP-3, RX-10) -/

/-- A field of a value to be written. -/
def fv (v : Word) (f : Field) : Nat := natBits v.toNat f.hi f.lo

/-- Values outside the range of a field of the GL to CB blocks. -/
def rangeLow (a : Nat) (v : Word) : Bool :=
  if a = 0x000C then v.toNat % 4 = 3
  else if a = 0x0840 then 33 < fv v Fld.CA_TRIM_SEL_INDEX
  else if a = 0x2020 then fv v Fld.LG_POLICY_ERASE_SHARE < 50 || 100 < fv v Fld.LG_POLICY_ERASE_SHARE
  else if a = 0x2104 then 2563 < fv v Fld.LG_HCTA_ADDR
  else if a = 0x2404 then
    natBits v.toNat 31 24 = 0 || natBits v.toNat 23 16 = 0 || natBits v.toNat 15 8 = 0 || natBits v.toNat 7 0 = 0
  else if a = 0x2408 then fv v Fld.CB_REPEAT_EDGE_THR < 6 || 14 < fv v Fld.CB_REPEAT_EDGE_THR
  else if a = 0x2410 then fv v Fld.CB_PERIOD_HOST_PERIOD < 10
  else if a = 0x2420 then
    (if fv v Fld.CB_QSEL_SIDE = 0 then 4 else 5) < fv v Fld.CB_QSEL_LANE
  else if a = 0x2450 then fv v Fld.CB_DPOL_SWEEP_LIMIT = 0 || fv v Fld.CB_DPOL_GAP_PERIOD = 0
  else if a = 0x2454 then fv v Fld.CB_DQCK_PCT < 50 || 100 < fv v Fld.CB_DQCK_PCT
  else false

/-- The same for the LD to TW blocks. -/
def rangeMid (a : Nat) (v : Word) : Bool :=
  if a = 0x2808 then fv v Fld.LD_RETAIN_IDLE = 0
  else if a = 0x2830 then 9 < fv v Fld.LD_EA_WORD
  else if a = 0x283C then v.toNat % 4 = 3
  else if a = 0x3008 then 8 < fv v Fld.KP_WSEL_REGION
  else if a = 0x3014 then fv v Fld.KP_RETAIN_LIMIT = 0
  else if a = 0x3404 then fv v Fld.PS_TDSC_TICKS < 4 || 8000 < fv v Fld.PS_TDSC_TICKS
  else if a = 0x3408 then 100 < fv v Fld.PS_TQUIESCE_US
  else if a = 0x3800 then fv v Fld.TW_CFG_DRIFT = 0
  else false

/-- The source that a write of FC_SRC or FC_WIN will reach: FC_SEL once the writes that wait are applied (R398). -/
def fcSelDue (s : State) : Nat :=
  s.fc.writes.foldl (fun a w => if w.addr = 0x3C44 then w.value.toNat % 64 else a) (fcSel s)

/-- Does a value name a reserved source, as bits of FC_FORCE0 (`base` 0) or FC_FORCE1 (32)? -/
def namesReserved (base : Nat) (v : Word) : Bool := (bitsOf 32 v.toNat).any (fun i => !fsAssigned (base + i))

/-- The same for the FC to MT blocks. -/
def rangeHigh (s : State) (a : Nat) (v : Word) : Bool :=
  if a = 0x3C48 then !fsAssigned (fcSelDue s) || fv v Fld.FC_SRC_CLASS = 0 || fv v Fld.FC_SRC_PCLASS = 0
  else if a = 0x3C4C then !fsAssigned (fcSelDue s) || fv v Fld.FC_WIN_MS = 0 || 3600000 < fv v Fld.FC_WIN_MS
  else if a = 0x3C54 then namesReserved 0 v
  else if a = 0x3C58 then namesReserved 32 v
  else if a = 0x3C64 then fv v Fld.FC_INJ_MASK = 0
  else if a = 0x3C68 then fv v Fld.FC_HIST_MIN_GAP = 0
  else if a = 0x4000 then fv v Fld.CN_CFG_LEASE = 0 || 3600 < fv v Fld.CN_CFG_LEASE
  else if a = 0x4004 then fv v Fld.CN_UART_RATE < 96 || 30000 < fv v Fld.CN_UART_RATE
  else if a = 0x4400 then fv v Fld.SN_CTRL_PERIOD = 0 || 1000 < fv v Fld.SN_CTRL_PERIOD
  else if a = 0x441C then
    fv v Fld.SN_THR_CRIT ≤ fv v Fld.SN_THR_WARN || 150 < fv v Fld.SN_THR_CRIT || 20 < fv v Fld.SN_THR_HYST
  else if a = 0x4814 then s.tr.ring.length ≤ fv v Fld.TR_IDX_AGE
  else if a = 0x4C00 then fv v Fld.MT_CFG_STARTUP = 3
  else if a = 0x4C04 then fv v Fld.MT_CTRL_ALG = 0 || fv v Fld.MT_CTRL_ALG = 3 || fv v Fld.MT_CTRL_BGS = 0
  else if a = 0x4C14 then 19 < fv v Fld.MT_SEL_SEL
  else if a = 0x4C34 then
    v.toNat.testBit 31 && burnBad s (fv v Fld.MT_BURN_BANK) (fv v Fld.MT_BURN_SPARE) (fv v Fld.MT_BURN_COL)
  else false

/-- Is a field written outside its stated range (E20)? -/
def rangeBad (s : State) (a : Nat) (v : Word) : Bool := rangeLow a v || rangeMid a v || rangeHigh s a v

/-- Is the life cycle at DEPLOYED or later? -/
def deployed (s : State) : Bool := 2 ≤ lcState s

/-- Is the session authenticated? -/
def authed (s : State) : Bool := flag s Fld.GN_STATUS_SESS_AUTH

/-- E40 of a write (R423, R441). -/
def writeNoAuth (s : State) (a : Nat) (v : Word) : Bool :=
  if a = 0x3C54 || a = 0x3C58 || a = 0x3C64 then deployed s && !authed s
  else if a = 0x2C0C then v.toNat.testBit 0 && tamperClrNoAuth s
  else false

/-- E50 of a write: its domain is off, or a start where the mode forbids it (R319, R295, R301). -/
def writeMode (s : State) (a : Nat) (v : Word) : Bool :=
  if !regPowered s a then true
  else if a = 0x3004 then v.toNat % 4 ≠ 0 && !served s
  else if a = 0x4C04 then
    v.toNat.testBit 31 && !marchAllowed (setReg a (v &&& 0x001F33F0) s)
  else if a = 0x4C34 then v.toNat.testBit 31 && burnMode s
  else if a = 0x283C then
    !flag s Fld.LD_ECMD_BUSY && (v.toNat % 4 = 1 || v.toNat % 4 = 2)
      && portERefused s (v.toNat % 4 = 2) (getF s Fld.LD_EA_LINE)
  else false

/-- Sticky bits that a write names and whose source is live (R416). -/
def liveNamed (s : State) (base : Nat) (v : Word) : Bool := (bitsOf 32 v.toNat).any (fun i => liveBit s (base + i))

/-- E21 of a write; that of the sticky bits leaves its other bits to act. -/
def writeLocked (s : State) (a : Nat) (v : Word) : Bool :=
  if a = 0x2C08 then deployed s
  else if a = 0x0820 || a = 0x0828 then flag s Fld.CA_STATUS_APLOCK
  else if a = 0x2108 then flag s Fld.LG_HCTC_LOADED || flag s Fld.LG_HCTC_PENDING
  else if a = 0x2C0C then v.toNat.testBit 0 && !tamperClrReady s
  else if a = 0x3C28 then liveNamed s 0 v
  else if a = 0x3C2C then liveNamed s 32 v
  else false

/-- E30 of a write. -/
def writeBusy (s : State) (a : Nat) (v : Word) : Bool :=
  if a = 0x000C then v.toNat % 4 = 1 && commitPending s
  else if a = 0x2100 then v.toNat.testBit 8 && flag s Fld.LG_HCTC_PENDING
  else if a = 0x283C then v.toNat % 4 ≠ 0 && flag s Fld.LD_ECMD_BUSY
  else if a = 0x3404 || a = 0x3408 then saving s
  else if a = 0x3440 then restoring s
  else if a = 0x3004 then v.toNat % 4 ≠ 0 && !checkpointAllowed s
  else if a = 0x4C04 then v.toNat.testBit 31 && (flag s Fld.MT_STATUS_BUSY || saving s)
  else if a = 0x4C34 then v.toNat.testBit 31 && (flag s Fld.MT_STATUS_BUSY || saving s)
  else false

/-- The first failing check of a write in the order of Table CP-3. -/
def writeError (s : State) (a : Nat) (v : Word) : Option ErrCode :=
  match addrError a with
  | some e => some e
  | none =>
    if writeNoAuth s a v then some .e40
    else if writeMode s a v then some .e50
    else if rangeBad s a v then some .e20
    else if writeLocked s a v then some .e21
    else if writeBusy s a v then some .e30
    else none

/-! ### The effect of a write -/

/-- The access codes of R8: RW and RWL bits take the value, W1C bits clear, RWS bits are staged. HRST_MODE written from 1 to 0
while HRST_N is recognised low parks nothing before a further HRST_N_LOW (R86 does not say; DESIGN CHOICE, log entry 47). -/
def plainWrite (h : Nat) (v : Word) (s : State) : State :=
  match regRow h with
  | none => s
  | some r =>
    let rw := BitVec.ofNat 32 (r.rw ||| r.rwl)
    let s1 := setReg h (overlay (reg s h) rw v &&& ~~~(v &&& BitVec.ofNat 32 r.w1c)) s
    if r.rws = 0 then s1 else stage h (BitVec.ofNat 32 r.rws) v s1

/-- Does a register hold an engine's enable or a lane's CAL_HOLD (Tables CH-2, CD-2)? -/
def isSwitch (a : Nat) : Bool :=
  a = Fld.CB_CTRL_HOST_EN.addr || a = Fld.CB_HPOL_CA_EN.addr
    || (List.range 5).any (fun n => a = (Fld.HL_CTRL_CAL_HOLD.lane n).addr)
    || (List.range 6).any (fun d => a = (Fld.DL_CTRL_CAL_HOLD.lane d).addr)

/-- What a write to such a register does at once: a pause whose condition it ends is over, and GAP_EN = 0 stops the gap
trials unless a probe or a grant runs. -/
def switchEffect (s : State) : State :=
  let s1 := resumeLanes s
  if s1.ca.probing ≠ 0 || flag s1 Fld.CA_STATUS_GRANT then s1 else gapPause s1

/-- The engines whose running work a change of a switch stops, as `engineIdle` codes them (R228). -/
def stopsEngines (a : Nat) (was s : State) : List Nat :=
  let fell := fun (f : Field) (w : Nat) => if flag was f && !flag s f then [w] else []
  let rose := fun (f : Field) (w : Nat) => if a = f.addr && !flag was f && flag s f then [w] else []
  let l := if a = Fld.CB_CTRL_HOST_EN.addr then
      fell Fld.CB_CTRL_SWEEP_EN 7 ++ fell Fld.CB_CTRL_GAP_EN 8 ++ fell Fld.CB_CTRL_HOST_EN 38
    else if a = Fld.CB_HPOL_CA_EN.addr then fell Fld.CB_HPOL_CA_EN 37
    else (List.range 5).flatMap (fun n => rose (Fld.HL_CTRL_CAL_HOLD.lane n) (32 + n))
      ++ (List.range 6).flatMap (fun d => rose (Fld.DL_CTRL_CAL_HOLD.lane d) (40 + d))
  l.filter (fun w => !engineIdle s w)

/-- What a console command that changed the register `a` waits for before its effect is in force: 0 for nothing (R228, R268,
R287, R304, R469, R471). -/
def changeWaits (a : Nat) (was s : State) : Nat :=
  if a = 0x000C then (if commitPending s && !commitPending was then tokCommit else 0)
  else if a = 0x2800 then (if s.ld.cfgNext.isSome then tokWake else 0)
  else if a = 0x2840 then (if flag was Fld.LD_OPCFG_EN && !flag s Fld.LD_OPCFG_EN && !s.ld.ops.isEmpty then waitOps else 0)
  else if a = 0x4C04 then (if marchBusy was && !marchBusy s then tokMarch else 0)
  else if isSwitch a then engineSet (stopsEngines a was s)
  else 0

/-- CA_CLR (R101, R121, R127). -/
def clearRsvhit (s : State) : State := setReg Fld.CA_RSVHIT_COUNT.addr 0 s

def clearAlert (s : State) : State := setF Fld.CA_ALERT_PULSES 0 (setF Fld.CA_ALERT_MERGED 0 s)

/-- A write of 1 to UNBLOCK: the block ends 16 tCK later. -/
def askUnblock (s : State) : State :=
  if flag s Fld.CA_STATUS_PAR_BLOCKED then { s with ca := { s.ca with clearing := true } } else s

def caClr (v : Nat) (s : State) : State :=
  let s1 := if v.testBit 0 then askUnblock s else s
  let s2 := if v.testBit 1 then clearRsvhit s1 else s1
  if v.testBit 2 then clearAlert s2 else s2

/-- Is a write of LG_HCTC ignored (R179, R294): a LOAD while a table is in verification, or of an array that is out of
service? -/
def hctRefused (s : State) (v : Word) : Bool :=
  v.toNat.testBit 8 && (flag s Fld.LG_HCTC_PENDING || !hctUsable s)

/-- LG_HCTC.LOAD and UNLOAD (R179): ROWS is written with a LOAD that is taken. -/
def hctCommand (v : Word) (s : State) : State :=
  let s1 := if hctRefused s v then plainWrite 0x2100 ((v &&& ~~~0xFF#32) ||| (reg s 0x2100 &&& 0xFF#32)) s else plainWrite 0x2100 v s
  let s2 := if v.toNat.testBit 9 then { s1 with lg := { s1.lg with unloadDue := true } } else s1
  if v.toNat.testBit 8 && !hctRefused s v then hctStart (v.toNat % 0x100) s2 else s2

/-- LD_CFG: AUTO_RETAIN and REPL_HOST act under R268. -/
def ledgerConfig (v : Word) (s : State) : State :=
  retainWrite (v.toNat.testBit 1) (v.toNat.testBit 2)
    (plainWrite 0x2800 ((v &&& ~~~0x6#32) ||| (reg s 0x2800 &&& 0x6#32)) s)

/-- KP_CTRL (R319, R325). -/
def keepControl (v : Word) (flips : List (Nat × BitVec 72)) (s : State) : State :=
  let s1 := plainWrite 0x3004 v s
  let s2 := if v.toNat.testBit 0 then checkpointStart flips s1 else s1
  if v.toNat.testBit 1 then refreshStart flips s2 else s2

/-- TW_CTRL (R380, R392, R393). -/
def twinControl (v : Nat) (s : State) : State :=
  let s1 := if v.testBit 0 then resumeResync s else s
  let s2 := if v.testBit 1 then retrain s1 else s1
  if v.testBit 2 && flag s2 Fld.TW_STATUS_REPL_RUN then fullRequest s2 else s2

/-- TW_CFG: LINK_EN trains the link or takes it down (R378). -/
def twinConfig (v : Word) (s : State) : State :=
  let was := flag s Fld.TW_CFG_LINK_EN
  let on := v.toNat.testBit 0
  let s1 := plainWrite 0x3800 v s
  if was = on then s1 else linkEnable on s1

/-- MT_CTRL (R295, R304): the fields are written, then START or ABORT acts. -/
def marchControl (v : Word) (reads : List MarchRead) (s : State) : State :=
  let s1 := plainWrite 0x4C04 v s
  if v.toNat.testBit 30 then marchEnd true reads s1
  else if v.toNat.testBit 31 then marchStart s1 else s1

/-- The effect of an accepted write to the GL to LD blocks. -/
def writeLow (a : Nat) (v : Word) (env : ConEnv) (s : State) : State :=
  if a = 0x000C then
    (if v.toNat % 4 = 1 then (commitNow s).2 else if v.toNat % 4 = 2 then discardStaged s else s)
  else if a = 0x0608 then
    (let s1 := plainWrite a v s; if v.toNat.testBit 16 then discEnable s1 else s1)
  else if a = 0x081C then caClr v.toNat s
  else if a = 0x2100 then hctCommand v s
  else if a = 0x2108 then hctWrite v s
  else if a = 0x240C then
    (let s1 := plainWrite a v s; if v.toNat.testBit 31 then calStoreStart s1 else s1)
  else if a = 0x2800 then ledgerConfig v s
  else if a = 0x283C then
    (if v.toNat.testBit 0 then windowRead env.held s
     else if v.toNat.testBit 1 then windowWrite env.held env.collide s else s)
  else
    let s1 := plainWrite (homeOf s a) v s
    if isSwitch a then switchEffect s1 else s1

/-- A write to the FC block waits for the next tick. -/
def fcQueue (w : FcWrite) (s : State) : State := { s with fc := { s.fc with writes := s.fc.writes ++ [w] } }

/-- The effect of an accepted write to the GN to MT blocks. FC writes wait for the next tick (R398). -/
def writeHigh (a : Nat) (v : Word) (env : ConEnv) (s : State) : State :=
  if 0x3C00 ≤ a && a < 0x4000 then fcQueue ⟨a, v, 0xFFFFFFFF, none⟩ s
  else if a = 0x2C0C then (if v.toNat.testBit 0 then clearTamper s else s)
  else if a = 0x3004 then keepControl v env.flips s
  else if a = 0x3400 then
    (let s1 := plainWrite a v s; if v.toNat.testBit 1 then saveTrigger 0x04 s1 else s1)
  else if a = 0x3800 then twinConfig v s
  else if a = 0x3804 then twinControl v.toNat s
  else if a = 0x4424 then setReg a 0xFF10 s
  else if a = 0x4800 then
    (let s1 := plainWrite a v s; if v.toNat.testBit 1 then ringClear s1 else s1)
  else if a = 0x4C04 then marchControl v env.reads s
  else if a = 0x4C34 then
    (if v.toNat.testBit 31 then
      burnStart (fv v Fld.MT_BURN_BANK) (fv v Fld.MT_BURN_SPARE) (fv v Fld.MT_BURN_COL) s else s)
  else plainWrite (homeOf s a) v s

/-- The effect of an accepted write. CA_ILL.VALID clears COUNT with it (Table CA-9). -/
def writeEffect (a : Nat) (v : Word) (env : ConEnv) (s : State) : State :=
  if a = 0x0818 then (if v.toNat.testBit 31 then setF Fld.CA_ILL_COUNT 0 (plainWrite a v s) else s)
  else if a < 0x2C00 then writeLow a v env s else writeHigh a v env s

/-- LD_ECMD reports a refused access (R253). -/
def windowRefused (s : State) : State := windowStatus false false false true false s

/-- What a refused write still does: one to the sticky bits of live sources acts on its other bits (R416), a refused window
access is reported (R253). -/
def refusedWrite (e : ErrCode) (a : Nat) (v : Word) (env : ConEnv) (s : State) : State :=
  if e = .e21 && (a = 0x3C28 || a = 0x3C2C) then writeEffect a v env s
  else if e = .e50 && a = 0x283C && coreOn s then windowRefused s
  else s

/-- `wr`: the refusal, or the effect. -/
def writeAddr (a : Nat) (v : Word) (env : ConEnv) (s : State) : Option ErrCode × State :=
  match writeError s a v with
  | none => (none, writeEffect a v env s)
  | some e => (some e, refusedWrite e a v env s)

/-- A write whose reply nobody reads. -/
def writeReg (a : Nat) (v : Word) (env : ConEnv) (s : State) : State := (writeAddr a v env s).2

/-- Nothing presented: every cell takes its write, nothing waits, no finding. -/
def ConEnv.quiet : ConEnv :=
  ⟨[], false, false, [], ⟨[], 0, []⟩, 0, 0, ⟨0, ⟨0, 0, 0, 0, false, false⟩, ⟨0, 0, 0, 0, 0, 0⟩, []⟩, []⟩

/-! ### The commands -/

/-- REGISTER_WRITE (R8). -/
def execRegisterWrite (addr : Nat) (value : Word) (env : ConEnv) (s : State) : Host.Outcome State Fault Refusal :=
  .next (if mgtOn s then writeReg addr value env s else s)

/-- GL_COMMIT_WRITE (R469). -/
def execGlCommitWrite (s : State) : Host.Outcome State Fault Refusal :=
  .next (if mgtOn s then (commitNow s).2 else s)

/-- GL_DISCARD_WRITE (R469). -/
def execGlDiscardWrite (s : State) : Host.Outcome State Fault Refusal :=
  .next (if mgtOn s then discardStaged s else s)

/-- CA_CLR_UNBLOCK (R101). -/
def execCaClrUnblock (s : State) : Host.Outcome State Fault Refusal :=
  .next (if coreOn s && mgtOn s then askUnblock s else s)

/-- CA_CLR_RSVHIT (R121). -/
def execCaClrRsvhit (s : State) : Host.Outcome State Fault Refusal :=
  .next (if coreOn s && mgtOn s then clearRsvhit s else s)

/-- CA_CLR_ALERT (R127). -/
def execCaClrAlert (s : State) : Host.Outcome State Fault Refusal :=
  .next (if coreOn s && mgtOn s then clearAlert s else s)

end Sys2Proof.Machine
end

