-- ==== Sys2Proof/Machine/FaultCollector.lean ====
section
/-! DEFINITION. The fault collector (Chapters 18 and 19): the tick's collections, counting and promotion, the
reactions, the record, the sticky bits, the history, and the Steward's trap handler. -/

namespace Sys2Proof.Machine

/-! ### The fault history (R419, R420) -/

def magicHist : Nat := 0x46485354

/-- The keep address of a ring position. -/
def histAt (p : Nat) : Nat := 0x100000 + p * 64

/-- SEQ of the valid entry at a position. -/
def histSeq (s : State) (p : Nat) : Option Nat :=
  if keepStored s (histAt p / 8) = 0 then none
  else
    let c := peekCopy s (histAt p) magicHist (p % 256) 0 28
    if c.1 = .valid then some (fieldAt c.2 0x0C 4) else none

/-- The position and SEQ that follow the newest valid entry; the lower position on a tie. -/
def histNext (s : State) : Nat × Nat :=
  match s.fc.histPos with
  | some p => p
  | none =>
    let newest := (List.range 4096).foldl (fun a p =>
      match histSeq s p, a with
      | none, _ => a
      | some q, none => some (p, q)
      | some q, some (_, b) => if newer q b then some (p, q) else a) (none : Option (Nat × Nat))
    match newest with
    | none => (0, 1)
    | some e => ((e.1 + 1) % 4096, (e.2 + 1) % 2 ^ 32)

/-- May an entry be written: the keep is free, the gap has passed, no outage is being restored (R308, R420)? -/
def histAllowed (s : State) : Bool :=
  storeAllowed s && !flag s Fld.CB_STATUS_STORING && s.kp.genNext.isNone
    && (match s.fc.lastHist with
      | none => true
      | some t => getF s Fld.FC_HIST_MIN_GAP * ticksPerMs ≤ ticksSince s.aon t)

/-- Capture and completion entries that wait. -/
def histWaiting (s : State) : Nat := (s.fc.hist.filter (fun e => !e.promo)).length

/-- Queue an entry. -/
def histPush (e : HistEntry) (s : State) : State := { s with fc := { s.fc with hist := s.fc.hist ++ [e] } }

/-- A capture or completion entry falls due: two wait at most, the older ones are kept. -/
def histDue (e : HistEntry) (s : State) : State := if histWaiting s < 2 then histPush e s else incF Fld.FC_HIST_LOST s

/-- A promotion entry falls due: it is written at once or dropped. -/
def histPromo (e : HistEntry) (s : State) : State :=
  if histAllowed s && s.fc.hist.isEmpty then histPush { e with promo := true } s else incF Fld.FC_HIST_LOST s

/-- Is an entry the capture entry of a record (Table FC-4, FLAGS [2] clear)? -/
def isCapture (e : HistEntry) : Bool := !e.promo && !e.flags.testBit 2

/-- Replace the waiting capture entry by the completion entry of its record; none waits: the entry falls due. -/
def histComplete (e : HistEntry) (s : State) : State :=
  if s.fc.hist.any isCapture then
    { s with fc := { s.fc with hist := s.fc.hist.map (fun c => if isCapture c then e else c) } }
  else histDue e s

/-- The payload of Table FC-4. -/
def histPayload (e : HistEntry) : List Byte :=
  leBytes 1 e.src ++ leBytes 1 e.cls ++ leBytes 1 e.flags ++ leBytes 1 e.react ++ leBytes 6 e.time.toNat
    ++ leBytes 2 e.mcnt ++ leBytes 8 e.syn.toNat ++ leBytes 8 e.merge.toNat

/-- Write the oldest waiting entry at the next position; a failed verify raises FS 30 and is not retried. -/
def histWrite (flips : List (Nat × BitVec 72)) (s : State) : State :=
  match s.fc.hist with
  | [] => s
  | e :: rest =>
    if !histAllowed s then s
    else
      let p := histNext s
      let bs := recBytes (recHeader magicHist (p.1 % 256) 0 28 p.2 s.aon.toNat s.kp.gen.toNat) (histPayload e)
      let s1 := { s with fc := { s.fc with
        hist := rest, lastHist := some s.aon, histPos := some ((p.1 + 1) % 4096, (p.2 + 1) % 2 ^ 32) } }
      let r := keepRead (histAt p.1) 64 (keepWrite (histAt p.1) bs flips (wearRing 3 4096 s1))
      if !r.1.2 && judgeCopy magicHist (p.1 % 256) 0 28 r.1.1 = .valid then r.2 else crcFail 3 (p.1 % 256) 0 true r.2

/-! ### Clearing (R415, R416) -/

/-- The record as a history entry. -/
def recordEntry (s : State) : HistEntry where
  src := getF s Fld.FC_FIRST_SOURCE
  cls := getF s Fld.FC_FIRST_CLASS
  flags := b2n (flag s Fld.FC_FIRST_PROMOTED) + b2n (flag s Fld.FC_FIRST_FORCED) * 2 + 4
    + b2n (bitF s Fld.FC_FIRST_REACT rxChip) * 8 + b2n (flag s Fld.FC_FIRST_ACKED) * 16 + b2n (flag s Fld.FC_OVF_OVF) * 32
  react := getF s Fld.FC_FIRST_REACT
  time := BitVec.ofNat 48 (getF s Fld.FC_FTIMEH_TIME_HI * 2 ^ 32 + getF s Fld.FC_FTIMEL_TIME_LO)
  mcnt := getF s Fld.FC_FIRST_MCNT
  syn := BitVec.ofNat 64 (getF s Fld.FC_FSYNH_SYN_HI * 2 ^ 32 + getF s Fld.FC_FSYNL_SYN_LO)
  merge := BitVec.ofNat 64 (getF s Fld.FC_MERGE1_MERGE * 2 ^ 32 + getF s Fld.FC_MERGE0_MERGE)
  promo := false

/-- The registers that R415 clears. -/
def recordHomes : List Nat := [0x3C08, 0x3C0C, 0x3C10, 0x3C14, 0x3C18, 0x3C1C, 0x3C20, 0x3C24]

/-- A write of 1 to FC_FIRST.VALID (R415). -/
def recordClear (s : State) : State :=
  if flag s Fld.FC_FIRST_VALID then recordHomes.foldl (fun t a => setReg a 0 t) (histComplete (recordEntry s) s) else s

/-- The registers of sticky bits and of PIN latches that hold a source. -/
def stickyField (n : Nat) : Field := if n < 32 then Fld.FC_STICKY0_STICKY else Fld.FC_STICKY1_STICKY
def pinField (n : Nat) : Field := if n < 32 then Fld.FC_PIN0_PIN else Fld.FC_PIN1_PIN
def mergeField (n : Nat) : Field := if n < 32 then Fld.FC_MERGE0_MERGE else Fld.FC_MERGE1_MERGE

/-- Clear one source's sticky bit, class and PIN latch, unless it is live (R416). -/
def stickyClear (n : Nat) (s : State) : State :=
  if liveBit s n then s
  else
    let s1 := setBitF (pinField n) (n % 32) false (setBitF (stickyField n) (n % 32) false s)
    { s1 with fc := { s1.fc with cls := smSet (zeroDefault 2) s1.fc.cls n 0 } }

/-- FC_CTRL.ACK (R414). -/
def recordAck (s : State) : State := if flag s Fld.FC_FIRST_VALID then setF Fld.FC_FIRST_ACKED 1 s else s

/-! ### Forcing (R421) -/

/-- Add a forced event of a source; beside a real one it only counts. -/
def addForced (l : List Collection) (src : Nat) (syn : Dword) : List Collection :=
  match l with
  | [] => [⟨src, 1, syn, true⟩]
  | c :: t => if c.src = src then { c with count := c.count + 1 } :: t else c :: addForced t src syn

/-- Force the assigned sources of a written word. -/
def forceAll (base : Nat) (v : Word) (s : State) : State :=
  let syn := BitVec.ofNat 64 (getF s Fld.FC_FSYNFH_SYN_HI * 2 ^ 32 + getF s Fld.FC_FSYNFL_SYN_LO)
  (bitsOf 32 v.toNat).foldl (fun t i =>
    if fsAssigned (base + i) then { t with fc := { t.fc with events := addForced t.fc.events (base + i) syn } } else t) s

/-! ### The writes since the last tick (R398) -/

/-- One write of the FC block takes effect. -/
def applyFcWrite (s : State) (w : FcWrite) : State :=
  let v := w.value.toNat
  if w.addr = 0x3C08 then (if v.testBit 31 then recordClear s else s)
  else if w.addr = 0x3C28 then (bitsOf 32 v).foldl (fun t i => stickyClear i t) s
  else if w.addr = 0x3C2C then (bitsOf 32 v).foldl (fun t i => stickyClear (32 + i) t) s
  else if w.addr = 0x3C40 then
    let s1 := if v.testBit 0 then recordAck s else s
    if v.testBit 1 then (List.range 64).foldl (fun t n => stickyClear n t) s1 else s1
  else if w.addr = 0x3C54 then forceAll 0 w.value s
  else if w.addr = 0x3C58 then forceAll 32 w.value s
  else
    let h := match w.bank with
      | none => homeOf s w.addr
      | some n => w.addr + 0x10000 * n
    plainWrite h (overlay (reg s h) w.mask w.value) s

def applyFcWrites (s : State) : State :=
  s.fc.writes.foldl applyFcWrite { s with fc := { s.fc with writes := [] } }

/-! ### Deferral (R302, R346, R371, R409) -/

/-- From the start of U4 to hand-back. -/
def afterU4 (s : State) : Bool := s.rs.path = .restoreReady || s.rs.path = .serviceReady

/-- The reactions deferred now, in the bits of Table FC-1. -/
def deferMask (s : State) : Nat :=
  (if inSave s then 2 ^ rxNmt else 0)
    ||| (if inSave s || flag s Fld.MT_STATUS_BURNING || afterU4 s then 2 ^ rxBlk else 0)
    ||| (if inSave s || flag s Fld.MT_STATUS_BURNING then 2 ^ rxChip else 0)

/-- Hold reactions of a source; a CHIPRST held by a save shows in PS_STATUS (R346). -/
def holdReactions (src bits : Nat) (s : State) : State :=
  if bits = 0 then s
  else
    let s1 := if inSave s && bits.testBit rxChip then setF Fld.PS_STATUS_DEFER_CHIPRST 1 s else s
    { s1 with fc := { s1.fc with deferred := s1.fc.deferred ++ [(src, bits)] } }

/-! ### Reactions (R404 to R408) -/

/-- Insert a source into a rising list. -/
def insertSource (n : Nat) : List Nat → List Nat
  | [] => [n]
  | m :: t => if n < m then n :: m :: t else if n = m then m :: t else m :: insertSource n t

/-- NMT: pending once per source; that of FS 53 is not performed (R405). -/
def nmtPend (n : Nat) (s : State) : State :=
  if n = 53 then s else { s with fc := { s.fc with nmt := insertSource n s.fc.nmt } }

/-- The class as the `!` line spells it (R404). -/
def classText (c : Nat) : String := if c = 1 then "corr" else if c = 2 then "cont" else "fatal"

/-- The `!` line of R404. -/
def faultLine (src cls : Nat) (prom forced : Bool) (k : Nat) (t : Time) : String :=
  "! fault fs=" ++ decStr src ++ " class=" ++ classText cls ++ (if prom then " prom" else "")
    ++ (if forced then " forced" else "") ++ (if k = 0 then "" else " +" ++ decStr k) ++ " t=" ++ decStr (t.toNat / ticksPerMs)

/-- The IRQ gap of a source; none before its first IRQ. -/
def gapOf (s : State) (src : Nat) : Option IrqGap := s.fc.irq.find? (fun g => g.src = src)

/-- Put a gap in place. -/
def setGap (g : IrqGap) (s : State) : State :=
  { s with fc := { s.fc with irq := g :: s.fc.irq.filter (fun h => h.src ≠ g.src) } }

/-- Does the gap hold back an IRQ of a source now? A promotion's is never held back. -/
def irqHeld (s : State) (src : Nat) (prom : Bool) : Bool :=
  match gapOf s src with
  | none => false
  | some g => !prom && ticksSince s.aon g.last < getF s Fld.FC_CFG_IRQ_GAP * ticksPerMs

/-- An IRQ: the line and the in-band interrupt, or its events held for the next one (R404). -/
def irqReact (src cls n : Nat) (prom forced : Bool) (s : State) : State :=
  let g := (gapOf s src).getD ⟨src, 0, 0⟩
  if irqHeld s src prom then setGap { g with held := g.held + n } s
  else
    conEvent true (faultLine src cls prom forced g.held s.aon)
      (ibi (0x20 + cls) (some (src + b2n forced * 64 + b2n prom * 128)) (setGap ⟨src, s.aon, 0⟩ s))

/-- FS 49, FS 52 and FS 53 stop a save that the Steward carries (R340). -/
def stopsSteward (src : Nat) : Bool := src = 49 || src = 52 || src = 53

/-! ### One collection -/

/-- What a collection does. -/
structure Judged where
  src : Nat
  count : Nat
  syn : Dword
  forced : Bool
  prom : Bool
  cls : Nat
  /-- Reactions that it performs, now or deferred. -/
  react : Nat
  deriving DecidableEq, Repr

/-- Count a collection; the answer says whether it promotes (R400, R401). -/
def countEvents (src n : Nat) (s : State) : Bool × State :=
  let s1 := addF (Fld.FC_SCNT_TOTAL.bank src) n s
  let thr := getF s (Fld.FC_SRC_THR.bank src)
  let c := getF s (Fld.FC_SCNT_WCOUNT.bank src) + n
  if thr = 0 then (false, s1)
  else if thr < c then (true, incF (Fld.FC_SCNT_PROMS.bank src) (setF (Fld.FC_SCNT_WCOUNT.bank src) 0 s1))
  else (false, setF (Fld.FC_SCNT_WCOUNT.bank src) c s1)

/-- The reaction set of a collection (R401). -/
def reactionSet (s : State) (src : Nat) (prom : Bool) : Nat :=
  getF s (Fld.FC_SRC_RXN.bank src) ||| (if prom then getF s (Fld.FC_SRC_PRXN.bank src) else 0)

/-- The reactions performed, and RST_LIMIT (R404, R407, R408): CHIPRST overrides IRQ, NMT and BLKRST and sets PIN;
beyond the limit it is not performed; an IRQ within the gap is none. -/
def performed (src set : Nat) (prom : Bool) (s : State) : Nat × State :=
  let quiet := fun (r : Nat) => if r.testBit rxIrq && irqHeld s src prom then r - 2 ^ rxIrq else r
  if set.testBit rxChip && !(deferMask s).testBit rxChip then
    (if chipLimited s then (quiet (set - 2 ^ rxChip), setF Fld.FC_STATUS_RST_LIMIT 1 s) else (2 ^ rxChip + 2 ^ rxPin, s))
  else (quiet set, s)

/-- Judge a collection. -/
def judge (c : Collection) (s : State) : Judged × Nat × State :=
  let k := countEvents c.src c.count s
  let cls := getF s ((if k.1 then Fld.FC_SRC_PCLASS else Fld.FC_SRC_CLASS).bank c.src)
  let set := reactionSet s c.src k.1
  let r := performed c.src set k.1 k.2
  (⟨c.src, c.count, c.syn, c.forced, k.1, cls, r.1⟩, set, r.2)

/-- The history entry of a collection. -/
def entryFor (j : Judged) (s : State) : HistEntry :=
  ⟨j.src, j.cls, b2n j.prom + b2n j.forced * 2 + b2n (j.react.testBit rxChip && !(deferMask s).testBit rxChip) * 8, j.react,
    s.aon, 0, j.syn, 0, false⟩

/-- Capture (R412). -/
def capture (j : Judged) (s : State) : State :=
  let w := 2 ^ 31 + b2n j.forced * 2 ^ 29 + b2n j.prom * 2 ^ 28 + j.cls * 2 ^ 26 + j.react * 2 ^ 21 + j.src
  let s1 := setReg 0x3C08 (BitVec.ofNat 32 w) s
  let s2 := setReg 0x3C10 (BitVec.ofNat 32 (s.aon.toNat >>> 32)) (setReg 0x3C0C (BitVec.ofNat 32 s.aon.toNat) s1)
  let s3 := setReg 0x3C18 (BitVec.ofNat 32 (j.syn.toNat >>> 32)) (setReg 0x3C14 (BitVec.ofNat 32 j.syn.toNat) s2)
  histDue (entryFor j s) s3

/-- Capture, merge or overflow (R412 to R414), with the promotion entry of a collection that is not captured. -/
def record (j : Judged) (s : State) : State :=
  if !flag s Fld.FC_FIRST_VALID then capture j s
  else
    let s1 := if flag s Fld.FC_FIRST_ACKED then addF Fld.FC_OVF_COUNT j.count (setF Fld.FC_OVF_OVF 1 s)
      else addF Fld.FC_FIRST_MCNT j.count (setBitF (mergeField j.src) (j.src % 32) true s)
    if j.prom then histPromo (entryFor j s) s1 else s1

/-- The trace entry of a collection that is captured or promotes (Table TT-3). -/
def traceCollection (j : Judged) (captured : Bool) (s : State) : State :=
  if captured || j.prom then
    trace 0x0B01 (j.src + j.cls * 2 ^ 6 + j.react * 2 ^ 8 + b2n j.prom * 2 ^ 13 + b2n j.forced * 2 ^ 14) s
  else s

/-- Sticky bit, sticky class, PIN latch (R399, R410, R416). -/
def markSticky (j : Judged) (s : State) : State :=
  let s1 := setBitF (stickyField j.src) (j.src % 32) true s
  let s2 := if j.react.testBit rxPin then setBitF (pinField j.src) (j.src % 32) true s1 else s1
  let c := max (smGet (zeroDefault 2) s2.fc.cls j.src).toNat j.cls
  { s2 with fc := { s2.fc with cls := smSet (zeroDefault 2) s2.fc.cls j.src (BitVec.ofNat 2 c) } }

/-- The reactions of a collection but CHIPRST. -/
def react (j : Judged) (set : Nat) (s : State) : State :=
  let held := j.react &&& deferMask s
  let chip := j.react.testBit rxChip && !held.testBit rxChip
  let s1 := if set.testBit rxIrq && !chip then irqReact j.src j.cls j.count j.prom j.forced s else s
  let s2 := holdReactions j.src held s1
  let now := j.react - held
  let s3 := if now.testBit rxNmt then nmtPend j.src s2 else s2
  let s4 := if now.testBit rxBlk then blockReset j.src s3 else s3
  if stopsSteward j.src then stewardStopped s4 else s4

/-- A promotion of FS 16 puts the erasure policy to work, if its reactions wake the Steward: IRQ or NMT (R168, R401). -/
def wakePolicy (j : Judged) (s : State) : State :=
  if j.src = 16 && j.prom && (j.react.testBit rxIrq || j.react.testBit rxNmt) then { s with lg := { s.lg with decide := true } }
  else s

/-- One collection; the sources whose CHIPRST is performed are gathered (R403). -/
def collectOne (a : List Nat × State) (c : Collection) : List Nat × State :=
  let r := judge c a.2
  let j := r.1
  let s := r.2.2
  let chip := j.react.testBit rxChip && !(deferMask s).testBit rxChip
  let s1 := traceCollection j (!flag s Fld.FC_FIRST_VALID) s
  let s2 := wakePolicy j (react j r.2.1 (markSticky j (record j s1)))
  ((if chip then a.1 ++ [j.src] else a.1), s2)

/-! ### The tick -/

/-- A reaction that was held is performed. -/
def performHeld (a : List Nat × State) (d : Nat × Nat) : List Nat × State :=
  let s1 := if d.2.testBit rxNmt then nmtPend d.1 a.2 else a.2
  let s2 := if d.2.testBit rxBlk then blockReset d.1 s1 else s1
  if d.2.testBit rxChip then (if chipLimited s2 then (a.1, setF Fld.FC_STATUS_RST_LIMIT 1 s2) else (a.1 ++ [d.1], s2))
  else (a.1, s2)

/-- The held reactions, once nothing defers them. -/
def releaseHeld (s : State) : List Nat × State :=
  if deferMask s ≠ 0 then ([], s)
  else s.fc.deferred.foldl performHeld ([], { s with fc := { s.fc with deferred := [] } })

/-- The CHIPRST of a tick; between U4 and hand-back the ranks first return to self-refresh (R371). -/
def chipReact (l : List Nat) (s : State) : State :=
  match l with
  | [] => s
  | n :: _ => faultReset n (if afterU4 s then selfRefresh s else s)

/-- Collections in ascending source order. -/
def inOrder (l : List Collection) : List Collection :=
  (List.range 64).flatMap (fun n => l.filter (fun c => c.src = n))

/-- The collector's tick (R398). -/
def collect (s : State) : State :=
  let s1 := applyFcWrites s
  let h := releaseHeld s1
  let l := inOrder h.2.fc.events
  let r := l.foldl collectOne (h.1, { h.2 with fc := { h.2.fc with events := [] } })
  chipReact r.1 r.2

/-! ### The trap handler (R405) -/

/-- The Steward runs the handler of the lowest pending source: it returns, or takes an exception inside it
(FS 53), or does not return. -/
def nmtHandle (e : HandlerEnd) (s : State) : State :=
  match s.fc.nmt with
  | [] => s
  | n :: rest =>
    if !stewardRuns s || s.fc.nmtRun.isSome then s
    else
      let s1 := { s with fc := { s.fc with nmt := rest } }
      match e with
      | .returns => s1
      | .hangs => { s1 with fc := { s1.fc with nmtRun := some n } }
      | .exception pc => raise 53 (n * 2 ^ 32 + pc.toNat)
        { s1 with fc := { s1.fc with nmtRun := some n }, sw := { s1.sw with halted := true } }

/-! ### The commands -/

/-- FAULT_COLLECT (R398). -/
def execFaultCollect (s : State) : Host.Outcome State Fault Refusal := .next (if mgtOn s then collect s else s)

/-- FC_WINDOW_CLOSE (R400). -/
def execFcWindowClose (src : BitVec 6) (s : State) : Host.Outcome State Fault Refusal :=
  .next (if mgtOn s then setF (Fld.FC_SCNT_WCOUNT.bank src.toNat) 0 s else s)

/-- NMT_HANDLER (R405). -/
def execNmtHandler (ends : HandlerEnd) (s : State) : Host.Outcome State Fault Refusal := .next (nmtHandle ends s)

/-- CHIPRST_WINDOW_EXPIRY (R408): the count lies in PD_AON. -/
def execChiprstWindowExpiry (s : State) : Host.Outcome State Fault Refusal :=
  .next (if s.boot = .held then s else setF Fld.FC_STATUS_RST_LIMIT 0 (setF Fld.FC_STATUS_RST_COUNT 0 s))

/-- HISTORY_WRITE (R420). -/
def execHistoryWrite (flips : List (Nat × BitVec 72)) (s : State) : Host.Outcome State Fault Refusal :=
  .next (histWrite flips s)

/-- A write to the FC block by one of the commands below. -/
def fcWrite (a : Nat) (v : Word) (s : State) : State := if mgtOn s then writeReg a v ConEnv.quiet s else s

/-- FC_ACK (R414). -/
def execFcAck (s : State) : Host.Outcome State Fault Refusal := .next (fcWrite 0x3C40 1 s)

/-- FC_CLR_STICKY (R416). -/
def execFcClrSticky (s : State) : Host.Outcome State Fault Refusal := .next (fcWrite 0x3C40 2 s)

/-- FC_RECORD_CLEAR (R415). -/
def execFcRecordClear (s : State) : Host.Outcome State Fault Refusal := .next (fcWrite 0x3C08 0x80000000 s)

/-- FC_STICKY_CLEAR (R416): FC_STICKY0, or with `high` FC_STICKY1. -/
def execFcStickyClear (high : Bool) (value : Word) (s : State) : Host.Outcome State Fault Refusal :=
  .next (fcWrite (if high then 0x3C2C else 0x3C28) value s)

/-- FC_FORCE (R421): FC_FORCE0, or with `high` FC_FORCE1. -/
def execFcForce (high : Bool) (value : Word) (s : State) : Host.Outcome State Fault Refusal :=
  .next (fcWrite (if high then 0x3C58 else 0x3C54) value s)

/-- FC_INJ (R422). -/
def execFcInj (value : Word) (s : State) : Host.Outcome State Fault Refusal := .next (fcWrite 0x3C64 value s)

end Sys2Proof.Machine
end

