-- ==== Sys2Proof/Machine/ConsoleOut.lean ====
section
/-! DEFINITION. The console's session and its output (Chapter 21): the lease, replies, script framing, event lines
behind a reply. -/

namespace Sys2Proof.Machine

/-! ### The session (R450 to R453) -/

/-- Is the console reachable: PD_MGT on, start-up over, the Steward running (R28, R88)? -/
def consoleUp (s : State) : Bool := s.boot = .up && stewardRuns s && mode s ≠ modeHold && mode s ≠ modeDormant

/-- The lease holder's code of a transport. -/
def holderCode (v : Transport) : Nat :=
  match v with
  | .uart => 1
  | .i3c => 2

/-- The transport byte of an authentication proof (R444). -/
def transportByte (v : Transport) : Nat := holderCode v - 1

/-- Bytes sent on CON_TX. -/
def uartSend (b : List Byte) (s : State) : State := { s with con := { s.con with tx := s.con.tx ++ b } }

/-- CR LF, and the prompt of human mode (R460). -/
def crlf : List Byte := [0x0D#8, 0x0A#8]
def promptBytes : List Byte := strBytes "mld> "

/-- A byte of the lease holder arrives (R451). -/
def hear (s : State) : State := { s with con := { s.con with heard := s.aon } }

/-- A transport takes the free lease: human mode, over the UART with CR LF and the prompt (R460). -/
def takeLease (v : Transport) (s : State) : State :=
  let s1 := setReg Fld.CN_SESS_HOLDER.addr (BitVec.ofNat 32 (holderCode v)) s
  match v with
  | .uart => uartSend (crlf ++ promptBytes) s1
  | .i3c => s1

/-- Input of the transport that does not hold the lease is discarded and counted (R452). -/
def refuseInput (n : Nat) (s : State) : State := addF Fld.CN_STAT1_REFUSED n s

/-! ### Replies (R461, R464, R476) -/

/-- `err Exx <text>` with a detail. -/
def errLine (e : ErrCode) (detail : String) : String :=
  "err " ++ errText e ++ (if detail = "" then "" else " " ++ detail)

/-- A text with its script check code. -/
def withCheck (t : String) : String := t ++ "*" ++ hexStr 2 (crc8 (strBytes t)).toNat

/-- The reply lines of script line `n`: `-` while more lines follow (R464). -/
def frameReply (n : Nat) (l : List String) : List String :=
  let k := l.length
  (l.zip (List.range k)).map (fun e => withCheck ("#" ++ hexStr 2 n ++ (if e.2 + 1 = k then " " else "-") ++ e.1))

/-- Put reply lines into the output queue while they fit; the rest stay. -/
def pumpReply : List String → State → List String × State
  | [], s => ([], s)
  | l :: t, s => if outRoom (lineBytes l) s then pumpReply t (outAppend (lineBytes l) s) else (l :: t, s)

/-- Send the queued event lines that fit, in order; the rest stay. -/
def pumpEvents : List String → State → List String × State
  | [], s => ([], s)
  | l :: t, s =>
    if holder s = 1 then pumpEvents t (uartEvent l s)
    else if outRoom (lineBytes (eventForm s l)) s then pumpEvents t (outAppend (lineBytes (eventForm s l)) s)
    else (l :: t, s)

/-- Once the reply is queued the event lines follow, and `! lost` when space has returned (R472). -/
def flushEvents (s : State) : State :=
  let r := pumpEvents s.con.events { s with con := { s.con with events := [] } }
  let s1 := { r.2 with con := { r.2.con with events := r.1 } }
  if s1.con.dropped ≠ 0 && r.1.length < 16 then
    conEvent false ("! lost n=" ++ decStr s1.con.dropped) { s1 with con := { s1.con with dropped := 0 } }
  else s1

/-- Move what waits towards the partner. -/
def pump (s : State) : State :=
  if holder s = 0 then s
  else if holder s = 1 then
    flushEvents { s with con := { s.con with tx := s.con.tx ++ s.con.reply.flatMap lineBytes, reply := [] } }
  else
    let r := pumpReply s.con.reply { s with con := { s.con with reply := [] } }
    let s1 := { r.2 with con := { r.2.con with reply := r.1 } }
    if r.1 = [] then flushEvents s1 else s1

/-- What follows once a reply is out. -/
inductive After where
  | nothing
  | script
  | human
  | endSession
  | chip
  deriving DecidableEq, Repr

/-- The end of a session once the reply is out: at once over the UART, over I3C when the queue has been read. -/
def endAfterReply (s : State) : State :=
  if holder s = 2 && !(s.con.out.isEmpty && s.con.reply.isEmpty) then { s with con := { s.con with ending := true } }
  else sessionEnd s

/-- The prompt of human mode over the UART. -/
def promptAfter (s : State) : State := if holder s = 1 && !scriptMode s then uartSend promptBytes s else s

/-- Send a reply, the prompt, and do what follows it. -/
def answer (lines : List String) (after : After) (s : State) : State :=
  let s1 := { s with con := { s.con with busy := false, reply := s.con.reply ++ lines } }
  let s2 := if holder s1 = 1 then
      uartSend (s1.con.reply.flatMap lineBytes) { s1 with con := { s1.con with reply := [] } }
    else s1
  match after with
  | .nothing => pump (promptAfter s2)
  | .script => setF Fld.CN_SESS_SCRIPT 1 (pump s2)
  | .human => let s3 := setF Fld.CN_SESS_SCRIPT 0 s2; pump (promptAfter s3)
  | .endSession => endAfterReply (pump s2)
  | .chip => chipReset (pump s2)

end Sys2Proof.Machine
end

