-- ==== Sys2Proof/Machine/ConsoleShow.lean ====
section
/-! DEFINITION. What the console prints: the tokens of Table CP-2 as numbers and words, `help` (R479), the policies of
Table CC-4, the objects of `show` (R480, Table CC-3), `trace show` (R495). -/

namespace Sys2Proof.Machine

/-! ### Tokens (Table CP-2) -/

/-- A letter in lower case. -/
def lowerChar (c : Char) : Char := if 65 ≤ c.toNat ∧ c.toNat ≤ 90 then Char.ofNat (c.toNat + 32) else c

/-- A text in lower case. -/
def lowerStr (t : String) : String := String.ofList (t.toList.map lowerChar)

/-- A decimal digit. -/
def decVal (c : Char) : Option Nat := if 48 ≤ c.toNat ∧ c.toNat ≤ 57 then some (c.toNat - 48) else none

/-- A hexadecimal digit in either case. -/
def hexVal (c : Char) : Option Nat :=
  match decVal c with
  | some v => some v
  | none =>
    let l := lowerChar c
    if 97 ≤ l.toNat ∧ l.toNat ≤ 102 then some (l.toNat - 87) else none

/-- The value of digits in a base; none where a character is no digit, or there is none. -/
def digitsVal (base : Nat) (digit : Char → Option Nat) : List Char → Option Nat
  | [] => none
  | l => l.foldl (fun a c => match a, digit c with
    | some v, some d => some (v * base + d)
    | _, _ => none) (some 0)

/-- Do underscores stand only between digits? -/
def underscoresFit (l : List Char) : Bool :=
  l.headD '_' ≠ '_' && l.getLastD '_' ≠ '_'

/-- A number token: decimal up to 4,294,967,295, or `0x` and 1 to 8 hexadecimal digits with `_` between digits. -/
def numberOf (t : String) : Option Nat :=
  match t.toList with
  | '0' :: x :: l =>
    if lowerChar x = 'x' then
      let ds := l.filter (fun c => c ≠ '_')
      if underscoresFit l && ds.length ≤ 8 then digitsVal 16 hexVal ds else none
    else digitsVal 10 decVal ('0' :: x :: l)
  | l => digitsVal 10 decVal l

/-- A number token within a range. -/
def numberIn (lo hi : Nat) (t : String) : Option Nat :=
  match numberOf t with
  | some v => if lo ≤ v ∧ v ≤ hi then some v else none
  | none => none

/-- The largest number of Table CP-2. -/
def maxNumber : Nat := 0xFFFFFFFF

/-- A letter and a digit below a bound: a rank or a lane. -/
def indexOf (letter : Char) (n : Nat) (t : String) : Option Nat :=
  match (lowerStr t).toList with
  | [c, d] => match decVal d with
    | some v => if c = letter ∧ v < n then some v else none
    | none => none
  | _ => none

def onOff (t : String) : Option Bool :=
  let l := lowerStr t
  if l = "on" then some true else if l = "off" then some false else none

/-! ### Print forms (R476) -/

def yesNo (b : Bool) : String := if b then "yes" else "no"
/-- A 64-bit value in four groups of four digits. -/
def hexGroups (v : Nat) : String :=
  hexStrU 4 (v >>> 48) ++ "_" ++ hexStrU 4 (v >>> 32) ++ "_" ++ hexStrU 4 (v >>> 16) ++ "_" ++ hexStrU 4 v
/-- Texts joined by a separator. -/
def joined (sep : String) : List String → String
  | [] => ""
  | [t] => t
  | t :: r => t ++ sep ++ joined sep r
/-- A list of sources, or `none`. -/
def sourceList (bits : Nat) : String :=
  if bits = 0 then "none" else joined "," ((bitsOf 64 bits).map (fun n => "fs" ++ decStr n))
/-- The letters of a reaction set, or `none`. -/
def lettersOf (r : Nat) : String :=
  if r % 32 = 0 then "none"
  else String.join (((bitsOf 5 r).map (fun k => ["i", "n", "b", "c", "p"].getD k "")))

/-! ### help (R479) -/

/-- The 21 verbs with their forms, in the order of Table CP-2 and as Table CC-2 writes them. -/
def verbForms : List (String × List String) :=
  [("help", ["help [<verb>]"]), ("show", ["show <object> [args]"]), ("set", ["set <policy> <value>"]),
   ("get", ["get <policy>"]), ("rd", ["rd <addr>"]), ("wr", ["wr <addr> <value>"]), ("commit", ["commit [discard]"]),
   ("save", ["save now"]), ("train", ["train dram r<k>"]),
   ("cal", ["cal store", "cal hold <lane> on|off", "cal enable <engine> on|off"]),
   ("lane", ["lane erase r<k> d<n> confirm=yes", "lane readmit r<k> d<n> rewritten=yes"]),
   ("ledger", ["ledger rd <line> [<word>]", "ledger wr <line> <word> <hi> <lo>"]),
   ("keep", ["keep checkpoint", "keep refresh", "keep config store [gen=<n>]", "keep config load [hct=yes]"])] ++
  [("fault", ["fault ack", "fault clear fs=<n>|all|record", "fault force fs=<n> [synh=<n>] [synl=<n>]",
    "fault inject <checker> [args]", "fault config fs=<n> [key=value ...]"]),
   ("twin", ["twin resume|resync|retrain"]), ("trace", ["trace show [aon] [last=<n>]"]),
   ("auth", ["auth begin", "auth prove <4 groups>", "auth end", "auth install key=<8 groups>"]),
   ("lifecycle", ["lifecycle advance to=<state> confirm=yes"]),
   ("test", ["test march [key=value ...]", "test abort", "test repair bank=<b> spare=<s> col=<c>"]),
   ("reset", ["reset chip confirm=yes"]), ("mode", ["mode script|human", "mode service", "mode run"])]

/-- The forms of a verb. -/
def formsOf (verb : String) : Option (List String) := (verbForms.find? (fun e => e.1 = lowerStr verb)).map (·.2)

/-- The lines of `help`. -/
def helpLines (verb : Option String) : List String :=
  match verb with
  | none => ["ok", "  " ++ joined " " (verbForms.map (·.1))]
  | some v => "ok" :: ((formsOf v).getD []).map (fun f => "  " ++ f)

/-! ### Policies (R481, Table CC-4) -/

/-- The values of a policy: words in the order of their codes, or a range. -/
inductive PolVals where
  | words (l : List String)
  | range (lo hi : Nat)
  deriving DecidableEq, Repr

/-- A policy: its name, field and values. -/
structure Policy where
  name : String
  field : Field
  vals : PolVals
  deriving DecidableEq, Repr

def offOn : PolVals := .words ["off", "on"]

/-- Table CC-4. -/
def policies : List Policy :=
  [⟨"clock.keep-osc", Fld.CK_CTRL_KEEP_OSC, offOn⟩,
   ⟨"hold.dormant-after", Fld.PM_DORM_DORMANT_AFTER, .range 0 65535⟩,
   ⟨"lg.erased-write", Fld.LG_CTRL_ERASED_WRITE, .words ["keep", "zero"]⟩,
   ⟨"lg.auto-erase", Fld.LG_CTRL_AUTO_ERASE, offOn⟩,
   ⟨"lg.erase-share", Fld.LG_POLICY_ERASE_SHARE, .range 50 100⟩,
   ⟨"lg.second-threshold", Fld.LG_POLICY_SECOND_THR, .range 1 255⟩,
   ⟨"lg.second-window", Fld.LG_POLICY_SECOND_WIN, .range 0 65535⟩,
   ⟨"ledger.auto-retain", Fld.LD_CFG_AUTO_RETAIN, offOn⟩,
   ⟨"ledger.replica-read", Fld.LD_CFG_REPL_HOST, offOn⟩,
   ⟨"ledger.op-slots", Fld.LD_OPCFG_EN, offOn⟩,
   ⟨"cal.store-interval", Fld.CB_STORE_INTERVAL, .range 1 65535⟩] ++
  [⟨"console.lease", Fld.CN_CFG_LEASE, .range 1 3600⟩,
   ⟨"test.startup", Fld.MT_CFG_STARTUP, .words ["off", "c", "ext"]⟩,
   ⟨"keep.auto-refresh", Fld.KP_CTRL_AUTO_REFRESH, offOn⟩,
   ⟨"keep.wear-limit", Fld.KP_WCFG_LIMIT, .range 1 1048575⟩,
   ⟨"save.bcw", Fld.PS_CTRL_BCW_EN, offOn⟩,
   ⟨"save.tdsc", Fld.PS_TDSC_TICKS, .range 4 8000⟩,
   ⟨"save.quiesce", Fld.PS_TQUIESCE_US, .range 0 100⟩,
   ⟨"restore.canary-tol", Fld.PS_RCFG_CANARY_TOL, .range 0 255⟩,
   ⟨"restore.erased-lane", Fld.PS_RCFG_ELANE_CHECK, offOn⟩,
   ⟨"twin.hold-resync", Fld.TW_CFG_RESYNC_HOLD, offOn⟩]

/-- The policy of a name. -/
def policyOf (name : String) : Option Policy := policies.find? (fun p => p.name = lowerStr name)

/-- A policy's value as `set` accepts it. -/
def policyText (s : State) (p : Policy) : String :=
  match p.vals with
  | .words l => l.getD (getF s p.field) ""
  | .range _ _ => decStr (getF s p.field)

/-- The field value that a text sets; none outside Table CC-4. -/
def policyValue (p : Policy) (t : String) : Option Nat :=
  match p.vals with
  | .words l => l.findIdx? (fun w => w = lowerStr t)
  | .range lo hi => numberIn lo hi t

/-! ### show (R480, Table CC-3) -/

/-- The Steward's version as `st-x.y.z` (R7). -/
def versionText (v : Nat) : String :=
  "st-" ++ decStr (v / 65536) ++ "." ++ decStr (v / 256 % 256) ++ "." ++ decStr (v % 256)

def showVersion (s : State) : String :=
  versionText s.sw.version.toNat ++ (if flag s Fld.CK_BOOT_PATCH_OK then " rom+patch" else " rom")
    ++ " gl_id=" ++ hexWord (reg s 0).toNat

def showMode (s : State) : String :=
  let subs := if sub s = subLive then "live" else if sub s = subTrain then "train" else "degraded"
  (if inService s then "mode=service sub=-" else "mode=run sub=" ++ subs)
    ++ " saving=" ++ yesNo (saving s) ++ " restoring=" ++ yesNo (restoring s)
    ++ " waiting=" ++ yesNo (flag s Fld.PM_MODE_WAITING)

/-- `show reserved` (R120). -/
def showReserved (s : State) : List String :=
  let base := rsvFirst (reg s 0x0828).toNat (getF s Fld.CA_CFG_DENSITY)
  ("ok bg=" ++ decStr (getF s Fld.CA_RSV_BG) ++ " bank=" ++ decStr (getF s Fld.CA_RSV_BANK))
    :: (popRanks s).map (fun r => "  r" ++ decStr r ++ " canary=" ++ decStr base ++ "," ++ decStr (base + 1)
      ++ " scratch=" ++ decStr (base + 2) ++ "," ++ decStr (base + 3))

def showPolicies (s : State) : List String :=
  "ok" :: policies.map (fun p => "  " ++ p.name ++ "=" ++ policyText s p)

def showStaged (s : State) : List String :=
  let l := s.staged.filter (fun e => stagedReg s e.1 ≠ reg s e.1)
  ("ok n=" ++ decStr l.length) :: l.map (fun e => "  0x" ++ hexStrU 4 e.1 ++ " staged=" ++ hexWord (stagedReg s e.1).toNat
    ++ " in-force=" ++ hexWord (reg s e.1).toNat)

/-- The figures of one bit: ` grade=<g> w=<taps> h=<mV>` (R191). -/
def figures (q : Nat) : String :=
  "grade=" ++ decStr (natBits q 17 16) ++ " w=" ++ decStr (natBits q 7 0) ++ " h=" ++ decStr (natBits q 15 8)

def showHostLane (s : State) (n : Nat) : String :=
  "ok lane=h" ++ decStr n ++ " " ++ figures (quality s (qHost n (worstStored s (qHost n))))
    ++ " acq=" ++ yesNo (bitF s Fld.CB_HSTAT_ACQ n) ++ " stale=" ++ yesNo (bitF s Fld.CB_HSTAT_STALE n)

def rankStateText (s : State) (r : Nat) : String :=
  if rankSecond s r then "second" else if rankPl s r then "pl-fault" else if rankErased s r then "erased" else "protected"

def showDramLane (s : State) (d : Nat) : List String :=
  let role := match (List.range 5).find? (fun n => mapLane s n = d) with
    | some n => "h" ++ decStr n
    | none => "parity"
  ("ok lane=d" ++ decStr d ++ " role=" ++ role) :: (popRanks s).map (fun r =>
    "  r" ++ decStr r ++ " state=" ++ rankStateText s r ++ " " ++ figures (quality s (qDram r d (worstStored s (qDram r d))))
      ++ " excluded=" ++ yesNo (excluded s r d))

/-- The eye of a lane: host lane `n`, or DRAM lane `n` of rank `r`. -/
def showEye (s : State) (dram : Bool) (n r : Nat) : List String :=
  let vref := getF s (if dram then dramVref r n else hostVref n)
  let line := fun i =>
    let q := quality s (if dram then qDram r n i else qHost n i)
    "  b" ++ decStr i ++ " w=" ++ decStr (natBits q 7 0) ++ " h=" ++ decStr (natBits q 15 8) ++ " g=" ++ decStr (natBits q 17 16)
      ++ " deskew=" ++ decStr (getF s (if dram then dramRxDeskew r n i else hostDeskew n i))
      ++ " offset=" ++ decInt (getS s (if dram then dramOffset r n i else hostOffset n i))
  ("ok lane=" ++ (if dram then "d" else "h") ++ decStr n ++ " rank=" ++ decStr r ++ " vref=" ++ decStr vref) :: bits8.map line

def showFirst (s : State) : String :=
  if !flag s Fld.FC_FIRST_VALID then "ok none"
  else
    let e := recordEntry s
    "ok fs=" ++ decStr e.src ++ " class=" ++ classText e.cls ++ " react=" ++ lettersOf e.react ++ " mcnt=" ++ decStr e.mcnt
      ++ " acked=" ++ yesNo (flag s Fld.FC_FIRST_ACKED) ++ " forced=" ++ yesNo (flag s Fld.FC_FIRST_FORCED)
      ++ " prom=" ++ yesNo (flag s Fld.FC_FIRST_PROMOTED) ++ " t=" ++ decStr (e.time.toNat / ticksPerMs)
      ++ " syn=" ++ hexGroups e.syn.toNat

/-- Two registers of source bits as one number. -/
def sourceBits (s : State) (lo hi : Nat) : Nat := (reg s lo).toNat + (reg s hi).toNat * 2 ^ 32

def showSource (s : State) (n : Nat) : String :=
  let f := fun (x : Field) => getF s (x.bank n)
  "ok fs=" ++ decStr n ++ " class=" ++ classText (f Fld.FC_SRC_CLASS) ++ " pclass=" ++ classText (f Fld.FC_SRC_PCLASS)
    ++ " rxn=" ++ lettersOf (f Fld.FC_SRC_RXN) ++ " prxn=" ++ lettersOf (f Fld.FC_SRC_PRXN) ++ " thr=" ++ decStr (f Fld.FC_SRC_THR)
    ++ " win=" ++ decStr (f Fld.FC_WIN_MS) ++ " total=" ++ decStr (f Fld.FC_SCNT_TOTAL) ++ " proms=" ++ decStr (f Fld.FC_SCNT_PROMS)
    ++ " sticky=" ++ yesNo (bitF s (stickyField n) (n % 32)) ++ " live=" ++ yesNo (liveBit s n)

def showSave (s : State) : String :=
  let f := fun (x : Field) => decStr (getF s x)
  "ok step=" ++ f Fld.PS_STATUS_STEP ++ " cause=0x" ++ hexStrU 2 (getF s Fld.PS_STATUS_CAUSE) ++ " tdsc=" ++ f Fld.PS_TDSC_TICKS
    ++ " quiesce=" ++ f Fld.PS_TQUIESCE_US ++ " sealno=" ++ f Fld.PS_SEALNO_SEALNO ++ " lines=" ++ f Fld.PS_LINES_LINES
    ++ " s7=" ++ f Fld.PS_TS7_US

def showRestore (s : State) : String :=
  if !flag s Fld.PS_RSTAT_VALID then "ok none"
  else
    let warm := getF s Fld.PS_RSTAT_WARM
    let cold := getF s Fld.PS_RSTAT_COLD
    let m := getF s Fld.PS_RSTAT_MODULE
    "ok restore " ++ (if cold = 0 then "warm" else if warm = 0 then "cold" else "partial")
      ++ " warm=0x" ++ hexStrU 1 warm ++ " cold=0x" ++ hexStrU 1 cold ++ " ledger=" ++ ledgerName (getF s Fld.PS_RSTAT_LEDGER)
      ++ " t=" ++ decStr (getF s Fld.PS_RTIME_US / 1000) ++ " module=" ++ (if m = 0 then "unknown" else moduleName m)

def showKeep (s : State) : List String :=
  let slot := getF s Fld.KP_STATUS_SEAL_SLOT
  ("ok seal=" ++ (if slot = 0 then "a" else if slot = 1 then "b" else "none") ++ " pseq=" ++ decStr (getF s Fld.KP_PSEQ_SEQ)
      ++ " refresh=" ++ (if flag s Fld.KP_STATUS_REFRESH_DUE then "due" else "no")
      ++ " corr=" ++ decStr (getF s Fld.KP_ECC_CORR) ++ " uncorr=" ++ decStr (getF s Fld.KP_ECC_UNCORR))
    :: (List.range 9).map (fun n => "  wear " ++ decStr n ++ " " ++ decStr (getF s (Fld.KP_WEAR_COUNT.bank n)))

def showTwin (s : State) : String :=
  if !twinEn s then "ok standalone"
  else
    let l := getF s Fld.TW_STATUS_LINK
    "ok link=" ++ ["off", "training", "up", "down"].getD l "down" ++ " pos=" ++ (if flag s Fld.GL_STRAP_TWIN_POS then "b" else "a")
      ++ " repl=" ++ (if flag s Fld.TW_STATUS_REPL_RUN then "run" else "stopped") ++ " synced=" ++ yesNo (flag s Fld.TW_STATUS_SYNCED)
      ++ " held=" ++ yesNo (flag s Fld.TW_STATUS_RESYNC_HELD) ++ " ver=" ++ versionText s.sw.version.toNat
      ++ " twin.ver=" ++ versionText (getF s Fld.TW_TVER_VERSION) ++ " gen=" ++ decStr s.kp.gen.toNat
      ++ " twin.gen=" ++ decStr (getF s Fld.TW_TGEN_GEN)

/-- A key's check value, or `none` while the key is not in Garnet. -/
def kcvText (s : State) (k : Nat) : String := if flag s (keyFlag k) then hexStr 4 (getF s (kcvField k)) else "none"

def showKeys (s : State) : String :=
  "ok seal=" ++ kcvText s 1 ++ " con=" ++ kcvText s 2 ++ " keygen.seal=" ++ decStr (getF s Fld.GN_KEYGEN_SEAL)
    ++ " keygen.con=" ++ decStr (getF s Fld.GN_KEYGEN_CON) ++ " tamper=" ++ (if flag s Fld.GN_STATUS_TAMPER_LATCH then "set" else "clear")

def showLifecycle (s : State) : String :=
  "ok state=" ++ lowerStr (lcName (lcState s)) ++ " fuses=0x" ++ hexStrU 1 (getF s Fld.GN_LC_FUSES)

/-- The objects whose name is a word. -/
inductive ShowObj where
  | version | mode | reserved | policies | staged
  | first | sticky | live | pin | save | restore | keep | twin | keys | lifecycle
  | hostLane (n : Nat)
  | dramLane (d : Nat)
  | eye (dram : Bool) (n : Nat)
  | source (n : Nat)
  deriving DecidableEq, Repr

/-- The objects of one word. -/
def plainObjects : List (String × ShowObj) :=
  [("version", .version), ("mode", .mode), ("reserved", .reserved), ("policies", .policies), ("staged", .staged),
   ("fault.first", .first), ("fault.sticky", .sticky), ("fault.live", .live), ("fault.pin", .pin), ("save", .save),
   ("restore", .restore), ("keep", .keep), ("twin", .twin), ("keys", .keys), ("lifecycle", .lifecycle)]

/-- The objects with an index: every lane with its eye, every assigned source. -/
def indexedObjects : List (String × ShowObj) :=
  (List.range 5).flatMap (fun n => [("lane.h" ++ decStr n, .hostLane n), ("lane.h" ++ decStr n ++ ".eye", .eye false n)])
    ++ (List.range 6).flatMap (fun d => [("lane.d" ++ decStr d, .dramLane d), ("lane.d" ++ decStr d ++ ".eye", .eye true d)])
    ++ ((List.range 64).filter fsAssigned).map (fun n => ("fault.fs" ++ decStr n, .source n))

/-- The object of a name (Table CC-3). -/
def objectOf (name : String) : Option ShowObj :=
  ((plainObjects ++ indexedObjects).find? (fun e => e.1 = lowerStr name)).map (·.2)

/-- Does an object lie in PD_CORE (R475)? -/
def objectCore (o : ShowObj) : Bool :=
  match o with
  | .reserved | .policies | .hostLane _ | .dramLane _ | .eye _ _ => true
  | _ => false

/-- The rank that an eye's argument names: r0 by default, ignored for host lanes. -/
def eyeRank (dram : Bool) (arg : Option String) : Option Nat :=
  match arg with
  | none => some 0
  | some t => (indexOf 'r' 4 t).map (fun r => if dram then r else 0)

/-- Does the object take the argument given? -/
def showArgs (s : State) (o : ShowObj) (arg : Option String) : Bool :=
  match o with
  | .eye dram _ => match eyeRank dram arg with
    | some r => !dram || populated s r
    | none => false
  | _ => arg.isNone

/-- The reply of `show`. -/
def showLines (o : ShowObj) (arg : Option String) (s : State) : List String :=
  match o with
  | .version => ["ok " ++ showVersion s]
  | .mode => ["ok " ++ showMode s]
  | .reserved => showReserved s
  | .policies => showPolicies s
  | .staged => showStaged s
  | .first => [showFirst s]
  | .sticky => ["ok " ++ sourceList (sourceBits s 0x3C28 0x3C2C)]
  | .live => ["ok " ++ sourceList (liveBits s)]
  | .pin => ["ok " ++ sourceList (sourceBits s 0x3C38 0x3C3C)]
  | .save => [showSave s]
  | .restore => [showRestore s]
  | .keep => showKeep s
  | .twin => [showTwin s]
  | .keys => [showKeys s]
  | .lifecycle => [showLifecycle s]
  | .hostLane n => [showHostLane s n]
  | .dramLane d => showDramLane s d
  | .eye dram n => showEye s dram n ((eyeRank dram arg).getD 0)
  | .source n => [showSource s n]

/-! ### trace show (R495) -/

/-- One entry. -/
def traceText (e : TraceEntry) : String :=
  "  t=" ++ hexStr 12 e.time.toNat ++ " ev=" ++ hexStr 4 e.code.toNat ++ " a=" ++ hexStr 16 e.args.toNat

/-- The newest `n` entries, oldest first. -/
def traceLines (l : List TraceEntry) (n : Nat) : List String :=
  let t := l.drop (l.length - n)
  ("ok n=" ++ decStr t.length) :: t.map traceText

end Sys2Proof.Machine
end

