-- ==== Sys2Proof/Machine/ConsoleRun.lean ====
section
/-! DEFINITION. Running a console command: the order of judgement (R468, Table CP-3), the modes and classes of Table
CC-2, deferral (R471, R477), and what each command does (R479 to R501). -/

namespace Sys2Proof.Machine

/-! ### Commands -/

/-- Which of the three twin commands (R494). -/
inductive TwinOp where
  | resume
  | resync
  | retrain
  deriving DecidableEq, Repr

/-- A command line after its tokens have been read (Table CC-2). An argument that is missing or is no value of its kind
is `none`; an optional argument that is absent is its outer `none`. -/
inductive ConCmd where
  | help (verb : Option String)
  | shows (object arg : Option String)
  | get (policy : Option String)
  | set (policy value : Option String)
  | rd (addr : Option Nat)
  | wr (addr value : Option Nat)
  | commit
  | discard
  | saveNow
  | trainDram (rank : Option Nat)
  | calStore
  /-- DRAM lane, else host lane, and its number. -/
  | calHold (lane : Option (Bool × Nat)) (on : Option Bool)
  | calEnable (engine : Option String) (on : Option Bool)
  | laneErase (rank lane : Option Nat) (confirm : Bool)
  | laneReadmit (rank lane : Option Nat) (rewritten : Bool)
  | ledgerRd (line : Option Nat) (word : Option (Option Nat))
  | ledgerWr (line word hi lo : Option Nat)
  | keepCheckpoint
  | keepRefresh
  | cfgStore (gen : Option (Option Nat))
  /-- `some true`: `hct=yes`; `some false`: another value of the key. -/
  | cfgLoad (hct : Option Bool)
  | faultAck
  | faultClear (what : Option ClearWhat)
  | faultForce (fs : Option Nat) (synh synl : Option (Option Nat))
  | faultInject (what : Option Inject)
  | faultConfig (fs : Option Nat) (fields : Option FaultFields)
  | twin (op : TwinOp)
  | traceShow (aon : Bool) (last : Option (Option Nat))
  | authBegin
  | authProve (proof : BitVec 128)
  | authEnd
  | authInstall (key : BitVec 256)
  | lifecycle (target : Option Nat) (confirm : Bool)
  | testMarch (keys : Option MarchKeys)
  | testAbort
  | testRepair (bank spare col : Option Nat)
  | resetChip (confirm : Bool)
  | modeScript
  | modeHuman
  | modeService
  | modeRun
  | caUnblock
  deriving DecidableEq, Repr

/-- The authentication classes of Table CC-1. -/
inductive AuthClass where
  | s
  | r
  | c
  | install
  deriving DecidableEq, Repr

/-- The class of a command. -/
def classOf (c : ConCmd) : AuthClass :=
  match c with
  | .help _ | .modeScript | .modeHuman | .authBegin | .authProve _ | .authEnd => .s
  | .shows _ _ | .get _ | .rd _ | .traceShow _ _ => .r
  | .authInstall _ => .install
  | _ => .c

/-- The modes of a command as Table CC-2 names them: in L, in T, in S. -/
def modesOf (c : ConCmd) : Bool × Bool × Bool :=
  match c with
  | .trainDram _ | .lifecycle _ _ | .testRepair _ _ _ | .modeRun => (false, false, true)
  | .calStore | .calHold _ _ | .calEnable _ _ | .ledgerWr _ _ _ _ | .cfgStore _ | .cfgLoad _ | .faultInject _ | .twin _
  | .testMarch _ | .testAbort => (true, false, true)
  | .laneErase _ _ _ | .laneReadmit _ _ _ | .keepCheckpoint | .keepRefresh | .modeService | .caUnblock => (true, false, false)
  | _ => (true, true, true)

/-- Does the command need PD_CORE as a whole? -/
def needsCore (c : ConCmd) : Bool :=
  match c with
  | .trainDram _ | .calStore | .calHold _ _ | .calEnable _ _ | .laneErase _ _ _ | .laneReadmit _ _ _ | .ledgerRd _ _
  | .ledgerWr _ _ _ _ | .caUnblock => true
  | .traceShow aon _ => !aon
  | _ => false

/-- The largest value of a number token is exceeded. -/
def tooLarge (v : Nat) : Bool := maxNumber < v

/-! ### Keys of `test march` (R499) -/

/-- Put the keys given into their fields. -/
def marchKeys (k : MarchKeys) (s : State) : State :=
  let put := fun (f : Field) (v : Option Nat) (t : State) => match v with
    | some n => setF f n t
    | none => t
  put Fld.MT_CTRL_TARGETS k.targets (put Fld.MT_BANKS_BANKS k.banks (put Fld.MT_CTRL_MODE (k.preserving.map b2n)
    (put Fld.MT_CTRL_ALG (k.ext.map (fun b => b2n b + 1)) (put Fld.MT_CTRL_BGS k.bgs
      (put Fld.MT_CTRL_SPARE_PASS (k.spare.map b2n) s)))))

/-- Is a value out of its range? -/
def keysBad (k : MarchKeys) : Bool :=
  let bad := fun (lo hi : Nat) (v : Option Nat) => match v with
    | some n => n < lo || hi < n
    | none => false
  bad 1 31 k.targets || bad 1 0xFFFF k.banks || bad 1 15 k.bgs

def noKeys : MarchKeys := ⟨none, none, none, none, none, none⟩

/-! ### Step 3: the object (Table CP-3) -/

def objectError (c : ConCmd) : Option ErrCode :=
  match c with
  | .help (some v) => if (formsOf v).isNone then some .e11 else none
  | .shows (some o) _ => if (objectOf o).isNone then some .e11 else none
  | .get (some p) => if (policyOf p).isNone then some .e11 else none
  | .set (some p) _ => if (policyOf p).isNone then some .e11 else none
  | .rd (some a) => addrError a
  | .wr (some a) _ => addrError a
  | _ => none

/-! ### Step 4: authentication (R446, R450, R474) -/

/-- E40 of `auth install` (R446). -/
def installNoAuth (v : Transport) (s : State) : Bool :=
  !((!flag s Fld.GN_STATUS_CON_KEY && !flag s Fld.GN_STATUS_CON_REC) || authed s)
    || (v = .i3c && !flag s Fld.GN_CFG_INSTALL_I3C)

def noAuth (v : Transport) (c : ConCmd) (s : State) : Bool :=
  match classOf c with
  | .s => c = .authBegin && !flag s Fld.GN_STATUS_CON_KEY
  | .r => deployed s && !authed s && !flag s Fld.GN_CFG_RO_NOAUTH
  | .c => (deployed s && !authed s) || (match c with
    | .wr (some a) (some v) => writeNoAuth s a (BitVec.ofNat 32 v)
    | _ => false)
  | .install => installNoAuth v s

/-! ### Step 5: mode and domain (R475) -/

/-- Is the mode in force one that the command is named for? -/
def modeFits (c : ConCmd) (s : State) : Bool :=
  let m := modesOf c
  if inService s then m.2.2 else if inTrain s then m.2.1 else served s && m.1

/-- What else makes a command return E50. -/
def modeBars (c : ConCmd) (s : State) : Bool :=
  match c with
  | .shows (some o) _ => !coreOn s && ((objectOf o).map objectCore).getD false
  | .get (some p) => ((policyOf p).map (fun q => !regPowered s q.field.addr)).getD false
  | .set (some p) _ => ((policyOf p).map (fun q => !regPowered s q.field.addr)).getD false
  | .rd (some a) => !regPowered s a
  | .wr (some a) v => writeMode s a (BitVec.ofNat 32 (v.getD 0))
  | .saveNow => !saveable s && !saving s
  | .trainDram _ => !s.pins.pgood || !dioOn s
  | .ledgerRd _ _ => !flag s Fld.LD_STATUS_READY
  | .ledgerWr l _ _ _ => portERefused s true (l.getD 0)
  | .twin _ => !twinEn s
  | .authInstall _ => lcState s = 0 || lcState s = 4
  | .testMarch k => !marchAllowed (marchKeys (k.getD noKeys) s)
  | .testRepair _ _ _ => burnMode s
  | .modeService => lcState s = 4
  | .modeRun => !restoreConditions s || !coreOn s
  | _ => false

def wrongMode (c : ConCmd) (s : State) : Bool := !modeFits c s || (needsCore c && !coreOn s) || modeBars c s

/-! ### Step 6: arguments -/

/-- Is an argument missing, or not below a bound? -/
def notBelow (n : Nat) (v : Option Nat) : Bool :=
  match v with
  | some x => n ≤ x
  | none => true

/-- Is a rank argument missing, out of range or unpopulated? -/
def badRank (s : State) (r : Option Nat) : Bool := notBelow 4 r || !populated s (r.getD 0)

/-- The engines of `cal enable`: their enable (R485). -/
def engineOf (t : String) : Option Field :=
  let l := lowerStr t
  if l = "host" then some Fld.CB_CTRL_HOST_EN
  else if l = "sweep" then some Fld.CB_CTRL_SWEEP_EN
  else if l = "gap" then some Fld.CB_CTRL_GAP_EN
  else if l = "zq" then some Fld.CB_CTRL_ZQ_EN
  else if l = "dcc" then some Fld.CB_CTRL_DCC_EN
  else if l = "ca" then some Fld.CB_HPOL_CA_EN
  else none

/-- A mask or a count of `fault inject` (R492). -/
def injectBad (i : Inject) : Bool :=
  match i with
  | .hct _ => false
  | .ledger _ m => m = 0 || 255 < m
  | .keep m => m = 0 || 255 < m
  | .ca n => n = 0 || 255 < n
  | .twin n => n = 0 || 255 < n
  | .off => false

/-- The values of `fault config` (R493). -/
def fieldsBad (f : FaultFields) : Bool :=
  let bad := fun (lo hi : Nat) (v : Option Nat) => match v with
    | some n => n < lo || hi < n
    | none => false
  bad 1 3 f.cls || bad 1 3 f.pcls || bad 0 31 f.rxn || bad 0 31 f.prxn || bad 0 255 f.thr || bad 1 3600000 f.win

/-- An optional number: malformed, or out of a range. -/
def optBad (lo hi : Nat) (v : Option (Option Nat)) : Bool :=
  match v with
  | none => false
  | some none => true
  | some (some n) => n < lo || hi < n

/-- Is a source argument missing or reserved (R397)? -/
def badSource (n : Option Nat) : Bool := notBelow 64 n || !fsAssigned (n.getD 0)

/-- E20 of `lane erase` (R486) and `lane readmit` (R172), once rank and lane stand. -/
def eraseBad (s : State) (r d : Nat) : Bool := rankSecond s r || (rankErased s r && erasedLane s r = d)
def readmitBad (s : State) (r d : Nat) : Bool := !rankErased s r || erasedLane s r ≠ d

def argsBad (c : ConCmd) (s : State) : Bool :=
  match c with
  | .shows o a => match o with
    | none => true
    | some n => ((objectOf n).map (fun x => !showArgs s x a)).getD false
  | .get p => p.isNone
  | .set p v => match p, v with
    | some n, some t => ((policyOf n).map (fun q => (policyValue q t).isNone)).getD false
    | _, _ => true
  | .rd a => a.isNone
  | .wr a v => match a, v with
    | some x, some y => tooLarge y || rangeBad s x (BitVec.ofNat 32 y)
    | _, _ => true
  | .trainDram r => badRank s r
  | .calHold l on => on.isNone || (match l with
    | some (dram, n) => (if dram then 6 else 5) ≤ n
    | none => true)
  | .calEnable e on => on.isNone || (match e with
    | some t => (engineOf t).isNone
    | none => true)
  | .laneErase r d ok => !ok || badRank s r || notBelow 6 d || eraseBad s (r.getD 0) (d.getD 0)
  | .laneReadmit r d ok => !ok || badRank s r || notBelow 6 d || readmitBad s (r.getD 0) (d.getD 0)
  | .ledgerRd l w => notBelow ledgerLines l || optBad 0 9 w
  | .ledgerWr l w h o => notBelow ledgerLines l || notBelow 10 w || notBelow (maxNumber + 1) h || notBelow (maxNumber + 1) o
  | .cfgStore g => optBad 1 maxNumber g
  | .cfgLoad h => h = some false
  | .faultClear w => match w with
    | none => true
    | some (.source n) => badSource (some n)
    | some _ => false
  | .faultForce n h l => badSource n || optBad 0 maxNumber h || optBad 0 maxNumber l
  | .faultInject i => match i with
    | none => true
    | some x => injectBad x
  | .faultConfig n f => badSource n || (match f with
    | none => true
    | some x => fieldsBad x)
  | .twin .resume => !flag s Fld.TW_STATUS_RESYNC_HELD
  | .traceShow _ n => optBad 1 1024 n
  | .lifecycle t ok => !ok || (match t with
    | none => true
    | some x => x ≠ 4 && x ≠ lcState s + 1) || lcState s = 4
  | .testMarch k => match k with
    | none => true
    | some x => keysBad x
  | .testAbort => !marchBusy s
  | .testRepair b k c => notBelow 16 b || notBelow 4 k || notBelow 128 c || burnBad s (b.getD 0) (k.getD 0) (c.getD 0)
  | .resetChip ok => !ok
  | _ => false

/-! ### Steps 7 and 8: locks and resources -/

def locked (c : ConCmd) (s : State) : Bool :=
  match c with
  | .wr (some a) (some v) => writeLocked s a (BitVec.ofNat 32 v)
  | .faultClear (some (.source n)) => liveBit s n
  | _ => false

/-- Does the window of port E serve nobody now? -/
def windowBusy (s : State) : Bool := flag s Fld.LD_ECMD_BUSY || portEBusy s

/-- While a save runs, class R and `help` alone are served (R475). -/
def savingBars (c : ConCmd) (s : State) : Bool :=
  saving s && classOf c ≠ .r && (match c with
    | .help _ => false
    | _ => true)

def resourceBusy (c : ConCmd) (s : State) : Bool :=
  savingBars c s || (match c with
    | .set (some p) _ => restoring s && (lowerStr p = "restore.canary-tol" || lowerStr p = "restore.erased-lane")
    | .wr (some a) (some v) => writeBusy s a (BitVec.ofNat 32 v)
    | .commit => commitPending s
    | .calStore => flag s Fld.CB_STATUS_STORING || !storeOpen s
    | .ledgerRd _ _ => windowBusy s
    | .ledgerWr _ _ _ _ => windowBusy s
    | .keepCheckpoint => !checkpointAllowed s
    | .keepRefresh => !checkpointAllowed s
    | .cfgStore _ => s.kp.genNext.isSome || !storeOpen s
    | .authBegin => (s.gn.failedAt.map (fun t => decide (ticksSince s.aon t < ticksPerS))).getD false
    | .authInstall _ => s.gn.eraseDue
    | .lifecycle _ _ => flag s Fld.MT_STATUS_BUSY
    | .testMarch _ => flag s Fld.MT_STATUS_BUSY
    | .testRepair _ _ _ => flag s Fld.MT_STATUS_BUSY
    | .resetChip _ => restoring s
    | .modeRun => flag s Fld.MT_STATUS_BUSY
    | _ => false)

/-- The first check that fails, in the order of Table CP-3. -/
def judgeCmd (v : Transport) (c : ConCmd) (s : State) : Option ErrCode :=
  match objectError c with
  | some e => some e
  | none =>
    if noAuth v c s then some .e40
    else if wrongMode c s then some .e50
    else if argsBad c s then some .e20
    else if locked c s then some .e21
    else if resourceBusy c s then some .e30
    else none

/-! ### Replies and deferral (R471, R477) -/

/-- What a command leaves: its reply, what follows it, the state. -/
structure Ran where
  lines : List String
  after : After
  st : State

def okay (s : State) : Ran := ⟨["ok"], .nothing, s⟩
def replies (l : List String) (s : State) : Ran := ⟨l, .nothing, s⟩
def fails (e : ErrCode) (s : State) : Ran := ⟨[errLine e ""], .nothing, s⟩

/-- The next token from `t` on that is not outstanding. -/
def freeToken (used : List Nat) : Nat → Nat → Nat
  | 0, t => t
  | n + 1, t => if used.contains t then freeToken used n ((t + 1) % 256) else t

/-- Accept and defer: the token waits for `what`, and `run` begins the work. With eight tokens outstanding the command
returns E30 and nothing begins. -/
def defers (what : Nat) (run : State → State) (s : State) : Ran :=
  if 8 ≤ s.con.tokens.length then fails .e30 s
  else
    let t := freeToken (s.con.tokens.map (·.1)) 8 s.con.nextToken
    let s1 := { s with con := { s.con with tokens := s.con.tokens ++ [(t, what)], nextToken := (t + 1) % 256 } }
    ⟨[errLine .e31 ("tok=" ++ hexStr 2 t)], .nothing, run s1⟩

/-- Completion code of work that ends within the command itself. -/
def tokDone : Nat := 13

/-- Defer work whose result `run` gives at once. -/
def defersDone (run : State → String × State) (s : State) : Ran :=
  defers tokDone (fun t => let r := run t; completeTokens tokDone r.1 r.2) s

/-- `ok` when the effect of `run` is in force, else E31 with the completion code `what`. -/
def okOrDefers (what : Nat) (inForce : State → Bool) (run : State → State) (s : State) : Ran :=
  if inForce (run s) then okay (run s) else defers what run s

/-! ### set, commit -/

/-- What the change of a policy register does beside it: LINK_EN moves the link (R378), an engine's enable ends or begins a
pause. -/
def policyEffect (a : Nat) (was s : State) : State :=
  if a = 0x3800 then
    (let on := flag s Fld.TW_CFG_LINK_EN
     if flag was Fld.TW_CFG_LINK_EN = on then s else linkEnable on s)
  else if isSwitch a then switchEffect s
  else s

/-- A policy field takes a value; AUTO_RETAIN and REPL_HOST under R268. -/
def setPolicy (p : Policy) (v : Nat) (s : State) : State :=
  if p.field = Fld.LD_CFG_AUTO_RETAIN then retainWrite (v ≠ 0) (retainAsked s).2 s
  else if p.field = Fld.LD_CFG_REPL_HOST then retainWrite (retainAsked s).1 (v ≠ 0) s
  else policyEffect p.field.addr s (setF p.field v s)

/-- Run a change of the register `a`: `ok`, or E31 where its effect waits. -/
def changes (a : Nat) (run : State → State) (s : State) : Ran :=
  let w := changeWaits a s (run s)
  if w = 0 then okay (run s) else defers w run s

/-- `set`. -/
def runSet (name text : String) (s : State) : Ran :=
  match policyOf name with
  | none => fails .e11 s
  | some p => changes p.field.addr (setPolicy p ((policyValue p text).getD 0)) s

/-- The prefix of a block base. -/
def blockName (b : Nat) : String := if b = 0x06 then "CK" else if b = 0x08 then "CA" else "LG"

def runCommit (s : State) : Ran :=
  match commitFails s with
  | some b => ⟨[errLine .e20 ("blk=" ++ blockName b)], .nothing, (commitNow s).2⟩
  | none => okOrDefers tokCommit (fun t => !commitPending t) (fun t => (commitNow t).2) s

/-! ### Calibration and lanes -/

/-- One full-training pass on rank `r` (R484): its result, and the state. -/
def trainOne (r : Nat) (t : RankTrain) (flips : List (Nat × BitVec 72)) (s : State) : String × State :=
  let s1 := issue [.srx r, .refab r, .sre r] (setBitF Fld.PM_RANK_COLD_MARK r true s)
  let x := trainLanes r t (List.range 6) (trainCa r t (markRefresh r s1))
  if x.2 = [] && t.caReason = 0 then ("ok", calStoreRun true true flips x.1) else ("err E60 hardware", x.1)

/-- `cal store`: at once where no commit holds the keep, else its end comes with CAL_STORE_DONE. -/
def runCalStore (flips : List (Nat × BitVec 72)) (s : State) : Ran :=
  if s.kp.commit.isSome then defers tokCalStore calStoreStart s
  else
    let s1 := calStoreEnd s.kp.calDue flips (calStoreStart s)
    if flag s1 Fld.CB_STATUS_LAST_STORE_FAIL then fails .e60 s1 else okay s1

/-- CAL_HOLD of a lane. -/
def holdField (dram : Bool) (n : Nat) : Field :=
  if dram then Fld.DL_CTRL_CAL_HOLD.lane n else Fld.HL_CTRL_CAL_HOLD.lane n

/-- Write an enable or a hold. -/
def runSwitch (f : Field) (v : Bool) (s : State) : Ran := changes f.addr (fun t => switchEffect (setB f v t)) s

/-- A decided erasure, which takes effect now where every point is a boundary. -/
def eraseAsk (r d : Nat) (s : State) : State :=
  let s1 := eraseLane r d 1 s
  if freePoint s1 then secondEffect r (erasureEffect r s1) else s1

/-- Does naming lane `d` of rank `r` declare a second failure? -/
def namesSecond (s : State) (r d : Nat) : Bool :=
  rankErased s r || (match pendingErase s r with
    | some e => e ≠ d
    | none => false)

def runErase (r d : Nat) (s : State) : Ran :=
  let second := namesSecond s r d
  okOrDefers (if second then waitSecond r else waitErase r) freePoint (eraseAsk r d) s

def readmitAsk (r : Nat) (s : State) : State :=
  let s1 := { s with lg := { s.lg with readmit := s.lg.readmit.filter (fun q => q ≠ r) ++ [r] } }
  if freePoint s1 then readmitEffect r s1 else s1

/-! ### Ledger (R487, R488) -/

def setWindow (l w : Nat) (s : State) : State := setF Fld.LD_EA_WORD w (setF Fld.LD_EA_LINE l s)

/-- The value in LD_ED0 and LD_ED1. -/
def windowData (s : State) : Nat := getF s Fld.LD_ED0_DATA_LO + getF s Fld.LD_ED1_DATA_HI * 2 ^ 32

/-- How the access just made is marked. -/
def windowMarks (s : State) : String :=
  (if flag s Fld.LD_ECMD_CORR then " corr" else "") ++ (if flag s Fld.LD_ECMD_UE then " ue" else "")

def runWordRead (l w : Nat) (held : Bool) (s : State) : Ran :=
  let t := windowRead held (setWindow l w s)
  replies ["ok hi=" ++ hexWord (getF t Fld.LD_ED1_DATA_HI) ++ " lo=" ++ hexWord (getF t Fld.LD_ED0_DATA_LO) ++ windowMarks t
    ++ (if flag t Fld.LD_ECMD_HELD then " held" else "")] t

/-- The ten words of a line, one access each. -/
def lineRead (l : Nat) (held : Bool) : List Nat → State → List String × State
  | [], s => ([], s)
  | w :: ws, s =>
    let t := windowRead held (setWindow l w s)
    let r := lineRead l false ws t
    (("  w" ++ decStr w ++ " " ++ hexGroups (windowData t) ++ windowMarks t) :: r.1, r.2)

def runLineRead (l : Nat) (held : Bool) (s : State) : Ran :=
  let r := lineRead l held (List.range 10) s
  replies (("ok line=" ++ decStr l) :: r.1) r.2

def runWordWrite (l w hi lo : Nat) (held collide : Bool) (s : State) : Ran :=
  let s1 := setF Fld.LD_ED0_DATA_LO lo (setF Fld.LD_ED1_DATA_HI hi (setWindow l w s))
  let t := windowWrite held collide s1
  replies [if flag t Fld.LD_ECMD_COLLIDE then "ok collide" else "ok"] t

/-! ### keep config (R490) -/

/-- Begin a configuration store. -/
def cfgStoreBegin (gen : Option Nat) (s : State) : State :=
  { s with kp := { s.kp with genNext := some (match gen with
    | some g => BitVec.ofNat 32 g
    | none => s.kp.gen + 1) } }

/-- A configuration store reaches its end: its generation comes into force, the twin's is compared (R387). -/
def cfgStoreEnd (flips : List (Nat × BitVec 72)) (s : State) : State :=
  match s.kp.genNext with
  | none => s
  | some g =>
    if s.kp.commit.isSome then s
    else
      let w := cfgStoreRun g.toNat true flips { s with kp := { s.kp with genNext := none } }
      let s1 := completeTokens tokCfgStore (if w.1 then "ok" else "err E60 hardware") w.2
      if w.1 && linkUp s1 then replUpdate (generationCheck (BitVec.ofNat 32 (getF s1 Fld.TW_TGEN_GEN)) s1) else s1

/-- Bring one policy or fault-collector register of the record in use into its register. -/
def loadPolicy (s : State) (e : Nat × Nat × Nat) : State :=
  let m := BitVec.ofNat 32 e.2.1
  let v := BitVec.ofNat 32 e.2.2
  let b := e.1 % 0x10000
  if e.1 = 0x2C08 || !regPowered s b then s
  else if 0x3C00 ≤ b && b < 0x4000 then fcQueue ⟨b, v, m, some (e.1 / 0x10000)⟩ s
  else if e.1 = 0x2800 then ledgerConfig (overlay (reg s e.1) m v) s
  else policyEffect e.1 s (setReg e.1 (overlay (reg s e.1) m v) s)

/-- Stage one staged register of the record. -/
def loadStaged (s : State) (e : Nat × Nat × Nat) : State :=
  match regRow e.1 with
  | none => s
  | some r =>
    if regPowered s (e.1 % 0x10000) then
      stage e.1 (BitVec.ofNat 32 (r.rws &&& e.2.1)) (BitVec.ofNat 32 e.2.2) s
    else s

/-- Unload the table at the next boundary, and start the verification of the record's (R179, R568): none in the record leaves
none. The bursts opened before that boundary are still judged by the old table. -/
def hctFromRecord (payload : List Byte) (s : State) : State :=
  let s1 := { s with lg := { s.lg with unloadDue := true, pend := .none } }
  let rows := fieldAt payload cfgRegBytes 4
  if rows = 0 || !hctUsable s then setF Fld.LG_HCTC_PENDING 0 s1
  else
    let words := (List.range 2564).foldl (fun m i =>
      smSet (zeroDefault 32) m i (BitVec.ofNat 32 (fieldAt payload (cfgRegBytes + 4 + 4 * i) 4))) []
    hctStart rows { s1 with lg := { s1.lg with hct := words } }

/-- The values of a payload at the homes of `l`. -/
def recordValues (payload : List Byte) (l : List (Nat × Nat)) : List (Nat × Nat × Nat) :=
  (cfgValues payload).filter (fun e => l.contains (e.1, e.2.1))

/-- `keep config load`: E60 where neither copy is valid; with `hct=yes` the end of the verification completes it. -/
def runCfgLoad (hct : Bool) (s : State) : Ran :=
  let r := readCfg s
  match r.1 with
  | none => defersDone (fun t => ("err E60 hardware", (readCfg t).2)) s
  | some (_, payload, _) =>
    let load := fun (t : State) =>
      let u := (recordValues payload (cfgPolicies ++ cfgSources)).foldl loadPolicy (readCfg t).2
      (recordValues payload (cfgStaged ++ cfgTrims)).foldl loadStaged u
    if hct && coreOn s && fieldAt payload cfgRegBytes 4 ≠ 0 && hctUsable s then defers tokHct (fun t => hctFromRecord payload (load t)) s
    else defersDone (fun t =>
      (if hct && coreOn s && fieldAt payload cfgRegBytes 4 ≠ 0 then "err E60 hardware" else "ok",
       if hct && coreOn s then hctFromRecord payload (load t) else load t)) s

/-! ### fault (R491 to R493) -/

/-- A write of the FC block that the console makes. -/
def fcPut (a v m : Nat) (bank : Option Nat) (s : State) : State :=
  fcQueue ⟨a, BitVec.ofNat 32 v, BitVec.ofNat 32 m, bank⟩ s

def runClear (w : ClearWhat) (s : State) : Ran :=
  match w with
  | .source n => okay (fcPut (if n < 32 then 0x3C28 else 0x3C2C) (2 ^ (n % 32)) maxNumber none s)
  | .record => okay (fcPut 0x3C08 0x80000000 maxNumber none s)
  | .all =>
    let kept := liveBits s &&& sourceBits s 0x3C28 0x3C2C
    replies [if kept = 0 then "ok" else "ok kept=" ++ sourceList kept] (fcPut 0x3C40 2 maxNumber none s)

def runForce (n h l : Nat) (s : State) : Ran :=
  okay (fcPut (if n < 32 then 0x3C54 else 0x3C58) (2 ^ (n % 32)) maxNumber none
    (fcPut 0x3C5C l maxNumber none (fcPut 0x3C60 h maxNumber none s)))

/-- The bits and the mask of FC_INJ that a form writes (R492). -/
def injectWrite (i : Inject) : Nat × Nat :=
  match i with
  | .hct on => (b2n on * 2 ^ 31, 0x80000000)
  | .ledger e m => (2 ^ 30 + b2n e * 2 ^ 29 + m * 2 ^ 16, 0x60FF0000)
  | .keep m => (2 ^ 28 + m * 2 ^ 16, 0x10FF0000)
  | .ca n => (n * 2 ^ 8, 0xFF00)
  | .twin n => (n, 0xFF)
  | .off => (0x00FF0000, 0xF0FFFFFF)

/-- The bits of a field given, and its mask. -/
def given (f : Field) (v : Option Nat) : Nat × Nat :=
  match v with
  | some n => (n <<< f.lo, fieldMask f)
  | none => (0, 0)

def runConfig (n : Nat) (f : FaultFields) (s : State) : Ran :=
  let l := [given Fld.FC_SRC_CLASS f.cls, given Fld.FC_SRC_PCLASS f.pcls, given Fld.FC_SRC_RXN f.rxn,
    given Fld.FC_SRC_PRXN f.prxn, given Fld.FC_SRC_THR f.thr]
  let v := l.foldl (fun a e => a + e.1) 0
  let m := l.foldl (fun a e => a + e.2) 0
  let s1 := if m = 0 then s else fcPut 0x3C48 v m (some n) s
  okay (match f.win with
    | none => s1
    | some w => fcPut 0x3C4C w (fieldMask Fld.FC_WIN_MS) (some n) s1)

/-! ### auth, lifecycle, test -/

def runProve (v : Transport) (proof : BitVec 128) (s : State) : Ran :=
  let r := authJudge (transportByte v) proof s
  if r.1 then replies ["ok auth"] r.2 else fails .e41 r.2

/-- `auth install`: the authentication ends, and the key enters Garnet when its record is stored (R445, R446). -/
def runInstall (key : BitVec 256) (flips : List (Nat × BitVec 72)) (s : State) : Ran :=
  let s1 := installKey key true flips s
  if s1.kp.retry.contains (.install key) then fails .e60 s1 else okay s1

def runLifecycle (target : Nat) (stuck : BitVec 4) (s : State) : Ran :=
  let s1 := lcTransition target stuck s
  if flag s1 Fld.GN_STATUS_LC_FAIL then fails .e60 s1 else okay s1

def runRepair (b k c : Nat) (stuck : BitVec 9) (s : State) : Ran :=
  let s1 := burnEnd stuck (burnStart b k c s)
  if flag s1 Fld.MT_STATUS_BURN_FAIL then fails .e60 s1 else okay s1

/-! ### Step 9 -/

/-- The effect and the reply of a command that every check has passed. -/
def effectCmd (v : Transport) (c : ConCmd) (env : ConEnv) (s : State) : Ran :=
  match c with
  | .help verb => replies (helpLines verb) s
  | .shows o a => match o.bind objectOf with
    | some x => replies (showLines x a s) s
    | none => fails .e11 s
  | .get p => match p.bind policyOf with
    | some q => replies ["ok " ++ q.name ++ "=" ++ policyText s q] s
    | none => fails .e11 s
  | .set p t => runSet (p.getD "") (t.getD "") s
  | .rd a => let r := readReg (a.getD 0) s; replies ["ok " ++ hexWord r.1.toNat] r.2
  | .wr a x => changes (a.getD 0) (writeEffect (a.getD 0) (BitVec.ofNat 32 (x.getD 0)) env) s
  | .commit => runCommit s
  | .discard => okay (discardStaged s)
  | .saveNow => okay (saveTrigger 0x04 s)
  | .trainDram r => defersDone (trainOne (r.getD 0) env.train env.flips) s
  | .calStore => runCalStore env.flips s
  | .calHold l on =>
    let x := l.getD (false, 0)
    runSwitch (holdField x.1 x.2) (on.getD false) s
  | .calEnable e on => match e.bind engineOf with
    | some f => runSwitch f (on.getD true) s
    | none => fails .e20 s
  | .laneErase r d _ => runErase (r.getD 0) (d.getD 0) s
  | .laneReadmit r _ _ => okOrDefers (waitReadmit (r.getD 0)) freePoint (readmitAsk (r.getD 0)) s
  | .ledgerRd l w => match w with
    | none => runLineRead (l.getD 0) env.held s
    | some x => runWordRead (l.getD 0) (x.getD 0) env.held s
  | .ledgerWr l w h o => runWordWrite (l.getD 0) (w.getD 0) (h.getD 0) (o.getD 0) env.held env.collide s
  | .keepCheckpoint => defers tokCheckpoint (checkpointStart env.flips) s
  | .keepRefresh => defers tokRefresh (refreshStart env.flips) s
  | .cfgStore g => defers tokCfgStore (cfgStoreBegin (g.bind id)) s
  | .cfgLoad h => runCfgLoad (h = some true) s
  | .faultAck => okay (fcPut 0x3C40 1 maxNumber none s)
  | .faultClear w => runClear (w.getD .record) s
  | .faultForce n h l => runForce (n.getD 0) ((h.bind id).getD 0) ((l.bind id).getD 0) s
  | .faultInject i => let w := injectWrite (i.getD .off); okay (fcPut 0x3C64 w.1 w.2 none s)
  | .faultConfig n f => runConfig (n.getD 0) (f.getD ⟨none, none, none, none, none, none⟩) s
  | .twin op => match op with
    | .resume => okay (resumeResync s)
    | .resync => okay (if flag s Fld.TW_STATUS_REPL_RUN then fullRequest s else s)
    | .retrain => okay (retrain s)
  | .traceShow aon n => replies (traceLines (if aon then s.tr.fifo else s.tr.ring) ((n.bind id).getD 16)) s
  | .authBegin => let r := authDraw (transportByte v) s; replies ["ok nonce=" ++ hexStr 16 r.1.toNat] r.2
  | .authProve p => runProve v p s
  | .authEnd => ⟨["ok"], .endSession, s⟩
  | .authInstall k => runInstall k env.flips s
  | .lifecycle t _ => runLifecycle (t.getD 0) env.lcStuck s
  | .testMarch k => okay (marchStart (marchKeys (k.getD noKeys) s))
  | .testAbort => defers tokMarch (marchEnd true env.reads) s
  | .testRepair b k x => runRepair (b.getD 0) (k.getD 0) (x.getD 0) env.spareStuck s
  | .resetChip _ => ⟨["ok"], .chip, s⟩
  | .modeScript => ⟨["ok script"], .script, s⟩
  | .modeHuman => ⟨["ok"], .human, s⟩
  | .modeService => defers tokService serviceBegin s
  | .modeRun => defers tokRun (serviceRun env.bringUp env.checks) s
  | .caUnblock => okay (askUnblock s)

/-- What a refused command still does: `wr` as `refusedWrite` says, a ledger access that R253 refuses is reported, a save trigger traced (R333). -/
def refusedCmd (e : ErrCode) (c : ConCmd) (env : ConEnv) (s : State) : State :=
  match c with
  | .wr (some a) (some v) => refusedWrite e a (BitVec.ofNat 32 v) env s
  | .saveNow => if e = .e30 && inSave s then trace 0x0106 0x04 s else s
  | .ledgerRd l _ => if e = .e50 && coreOn s && portERefused s false (l.getD 0) then windowRefused s else s
  | .ledgerWr l _ _ _ => if e = .e50 && coreOn s && portERefused s true (l.getD 0) then windowRefused s else s
  | _ => s

/-- A command from its judgement to its reply. Event lines that fall due meanwhile wait for the reply. -/
def runCmd (v : Transport) (c : ConCmd) (env : ConEnv) (s : State) : Ran :=
  let b := { s with con := { s.con with busy := true } }
  match judgeCmd v c s with
  | some e => fails e (refusedCmd e c env b)
  | none => effectCmd v c env b

/-! ### Sending the reply -/

/-- Answer in the form of the session's mode, while the session lasts: a script line keeps its number, command and reply (R464, R465). -/
def reply (n : Nat) (text : String) (r : Ran) : State :=
  if holder r.st = 0 then r.st
  else if scriptMode r.st then
    let l := frameReply n r.lines
    answer l r.after { r.st with con := { r.st.con with last := some (n, text, l) } }
  else answer r.lines r.after r.st

/-- The number of the script line after the last one. -/
def nextSeq (s : State) : Nat :=
  match s.con.last with
  | none => 0
  | some l => (l.1 + 1) % 256

/-- One command of the console as a whole line of a partner on a transport: it takes a free lease, is refused where
the other transport holds it, and is answered (R451, R452). In script mode it carries the next number; its stored text
is one that no line can have. -/
def conLine (v : Transport) (c : ConCmd) (env : ConEnv) (s : State) : State :=
  if !consoleUp s then s
  else if holder s ≠ 0 && holder s ≠ holderCode v then refuseInput 1 s
  else
    let s1 := hear (if holder s = 0 then takeLease v s else s)
    reply (nextSeq s1) "\n" (runCmd v c env s1)

end Sys2Proof.Machine
end

