-- ==== Sys2Proof/Machine/ConsoleParse.lean ====
section
/-! DEFINITION. Reading a command line: its tokens (R467, Table CP-2), the commands of Table CC-2, the line `ca unblock`
(R501), script frames (R463), and executing a completed line (R456, R460 to R466). -/

namespace Sys2Proof.Machine

/-! ### Tokens -/

/-- Cut a text at every character that satisfies `p`. -/
def cutAt (p : Char → Bool) : List Char → List Char → List (List Char)
  | [], acc => [acc.reverse]
  | c :: t, acc => if p c then acc.reverse :: cutAt p t [] else cutAt p t (c :: acc)

/-- The tokens of a line: what one or more spaces separate. -/
def tokensOf (t : List Char) : List (List Char) := (cutAt (fun c => c = ' ') t []).filter (fun w => w ≠ [])

def isLetter (c : Char) : Bool := let l := (lowerChar c).toNat; 97 ≤ l && l ≤ 122
def isDigit (c : Char) : Bool := (decVal c).isSome

/-- A word: letters, digits, `-` and `_`. Numbers and hex groups have this form too. -/
def isWord (l : List Char) : Bool := l ≠ [] && l.all (fun c => isLetter c || isDigit c || c = '-' || c = '_')

/-- An object: segments of letters, digits and `-`, joined by `.`. -/
def isObject (l : List Char) : Bool :=
  l.length ≤ 48 && (cutAt (fun c => c = '.') l []).all (fun g => g ≠ [] && g.all (fun c => isLetter c || isDigit c || c = '-'))

/-- The tokens after the verb: positional arguments, then `key=value` arguments. -/
structure Args where
  pos : List String
  kv : List (String × String)
  deriving DecidableEq, Repr

/-- Add a token; none is a syntax error: a malformed token, a positional argument after a `key=value`, a key given
twice. -/
def addToken (a : Option Args) (t : List Char) : Option Args :=
  match a with
  | none => none
  | some a =>
    match cutAt (fun c => c = '=') t [] with
    | [w] => if a.kv = [] && (isWord w || isObject w) then some { a with pos := a.pos ++ [String.ofList w] } else none
    | [k, v] =>
      let key := lowerStr (String.ofList k)
      if isObject k && isWord v && !a.kv.any (fun e => e.1 = key) then
        some { a with kv := a.kv ++ [(key, String.ofList v)] }
      else none
    | _ => none

/-- The value of a key. -/
def keyOf (a : Args) (k : String) : Option String := (a.kv.find? (fun e => e.1 = k)).map (·.2)

/-- Are there at most `n` positional arguments, and only the keys listed? -/
def fits (a : Args) (n : Nat) (keys : List String) : Bool := a.pos.length ≤ n && a.kv.all (fun e => keys.contains e.1)

/-- A positional argument. -/
def arg (a : Args) (i : Nat) : Option String := a.pos[i]?
/-- A number as a positional argument, and as the value of a key. -/
def argNum (a : Args) (i : Nat) : Option Nat := (arg a i).bind (numberIn 0 maxNumber)
def keyNum (a : Args) (k : String) : Option Nat := (keyOf a k).bind (numberIn 0 maxNumber)
/-- An optional number of a key. -/
def keyOpt (a : Args) (k : String) : Option (Option Nat) := (keyOf a k).map (numberIn 0 maxNumber)
def keyIs (a : Args) (k w : String) : Bool := (keyOf a k).map lowerStr = some w
/-- A rank and a DRAM lane as positional arguments. -/
def argRank (a : Args) (i : Nat) : Option Nat := (arg a i).bind (indexOf 'r' 4)
def argDram (a : Args) (i : Nat) : Option Nat := (arg a i).bind (indexOf 'd' 6)

/-- A lane of either side: is it a DRAM lane, and its number. -/
def argLane (a : Args) (i : Nat) : Option (Bool × Nat) :=
  match argDram a i with
  | some d => some (true, d)
  | none => ((arg a i).bind (indexOf 'h' 5)).map (fun n => (false, n))

/-- Hex groups: `n` groups of 8 digits joined by `-`, the first leftmost; none for any other count or form (R496). -/
def hexGroupsOf (n : Nat) (t : String) : Option Nat :=
  let g := cutAt (fun c => c = '-') t.toList []
  if g.length = n && g.all (fun x => x.length = 8) then digitsVal 16 hexVal g.flatten else none

/-! ### Argument forms of single commands -/

/-- The checker of `fault inject` with its arguments (R492). A key of another form is no argument of this one. -/
def parseInject (a : Args) : Option Inject :=
  let mask := match keyOf a "mask" with
    | none => some 0xFF
    | some t => numberIn 0 maxNumber t
  let only := fun (ks : List String) (n : Nat) => fits a n ks
  let port := (keyOf a "port").map lowerStr
  let w := (arg a 0).map lowerStr
  if w = some "hct" then (if only [] 2 then ((arg a 1).bind onOff).map Inject.hct else none)
  else if w = some "ledger" then
    (if !only ["port", "mask"] 1 then none
     else if port = some "h" then mask.map (Inject.ledger false)
     else if port = some "e" then mask.map (Inject.ledger true) else none)
  else if w = some "keep" then (if only ["mask"] 1 then mask.map Inject.keep else none)
  else if w = some "ca" then (if only ["n"] 1 then (keyNum a "n").map Inject.ca else none)
  else if w = some "twin" then (if only ["n"] 1 then (keyNum a "n").map Inject.twin else none)
  else if w = some "off" then (if only [] 1 then some .off else none)
  else none

/-- A class word as its code. -/
def classCode (t : String) : Option Nat :=
  let l := lowerStr t
  if l = "corr" then some 1 else if l = "cont" then some 2 else if l = "fatal" then some 3 else none

/-- A set of reaction letters, each once, as its bits. -/
def letterBits (t : String) : Option Nat :=
  if lowerStr t = "none" then some 0
  else (lowerStr t).toList.foldl (fun a c =>
    match a, ['i', 'n', 'b', 'c', 'p'].findIdx? (fun x => x = c) with
    | some m, some k => if m.testBit k then none else some (m + 2 ^ k)
    | _, _ => none) (some 0)

/-- An optional key with a reading: absent, or malformed as `none` outside. -/
def optKey {α : Type} (a : Args) (k : String) (f : String → Option α) : Option (Option α) :=
  match keyOf a k with
  | none => some none
  | some t => (f t).map some

/-- The keys of `fault config` (R493). -/
def parseFields (a : Args) : Option FaultFields :=
  let num := numberIn 0 maxNumber
  match optKey a "class" classCode, optKey a "pclass" classCode, optKey a "rxn" letterBits, optKey a "prxn" letterBits,
      optKey a "thr" num, optKey a "win" num with
  | some c, some p, some r, some q, some t, some w => some ⟨c, p, r, q, t, w⟩
  | _, _, _, _, _, _ => none

/-- The targets of `test march`: `all`, or names joined by `-` (Table CC-5). -/
def targetBits (t : String) : Option Nat :=
  if lowerStr t = "all" then some 31
  else (cutAt (fun c => c = '-') (lowerStr t).toList []).foldl (fun a g =>
    match a, ["ledger", "maps", "garnet", "hct", "trace"].findIdx? (fun x => x = String.ofList g) with
    | some m, some k => some (m ||| 2 ^ k)
    | _, _ => none) (some 0)

/-- The banks of `test march`: `all`, a bank, or a range. -/
def bankBits (t : String) : Option Nat :=
  if lowerStr t = "all" then some 0xFFFF
  else match (cutAt (fun c => c = '-') t.toList []).map (fun g => numberIn 0 15 (String.ofList g)) with
    | [some a] => some (2 ^ a)
    | [some a, some b] => if a ≤ b then some (2 ^ (b + 1) - 2 ^ a) else none
    | _ => none

/-- One of two words, as a Boolean: the second is `true`. -/
def oneOf (f t : String) (w : String) : Option Bool :=
  if lowerStr w = f then some false else if lowerStr w = t then some true else none

/-- The keys of `test march`. -/
def parseMarch (a : Args) : Option MarchKeys :=
  match optKey a "target" targetBits, optKey a "banks" bankBits, optKey a "mode" (oneOf "destructive" "preserving"),
      optKey a "alg" (oneOf "c" "ext"), optKey a "bg" (numberIn 1 15), optKey a "spare" (oneOf "no" "yes") with
  | some t, some b, some m, some g, some n, some p => some ⟨t, b, m, g, n, p⟩
  | _, _, _, _, _, _ => none

/-- The state of `lifecycle advance` (R497). -/
def stateCode (t : String) : Option Nat :=
  let l := lowerStr t
  if l = "provisioned" then some 1 else if l = "deployed" then some 2 else if l = "returned" then some 3
  else if l = "scrapped" then some 4 else none

/-- What `fault clear` names. -/
def parseClear (a : Args) : Option ClearWhat :=
  match (arg a 0).map lowerStr, keyOf a "fs" with
  | none, some t => (numberIn 0 maxNumber t).map ClearWhat.source
  | some w, none => if w = "all" then some .all else if w = "record" then some .record else none
  | _, _ => none

/-! ### Commands -/

/-- A command read, or the error of step 2 or 3. -/
abbrev Parsed := Except ErrCode ConCmd

/-- The command, where its arguments fit. -/
def given? (ok : Bool) (c : ConCmd) : Parsed := if ok then .ok c else .error .e10

/-- The arguments after a second word. -/
def rest (a : Args) : Args := { a with pos := a.pos.drop 1 }

/-- Verbs whose commands have no second word. -/
def parseOne (verb : String) (a : Args) : Option Parsed :=
  if verb = "help" then some (given? (fits a 1 []) (.help (arg a 0)))
  else if verb = "show" then some (given? (fits a 2 []) (.shows (arg a 0) (arg a 1)))
  else if verb = "get" then some (given? (fits a 1 []) (.get (arg a 0)))
  else if verb = "set" then some (given? (fits a 2 []) (.set (arg a 0) (arg a 1)))
  else if verb = "rd" then some (given? (fits a 1 []) (.rd (argNum a 0)))
  else if verb = "wr" then some (given? (fits a 2 []) (.wr (argNum a 0) (argNum a 1)))
  else if verb = "commit" then
    some (if (arg a 0).isNone then given? (fits a 0 []) .commit
      else if (arg a 0).map lowerStr = some "discard" then given? (fits a 1 []) .discard else .error .e11)
  else none

/-- Commands of two words: `w` is both words in lower case, `a` what follows. -/
def parseTwoA (w : String) (a : Args) : Option Parsed :=
  if w = "save now" then some (given? (fits a 0 []) .saveNow)
  else if w = "train dram" then some (given? (fits a 1 []) (.trainDram (argRank a 0)))
  else if w = "cal store" then some (given? (fits a 0 []) .calStore)
  else if w = "cal hold" then some (given? (fits a 2 []) (.calHold (argLane a 0) ((arg a 1).bind onOff)))
  else if w = "cal enable" then some (given? (fits a 2 []) (.calEnable (arg a 0) ((arg a 1).bind onOff)))
  else if w = "lane erase" then
    some (given? (fits a 2 ["confirm"]) (.laneErase (argRank a 0) (argDram a 1) (keyIs a "confirm" "yes")))
  else if w = "lane readmit" then
    some (given? (fits a 2 ["rewritten"]) (.laneReadmit (argRank a 0) (argDram a 1) (keyIs a "rewritten" "yes")))
  else if w = "ledger rd" then
    some (given? (fits a 2 []) (.ledgerRd (argNum a 0) ((arg a 1).map (numberIn 0 maxNumber))))
  else if w = "ledger wr" then
    some (given? (fits a 4 []) (.ledgerWr (argNum a 0) (argNum a 1) (argNum a 2) (argNum a 3)))
  else if w = "keep checkpoint" then some (given? (fits a 0 []) .keepCheckpoint)
  else if w = "keep refresh" then some (given? (fits a 0 []) .keepRefresh)
  else if w = "fault ack" then some (given? (fits a 0 []) .faultAck)
  else if w = "fault clear" then some (given? (fits a 1 ["fs"]) (.faultClear (parseClear a)))
  else if w = "fault force" then
    some (given? (fits a 0 ["fs", "synh", "synl"]) (.faultForce (keyNum a "fs") (keyOpt a "synh") (keyOpt a "synl")))
  else if w = "fault inject" then some (given? (fits a 2 ["port", "mask", "n"]) (.faultInject (parseInject a)))
  else if w = "fault config" then
    some (given? (fits a 0 ["fs", "class", "pclass", "rxn", "prxn", "thr", "win"]) (.faultConfig (keyNum a "fs") (parseFields a)))
  else none

/-- `keep config store` and `keep config load`. -/
def parseConfig (a : Args) : Parsed :=
  let w := (arg a 0).map lowerStr
  if w = some "store" then given? (fits a 1 ["gen"]) (.cfgStore (keyOpt a "gen"))
  else if w = some "load" then given? (fits a 1 ["hct"]) (.cfgLoad ((keyOf a "hct").map (fun t => lowerStr t = "yes")))
  else .error .e11

/-- `trace show [aon] [last=<n>]`. -/
def parseTrace (a : Args) : Parsed :=
  match (arg a 0).map lowerStr with
  | none => given? (fits a 0 ["last"]) (.traceShow false (keyOpt a "last"))
  | some w => if w = "aon" then given? (fits a 1 ["last"]) (.traceShow true (keyOpt a "last")) else .error .e11

/-- The other commands of two words. -/
def parseTwoB (w : String) (a : Args) : Option Parsed :=
  if w = "keep config" then some (parseConfig a)
  else if w = "twin resume" then some (given? (fits a 0 []) (.twin .resume))
  else if w = "twin resync" then some (given? (fits a 0 []) (.twin .resync))
  else if w = "twin retrain" then some (given? (fits a 0 []) (.twin .retrain))
  else if w = "trace show" then some (parseTrace a)
  else if w = "auth begin" then some (given? (fits a 0 []) .authBegin)
  else if w = "auth end" then some (given? (fits a 0 []) .authEnd)
  else if w = "auth prove" then
    some (match fits a 1 [], (arg a 0).bind (hexGroupsOf 4) with
      | true, some p => .ok (.authProve (BitVec.ofNat 128 p))
      | _, _ => .error .e10)
  else if w = "auth install" then
    some (match fits a 0 ["key"], (keyOf a "key").bind (hexGroupsOf 8) with
      | true, some k => .ok (.authInstall (BitVec.ofNat 256 k))
      | _, _ => .error .e10)
  else if w = "lifecycle advance" then
    some (given? (fits a 0 ["to", "confirm"]) (.lifecycle ((keyOf a "to").bind stateCode) (keyIs a "confirm" "yes")))
  else if w = "test march" then
    some (given? (fits a 0 ["target", "banks", "mode", "alg", "bg", "spare"]) (.testMarch (parseMarch a)))
  else if w = "test abort" then some (given? (fits a 0 []) .testAbort)
  else if w = "test repair" then
    some (given? (fits a 0 ["bank", "spare", "col"]) (.testRepair (keyNum a "bank") (keyNum a "spare") (keyNum a "col")))
  else if w = "reset chip" then some (given? (fits a 0 ["confirm"]) (.resetChip (keyIs a "confirm" "yes")))
  else if w = "mode script" then some (given? (fits a 0 []) .modeScript)
  else if w = "mode human" then some (given? (fits a 0 []) .modeHuman)
  else if w = "mode service" then some (given? (fits a 0 []) .modeService)
  else if w = "mode run" then some (given? (fits a 0 []) .modeRun)
  else none

/-- The command of a line's tokens: an unknown second word is an unknown object (step 3). -/
def parseTokens (l : List (List Char)) : Parsed :=
  match l with
  | [] => .error .e10
  | v :: t =>
    let verb := lowerStr (String.ofList v)
    match t.foldl addToken (some ⟨[], []⟩) with
    | none => .error .e10
    | some a =>
      if (formsOf verb).isNone then .error .e10
      else match parseOne verb a with
        | some p => p
        | none =>
          let w := verb ++ " " ++ ((arg a 0).map lowerStr).getD ""
          match parseTwoA w (rest a) with
          | some p => p
          | none => (parseTwoB w (rest a)).getD (.error .e11)

/-- The command of a line; `ca unblock` is recognised as a whole (R501). -/
def parseLine (t : List Char) : Parsed :=
  if lowerStr (String.ofList t) = "ca unblock" then .ok .caUnblock else parseTokens (tokensOf t)

/-! ### Executing a line -/

/-- Run the command of a text. -/
def runText (v : Transport) (t : List Char) (env : ConEnv) (s : State) : Ran :=
  match parseLine t with
  | .error e => fails e s
  | .ok c => runCmd v c env s

/-- A script line (R463): its number, its command, whether its check code matches; none where the form fails. -/
def scriptFrame (t : List Char) : Option (Nat × List Char × Bool) :=
  match t with
  | '#' :: a :: b :: ' ' :: body =>
    match cutAt (fun c => c = '*') body [] with
    | [cmd, [x, y]] =>
      match digitsVal 16 hexVal [a, b], digitsVal 16 hexVal [x, y] with
      | some n, some cc =>
        let sum := crc8 (strBytes (String.ofList ('#' :: a :: b :: ' ' :: cmd)))
        some (n, cmd, sum.toNat = cc)
      | _, _ => none
    | _ => none
  | _ => none

/-- The reply to a script line that cannot be judged: number `xx`. -/
def scriptBad (detail : String) (s : State) : State := answer [withCheck ("#xx err E10 " ++ detail)] .nothing s

/-- A completed script line (R463, R465). -/
def scriptLine (v : Transport) (t : List Char) (env : ConEnv) (s : State) : State :=
  match scriptFrame t with
  | none => scriptBad "frame" s
  | some (n, cmd, good) =>
    if !good then answer (frameReply n ["err E10 check"]) .nothing (incF Fld.CN_STAT0_CRCERR s)
    else
      let text := String.ofList cmd
      match s.con.last with
      | some l =>
        if l.1 = n ∧ l.2.1 = text then answer l.2.2 .nothing (incF Fld.CN_STAT0_DUP s)
        else reply n text (runText v cmd env s)
      | none => reply n text (runText v cmd env s)

/-- A completed human line: an empty one gives the prompt alone (R460). -/
def humanLine (v : Transport) (t : List Char) (env : ConEnv) (s : State) : State :=
  if tokensOf t = [] then pump (promptAfter s)
  else reply 0 "" (runText v t env s)

/-- The line buffer is empty again. -/
def clearLine (s : State) : State :=
  { s with con := { s.con with line := [], long := false, overrun := false, badByte := false } }

/-- A line end completes the line of the lease holder (R456). -/
def lineEnd (v : Transport) (env : ConEnv) (s : State) : State :=
  let c := s.con
  let s1 := clearLine s
  let s2 := if scriptMode s || holder s ≠ 1 then s1 else uartSend crlf s1
  if c.long || c.overrun then
    let detail := if c.overrun then "overrun" else "long"
    let s3 := if c.overrun then incF Fld.CN_STAT1_OVERRUN s2 else s2
    if scriptMode s then scriptBad ("syntax " ++ detail) s3 else answer [errLine .e10 detail] .nothing s3
  else if scriptMode s then (if c.badByte then scriptBad "frame" s2 else scriptLine v (bytesStr c.line).toList env s2)
  else humanLine v (bytesStr c.line).toList env s2

/-- The device echoes over the UART to its lease holder in human mode (R460). -/
def echo (b : List Byte) (s : State) : State := if holder s = 1 && !scriptMode s then uartSend b s else s

/-- BS, space, BS. -/
def rubOut : List Byte := [0x08#8, 0x20#8, 0x08#8]

/-- One byte of input that ends no line (R456, R460, R462): 240 bytes fit. -/
def lineByteIn (b : Byte) (s : State) : State :=
  let n := s.con.line.length
  if 0x20 ≤ b.toNat && b.toNat ≤ 0x7E then
    if 240 ≤ n then { s with con := { s.con with long := true } }
    else echo [b] { s with con := { s.con with line := s.con.line ++ [b] } }
  else if scriptMode s then { s with con := { s.con with badByte := true } }
  else if b = 0x08#8 || b = 0x7F#8 then
    (if n = 0 then s else echo rubOut { s with con := { s.con with line := s.con.line.dropLast } })
  else if b = 0x15#8 then
    echo ((List.replicate n rubOut).flatten) { s with con := { s.con with line := [] } }
  else s

/-- A byte was lost: the line fails with the detail `overrun`. -/
def lineLost (s : State) : State := { s with con := { s.con with overrun := true } }

end Sys2Proof.Machine
end

