-- ==== Sys2Proof/Machine/ConsoleRows.lean ====
section
/-! DEFINITION. The console's rows: the two transports (R451 to R459), the CCCs (R457), and one row for each command of
Table CC-2. -/

namespace Sys2Proof.Machine

/-! ### The UART (R454 to R456, R460) -/

/-- A new byte on CON_RX: what was sent before is past. -/
def rxByte (s : State) : State := { s with con := { s.con with tx := [], heard := if holder s = 2 then s.con.heard else s.aon } }

/-- UART_FRAME (R460): a byte that ends no line. `full`: the FIFO had no room and lost it. -/
def execUartFrame (byte : Byte) (full : Bool) (s : State) : Host.Outcome State Fault Refusal :=
  .next (if !consoleUp s then s
    else if holder s = 2 then refuseInput 1 (rxByte s)
    else if full then lineLost (rxByte s)
    else if byte = 0x0D#8 || byte = 0x0A#8 then rxByte s
    else lineByteIn byte (rxByte s))

/-- UART_LINE (R456): a line end. -/
def execUartLine (env : ConEnv) (s : State) : Host.Outcome State Fault Refusal :=
  .next (if !consoleUp s then s
    else if holder s = 2 then refuseInput 1 (rxByte s)
    else if holder s = 0 then lineEnd .uart env (takeLease .uart (rxByte s))
    else lineEnd .uart env (rxByte s))

/-- Does an interval lie within ±12 % of `m` bit times, of which `sum` has nine? -/
def bitsFit (m i sum : Nat) : Bool := 88 * m * sum ≤ 900 * i && 900 * i ≤ 112 * m * sum

/-- Do the edges match a CR (R454)? Its five intervals are nine bits, which measure the bit time (DEDUCED, log entry 69). -/
def isCr (e : CrEdges) : Bool :=
  let sum := e.low1 + e.high1 + e.low2 + e.high2 + e.low3
  sum ≠ 0 && bitsFit 1 e.low1 sum && bitsFit 1 e.high1 sum && bitsFit 1 e.low2 sum && bitsFit 2 e.high2 sum && bitsFit 4 e.low3 sum

/-- The rate that they measure, in baud: sixteen times 200 MHz over the bit time. -/
def crRate (e : CrEdges) : Nat := 9 * 3200000000 / (e.low1 + e.high1 + e.low2 + e.high2 + e.low3)

/-- UART_AUTOBAUD (R454): whether or not a lease is held. -/
def execUartAutobaud (edges : CrEdges) (s : State) : Host.Outcome State Fault Refusal :=
  .next (if consoleUp s && flag s Fld.CN_CFG_AUTOBAUD && isCr edges && 9600 ≤ crRate edges && crRate edges ≤ 3000000
    then setF Fld.CN_UART_BAUD (crRate edges / 100) s else s)

/-- CON_RX_WAKE (R455): the frame that wakes a stopped MCLK is lost and counted. -/
def execConRxWake (s : State) : Host.Outcome State Fault Refusal :=
  .next (if consoleUp s && mclkStopped s then incF Fld.CN_STAT1_WAKELOST s else s)

/-- Has the lease lapsed: CN_CFG.LEASE seconds without a byte of the holder (R451)? -/
def leaseOver (s : State) : Bool := getF s Fld.CN_CFG_LEASE * ticksPerS ≤ ticksSince s.aon s.con.heard

/-- LEASE_LAPSE (R451). -/
def execLeaseLapse (s : State) : Host.Outcome State Fault Refusal := .next (if leaseOver s then sessionEnd s else s)

/-! ### The I3C target (R457 to R459, R466) -/

/-- One byte of the input buffer, or the place where bytes were lost. -/
def inputByte (env : ConEnv) (b : Option Byte) (s : State) : State :=
  match b with
  | none => lineLost s
  | some x =>
    let was := s.con.afterCr
    let s1 := { s with con := { s.con with afterCr := x = 0x0D#8 } }
    if x = 0x0D#8 then lineEnd .i3c env s1
    else if x = 0x0A#8 then (if was then s1 else lineEnd .i3c env s1)
    else lineByteIn x s1

/-- Take bytes from the input buffer while no reply waits to be queued (R466). -/
def drainInput (env : ConEnv) : List (Option Byte) → State → State
  | [], s => { s with con := { s.con with input := [] } }
  | b :: t, s =>
    if holder s ≠ 2 then s
    else if s.con.reply ≠ [] || s.con.ending then { s with con := { s.con with input := b :: t } }
    else drainInput env t (inputByte env b s)

/-- Go on with what the input buffer holds, and end a session whose output has been read. -/
def goOn (env : ConEnv) (s : State) : State :=
  let s1 := drainInput env s.con.input { s with con := { s.con with input := [] } }
  if s1.con.ending && s1.con.out.isEmpty && s1.con.reply.isEmpty then sessionEnd s1 else s1

/-- The bytes that the 256-byte input buffer takes; what is beyond it is lost. -/
def bufferInput (bytes : List Byte) (s : State) : State :=
  let room := 256 - s.con.input.length
  let taken := (bytes.take room).map some ++ (if room < bytes.length then [none] else [])
  { s with con := { s.con with input := s.con.input ++ taken } }

/-- What the target answers on the bus. -/
def busAnswer (a : Option (List Byte)) (s : State) : State := { s with con := { s.con with answer := a } }

/-- Does the input buffer take all the bytes of a write? Else the target ends it with a NACK (R458). -/
def inputFits (bytes : List Byte) (s : State) : Bool := s.con.input.length + bytes.length ≤ 256

/-- I3C_PRIVATE_WRITE (R451, R452, R458). -/
def execI3cPrivateWrite (bytes : List Byte) (env : ConEnv) (s : State) : Host.Outcome State Fault Refusal :=
  .next (if !consoleUp s then s
    else if holder s = 1 then busAnswer (some []) (refuseInput 1 s)
    else
      let s1 := hear (if holder s = 0 then takeLease .i3c s else s)
      goOn env (bufferInput bytes (busAnswer (if inputFits bytes s1 then some [] else none) s1)))

/-- I3C_PRIVATE_READ (R452, R458). -/
def execI3cPrivateRead (len : Nat) (env : ConEnv) (s : State) : Host.Outcome State Fault Refusal :=
  .next (if !consoleUp s then s
    else if holder s ≠ 2 || s.con.out.isEmpty then busAnswer none s
    else
      let n := min len (getF s Fld.CN_I3C_MRL)
      let s1 := busAnswer (some (s.con.out.take n)) { s with con := { s.con with out := s.con.out.drop n } }
      goOn env (pump s1))

/-- IBI_RETRY (R459): the oldest waiting IBI is sent at a bus idle; NACKed for the fourth time it is dropped. -/
def execIbiRetry (nacked : Bool) (s : State) : Host.Outcome State Fault Refusal :=
  .next (match s.con.ibis with
    | [] => s
    | i :: t =>
      if !consoleUp s || !flag s Fld.CN_I3C_DA_VALID || !flag s Fld.CN_I3C_IBI_EN then s
      else if !nacked then { s with con := { s.con with ibis := t } }
      else if i.tries < 3 then { s with con := { s.con with ibis := { i with tries := i.tries + 1 } :: t } }
      else incF Fld.CN_STAT2_IBILOST { s with con := { s.con with ibis := t } })

/-- A CCC reaches the target while PD_MGT is on and start-up is over. -/
def ccc (f : State → State) (s : State) : State := if consoleUp s then f s else s

/-- A CCC that the target acknowledges and that changes its state. -/
def cccDo (f : State → State) (s : State) : State := ccc (fun t => busAnswer (some []) (f t)) s

/-- ENEC, DISEC, RSTDAA (R457). -/
def execEnec (s : State) : Host.Outcome State Fault Refusal := .next (cccDo (setF Fld.CN_I3C_IBI_EN 1) s)
def execDisec (s : State) : Host.Outcome State Fault Refusal := .next (cccDo (setF Fld.CN_I3C_IBI_EN 0) s)
def execRstdaa (s : State) : Host.Outcome State Fault Refusal :=
  .next (cccDo (fun t => setF Fld.CN_I3C_DA 0 (setF Fld.CN_I3C_DA_VALID 0 t)) s)

/-- The static address that TWIN_POS selects (R32, Table SC-5). A SETDASA to another one is not this device's. -/
def staticAddr (s : State) : BitVec 7 := if flag s Fld.GL_STRAP_TWIN_POS then 0x5B else 0x5A

/-- Take a dynamic address, or refuse it. -/
def assign (ok : Bool) (addr : BitVec 7) (s : State) : State :=
  if ok then busAnswer (some []) (setF Fld.CN_I3C_DA addr.toNat (setF Fld.CN_I3C_DA_VALID 1 s)) else busAnswer none s

/-- ENTDAA, SETDASA: only a target without a dynamic address answers; SETNEWDA: only one with. -/
def execEntdaa (addr : BitVec 7) (s : State) : Host.Outcome State Fault Refusal :=
  .next (ccc (fun t => assign (!flag t Fld.CN_I3C_DA_VALID) addr t) s)
def execSetdasa (static addr : BitVec 7) (s : State) : Host.Outcome State Fault Refusal :=
  .next (if static = staticAddr s then ccc (fun t => assign (!flag t Fld.CN_I3C_DA_VALID) addr t) s else s)
def execSetnewda (addr : BitVec 7) (s : State) : Host.Outcome State Fault Refusal :=
  .next (ccc (fun t => assign (flag t Fld.CN_I3C_DA_VALID) addr t) s)

/-- Does a length fit SETMRL and SETMWL? -/
def lengthFits (n : Nat) : Bool := 16 ≤ n && n ≤ 256

/-- SETMRL and SETMWL (R457). -/
def execSetmrl (len : Nat) (s : State) : Host.Outcome State Fault Refusal :=
  .next (ccc (fun t => if lengthFits len then busAnswer (some []) (setF Fld.CN_I3C_MRL len t) else busAnswer none t) s)
def execSetmwl (len : Nat) (s : State) : Host.Outcome State Fault Refusal :=
  .next (ccc (fun t => if lengthFits len then busAnswer (some []) { t with con := { t.con with mwl := len } }
    else busAnswer none t) s)

/-- The provisional ID (R457). -/
def provisionalId (s : State) : Nat :=
  0x03A7 * 2 ^ 33 + 0x6800 * 2 ^ 16 + b2n (flag s Fld.GL_STRAP_TWIN_POS) * 2 ^ 12 + 1

/-- GETPID, GETBCR, GETDCR, GETMRL, GETMWL (R457). GETMRL carries the IBI payload length too (log entry 35). -/
def execGetpid (s : State) : Host.Outcome State Fault Refusal :=
  .next (ccc (fun t => busAnswer (some (beBytes 6 (provisionalId t))) t) s)
def execGetbcr (s : State) : Host.Outcome State Fault Refusal := .next (ccc (busAnswer (some [0x06#8])) s)
def execGetdcr (s : State) : Host.Outcome State Fault Refusal := .next (ccc (busAnswer (some [0x00#8])) s)
def execGetmrl (s : State) : Host.Outcome State Fault Refusal :=
  .next (ccc (fun t => busAnswer (some (beBytes 2 (getF t Fld.CN_I3C_MRL) ++ [0x02#8])) t) s)
def execGetmwl (s : State) : Host.Outcome State Fault Refusal :=
  .next (ccc (fun t => busAnswer (some (beBytes 2 t.con.mwl)) t) s)

/-- GETSTATUS (R452): the vendor byte is the lease holder; the low byte is a free value (log entry 34). -/
def execGetstatus (s : State) : Host.Outcome State Fault Refusal :=
  .next (ccc (fun t => busAnswer (some [BitVec.ofNat 8 (holder t), Config.statusLow t.draws]) (drew t)) s)

/-- OTHER_CCC (R457): a NACK. -/
def execOtherCcc (s : State) : Host.Outcome State Fault Refusal := .next (ccc (busAnswer none) s)

/-! ### help to commit -/

/-- HELP (R479). -/
def execConHelp (via : Transport) (verb : Option String) (s : State) : Host.Outcome State Fault Refusal :=
  .next (conLine via (.help verb) ConEnv.quiet s)
/-- SHOW (R480). -/
def execConShow (via : Transport) (object : String) (arg : Option String) (s : State) : Host.Outcome State Fault Refusal :=
  .next (conLine via (.shows (some object) arg) ConEnv.quiet s)
/-- GET (R481). -/
def execConGet (via : Transport) (policy : String) (s : State) : Host.Outcome State Fault Refusal :=
  .next (conLine via (.get (some policy)) ConEnv.quiet s)
/-- SET (R481). -/
def execConSet (via : Transport) (policy value : String) (s : State) : Host.Outcome State Fault Refusal :=
  .next (conLine via (.set (some policy) (some value)) ConEnv.quiet s)
/-- RD (R482). -/
def execConRd (via : Transport) (addr : Nat) (s : State) : Host.Outcome State Fault Refusal :=
  .next (conLine via (.rd (some addr)) ConEnv.quiet s)
/-- WR (R482). -/
def execConWr (via : Transport) (addr value : Nat) (env : ConEnv) (s : State) : Host.Outcome State Fault Refusal :=
  .next (conLine via (.wr (some addr) (some value)) env s)
/-- COMMIT (R469). -/
def execConCommit (via : Transport) (s : State) : Host.Outcome State Fault Refusal := .next (conLine via .commit ConEnv.quiet s)
/-- COMMIT_DISCARD (R469). -/
def execConCommitDiscard (via : Transport) (s : State) : Host.Outcome State Fault Refusal :=
  .next (conLine via .discard ConEnv.quiet s)

/-! ### save, train, cal, lane, ledger -/

/-- SAVE_NOW_CMD (R483). -/
def execSaveNowCmd (via : Transport) (s : State) : Host.Outcome State Fault Refusal := .next (conLine via .saveNow ConEnv.quiet s)

/-- TRAIN_DRAM (R484). -/
def execTrainDram (via : Transport) (rank : Nat) (train : RankTrain) (flips : List (Nat × BitVec 72)) (s : State) :
    Host.Outcome State Fault Refusal :=
  .next (conLine via (.trainDram (some rank)) { ConEnv.quiet with train := train, flips := flips } s)

/-- What the keep's cells do to a write. -/
def flipEnv (flips : List (Nat × BitVec 72)) : ConEnv := { ConEnv.quiet with flips := flips }

/-- CAL_STORE (R485). -/
def execCalStore (via : Transport) (flips : List (Nat × BitVec 72)) (s : State) : Host.Outcome State Fault Refusal :=
  .next (conLine via .calStore (flipEnv flips) s)
/-- CAL_HOLD (R485). -/
def execCalHold (via : Transport) (dram : Bool) (lane : Nat) (on : Bool) (s : State) : Host.Outcome State Fault Refusal :=
  .next (conLine via (.calHold (some (dram, lane)) (some on)) ConEnv.quiet s)
/-- CAL_ENABLE (R485). -/
def execCalEnable (via : Transport) (engine : String) (on : Bool) (s : State) : Host.Outcome State Fault Refusal :=
  .next (conLine via (.calEnable (some engine) (some on)) ConEnv.quiet s)
/-- LANE_ERASE (R486). -/
def execLaneErase (via : Transport) (rank lane : Nat) (confirm : Bool) (s : State) : Host.Outcome State Fault Refusal :=
  .next (conLine via (.laneErase (some rank) (some lane) confirm) ConEnv.quiet s)
/-- LANE_READMIT (R172). -/
def execLaneReadmit (via : Transport) (rank lane : Nat) (rewritten : Bool) (s : State) : Host.Outcome State Fault Refusal :=
  .next (conLine via (.laneReadmit (some rank) (some lane) rewritten) ConEnv.quiet s)
/-- LEDGER_RD (R487). -/
def execLedgerRd (via : Transport) (line : Nat) (word : Option Nat) (held : Bool) (s : State) :
    Host.Outcome State Fault Refusal :=
  .next (conLine via (.ledgerRd (some line) (word.map some)) { ConEnv.quiet with held := held } s)
/-- LEDGER_WR (R488). -/
def execLedgerWr (via : Transport) (line word hi lo : Nat) (held collide : Bool) (s : State) :
    Host.Outcome State Fault Refusal :=
  .next (conLine via (.ledgerWr (some line) (some word) (some hi) (some lo))
    { ConEnv.quiet with held := held, collide := collide } s)

/-! ### keep -/

/-- KEEP_CHECKPOINT_CMD (R489). -/
def execKeepCheckpointCmd (via : Transport) (flips : List (Nat × BitVec 72)) (s : State) :
    Host.Outcome State Fault Refusal := .next (conLine via .keepCheckpoint (flipEnv flips) s)
/-- KEEP_REFRESH_CMD (R489). -/
def execKeepRefreshCmd (via : Transport) (flips : List (Nat × BitVec 72)) (s : State) : Host.Outcome State Fault Refusal :=
  .next (conLine via .keepRefresh (flipEnv flips) s)
/-- KEEP_CONFIG_STORE (R490). -/
def execKeepConfigStore (via : Transport) (gen : Option Nat) (s : State) : Host.Outcome State Fault Refusal :=
  .next (conLine via (.cfgStore (gen.map some)) ConEnv.quiet s)
/-- KEEP_CONFIG_STORE_DONE (R490). -/
def execKeepConfigStoreDone (flips : List (Nat × BitVec 72)) (s : State) : Host.Outcome State Fault Refusal :=
  .next (if mgtOn s then cfgStoreEnd flips s else s)
/-- KEEP_CONFIG_LOAD (R490). -/
def execKeepConfigLoad (via : Transport) (hct : Bool) (s : State) : Host.Outcome State Fault Refusal :=
  .next (conLine via (.cfgLoad (if hct then some true else none)) ConEnv.quiet s)

/-! ### fault, twin, trace -/

/-- FAULT_ACK, FAULT_CLEAR (R491). -/
def execFaultAck (via : Transport) (s : State) : Host.Outcome State Fault Refusal := .next (conLine via .faultAck ConEnv.quiet s)
def execFaultClear (via : Transport) (what : ClearWhat) (s : State) : Host.Outcome State Fault Refusal :=
  .next (conLine via (.faultClear (some what)) ConEnv.quiet s)
/-- FAULT_FORCE, FAULT_INJECT (R492). -/
def execFaultForce (via : Transport) (fs : Nat) (synh synl : Option Nat) (s : State) : Host.Outcome State Fault Refusal :=
  .next (conLine via (.faultForce (some fs) (synh.map some) (synl.map some)) ConEnv.quiet s)
def execFaultInject (via : Transport) (what : Inject) (s : State) : Host.Outcome State Fault Refusal :=
  .next (conLine via (.faultInject (some what)) ConEnv.quiet s)
/-- FAULT_CONFIG (R493). -/
def execFaultConfig (via : Transport) (fs : Nat) (fields : FaultFields) (s : State) : Host.Outcome State Fault Refusal :=
  .next (conLine via (.faultConfig (some fs) (some fields)) ConEnv.quiet s)
/-- TWIN_RESUME, TWIN_RESYNC, TWIN_RETRAIN (R494). -/
def execTwinResume (via : Transport) (s : State) : Host.Outcome State Fault Refusal :=
  .next (conLine via (.twin .resume) ConEnv.quiet s)
def execTwinResync (via : Transport) (s : State) : Host.Outcome State Fault Refusal :=
  .next (conLine via (.twin .resync) ConEnv.quiet s)
def execTwinRetrain (via : Transport) (s : State) : Host.Outcome State Fault Refusal :=
  .next (conLine via (.twin .retrain) ConEnv.quiet s)
/-- TRACE_SHOW (R495). -/
def execTraceShow (via : Transport) (aon : Bool) (last : Option Nat) (s : State) : Host.Outcome State Fault Refusal :=
  .next (conLine via (.traceShow aon (last.map some)) ConEnv.quiet s)

/-! ### auth, lifecycle, test -/

/-- AUTH_BEGIN (R443). -/
def execAuthBegin (via : Transport) (s : State) : Host.Outcome State Fault Refusal := .next (conLine via .authBegin ConEnv.quiet s)
/-- AUTH_PROVE (R444). -/
def execAuthProve (via : Transport) (proof : BitVec 128) (s : State) : Host.Outcome State Fault Refusal :=
  .next (conLine via (.authProve proof) ConEnv.quiet s)
/-- AUTH_END (R453). -/
def execAuthEnd (via : Transport) (s : State) : Host.Outcome State Fault Refusal := .next (conLine via .authEnd ConEnv.quiet s)
/-- AUTH_INSTALL (R446). -/
def execAuthInstall (via : Transport) (key : BitVec 256) (flips : List (Nat × BitVec 72)) (s : State) :
    Host.Outcome State Fault Refusal := .next (conLine via (.authInstall key) (flipEnv flips) s)
/-- LIFECYCLE_ADVANCE (R437). -/
def execLifecycleAdvance (via : Transport) (target : Nat) (confirm : Bool) (stuck : BitVec 4) (s : State) :
    Host.Outcome State Fault Refusal :=
  .next (conLine via (.lifecycle (some target) confirm) { ConEnv.quiet with lcStuck := stuck } s)
/-- TEST_MARCH (R499). -/
def execTestMarch (via : Transport) (keys : MarchKeys) (s : State) : Host.Outcome State Fault Refusal :=
  .next (conLine via (.testMarch (some keys)) ConEnv.quiet s)
/-- TEST_ABORT (R499). -/
def execTestAbort (via : Transport) (reads : List MarchRead) (s : State) : Host.Outcome State Fault Refusal :=
  .next (conLine via .testAbort { ConEnv.quiet with reads := reads } s)
/-- TEST_REPAIR (R499). -/
def execTestRepair (via : Transport) (bank spare col : Nat) (stuck : BitVec 9) (s : State) :
    Host.Outcome State Fault Refusal :=
  .next (conLine via (.testRepair (some bank) (some spare) (some col)) { ConEnv.quiet with spareStuck := stuck } s)

/-! ### reset, mode, ca unblock -/

/-- RESET_CHIP (R500). -/
def execResetChip (via : Transport) (confirm : Bool) (s : State) : Host.Outcome State Fault Refusal :=
  .next (conLine via (.resetChip confirm) ConEnv.quiet s)
/-- MODE_SCRIPT, MODE_HUMAN (R462). -/
def execModeScript (via : Transport) (s : State) : Host.Outcome State Fault Refusal := .next (conLine via .modeScript ConEnv.quiet s)
def execModeHuman (via : Transport) (s : State) : Host.Outcome State Fault Refusal := .next (conLine via .modeHuman ConEnv.quiet s)
/-- MODE_SERVICE (R63). -/
def execModeService (via : Transport) (s : State) : Host.Outcome State Fault Refusal :=
  .next (conLine via .modeService ConEnv.quiet s)
/-- MODE_RUN (R65). -/
def execModeRun (via : Transport) (b : BringUp) (checks : List RankCheck) (s : State) : Host.Outcome State Fault Refusal :=
  .next (conLine via .modeRun { ConEnv.quiet with bringUp := b, checks := checks } s)
/-- CA_UNBLOCK (R501). -/
def execCaUnblock (via : Transport) (s : State) : Host.Outcome State Fault Refusal := .next (conLine via .caUnblock ConEnv.quiet s)

end Sys2Proof.Machine
end

