-- ==== Sys2Proof/Machine/Tap.lean ====
section
/-! DEFINITION. The IEEE 1149.1 port (R44 to R47): its instruction, the boundary register, and where EXTEST and
SAMPLE/PRELOAD act as BYPASS. -/

namespace Sys2Proof.Machine

/-- Is the port served: not while AONRST_N is low, in HOLD or in DORMANT (Table BS-9)? -/
def tapUp (s : State) : Bool := s.boot ≠ .held && (inRun s || inService s)

/-- Are EXTEST and SAMPLE/PRELOAD available in this life-cycle state (R46, R448)? -/
def tapOpen (s : State) : Bool := !deployed s || flag s Fld.GN_CFG_TAP_EN

/-- Opcodes of Table BS-14. -/
def irExtest : BitVec 4 := 0x0
def irIdcode : BitVec 4 := 0x1
def irSample : BitVec 4 := 0x2
def irBypass : BitVec 4 := 0xF

/-- What the IDCODE register reads (R45). -/
def idcode : Word := 0x1680074F

/-- What the TAP executes (Table BS-14, R46): EXTEST only in SERVICE, SAMPLE/PRELOAD in RUN and SERVICE, both only where the
life-cycle state opens them; every other opcode, and each of these elsewhere, executes BYPASS. -/
inductive TapRuns where
  | extest
  | idcode
  | sample
  | bypass
  deriving DecidableEq, Repr

/-- The instruction that an opcode in the instruction register executes now. An EXTEST that stays loaded while SERVICE is left
and entered again takes effect again then: R46 says only that it takes effect in SERVICE (DESIGN CHOICE, log entry 60). -/
def tapRuns (s : State) : TapRuns :=
  if s.tap.ir = irIdcode then .idcode
  else if s.tap.ir = irExtest && inService s && tapOpen s && tapUp s then .extest
  else if s.tap.ir = irSample && tapOpen s && tapUp s then .sample
  else .bypass

/-- The data register between TDI and TDO: its width and its value (Table BS-14, R45). -/
def tapData (s : State) : Nat × Nat :=
  match tapRuns s with
  | .extest => (449, s.tap.boundary.toNat)
  | .sample => (449, s.tap.boundary.toNat)
  | .idcode => (32, idcode.toNat)
  | .bypass => (1, b2n s.tap.bypass)

/-- What is on a ball: EXTEST drives every output and bidirectional ball from its data cell while its enable cell is 1
(log entry 60), and leaves it at high impedance otherwise; without EXTEST the device's function does. -/
def ballDrive (s : State) (b : Ball) : Drive :=
  if tapRuns s = .extest && b.sig.kind ≠ .input then
    if s.tap.boundary.getLsbD (cellAt b .enable) then .level (s.tap.boundary.getLsbD (cellAt b .data)) else .highZ
  else functionDrive s b

/-- What a cell captures: an input cell the level that the ball has, an output cell the level and the enable with which the
device drives it; where the device puts traffic on the ball the level is whatever it is at that moment. -/
def cellCapture (s : State) (seen : Bool) (c : Ball × CellKind) : Bool :=
  match c.2, ballDrive s c.1 with
  | .input, _ => seen
  | .data, .level l => l
  | .data, _ => seen
  | .enable, .highZ => false
  | .enable, _ => true

/-- The boundary register as captured; `seen` holds the levels on the balls, cell by cell. -/
def boundaryCapture (s : State) (seen : BitVec 449) : BitVec 449 :=
  BitVec.ofNat 449 ((boundaryCells.zipIdx).foldl (fun a c => a + b2n (cellCapture s (seen.getLsbD c.2) c.1) * 2 ^ c.2) 0)

/-- Load an opcode; the bypass register captures 0 (IEEE 1149.1; PRESUMED, log entry 60). -/
def loadIr (ir : BitVec 4) (s : State) : State := { s with tap := { s.tap with ir := ir, bypass := false } }

/-- TAP_IDCODE (R45). -/
def execTapIdcode (s : State) : Host.Outcome State Fault Refusal := .next (if tapUp s then loadIr irIdcode s else s)

/-- TAP_BYPASS (R44): every opcode that Table BS-14 does not name for another instruction. -/
def execTapBypass (opcode : BitVec 4) (s : State) : Host.Outcome State Fault Refusal :=
  .next (if tapUp s then loadIr (if opcode.toNat ≤ 2 then irBypass else opcode) s else s)

/-- TAP_EXTEST (R46): the cells drive the balls in SERVICE; loaded elsewhere, the TAP executes BYPASS. -/
def execTapExtest (cells : BitVec 449) (s : State) : Host.Outcome State Fault Refusal :=
  .next (if !tapUp s then s
    else if inService s && tapOpen s then { s with tap := ⟨irExtest, cells, false⟩ }
    else loadIr irBypass s)

/-- TAP_SAMPLE_PRELOAD (R46): the boundary register captures the balls, then takes what is shifted in. -/
def execTapSamplePreload (preload : Option (BitVec 449)) (captured : BitVec 449) (s : State) :
    Host.Outcome State Fault Refusal :=
  .next (if !tapUp s then s
    else if tapOpen s then { s with tap := ⟨irSample, preload.getD (boundaryCapture s captured), false⟩ }
    else loadIr irBypass s)

/-- TRST_N_LOW (R44): Test-Logic-Reset with IDCODE loaded. -/
def execTrstNLow (s : State) : Host.Outcome State Fault Refusal := .next (if tapUp s then loadIr irIdcode s else s)

end Sys2Proof.Machine
end

