-- ==== Sys2Proof/Machine/Dispatch.lean ====
section
/-! DEFINITION. The dispatch: one arm per command. -/

namespace Sys2Proof.Machine

/-- The effect of a command on everything but the queue of waiting commands. -/
def exec (i : Instr) (s : State) : Host.Outcome State Fault Refusal :=
  match i with
  | .aonrstNFall => Sys2Proof.Machine.execAonrstNFall s
  | .startUpPhase pos en w => Sys2Proof.Machine.execStartUpPhase pos en w s
  | .coldBringup b reads flips => Sys2Proof.Machine.execColdBringup b reads flips s
  | .coldHandBack => Sys2Proof.Machine.execColdHandBack s
  | .tamperRecognised => Sys2Proof.Machine.execTamperRecognised s
  | .keyRecordErase => Sys2Proof.Machine.execKeyRecordErase s
  | .pgoodRise => Sys2Proof.Machine.execPgoodRise s
  | .pgoodFall => Sys2Proof.Machine.execPgoodFall s
  | .savePairSample save0Low save1Low => Sys2Proof.Machine.execSavePairSample save0Low save1Low s
  | .discrepancyExpiry => Sys2Proof.Machine.execDiscrepancyExpiry s
  | .hrstNLow => Sys2Proof.Machine.execHrstNLow s
  | .hrstNHigh => Sys2Proof.Machine.execHrstNHigh s
  | .hckCount count => Sys2Proof.Machine.execHckCount count s
  | .hckEdgesMissing => Sys2Proof.Machine.execHckEdgesMissing s
  | .hpllLockLost => Sys2Proof.Machine.execHpllLockLost s
  | .parkExit => Sys2Proof.Machine.execParkExit s
  | .tickDiscWindow err => Sys2Proof.Machine.execTickDiscWindow err s
  | .xoscFail noEdge cycles => Sys2Proof.Machine.execXoscFail noEdge cycles s
  | .xoscRestartAttempt started => Sys2Proof.Machine.execXoscRestartAttempt started s
  | .xoscRecovered => Sys2Proof.Machine.execXoscRecovered s
  | .mpllLockTimeout retryOk => Sys2Proof.Machine.execMpllLockTimeout retryOk s
  | .aonWrap => Sys2Proof.Machine.execAonWrap s
  | .watchdogExpiry pc => Sys2Proof.Machine.execWatchdogExpiry pc s
  | .cmdAct p bg bank row => Sys2Proof.Machine.execCmdAct p bg bank row s
  | .cmdRd p bg bank col bo held => Sys2Proof.Machine.execCmdRd p bg bank col bo held s
  | .cmdWr p bg bank col bo => Sys2Proof.Machine.execCmdWr p bg bank col bo s
  | .cmdRda p bg bank col bo held => Sys2Proof.Machine.execCmdRda p bg bank col bo held s
  | .cmdWra p bg bank col bo => Sys2Proof.Machine.execCmdWra p bg bank col bo s
  | .cmdPre p kind bg bank => Sys2Proof.Machine.execCmdPre p kind bg bank s
  | .cmdRefab p hostFree dramFree rankFree => Sys2Proof.Machine.execCmdRefab p hostFree dramFree rankFree s
  | .cmdSre p => Sys2Proof.Machine.execCmdSre p s
  | .cmdMrw p mr data sets => Sys2Proof.Machine.execCmdMrw p mr data sets s
  | .cmdMrr p mr => Sys2Proof.Machine.execCmdMrr p mr s
  | .cmdMpcTraining p step => Sys2Proof.Machine.execCmdMpcTraining p step s
  | .cmdOtherForwarded p reserved srx => Sys2Proof.Machine.execCmdOtherForwarded p reserved srx s
  | .bcwPageSelect p data => Sys2Proof.Machine.execBcwPageSelect p data s
  | .bcwMrr p word => Sys2Proof.Machine.execBcwMrr p word s
  | .saveArm p data => Sys2Proof.Machine.execSaveArm p data s
  | .saveGo p data => Sys2Proof.Machine.execSaveGo p data s
  | .saveArmLapse => Sys2Proof.Machine.execSaveArmLapse s
  | .grantRank p data => Sys2Proof.Machine.execGrantRank p data s
  | .grantLen p data => Sys2Proof.Machine.execGrantLen p data s
  | .grantStart => Sys2Proof.Machine.execGrantStart s
  | .grantEnd work => Sys2Proof.Machine.execGrantEnd work s
  | .aplock p data => Sys2Proof.Machine.execAplock p data s
  | .parClear p data => Sys2Proof.Machine.execParClear p data s
  | .parityBlockEnd => Sys2Proof.Machine.execParityBlockEnd s
  | .parityBlockRefresh => Sys2Proof.Machine.execParityBlockRefresh s
  | .trSel p data => Sys2Proof.Machine.execTrSel p data s
  | .trCtrlHold p data => Sys2Proof.Machine.execTrCtrlHold p data s
  | .trHoldLapse => Sys2Proof.Machine.execTrHoldLapse s
  | .reservationProbe rank data mon => Sys2Proof.Machine.execReservationProbe rank data mon s
  | .idleBoundary => Sys2Proof.Machine.execIdleBoundary s
  | .writeBurst data crc mon held => Sys2Proof.Machine.execWriteBurst data crc mon held s
  | .readBurstCheck data mon => Sys2Proof.Machine.execReadBurstCheck data mon s
  | .dalertEvent ranks => Sys2Proof.Machine.execDalertEvent ranks s
  | .opClear => Sys2Proof.Machine.execOpClear s
  | .opRead => Sys2Proof.Machine.execOpRead s
  | .opAdd => Sys2Proof.Machine.execOpAdd s
  | .opSwap => Sys2Proof.Machine.execOpSwap s
  | .opCas => Sys2Proof.Machine.execOpCas s
  | .ledgerScrubWriteBack => Sys2Proof.Machine.execLedgerScrubWriteBack s
  | .bankPark k => Sys2Proof.Machine.execBankPark k s
  | .bankWake k damage => Sys2Proof.Machine.execBankWake k damage s
  | .bankScanDone k => Sys2Proof.Machine.execBankScanDone k s
  | .hostEvalStart => Sys2Proof.Machine.execHostEvalStart s
  | .hostTrialDone lane => Sys2Proof.Machine.execHostTrialDone lane s
  | .caTrialDone => Sys2Proof.Machine.execCaTrialDone s
  | .staleTimeout lane => Sys2Proof.Machine.execStaleTimeout lane s
  | .zqMeasure hostUp hostDown dramUp dramDown hostSat dramSat => Sys2Proof.Machine.execZqMeasure hostUp hostDown dramUp dramDown hostSat dramSat s
  | .dccStep dram lane up => Sys2Proof.Machine.execDccStep dram lane up s
  | .pendingStarved => Sys2Proof.Machine.execPendingStarved s
  | .sweepStart => Sys2Proof.Machine.execSweepStart s
  | .sweepTrialDone => Sys2Proof.Machine.execSweepTrialDone s
  | .sweepAbandon => Sys2Proof.Machine.execSweepAbandon s
  | .gapTrialStart rank => Sys2Proof.Machine.execGapTrialStart rank s
  | .gapTrialDone rank => Sys2Proof.Machine.execGapTrialDone rank s
  | .gapTrialAbandon rank => Sys2Proof.Machine.execGapTrialAbandon rank s
  | .calStoreAuto => Sys2Proof.Machine.execCalStoreAuto s
  | .calStoreNow => Sys2Proof.Machine.execCalStoreNow s
  | .rfailWindowClear => Sys2Proof.Machine.execRfailWindowClear s
  | .eraseDecision => Sys2Proof.Machine.execEraseDecision s
  | .erasureTakesEffect rank => Sys2Proof.Machine.execErasureTakesEffect rank s
  | .secondFailureTakesEffect rank => Sys2Proof.Machine.execSecondFailureTakesEffect rank s
  | .readmitTakesEffect rank => Sys2Proof.Machine.execReadmitTakesEffect rank s
  | .hctLoad rows => Sys2Proof.Machine.execHctLoad rows s
  | .hctUnload => Sys2Proof.Machine.execHctUnload s
  | .hctVerifyDone => Sys2Proof.Machine.execHctVerifyDone s
  | .hctInForce => Sys2Proof.Machine.execHctInForce s
  | .hctWindowWrite value => Sys2Proof.Machine.execHctWindowWrite value s
  | .hctWindowRead => Sys2Proof.Machine.execHctWindowRead s
  | .ldWindowRead held => Sys2Proof.Machine.execLdWindowRead held s
  | .ldWindowWrite held collide => Sys2Proof.Machine.execLdWindowWrite held collide s
  | .marchStart => Sys2Proof.Machine.execMarchStart s
  | .marchAbort reads => Sys2Proof.Machine.execMarchAbort reads s
  | .marchDone reads => Sys2Proof.Machine.execMarchDone reads s
  | .burnGo bank spare col => Sys2Proof.Machine.execBurnGo bank spare col s
  | .burnDone stuck => Sys2Proof.Machine.execBurnDone stuck s
  | .keepCheckpoint flips => Sys2Proof.Machine.execKeepCheckpoint flips s
  | .keepRefresh flips => Sys2Proof.Machine.execKeepRefresh flips s
  | .recordStoreRetry flips => Sys2Proof.Machine.execRecordStoreRetry flips s
  | .keepRecordRewrite flips => Sys2Proof.Machine.execKeepRecordRewrite flips s
  | .keepRetainAccrue => Sys2Proof.Machine.execKeepRetainAccrue s
  | .saveNow => Sys2Proof.Machine.execSaveNow s
  | .saveRecognised => Sys2Proof.Machine.execSaveRecognised s
  | .quiesceEnd reads => Sys2Proof.Machine.execQuiesceEnd reads s
  | .drainDone => Sys2Proof.Machine.execDrainDone s
  | .saveCommitStart flips => Sys2Proof.Machine.execSaveCommitStart flips s
  | .stewardTakeoverTimeout => Sys2Proof.Machine.execStewardTakeoverTimeout s
  | .commitLinesDone flips => Sys2Proof.Machine.execCommitLinesDone flips s
  | .sealDone => Sys2Proof.Machine.execSealDone s
  | .saveDeadlineOverrun => Sys2Proof.Machine.execSaveDeadlineOverrun s
  | .dormantEntry => Sys2Proof.Machine.execDormantEntry s
  | .restoreStart w b damage garnetDamage checks => Sys2Proof.Machine.execRestoreStart w b damage garnetDamage checks s
  | .restoreRefresh => Sys2Proof.Machine.execRestoreRefresh s
  | .restoreHandBack flips => Sys2Proof.Machine.execRestoreHandBack flips s
  | .linkUp inv => Sys2Proof.Machine.execLinkUp inv s
  | .linkTrainRetry => Sys2Proof.Machine.execLinkTrainRetry s
  | .linkDown => Sys2Proof.Machine.execLinkDown s
  | .retrainTimeout => Sys2Proof.Machine.execRetrainTimeout s
  | .upWaitExpiry => Sys2Proof.Machine.execUpWaitExpiry s
  | .flitIdle seq ack wire => Sys2Proof.Machine.execFlitIdle seq ack wire s
  | .flitNak seq ack wire expected => Sys2Proof.Machine.execFlitNak seq ack wire expected s
  | .flitIdent seq ack wire pos version hbTime => Sys2Proof.Machine.execFlitIdent seq ack wire pos version hbTime s
  | .flitStatus seq ack wire b2 b3 b4 b5 b6 version gen => Sys2Proof.Machine.execFlitStatus seq ack wire b2 b3 b4 b5 b6 version gen s
  | .statusSend => Sys2Proof.Machine.execStatusSend s
  | .timeReqSend => Sys2Proof.Machine.execTimeReqSend s
  | .flitTimeReq seq ack wire => Sys2Proof.Machine.execFlitTimeReq seq ack wire s
  | .flitTimeRsp seq ack wire t2 t3 => Sys2Proof.Machine.execFlitTimeRsp seq ack wire t2 t3 s
  | .flitSave seq ack wire cause aonS0 => Sys2Proof.Machine.execFlitSave seq ack wire cause aonS0 s
  | .flitLagEnd seq ack wire => Sys2Proof.Machine.execFlitLagEnd seq ack wire s
  | .lagEndSend => Sys2Proof.Machine.execLagEndSend s
  | .flitBye seq ack wire => Sys2Proof.Machine.execFlitBye seq ack wire s
  | .flitResyncReq seq ack wire first count => Sys2Proof.Machine.execFlitResyncReq seq ack wire first count s
  | .flitLine seq ack wire l resync poison data tails held => Sys2Proof.Machine.execFlitLine seq ack wire l resync poison data tails held s
  | .replicaLineSend held => Sys2Proof.Machine.execReplicaLineSend held s
  | .twResume => Sys2Proof.Machine.execTwResume s
  | .twResync => Sys2Proof.Machine.execTwResync s
  | .twRetrain => Sys2Proof.Machine.execTwRetrain s
  | .faultCollect => Sys2Proof.Machine.execFaultCollect s
  | .fcWindowClose src => Sys2Proof.Machine.execFcWindowClose src s
  | .nmtHandler ends => Sys2Proof.Machine.execNmtHandler ends s
  | .chiprstWindowExpiry => Sys2Proof.Machine.execChiprstWindowExpiry s
  | .historyWrite flips => Sys2Proof.Machine.execHistoryWrite flips s
  | .fcAck => Sys2Proof.Machine.execFcAck s
  | .fcClrSticky => Sys2Proof.Machine.execFcClrSticky s
  | .fcRecordClear => Sys2Proof.Machine.execFcRecordClear s
  | .fcStickyClear high value => Sys2Proof.Machine.execFcStickyClear high value s
  | .fcForce high value => Sys2Proof.Machine.execFcForce high value s
  | .fcInj value => Sys2Proof.Machine.execFcInj value s
  | .sealKeyGenerate flips => Sys2Proof.Machine.execSealKeyGenerate flips s
  | .tamperClr => Sys2Proof.Machine.execTamperClr s
  | .nonceLapse => Sys2Proof.Machine.execNonceLapse s
  | .leaseLapse => Sys2Proof.Machine.execLeaseLapse s
  | .uartLine env => Sys2Proof.Machine.execUartLine env s
  | .uartAutobaud edges => Sys2Proof.Machine.execUartAutobaud edges s
  | .conRxWake => Sys2Proof.Machine.execConRxWake s
  | .i3cPrivateWrite bytes env => Sys2Proof.Machine.execI3cPrivateWrite bytes env s
  | .i3cPrivateRead len env => Sys2Proof.Machine.execI3cPrivateRead len env s
  | .ibiRetry nacked => Sys2Proof.Machine.execIbiRetry nacked s
  | .enec => Sys2Proof.Machine.execEnec s
  | .disec => Sys2Proof.Machine.execDisec s
  | .rstdaa => Sys2Proof.Machine.execRstdaa s
  | .entdaa addr => Sys2Proof.Machine.execEntdaa addr s
  | .setdasa static addr => Sys2Proof.Machine.execSetdasa static addr s
  | .setnewda addr => Sys2Proof.Machine.execSetnewda addr s
  | .setmrl len => Sys2Proof.Machine.execSetmrl len s
  | .setmwl len => Sys2Proof.Machine.execSetmwl len s
  | .getpid => Sys2Proof.Machine.execGetpid s
  | .getbcr => Sys2Proof.Machine.execGetbcr s
  | .getdcr => Sys2Proof.Machine.execGetdcr s
  | .getstatus => Sys2Proof.Machine.execGetstatus s
  | .getmrl => Sys2Proof.Machine.execGetmrl s
  | .getmwl => Sys2Proof.Machine.execGetmwl s
  | .otherCcc => Sys2Proof.Machine.execOtherCcc s
  | .conHelp via verb => Sys2Proof.Machine.execConHelp via verb s
  | .conShow via object arg => Sys2Proof.Machine.execConShow via object arg s
  | .conGet via policy => Sys2Proof.Machine.execConGet via policy s
  | .conSet via policy value => Sys2Proof.Machine.execConSet via policy value s
  | .conRd via addr => Sys2Proof.Machine.execConRd via addr s
  | .conWr via addr value env => Sys2Proof.Machine.execConWr via addr value env s
  | .conCommit via => Sys2Proof.Machine.execConCommit via s
  | .conCommitDiscard via => Sys2Proof.Machine.execConCommitDiscard via s
  | .glCommitWrite => Sys2Proof.Machine.execGlCommitWrite s
  | .glDiscardWrite => Sys2Proof.Machine.execGlDiscardWrite s
  | .saveNowCmd via => Sys2Proof.Machine.execSaveNowCmd via s
  | .trainDram via rank train flips => Sys2Proof.Machine.execTrainDram via rank train flips s
  | .calStore via flips => Sys2Proof.Machine.execCalStore via flips s
  | .calHold via dram lane on => Sys2Proof.Machine.execCalHold via dram lane on s
  | .calEnable via engine on => Sys2Proof.Machine.execCalEnable via engine on s
  | .laneErase via rank lane confirm => Sys2Proof.Machine.execLaneErase via rank lane confirm s
  | .laneReadmit via rank lane rewritten => Sys2Proof.Machine.execLaneReadmit via rank lane rewritten s
  | .ledgerRd via line word held => Sys2Proof.Machine.execLedgerRd via line word held s
  | .ledgerWr via line word hi lo held collide => Sys2Proof.Machine.execLedgerWr via line word hi lo held collide s
  | .keepCheckpointCmd via flips => Sys2Proof.Machine.execKeepCheckpointCmd via flips s
  | .keepRefreshCmd via flips => Sys2Proof.Machine.execKeepRefreshCmd via flips s
  | .keepConfigStore via gen => Sys2Proof.Machine.execKeepConfigStore via gen s
  | .keepConfigLoad via hct => Sys2Proof.Machine.execKeepConfigLoad via hct s
  | .faultAck via => Sys2Proof.Machine.execFaultAck via s
  | .faultClear via what => Sys2Proof.Machine.execFaultClear via what s
  | .faultForce via fs synh synl => Sys2Proof.Machine.execFaultForce via fs synh synl s
  | .faultInject via what => Sys2Proof.Machine.execFaultInject via what s
  | .faultConfig via fs fields => Sys2Proof.Machine.execFaultConfig via fs fields s
  | .twinResume via => Sys2Proof.Machine.execTwinResume via s
  | .twinResync via => Sys2Proof.Machine.execTwinResync via s
  | .twinRetrain via => Sys2Proof.Machine.execTwinRetrain via s
  | .traceShow via aon last => Sys2Proof.Machine.execTraceShow via aon last s
  | .authBegin via => Sys2Proof.Machine.execAuthBegin via s
  | .authProve via proof => Sys2Proof.Machine.execAuthProve via proof s
  | .authEnd via => Sys2Proof.Machine.execAuthEnd via s
  | .authInstall via key flips => Sys2Proof.Machine.execAuthInstall via key flips s
  | .lifecycleAdvance via target confirm stuck => Sys2Proof.Machine.execLifecycleAdvance via target confirm stuck s
  | .testMarch via keys => Sys2Proof.Machine.execTestMarch via keys s
  | .testAbort via reads => Sys2Proof.Machine.execTestAbort via reads s
  | .testRepair via bank spare col stuck => Sys2Proof.Machine.execTestRepair via bank spare col stuck s
  | .resetChip via confirm => Sys2Proof.Machine.execResetChip via confirm s
  | .modeScript via => Sys2Proof.Machine.execModeScript via s
  | .modeHuman via => Sys2Proof.Machine.execModeHuman via s
  | .modeService via => Sys2Proof.Machine.execModeService via s
  | .modeRun via b checks => Sys2Proof.Machine.execModeRun via b checks s
  | .caUnblock via => Sys2Proof.Machine.execCaUnblock via s
  | .caClrUnblock => Sys2Proof.Machine.execCaClrUnblock s
  | .caClrRsvhit => Sys2Proof.Machine.execCaClrRsvhit s
  | .caClrAlert => Sys2Proof.Machine.execCaClrAlert s
  | .discEnWrite => Sys2Proof.Machine.execDiscEnWrite s
  | .trClear => Sys2Proof.Machine.execTrClear s
  | .sensorConversion t0 t1 t2 t3 => Sys2Proof.Machine.execSensorConversion t0 t1 t2 t3 s
  | .latchedPairRead addr => Sys2Proof.Machine.execLatchedPairRead addr s
  | .registerWrite addr value env => Sys2Proof.Machine.execRegisterWrite addr value env s
  | .tapIdcode => Sys2Proof.Machine.execTapIdcode s
  | .tapBypass opcode => Sys2Proof.Machine.execTapBypass opcode s
  | .tapExtest cells => Sys2Proof.Machine.execTapExtest cells s
  | .tapSamplePreload preload captured => Sys2Proof.Machine.execTapSamplePreload preload captured s
  | .trstNLow => Sys2Proof.Machine.execTrstNLow s
  | .vauxRise => Sys2Proof.Machine.execVauxRise s
  | .vddqdRise => Sys2Proof.Machine.execVddqdRise s
  | .vddqdLoss => Sys2Proof.Machine.execVddqdLoss s
  | .tamperNRelease => Sys2Proof.Machine.execTamperNRelease s
  | .uartFrame byte full => Sys2Proof.Machine.execUartFrame byte full s
  | .bcwAccessError p word data => Sys2Proof.Machine.execBcwAccessError p word data s
  | .keepCheckpointDone flips holds => Sys2Proof.Machine.execKeepCheckpointDone flips holds s
  | .keepRefreshDone flips holds => Sys2Proof.Machine.execKeepRefreshDone flips holds s
  | .calStoreDone flips => Sys2Proof.Machine.execCalStoreDone flips s
  | .keepConfigStoreDone flips => Sys2Proof.Machine.execKeepConfigStoreDone flips s

end Sys2Proof.Machine
end

