-- ==== Sys2Proof/Machine/Idle.lean ====
section
/-! DEFINITION. What happens while no command waits: one tick of the AON timer (R73, R76; log entry 2), in which the
Steward falls asleep if it has no work (R52). -/

namespace Sys2Proof.Machine

/-- One tick of 0.25 µs: the AON timer counts, with an entry at its wrap; a HALERT_N pulse and its release are over, and so is a probe. The
timer stands while AONRST_N is low (R25). Where the Steward sleeps and XOSC stops with it, TICK_DISC falls (R74). -/
def idleTick (s : State) : State :=
  if s.boot = .held then s
  else
    let s1 := { s with aon := s.aon + 1, pins := { s.pins with halertBusy := false, halertOwed := false } }
    let s2 := if xoscStopped s then discRestart s1 else s1
    let s3 := probesOver s2
    if s3.aon = 0 then trace 0x0107 0 s3 else s3

end Sys2Proof.Machine
end

