-- ==== Sys2Proof/Safety.lean ====
section
/-! DEFINITION. What the claims speak of: the register map and the memories in their canonical forms, reserved bits that
read 0, the modes of Table PM-3, the frame of a command, when a command is received. -/

namespace Sys2Proof.Machine

/-- Every listed register has no bit that none of its fields names (R9). -/
def regsMasked (s : State) : Bool := s.regs.all (fun e => e.2 &&& regMask e.1 = e.2)

/-- The register map is canonical and its reserved bits are 0. -/
def RegsOk (s : State) : Prop := smWf regDefault s.regs = true ∧ regsMasked s = true

/-- The memories of the block are in their canonical form: the ledger with its bitmaps and tags, the keep, Garnet and the
HCT window. -/
def Memory.wf (s : State) : Bool :=
  smWf (zeroDefault 72) s.ld.words && smWf mapDefault s.ld.maps && smWf (zeroDefault 72) s.ld.tags
    && smWf (zeroDefault 72) s.kp.words && smWf (zeroDefault 72) s.gn.words && smWf (zeroDefault 32) s.lg.hct

/-- The queues that the spec bounds: the trace ring (R510) and the AON FIFO with its counting place (R512), the in-band
interrupts (R459) and the event lines (R472) that wait. -/
def Bounded (s : State) : Prop :=
  s.tr.ring.length ≤ 1024 ∧ s.tr.fifo.length ≤ 64 ∧ s.con.ibis.length ≤ 8 ∧ s.con.events.length ≤ 16

/-- What holds of every state that the block can be in. -/
def Sound (s : State) : Prop := RegsOk s ∧ Memory.wf s = true ∧ Bounded s

/-- The mode code is one of R71 and the sub-state fits it. -/
def modeLegal (s : State) : Bool :=
  (mode s = modeRun && sub s ≤ 2) || ((mode s = modeHold || mode s = modeDormant || mode s = modeService) && sub s = 0)

/-- The parts of a state beside its registers. -/
inductive Part where
  | aon
  | boot
  | staged
  | committed
  | latch
  | draws
  | fuses
  | pins
  | clk
  | tr
  | fc
  | ca
  | dl
  | lg
  | cb
  | ld
  | kp
  | gn
  | mt
  | sw
  | ps
  | rs
  | tw
  | con
  | tap
  | pending
  deriving DecidableEq, Repr

/-- A part is the same in two states. -/
def Part.same (p : Part) (s t : State) : Prop :=
  match p with
  | .aon => t.aon = s.aon
  | .boot => t.boot = s.boot
  | .staged => t.staged = s.staged
  | .committed => t.committed = s.committed
  | .latch => t.latch = s.latch
  | .draws => t.draws = s.draws
  | .fuses => t.fuses = s.fuses
  | .pins => t.pins = s.pins
  | .clk => t.clk = s.clk
  | .tr => t.tr = s.tr
  | .fc => t.fc = s.fc
  | .ca => t.ca = s.ca
  | .dl => t.dl = s.dl
  | .lg => t.lg = s.lg
  | .cb => t.cb = s.cb
  | .ld => t.ld = s.ld
  | .kp => t.kp = s.kp
  | .gn => t.gn = s.gn
  | .mt => t.mt = s.mt
  | .sw => t.sw = s.sw
  | .ps => t.ps = s.ps
  | .rs => t.rs = s.rs
  | .tw => t.tw = s.tw
  | .con => t.con = s.con
  | .tap => t.tap = s.tap
  | .pending => t.pending = s.pending

/-- The frame of a command: every part of the state but those named, the memories among them, and every register but
those at the named homes, read as before. -/
def Frame (parts : List Part) (homes : List Nat) (s t : State) : Prop :=
  (∀ p, p ∉ parts → p.same s t) ∧ ∀ a, a ∉ homes → reg t a = reg s a

/-- The partner on `v` holds the console, and its command passes every check of Table CP-3 as it is heard. -/
def Accepted (v : Transport) (c : ConCmd) (s : State) : Prop :=
  consoleUp s = true ∧ holder s = holderCode v ∧ judgeCmd v c (hear s) = none

/-- The state in which a console command has its effect: its last byte was heard now (R451), and event lines that fall due
wait for its reply (R461). -/
def working (s : State) : State := { s with con := { s.con with heard := s.aon, busy := true } }

/-- The outcome of a console row: the reply and what follows it. -/
def Answered (s : State) (r : Ran) : Host.Outcome State Fault Refusal := .next (reply (nextSeq s) "\n" r)

/-- A host command cycle as the C/A evaluation and the training responder take it (R145, R213). -/
def heard (p : CaPins) (s : State) : State := trainAnswer p (caSample p s)

/-- A command cycle selects a rank and has good parity (R97, R99). -/
def Whole (p : CaPins) (s : State) : Prop :=
  selected p ≠ [] ∧ getF s Fld.FC_INJ_CA_N = 0 ∧ (flag s Fld.CA_PAR_MODE_EN = false ∨ parityOdd p = false)

/-- A whole command cycle reaches the device while it serves its host, outside the park (R92, R102). -/
def Clean (p : CaPins) (s : State) : Prop := hostLive s = true ∧ Whole p s

/-- No rank that a command selects is absent, granted or being probed (Table CA-5). -/
def FreeRanks (p : CaPins) (s : State) : Prop :=
  ∀ r ∈ selected p, populated s r = true ∧ (grantedRanks s).testBit r = false ∧ s.ca.probing.testBit r = false

/-- A host command outside the buffer control words has its effect. -/
def Received (p : CaPins) (s : State) : Prop := Clean p s ∧ FreeRanks p s ∧ flag s Fld.CA_STATUS_PAR_BLOCKED = false

/-- A host command to a buffer control word on page `page` has its effect; neither a parity block nor the park stops it
(R94, R101). -/
def BcwReceived (p : CaPins) (page : Nat) (s : State) : Prop :=
  hostHeard s = true ∧ Whole p s ∧ FreeRanks p s ∧ s.ca.page = page

end Sys2Proof.Machine
end

