-- ==== Sys2Proof/Certificates/Slice0/Obligations.lean ====
section
/-! DEFINITION. The statements about the block, one obligation each. Commands answer by equations over the shared
operations wherever their effect is one; what those operations write, and what they leave, is stated of them once. -/

open Sys2Proof Sys2Proof.Machine

/-- A step runs the command at the front of the queue on the state with the rest of the queue, and no command ends in a
fault or a refusal. For every command c, queue rest and state s: step of s with c in front of rest is exec of c on s with
rest waiting, and exec of c on s answers a next state. The block form is the model's choice (log entry 2). -/
def Obligations.QueueStepRunsTheFrontCommand : Prop :=
  ∀ (c : Instr) (rest : List Instr) (s : State),
    step { s with pending := c :: rest } = exec c { s with pending := rest } ∧ ∃ t, exec c s = .next t

/-- With no command waiting a step is one tick of the AON timer. On an empty queue step answers the next state in
which the AON timer is one tick on, unless AONRST_N is low; the 48-bit timer wraps (R76). No probe runs after a tick, and
one that ran with gap trials disabled discards those of every rank. TICK_DISC reads 0 where XOSC has stopped because the Steward sleeps
(R74, R77), and is as before where it has not; besides them only pins and the trace change. The tick on an empty queue
and the probe that ends by it are the model's choices (log entries 2 and 45). -/
def Obligations.EmptyQueueLetsOneTickPass : Prop :=
  ∀ s : State, s.pending = [] → ∃ t, step s = .next t ∧
    t.aon = (if s.boot = .held then s.aon else s.aon + 1) ∧ t.pending = [] ∧
    (s.boot = .held → t = s) ∧ (s.boot ≠ .held → t.ca.probing = 0) ∧
    ((s.ca.probing = 0 ∨ flag s Fld.CB_CTRL_GAP_EN = true ∨ s.cb.gaps = []) →
      Frame [.aon, .pins, .tr, .clk, .ca] [Fld.TR_LOST_RING.addr, Fld.CK_STATUS_TICK_DISC.addr] s t ∧
      (s.ca.probing = 0 → t.ca = s.ca) ∧
      (xoscStopped s = false → t.clk = s.clk ∧ flag t Fld.CK_STATUS_TICK_DISC = flag s Fld.CK_STATUS_TICK_DISC) ∧
      (xoscStopped s = true → s.boot ≠ .held → flag t Fld.CK_STATUS_TICK_DISC = false)) ∧
    (s.boot ≠ .held → s.ca.probing ≠ 0 → flag s Fld.CB_CTRL_GAP_EN = false → ∀ g ∈ t.cb.gaps, g.rank ∉ rankList)

/-- Every step keeps the registers masked, the memories canonical and the bounded queues within their bounds. For
every state s that is Sound (the register map canonical with every bit that no field names reading 0, R9; ledger,
bitmaps, tags, keep, Garnet and HCT in canonical form; the trace ring at most 1,024 entries, the AON FIFO at most 64,
at most 8 in-band interrupts and 16 event lines waiting): if step s answers next t, then t is Sound. -/
def Obligations.EveryStepKeepsTheStateSound : Prop :=
  ∀ s t : State, Sound s → step s = .next t → Sound t

/-- No command adds to, takes from or reorders the queue of waiting commands. From a Sound state, whatever exec of any
command answers as next state has the same queue of waiting commands, and is Sound. The queue is the model's (log
entry 2). -/
def Obligations.CommandsLeaveTheQueueAlone : Prop :=
  ∀ (c : Instr) (s t : State), Sound s → exec c s = .next t → t.pending = s.pending ∧ Sound t

/-- The state after reset is sound, its mode legal, and every register holds the value of its Reset column. State.reset is
Sound, its mode is one of R71, and no command waits. At State.reset every register home reads the Reset column of its row
of Tables RX-2 to RX-7, but GN_STATUS, which also shows ERASE_DONE of a new part (Table GN-5), and FC_SRC and FC_WIN,
which hold the catalogue. Values that the column gives as fused, sampled or from a record are 0 (log entry 7). -/
def Obligations.ResetStateIsSound : Prop :=
  Sound State.reset ∧ modeLegal State.reset = true ∧ State.reset.pending = [] ∧
  ∀ a r, regRow a = some r → a ≠ Fld.GN_STATUS_ERASE_DONE.addr → r.addr ≠ Fld.FC_SRC_CLASS.addr →
    r.addr ≠ Fld.FC_WIN_MS.addr → reg State.reset a = BitVec.ofNat 32 r.reset

/-- Writing a field gives that field its value, and leaves every other bit, register and part as it was. For every
field that Chapter 24 names (its bits are bits that regMask of its home names) and every value: after setF the field
reads the value modulo 2 to its width, every other field of the same register whose bits are apart from it reads as
before (where the register holds named bits only, as the invariant has it), and the frame is that one home. A register
written whole reads the value under the mask of its named bits. -/
def Obligations.FieldWriteChangesOneField : Prop :=
  ∀ (f : Field) (v : Nat) (s : State), f.lo ≤ f.hi → f.hi < 32 →
    BitVec.ofNat 32 (fieldMask f) &&& regMask f.addr = BitVec.ofNat 32 (fieldMask f) →
    getF (setF f v s) f = v % 2 ^ f.width ∧ Frame [] [f.addr] s (setF f v s) ∧
    (∀ g : Field, g.addr = f.addr → g.lo ≤ g.hi → g.hi < 32 → (g.hi < f.lo ∨ f.hi < g.lo) →
      reg s f.addr &&& regMask f.addr = reg s f.addr →
      getF (setF f v s) g = getF s g) ∧
    ∀ w : Word, reg (setReg f.addr w s) f.addr = w &&& regMask f.addr ∧ Frame [] [f.addr] s (setReg f.addr w s)

/-- A trace entry joins the ring while it runs and the AON FIFO while it does not; it touches nothing else. An entry
of an unmasked group with the AON time is appended to the running, unfrozen ring, the oldest leaving when 1,024 are
held; to a frozen ring it is lost and counted; with no ring it is appended to the AON FIFO while fewer than 63 entries
are there; the frame of an entry is the trace unit and TR_LOST. -/
def Obligations.TraceEntriesGoToRingOrFifo : Prop :=
  ∀ (code args : Nat) (s : State),
    Frame [.tr] [Fld.TR_LOST_RING.addr] s (trace code args s) ∧
    (traceMasked s code = true → trace code args s = s) ∧
    (traceMasked s code = false → flag s Fld.TR_STATUS_RUNNING = true → flag s Fld.TR_CTRL_FREEZE = false →
      (trace code args s).tr.ring =
        (let q := s.tr.ring ++ [⟨s.aon, BitVec.ofNat 16 code, BitVec.ofNat 64 args⟩]
         if q.length ≤ 1024 then q else q.drop 1) ∧ (trace code args s).tr.fifo = s.tr.fifo) ∧
    (traceMasked s code = false → flag s Fld.TR_STATUS_RUNNING = true → flag s Fld.TR_CTRL_FREEZE = true →
      trace code args s = incF Fld.TR_LOST_RING s) ∧
    (traceMasked s code = false → flag s Fld.TR_STATUS_RUNNING = false → flag s Fld.MT_STATUS_TRACE_OUT = false →
      s.tr.fifo.length < 63 →
      (trace code args s).tr.fifo = s.tr.fifo ++ [⟨s.aon, BitVec.ofNat 16 code, BitVec.ofNat 64 args⟩] ∧
      (trace code args s).tr.ring = s.tr.ring)

/-- A transition puts the new mode into PM_MODE, the old and new mode and the cause into PM_LAST, and its AON time
beside it. For every mode and sub-state code, cause and state: after transition PM_MODE shows mode and sub-state,
PM_LAST shows the cause with the new and the old pair, PM_LAST_TH and PM_LAST_TL the AON time; no register but these
and TR_LOST changes, and no part but the trace. -/
def Obligations.TransitionsAreRecorded : Prop :=
  ∀ (m b cause : Nat) (s : State), m < 8 → b < 4 → cause < 256 →
    let t := transition m b cause s
    mode t = m ∧ sub t = b ∧ getF t Fld.PM_LAST_CAUSE = cause ∧
    getF t Fld.PM_LAST_TO = m ∧ getF t Fld.PM_LAST_TO_SUB = b ∧
    getF t Fld.PM_LAST_FROM = mode s ∧ getF t Fld.PM_LAST_FROM_SUB = sub s ∧
    reg t Fld.PM_LAST_TL_TIME_LO.addr = BitVec.ofNat 32 s.aon.toNat ∧
    reg t Fld.PM_LAST_TH_TIME_HI.addr = BitVec.ofNat 32 (s.aon.toNat >>> 32) ∧
    Frame [.tr] [Fld.PM_MODE_MODE.addr, Fld.PM_LAST_CAUSE.addr, Fld.PM_LAST_TH_TIME_HI.addr,
      Fld.PM_LAST_TL_TIME_LO.addr, Fld.TR_LOST_RING.addr] s t

/-- AONRST_N low resets everything but the tamper state, the fuses, the keep's content and the hold island.
AONRST_N_FALL answers a next state with AONRST_N low: every register home reads its reset value but GN_STATUS, GN_TAMPT
and MT_STATUS; the latch, ERASE_DONE, TAMPER_NOW, GN_TAMPT and (the model's choice, log entry 68) HCT_OUT and TRACE_OUT
read as before; the level set of the hold island, which drives the DRAM side again, keep words, VDDQD, PGOOD and the queue
are as before, and so are the fuses and the model's counter of draws unless a burn is cut short; timer, copies, traces,
console, ledger, Garnet and the TAP are as the reset state has them. VAUX_RISE answers the same with GN_TAMPT and
TAMPER_NOW 0. -/
def Obligations.ResetPinClearsTheDevice : Prop :=
  ∀ s : State, ∃ t u, exec .aonrstNFall s = .next t ∧ exec .vauxRise s = .next u ∧
    u = setReg Fld.GN_TAMPT_TIME.addr 0 (setF Fld.GN_STATUS_TAMPER_NOW 0 t) ∧
    t.boot = .held ∧ t.aon = 0 ∧ t.staged = [] ∧ t.committed = [] ∧ t.latch = [] ∧
    (∀ a, a ≠ Fld.GN_STATUS_TAMPER_LATCH.addr → a ≠ Fld.GN_TAMPT_TIME.addr → a ≠ Fld.MT_STATUS_HCT_OUT.addr →
      reg t a = regDefault a) ∧
    reg t Fld.GN_TAMPT_TIME.addr = reg s Fld.GN_TAMPT_TIME.addr &&& regMask Fld.GN_TAMPT_TIME.addr ∧
    flag t Fld.MT_STATUS_HCT_OUT = flag s Fld.MT_STATUS_HCT_OUT ∧
    flag t Fld.MT_STATUS_TRACE_OUT = flag s Fld.MT_STATUS_TRACE_OUT ∧ flag t Fld.MT_STATUS_BUSY = false ∧
    flag t Fld.GN_STATUS_TAMPER_LATCH = flag s Fld.GN_STATUS_TAMPER_LATCH ∧
    flag t Fld.GN_STATUS_ERASE_DONE = flag s Fld.GN_STATUS_ERASE_DONE ∧
    flag t Fld.GN_STATUS_TAMPER_NOW = flag s Fld.GN_STATUS_TAMPER_NOW ∧
    t.fuses = fusesLeft s ∧ t.draws = drawsLeft s ∧ (s.mt.burn = none → t.fuses = s.fuses ∧ t.draws = s.draws) ∧
    t.kp.words = s.kp.words ∧ t.pending = s.pending ∧ t.pins.island = s.pins.island ∧ t.pins.given = false ∧ t.pins.vddqd = s.pins.vddqd ∧ t.pins.pgood = s.pins.pgood ∧
    t.pins.rdy = false ∧ t.pins.holdack = false ∧
    t.clk = .init ∧ t.tr = .init ∧ t.fc = .init ∧ t.ca = .init ∧ t.dl = .init ∧ t.lg = .init ∧ t.cb = .init ∧
    t.ld = .init ∧ t.gn.words = [] ∧ t.mt = .init ∧ t.sw = .init ∧ t.rs = .init ∧ t.tw = .init ∧ t.con = .init ∧
    t.tap = .init

/-- PGOOD and VDDQD: a recognised change is noted, traced and acted on in SERVICE and in RUN.TRAIN. PGOOD_RISE writes
its trace entry and powers PD_CORE and the PHYs up again in SERVICE where they were off; PGOOD_FALL writes its entries
and in SERVICE switches them off, in RUN.TRAIN stops the sequence that waits; a change already known, or one while
AONRST_N is low, has no effect. VDDQD_RISE brings the reset levels of the hold island, VDDQD_LOSS leaves them
undefined. While the island drives, DRST_N, DCS_N, DCA and DCK have the levels of its set in Table BS-11. -/
def Obligations.SupplyPinsAreFollowed : Prop :=
  ∀ s : State,
    (s.boot ≠ .held → s.pins.pgood = false → (inService s = false ∨ coreOn s = true ∨ inSave s = true) →
      exec .pgoodRise s = .next (trace 0x0102 1 { s with pins := { s.pins with pgood := true } })) ∧
    (s.boot ≠ .held → s.pins.pgood = false → inService s = true → coreOn s = false → inSave s = false →
      exec .pgoodRise s = .next (serviceUp (trace 0x0102 1 { s with pins := { s.pins with pgood := true } }))) ∧
    ((s.boot = .held ∨ s.pins.pgood = true) → exec .pgoodRise s = .next s) ∧
    (s.boot ≠ .held → s.pins.pgood = true → inRun s = false → inService s = false →
      exec .pgoodFall s = .next (trace 0x0102 0 { s with pins := { s.pins with pgood := false } })) ∧
    (s.boot ≠ .held → s.pins.pgood = true → served s = true →
      exec .pgoodFall s = .next (trace 0x0301 (hckArgs (getF s Fld.CK_HCKCNT_COUNT) (flag s Fld.CK_STATUS_HCK_PRESENT)
        (flag s Fld.CK_STATUS_OVERSPEED) true) (trace 0x0102 0 { s with pins := { s.pins with pgood := false } }))) ∧
    (s.boot ≠ .held → s.pins.pgood = true → inService s = true → coreOn s = true →
      exec .pgoodFall s = .next (serviceDown (trace 0x0301 (hckArgs (getF s Fld.CK_HCKCNT_COUNT)
        (flag s Fld.CK_STATUS_HCK_PRESENT) (flag s Fld.CK_STATUS_OVERSPEED) true)
        (trace 0x0102 0 { s with pins := { s.pins with pgood := false } })))) ∧
    (s.boot ≠ .held → s.pins.pgood = true → inTrain s = true → inSave s = false →
      exec .pgoodFall s = .next (sequenceStop (trace 0x0301 (hckArgs (getF s Fld.CK_HCKCNT_COUNT)
        (flag s Fld.CK_STATUS_HCK_PRESENT) (flag s Fld.CK_STATUS_OVERSPEED) true)
        (trace 0x0102 0 { s with pins := { s.pins with pgood := false } })))) ∧
    ((s.boot = .held ∨ s.pins.pgood = false) → exec .pgoodFall s = .next s) ∧
    (s.pins.vddqd = false →
      exec .vddqdRise s = .next { s with pins := { s.pins with vddqd := true, island := .reset, given := false } }) ∧
    (s.pins.vddqd = true → exec .vddqdRise s = .next s) ∧
    exec .vddqdLoss s = .next { s with pins := { s.pins with vddqd := false, island := .undefined } } ∧
    (∀ r h i : Nat, s.pins.given = false →
      (s.pins.island = .reset → drstLevel s = false ∧ dcsLevel s r = true ∧ dcaLevel s h i = false ∧
        dckDrive s h false = .level false ∧ dckDrive s h true = .level true) ∧
      (s.pins.island = .selfRefresh → drstLevel s = true ∧ dcsLevel s r = false ∧ dcaLevel s h i = false ∧
        dckDrive s h false = .level false ∧ dckDrive s h true = .level true))

/-- Start-up runs P1 to P6 and decides the path; cold bring-up runs B1 to B10; B11 waits for HRST_N and enters RUN.
START_UP_PHASE has no effect once the phase has ended; after AONRST_N it runs from the release of the pin; P1 loads
the fuses, P2 samples the straps but after a CHIPRST, P3 starts XOSC, P4 MCLK, P5 the patch, P6 the records. Where
MCLK locks neither at once nor on its retry the phase ends with the Steward halted. The straps give the majority of
three samples and mark samples that disagree. COLD_BRINGUP runs where AONRST_N is released, the Steward runs, the
device waits on the cold path in RUN.TRAIN and the restore conditions hold, and has no effect otherwise.
COLD_HAND_BACK runs after B10 with HRST_N high or ignored, and has no effect otherwise; what runs at hand-back leaves
RDY high, no sequence waiting and RUN with sub-state LIVE where every rank is PROTECTED and DEGRADED otherwise. -/
def Obligations.StartUpAndColdBringUp : Prop :=
  ∀ (s : State) (pos en : BitVec 3) (w : WakeUp) (b : BringUp) (reads : List MarchRead)
    (flips : List (Nat × BitVec 72)),
    (s.boot = .up → exec (.startUpPhase pos en w) s = .next s) ∧
    (s.boot = .held → exec (.startUpPhase pos en w) s = exec (.startUpPhase pos en w)
      { s with boot := .starting, tr := { s.tr with fifo := [resetEntry] } }) ∧
    (s.boot = .starting → afterChip s = false → w.lockOk = true → s.sw.halted = false →
      exec (.startUpPhase pos en w) s =
        .next (recordsStart false (patchStart (mclkStart w (xoscStart w.xoscOk (strapSample pos en (fuseStart s))))))) ∧
    (s.boot = .starting → afterChip s = true → w.lockOk = true → s.sw.halted = false →
      exec (.startUpPhase pos en w) s =
        .next (recordsStart true (patchStart (mclkStart w (xoscStart w.xoscOk (fuseStart s)))))) ∧
    (s.boot = .starting → w.lockOk = false → w.retryOk = false →
      ∃ t, exec (.startUpPhase pos en w) s = .next t ∧ t.boot = .up ∧ t.sw.halted = true ∧
        flag t Fld.CK_STATUS_MCLK_LOCK = false ∧ t.rs = s.rs) ∧
    flag (strapSample pos en s) Fld.GL_STRAP_TWIN_EN = majority en ∧
    flag (strapSample pos en s) Fld.GL_STRAP_TWIN_POS = majority pos ∧
    (strapSample pos en s).tr.strapOwed = (unstable en || unstable pos) ∧
    (restoreConditions s = true → s.boot = .up → s.sw.halted = false → inTrain s = true → s.rs.path = .coldWait →
      exec (.coldBringup b reads flips) s = .next (coldRun b reads flips (coldBegin s))) ∧
    ((restoreConditions s = false ∨ s.boot ≠ .up ∨ s.sw.halted = true ∨ inTrain s = false ∨ s.rs.path ≠ .coldWait) →
      exec (.coldBringup b reads flips) s = .next s) ∧
    (inTrain s = true → s.rs.path = .coldReady → hrstLow s = false →
      exec .coldHandBack s = .next (coldHandBack s)) ∧
    ((inTrain s = false ∨ s.rs.path ≠ .coldReady ∨ hrstLow s = true) → exec .coldHandBack s = .next s) ∧
    (let t := handBackRun s
     t.pins.rdy = true ∧ t.rs.path = .idle ∧ t.pins.errHeld = none ∧ mode t = modeRun ∧
       restoring t = false ∧ flag t Fld.PM_MODE_WAITING = false ∧
       (rankList.all (rankProtected s) = true → sub t = subLive) ∧
       (rankList.all (rankProtected s) = false → sub t = subDegraded))

/-- HRST_N, the HCK count, missing edges and a lost HPLL lock park a serving device; a matching count ends the park.
Where the host balls are received, HRST_N low and high set HRST_LOW; in RUN.LIVE or RUN.DEGRADED, with no save running
and not parked, HRST_N low with HRST_MODE 0, eight missing edges (cause 1) and a lost lock (cause 2, after FS 48) park
the device. PARK_EXIT leaves the park with HRST_N high or ignored and a count since HCK was lost that fits the set in
force, and has no effect otherwise. A count sets CK_HCKCNT, HCK_PRESENT and OVERSPEED as it finds, and then acts as the
mode has it: while the host is served one fitting count clears the count of misses, a first miss is counted, and a second
is a clock event. What parks the DRAM: a PREab for every populated rank with an open bank, an SRE for every one not yet in
self-refresh, no tracked row left, SR_STATE set. Leaving the park gives every populated rank SRX and clears SR_STATE,
PARKED, RATE_MISMATCH and the XOSC reference. -/
def Obligations.HostClockEvents : Prop :=
  ∀ (s : State) (count : BitVec 16),
    let low := setF Fld.CK_STATUS_HRST_LOW 1 s
    let lost : State := { s with clk := { s.clk with fits := false } }
    (hostPins s = true → hrstLow low = true → mayPark low = true → exec .hrstNLow s = .next (parkEnter 0 low)) ∧
    (hostPins s = true → (flag s Fld.CK_CTRL_HRST_MODE = true ∨ mayPark low = false) → exec .hrstNLow s = .next low) ∧
    (hostPins s = true → exec .hrstNHigh s = .next (setF Fld.CK_STATUS_HRST_LOW 0 s)) ∧
    (hostPins s = false → exec .hrstNLow s = .next s ∧ exec .hrstNHigh s = .next s) ∧
    (hckPins s = true → exec (.hckCount count) s = .next (countEffect count.toNat (noteCount count.toNat s))) ∧
    (hckPins s = false → exec (.hckCount count) s = .next s) ∧
    (let t := noteCount count.toNat s
     getF t Fld.CK_HCKCNT_COUNT = count.toNat ∧ flag t Fld.CK_HCKCNT_XOSC_GATED = false ∧
       flag t Fld.CK_STATUS_OVERSPEED = overspeed s count.toNat ∧
       flag t Fld.CK_STATUS_HCK_PRESENT = (matchSet s count.toNat).isSome ∧ t.clk.lastMatch = matchSet s count.toNat ∧
       t.clk.fits = (flag s Fld.CK_STATUS_RS_VALID && within 4 count.toNat (activeRate s)) ∧
       Frame [.clk, .tr] [Fld.CK_HCKCNT_COUNT.addr, Fld.CK_STATUS_OVERSPEED.addr, Fld.TR_LOST_RING.addr] s t) ∧
    (mayPark s = true → within 4 count.toNat (activeRate s) = true →
      countEffect count.toNat s = { s with clk := { s.clk with offCounts := 0 } }) ∧
    (mayPark s = true → within 4 count.toNat (activeRate s) = false →
      countEffect count.toNat s =
        (if s.clk.offCounts = 0 then { s with clk := { s.clk with offCounts := 1 } } else clockLost 3 s)) ∧
    (coreOn s = true → s.boot = .up → saving s = false → mayPark s = true →
      exec .hckEdgesMissing s = .next (parkEnter 1 lost)) ∧
    ((coreOn s = false ∨ s.boot ≠ .up) → exec .hckEdgesMissing s = .next s) ∧
    (coreOn s = true → flag s Fld.CK_STATUS_HPLL_LOCK = true → flag s Fld.CK_STATUS_HPLL_REF_XOSC = false →
      exec .hpllLockLost s =
        .next (clockLost 2 (raise 48 (b2n (saving s) * 2 ^ 16 + getF s Fld.CK_HCKCNT_COUNT) s))) ∧
    (saving s = false → mayPark s = true → clockLost 2 s = parkEnter 2 lost) ∧
    ((coreOn s = false ∨ flag s Fld.CK_STATUS_HPLL_LOCK = false ∨ flag s Fld.CK_STATUS_HPLL_REF_XOSC = true) →
      exec .hpllLockLost s = .next s) ∧
    (parked s = true → served s = true → saving s = false → hrstLow s = false → s.clk.fits = true →
      exec .parkExit s = .next (parkLeave s)) ∧
    ((parked s = false ∨ hrstLow s = true ∨ s.clk.fits = false) → exec .parkExit s = .next s) ∧
    ((parkLeave s).ca.own = s.ca.own ++ (popRanks s).map OwnCmd.srx ∧ getF (parkLeave s) Fld.PM_RANK_SR_STATE = 0 ∧
      parked (parkLeave s) = false ∧ flag (parkLeave s) Fld.CK_STATUS_RATE_MISMATCH = false ∧
      flag (parkLeave s) Fld.CK_STATUS_HPLL_REF_XOSC = false ∧ flag (parkLeave s) Fld.CK_STATUS_HPLL_LOCK = true ∧
      (parkLeave s).clk.clockPark = false ∧ (parkLeave s).clk.offCounts = 0) ∧
    ((parkDram s).ca.own = s.ca.own ++ (((popRanks s).filter (rankOpen s)).map OwnCmd.preab
        ++ ((popRanks s).filter (fun r => !inSr s r)).map OwnCmd.sre) ∧
      (parkDram s).ca.rows = [] ∧ ∀ r, populated s r = true → r < 4 → inSr (parkDram s) r = true)

/-- Tick discipline, the timer's wrap, XOSC failure and return, MCLK lock and the watchdog. A discipline window runs
while XOSC runs, has not failed, DISC_EN is 1 and discipline has not stopped; it moves TRIM by at most one step. XOSC
is stopped while the Steward sleeps with KEEP_OSC 0 and no twin: then no window runs and it does not fail. A failing
XOSC raises FS 50 once; restart attempts and recovery act while it has failed. A lock time-out raises FS 49 and halts
the Steward where the retry fails. The wrap of a timer at its last count reads 0 and is traced. The watchdog raises FS 52 with the pc
and halts the Steward. -/
def Obligations.TickAndOscillatorEvents : Prop :=
  ∀ (s : State) (err : Int) (noEdge started retryOk : Bool) (cycles : BitVec 16) (pc : Word),
    (mgtOn s = true → s.boot ≠ .held → flag s Fld.CK_STATUS_XOSC_RUN = true → flag s Fld.CK_STATUS_XOSC_FAIL = false →
      flag s Fld.CK_TICK_DISC_EN = true → s.clk.discStopped = false → xoscStopped s = false →
      exec (.tickDiscWindow err) s = .next (discWindow err s)) ∧
    ((flag s Fld.CK_STATUS_XOSC_RUN = false ∨ flag s Fld.CK_TICK_DISC_EN = false ∨ s.clk.discStopped = true ∨
      xoscStopped s = true) →
      exec (.tickDiscWindow err) s = .next s) ∧
    (discTrim err s - signed 8 (getF s Fld.CK_TICK_TRIM)).natAbs ≤ 1 ∧
    (mgtOn s = true → flag s Fld.CK_STATUS_XOSC_RUN = true → flag s Fld.CK_STATUS_XOSC_FAIL = false →
      xoscStopped s = false → exec (.xoscFail noEdge cycles) s = .next (xoscFailed (b2n noEdge * 0x10000 + cycles.toNat) s)) ∧
    ((flag s Fld.CK_STATUS_XOSC_FAIL = true ∨ xoscStopped s = true) → exec (.xoscFail noEdge cycles) s = .next s) ∧
    (mgtOn s = true → flag s Fld.CK_STATUS_XOSC_FAIL = true →
      exec (.xoscRestartAttempt started) s = .next (setB Fld.CK_STATUS_XOSC_RUN started s)) ∧
    (flag s Fld.CK_STATUS_XOSC_FAIL = false → exec (.xoscRestartAttempt started) s = .next s ∧
      exec .xoscRecovered s = .next s) ∧
    (mgtOn s = true → flag s Fld.CK_STATUS_XOSC_FAIL = true → flag s Fld.CK_STATUS_XOSC_RUN = true →
      exec .xoscRecovered s = .next (xoscBack s)) ∧
    (mgtOn s = true → s.boot ≠ .held → exec (.mpllLockTimeout retryOk) s = .next (mclkTimeout retryOk s)) ∧
    (s.boot ≠ .held → s.aon = BitVec.allOnes 48 → exec .aonWrap s = .next (trace 0x0107 0 { s with aon := 0 })) ∧
    ((s.boot = .held ∨ s.aon ≠ BitVec.allOnes 48) → exec .aonWrap s = .next s) ∧
    (stewardRuns s = true → exec (.watchdogExpiry pc) s =
      .next (raise 52 (b2n s.fc.nmtRun.isSome * 2 ^ 32 + pc.toNat) { s with sw := { s.sw with halted := true } })) ∧
    (stewardRuns s = false → exec (.watchdogExpiry pc) s = .next s) ∧
    (mgtOn s = true → s.boot ≠ .held → s.clk.discStopped = false → exec .discEnWrite s = .next (setF Fld.CK_TICK_DISC_EN 1 s)) ∧
    (mgtOn s = true → s.boot ≠ .held → s.clk.discStopped = true →
      exec .discEnWrite s = .next { setF Fld.CK_TICK_DISC_EN 1 s with
        clk := { s.clk with discStopped := false, discOnce := false, discGood := 0, discBad := 0 } })

/-- A host ACT meets deselect, parity, the parity block and Table CA-5 in that order before it has its effect. Not
received: no effect. No rank selected: the DRAM slot is deselect. A cycle of odd parity under parity checking: FS 0,
the count, the log where it is free, HALERT_N, and the parity block unless PAR_MODE says otherwise. During a block:
deselect. Then the subcodes: an absent rank, a granted rank, a rank whose probe runs (a free value of the model, log entry
45), more than one rank; each raises FS 1 and is not forwarded. A parity failure is not forwarded, is counted (saturating)
and is one event of FS 0; a full log is kept; the host is blocked unless CA_PAR_MODE.MODE is 1. -/
def Obligations.HostCommandsAreJudgedInOrder : Prop :=
  ∀ (s : State) (p : CaPins) (bg : BitVec 3) (bank : BitVec 2) (row : BitVec 17),
    let h := probeEnds p (heard p s)
    (hostLive s = false → exec (.cmdAct p bg bank row) s = .next s) ∧
    (hostLive s = true → selected p = [] → exec (.cmdAct p bg bank row) s = .next (slotDeselect s)) ∧
    (hostLive s = true → selected p ≠ [] → getF s Fld.FC_INJ_CA_N = 0 → flag s Fld.CA_PAR_MODE_EN = true →
      parityOdd p = true → exec (.cmdAct p bg bank row) s = .next (parityFail p h)) ∧
    (hostLive s = true → selected p ≠ [] → getF s Fld.FC_INJ_CA_N ≠ 0 →
      exec (.cmdAct p bg bank row) s = .next (parityFail p (setF Fld.FC_INJ_CA_N (getF s Fld.FC_INJ_CA_N - 1) h))) ∧
    (Clean p s → flag s Fld.CA_STATUS_PAR_BLOCKED = true →
      exec (.cmdAct p bg bank row) s = .next (slotDeselect h)) ∧
    (Clean p s → flag s Fld.CA_STATUS_PAR_BLOCKED = false → (∃ r ∈ selected p, populated s r = false) →
      exec (.cmdAct p bg bank row) s = .next (illegal 2 p h)) ∧
    (Clean p s → flag s Fld.CA_STATUS_PAR_BLOCKED = false → (∀ r ∈ selected p, populated s r = true) →
      (∃ r ∈ selected p, (grantedRanks s).testBit r = true) →
      exec (.cmdAct p bg bank row) s = .next (illegal 5 p h)) ∧
    (Clean p s → flag s Fld.CA_STATUS_PAR_BLOCKED = false → (∀ r ∈ selected p, populated s r = true) →
      (∀ r ∈ selected p, (grantedRanks s).testBit r = false) → (∃ r ∈ selected p, s.ca.probing.testBit r = true) →
      exec (.cmdAct p bg bank row) s = .next (if Config.probeRuns s.draws then illegal 6 p h
        else if (selected p).length = 1 then actEffect p bg.toNat bank.toNat row.toNat h else illegal 1 p h)) ∧
    (Received p s → h = heard p s ∧
      (1 < (selected p).length → exec (.cmdAct p bg bank row) s = .next (illegal 1 p h))) ∧
    Frame [.ca, .cb, .dl, .draws] [] s h ∧
    (∀ c, (illegal c p s).ca.slot = .deselect ∧ (illegal c p s).ca.rows = s.ca.rows ∧
      (illegal c p s).fc.events = addEvents s.fc.events 1 1 (BitVec.ofNat 64 (synFs1 c p))) ∧
    (parityFail p s).ca.slot = .deselect ∧ (parityFail p s).ca.rows = s.ca.rows ∧
    getF (parityFail p s) Fld.CA_PCNT_COUNT = sat 65535 (getF s Fld.CA_PCNT_COUNT + 1) ∧
    (parityFail p s).fc.events = addEvents s.fc.events 0 1 (BitVec.ofNat 64 (synFs0 p)) ∧
    (flag s Fld.CA_PLOG0_VALID = true → reg (parityFail p s) Fld.CA_PLOG0_VALID.addr = reg s Fld.CA_PLOG0_VALID.addr) ∧
    (flag s Fld.CA_PLOG0_VALID = false → flag (parityFail p s) Fld.CA_PLOG0_VALID = true) ∧
    (flag s Fld.CA_PAR_MODE_MODE = false → flag (parityFail p s) Fld.CA_STATUS_PAR_BLOCKED = true) ∧
    (flag s Fld.CA_PAR_MODE_MODE = true →
      flag (parityFail p s) Fld.CA_STATUS_PAR_BLOCKED = flag s Fld.CA_STATUS_PAR_BLOCKED)

/-- ACT, precharges, REFab, SRE and every other parity-good command are forwarded 1 tCK later, and the tracked rows
follow. A received ACT to one rank is forwarded and its row tracked as open; a precharge is forwarded and closes what
it names; REFab closes the rank's banks, counts toward probes and is a boundary where the lanes are free; SRE closes
the ranks and marks them in self-refresh; any other command is forwarded, one that leaves self-refresh clearing
SR_STATE; an encoding that JESD79-5 reserves is FS 1 subcode 4. A copy of the command bus moves with the command where it
serves a rank that is selected, and stays as it was where it serves no populated rank, or with QUIET none that is
selected. -/
def Obligations.RowCommandsAreForwardedAndTracked : Prop :=
  ∀ (s : State) (p : CaPins) (bg : BitVec 3) (bank : BitVec 2) (row : BitVec 17) (kind : PreKind) (hf df : Bool)
    (rf : BitVec 4) (srx : Bool), Received p s →
    let h := heard p s
    ((selected p).length = 1 → exec (.cmdAct p bg bank row) s =
      .next (apstat (trackOpen (rankOf p) bg.toNat bank.toNat row.toNat (forward p h)))) ∧
    ((kind ≠ .pb ∨ (selected p).length = 1) → exec (.cmdPre p kind bg bank) s =
      .next (preEffect p kind bg.toNat bank.toNat h)) ∧
    exec (.cmdRefab p hf df rf) s = .next (refEffect p hf df rf.toNat h) ∧
    exec (.cmdSre p) s = .next (sreEffect p h) ∧
    exec (.cmdOtherForwarded p false false) s = .next (forward p h) ∧
    exec (.cmdOtherForwarded p false true) s =
      .next ((selected p).foldl (fun t r => setBitF Fld.PM_RANK_SR_STATE r false t) (forward p h)) ∧
    exec (.cmdOtherForwarded p true srx) s = .next (illegal 4 p h) ∧
    (forward p s).ca.slot = .command p ∧ (forward p s).ca.dcsN = p.hcsN ∧
    (halfUsed s 0 = true → onHalf p 0 = true → (forward p s).ca.dcaA = lastCycle p) ∧
    (halfUsed s 1 = true → onHalf p 1 = true → (forward p s).ca.dcaB = lastCycle p) ∧
    ((halfUsed s 0 = false ∨ (onHalf p 0 = false ∧ flag s Fld.CA_CFG_QUIET = true)) →
      (forward p s).ca.dcaA = s.ca.dcaA) ∧
    ((halfUsed s 1 = false ∨ (onHalf p 1 = false ∧ flag s Fld.CA_CFG_QUIET = true)) →
      (forward p s).ca.dcaB = s.ca.dcaB) ∧
    Frame [.ca] [] s (forward p s)

/-- An ACT is forwarded and its row recorded as open for its bank until a PREpb, PREsb, PREab, REFab or SRE closes it.
After a received ACT the DRAM side shows its command, its bank reads its row as open (an aperture row as any other)
and every other bank reads as before. After a received PREpb its bank, after a PREsb its bank number in every bank
group, and after a PREab, REFab or SRE every bank of the ranks selected has no open row. Closing what a precharge
names leaves every other bank as before. -/
def Obligations.TrackedRowsFollowTheHost : Prop :=
  ∀ (s : State) (p : CaPins) (bg : BitVec 3) (bank : BitVec 2) (row : BitVec 17) (hf df : Bool) (rf : BitVec 4)
    (r g b : Nat), r < 4 → g < 8 → b < 4 → Received p s →
    ((selected p).length = 1 → ∃ t, exec (.cmdAct p bg bank row) s = .next t ∧ t.ca.slot = .command p ∧
      openRow t (rankOf p) bg.toNat bank.toNat = some row.toNat ∧
      ((r, g, b) ≠ (rankOf p, bg.toNat, bank.toNat) → openRow t r g b = openRow s r g b)) ∧
    (r ∈ selected p →
      ((selected p).length = 1 → ∃ t, exec (.cmdPre p .pb bg bank) s = .next t ∧
        openRow t r bg.toNat bank.toNat = none) ∧
      (∃ t, exec (.cmdPre p .sb bg bank) s = .next t ∧ openRow t r g bank.toNat = none) ∧
      (∃ t, exec (.cmdPre p .ab bg bank) s = .next t ∧ openRow t r g b = none) ∧
      (∃ t, exec (.cmdRefab p hf df rf) s = .next t ∧ openRow t r g b = none) ∧
      (∃ t, exec (.cmdSre p) s = .next t ∧ openRow t r g b = none)) ∧
    (∀ q : Nat → Bool, q (bankKey r g b) = false → openRow (trackClosed q s) r g b = openRow s r g b)

/-- RD, WR, RDA and WRA to a DRAM row are forwarded; to an open aperture row the ledger serves them. A received RD,
WR, RDA or WRA to one rank whose bank has no tracked row, or a row outside the aperture, is forwarded and opens a DRAM
burst; to an open aperture row it is served by the ledger, RD and WR suppressed on the DRAM side and RDA and WRA
forwarded as well. More than one rank is FS 1 subcode 1, and the data of such a write come all the same and belong to a
dropped burst. A DRAM access appends its burst to the open writes or reads with the mode-register settings of now, leaves
the other list, the ledger and the keep as they were, and with auto-precharge closes its bank. -/
def Obligations.ReadsAndWritesGoToDramOrLedger : Prop :=
  ∀ (s : State) (p : CaPins) (bg : BitVec 3) (bank : BitVec 2) (col : BitVec 6) (bo : BitVec 4) (held : Bool),
    Received p s →
    let h := heard p s
    (1 < (selected p).length → exec (.cmdRd p bg bank col bo held) s = .next (illegal 1 p h) ∧
      exec (.cmdWr p bg bank col bo) s = .next (dropWrite p (illegal 1 p h)) ∧
      exec (.cmdRda p bg bank col bo held) s = .next (illegal 1 p h) ∧
      exec (.cmdWra p bg bank col bo) s = .next (dropWrite p (illegal 1 p h)) ∧
      (dropWrite p (illegal 1 p h)).dl.writes = s.dl.writes ++ [openBurst (rankOf p) 0 0 0 0 0 .dropped (illegal 1 p h)]) ∧
    ((selected p).length = 1 →
      (∀ row, openRow s (rankOf p) bg.toNat bank.toNat = some row →
        aperOffset s (rankOf p) bg.toNat bank.toNat row = none) →
      exec (.cmdRd p bg bank col bo held) s = .next (dramAccess p bg.toNat bank.toNat col.toNat bo.toNat false false h) ∧
      exec (.cmdWr p bg bank col bo) s = .next (dramAccess p bg.toNat bank.toNat col.toNat bo.toNat true false h) ∧
      exec (.cmdRda p bg bank col bo held) s = .next (dramAccess p bg.toNat bank.toNat col.toNat bo.toNat false true h) ∧
      exec (.cmdWra p bg bank col bo) s = .next (dramAccess p bg.toNat bank.toNat col.toNat bo.toNat true true h)) ∧
    (∀ row off, (selected p).length = 1 → openRow s (rankOf p) bg.toNat bank.toNat = some row →
      aperOffset s (rankOf p) bg.toNat bank.toNat row = some off →
      exec (.cmdRd p bg bank col bo held) s =
        .next (aperAccess p bg.toNat bank.toNat row off col.toNat bo.toNat false false held h) ∧
      exec (.cmdWr p bg bank col bo) s =
        .next (aperAccess p bg.toNat bank.toNat row off col.toNat bo.toNat true false false h) ∧
      exec (.cmdRda p bg bank col bo held) s =
        .next (aperAccess p bg.toNat bank.toNat row off col.toNat bo.toNat false true held h) ∧
      exec (.cmdWra p bg bank col bo) s =
        .next (aperAccess p bg.toNat bank.toNat row off col.toNat bo.toNat true true false h)) ∧
    (∀ auto : Bool,
      let o := openBurst (rankOf p) bg.toNat bank.toNat ((openRow s (rankOf p) bg.toNat bank.toNat).getD 0)
        col.toNat bo.toNat .dram s
      let w := dramAccess p bg.toNat bank.toNat col.toNat bo.toNat true auto s
      let r := dramAccess p bg.toNat bank.toNat col.toNat bo.toNat false auto s
      o.snoop = reg s Fld.HL_SNOOP_CL.addr ∧
      w.dl.writes = s.dl.writes ++ [o] ∧ w.dl.reads = s.dl.reads ∧ w.ca.slot = .command p ∧ w.ld = s.ld ∧ w.kp = s.kp ∧
      r.dl.reads = s.dl.reads ++ [o] ∧ r.dl.writes = s.dl.writes ∧ r.ca.slot = .command p ∧ r.ld = s.ld ∧
      r.dl.hostRead = s.dl.hostRead ∧
      (auto = true → openRow w (rankOf p) bg.toNat bank.toNat = none ∧ openRow r (rankOf p) bg.toNat bank.toNat = none))

/-- Host MRW, MRR and training MPC: forwarded and snooped, forwarded, or consumed. A received MRW below MR 240 is
forwarded and snooped, unless it sets a burst length or the data mask that R106 forbids, which is FS 1 subcode 3; at
MR 240 and above it is the buffer control word of that number. An MRR below MR 240 is forwarded and opens a mode-
register burst; above it reads the buffer control word. A training MPC is consumed: the slot is deselect, the step is
entered or left, and CS and CA training stop the host-side trials. In CS and CA training a command cycle is answered on
HDQ: the model's free value for CS, and for CA the XOR of its first C/A beat, on every bit of every lane. -/
def Obligations.ModeRegisterCommands : Prop :=
  ∀ (s : State) (p : CaPins) (mr data : Byte) (sets : List MrwEffect),
    let h := heard p s
    (Received p s → mr.toNat < 240 → mrwBad sets = false →
      exec (.cmdMrw p mr data sets) s = .next (snoop (ofBits (selected p)) sets (forward p h))) ∧
    (Received p s → mr.toNat < 240 → mrwBad sets = true →
      exec (.cmdMrw p mr data sets) s = .next (illegal 3 p h)) ∧
    (mr.toNat = 240 → exec (.cmdMrw p mr data sets) s = exec (.saveArm p data) s) ∧
    (mr.toNat = 241 → exec (.cmdMrw p mr data sets) s = exec (.saveGo p data) s) ∧
    (mr.toNat = 255 → exec (.cmdMrw p mr data sets) s = exec (.bcwPageSelect p data) s) ∧
    (Received p s → mr.toNat < 240 → exec (.cmdMrr p mr) s = .next { forward p h with
      dl := { h.dl with reads := s.dl.reads ++ [openBurst (rankOf p) 0 0 0 0 0 .mrr s] } }) ∧
    (∀ w : BitVec 4, mr.toNat = 240 + w.toNat → exec (.cmdMrr p mr) s = exec (.bcwMrr p w) s) ∧
    (Received p s → exec (.cmdMpcTraining p .cs) s =
      .next (pauseHostAll { slotDeselect h with dl := { h.dl with step := 1 } })) ∧
    (Received p s → exec (.cmdMpcTraining p .ca) s =
      .next (pauseHostAll { slotDeselect h with dl := { h.dl with step := 2 } })) ∧
    (Received p s → exec (.cmdMpcTraining p .leave) s = .next { slotDeselect h with
      dl := { h.dl with step := if s.dl.step = 1 ∨ s.dl.step = 2 then 0 else s.dl.step } }) ∧
    (s.dl.step ≠ 1 → s.dl.step ≠ 2 → h.dl = s.dl) ∧
    (s.dl.step = 2 → h.dl = { s.dl with
      reply := some (onLanes (fun _ => if oddParity p.hca1.toNat then 0xFF else 0)) }) ∧
    (s.dl.step = 1 → h.dl = { s.dl with reply := some (onLanes (fun _ => (Config.csTraining p.hcsN).toNat)) })

/-- A received MRW to a word of the page in force has that word's effect, and is not forwarded. On page 1, SAVE_ARM
with 0x53 arms and any other value disarms with FS 3; SAVE_GO with 0x56 right after an arm triggers a save of cause
0x05 where BCW_EN is 1 and is traced where it is 0; any other SAVE_GO disarms with FS 3. Word 15 selects pages 0 to 4.
On page 2 GRANT_RANK names ranks and GRANT_LEN requests a grant; on page 3 APLOCK sets or clears the lock and
PAR_CLEAR 0x01 ends a parity block; on page 4 TR_SEL selects a lane and TR_CTRL sets HOLD. In each case the slot is
deselect, and any word but these two breaks a pending arm. The words act in the park as well. -/
def Obligations.BufferControlWordWrites : Prop :=
  ∀ (s : State) (p : CaPins) (data : Byte),
    let d := slotDeselect (heard p s)
    let b := breakArm d
    (BcwReceived p 1 s → data = 0x53 → exec (.saveArm p data) s = .next { d with ca := { d.ca with arm := .armed } }) ∧
    (BcwReceived p 1 s → data ≠ 0x53 → exec (.saveArm p data) s =
      .next (raise 3 (synFs3 false false false 1 0 data.toNat) { d with ca := { d.ca with arm := .none } })) ∧
    (BcwReceived p 1 s → data = 0x56 → s.ca.arm = .armed → flag s Fld.PS_CTRL_BCW_EN = true →
      exec (.saveGo p data) s = .next (saveTrigger 0x05 { d with ca := { d.ca with arm := .none } })) ∧
    (BcwReceived p 1 s → data = 0x56 → s.ca.arm = .armed → flag s Fld.PS_CTRL_BCW_EN = false →
      exec (.saveGo p data) s = .next (trace 0x0106 0x05 { d with ca := { d.ca with arm := .none } })) ∧
    (BcwReceived p 1 s → (data ≠ 0x56 ∨ s.ca.arm ≠ .armed) → exec (.saveGo p data) s =
      .next (raise 3 (synFs3 false false false 1 1 data.toNat) { d with ca := { d.ca with arm := .none } })) ∧
    (∀ pg, BcwReceived p pg s → data.toNat ≤ 4 →
      exec (.bcwPageSelect p data) s = .next { b with ca := { b.ca with page := data.toNat } }) ∧
    (∀ pg, BcwReceived p pg s → 4 < data.toNat →
      exec (.bcwPageSelect p data) s = .next (raise 3 (synFs3 false false false pg 15 data.toNat) b)) ∧
    (BcwReceived p 2 s → exec (.grantRank p data) s =
      .next { b with ca := { b.ca with grantRank := data.toNat % 16 } }) ∧
    (BcwReceived p 2 s → exec (.grantLen p data) s = .next (grantLen data.toNat b)) ∧
    (BcwReceived p 3 s → exec (.aplock p data) s = .next (setF Fld.CA_STATUS_APLOCK (data.toNat % 2) b)) ∧
    (BcwReceived p 3 s → data = 1 → flag s Fld.CA_STATUS_PAR_BLOCKED = true →
      exec (.parClear p data) s = .next { b with ca := { b.ca with clearing := true } }) ∧
    (BcwReceived p 3 s → data = 1 → flag s Fld.CA_STATUS_PAR_BLOCKED = false → exec (.parClear p data) s = .next b) ∧
    (BcwReceived p 3 s → data ≠ 1 →
      exec (.parClear p data) s = .next (raise 3 (synFs3 false false false 3 1 data.toNat) b)) ∧
    (BcwReceived p 4 s → data.toNat % 8 ≤ 4 →
      exec (.trSel p data) s = .next { b with dl := { b.dl with sel := data.toNat % 8 } }) ∧
    (BcwReceived p 4 s → 4 < data.toNat % 8 →
      exec (.trSel p data) s = .next (raise 3 (synFs3 false false false 4 1 data.toNat) b)) ∧
    (BcwReceived p 4 s → exec (.trCtrlHold p data) s =
      .next (resumeLanes { b with dl := { b.dl with hold := data.toNat.testBit 0 } }))

/-- An MRR returns the word of the page in force, ALERTS clears as it is read, and an access to no word is FS 3. A
received MRR to one rank of a word that has a value answers that value, the same burst on every host lane, and, for
ALERTS, clears it; a word without one, or more than one rank, answers 0 with FS 3. A parity-good MRW to a word of the page in force that is MRR-only or
undefined has no effect but FS 3. -/
def Obligations.BufferControlWordReadsAndErrors : Prop :=
  ∀ (s : State) (p : CaPins) (word : BitVec 4) (data : Byte) (pg : Nat), BcwReceived p pg s →
    let b := breakArm (slotDeselect (heard p s))
    (∀ v, (selected p).length = 1 → ¬ (pg = 0 ∧ word = 6) → bcwValue b word.toNat = some v →
      exec (.bcwMrr p word) s = .next (mrrAnswer v b)) ∧
    ((selected p).length = 1 → pg = 0 → word = 6 → exec (.bcwMrr p word) s =
      .next { mrrAnswer s.ca.alerts b with ca := { b.ca with alerts := 0 } }) ∧
    (∀ v, (mrrAnswer v s).dl.hostMrr = some (BitVec.ofNat 8 v) ∧ Frame [.dl] [] s (mrrAnswer v s) ∧
      ∀ n, n < 5 → hostLane ((mrrAnswer v s).dl.hostRead.getD 0).toNat n = (Config.mrrLane (BitVec.ofNat 8 v)).toNat) ∧
    ((1 < (selected p).length ∨ bcwValue b word.toNat = none) → exec (.bcwMrr p word) s =
      .next (mrrAnswer 0 (raise 3 (synFs3 false false true pg word.toNat 0) b))) ∧
    ((pg = 0 → word ≠ 15 → exec (.bcwAccessError p word data) s =
        .next (raise 3 (synFs3 false false false pg word.toNat data.toNat) b)) ∧
     (pg = 1 → 2 ≤ word.toNat → word ≠ 15 → exec (.bcwAccessError p word data) s =
        .next (raise 3 (synFs3 false false false pg word.toNat data.toNat) b)) ∧
     (pg = 2 → 2 ≤ word.toNat → word ≠ 15 → exec (.bcwAccessError p word data) s =
        .next (raise 3 (synFs3 false false false pg word.toNat data.toNat) b)) ∧
     (pg = 3 → 2 ≤ word.toNat → word ≠ 15 → exec (.bcwAccessError p word data) s =
        .next (raise 3 (synFs3 false false false pg word.toNat data.toNat) b)) ∧
     (pg = 4 → word ≠ 1 → word ≠ 5 → word ≠ 15 → exec (.bcwAccessError p word data) s =
        .next (raise 3 (synFs3 false false false pg word.toNat data.toNat) b)))

/-- Lapses, grants, the parity block, probes and the idle boundary act at their time where their condition holds. An
arm lapses with FS 3; a requested grant begins, and an active one ends with its ranks precharged; a clear ends the
parity block; the block refreshes; HOLD lapses with a trace entry and the lanes it held resume; a probe that is due runs,
and one whose slot cannot be used is dropped; deselect for 64 tCK is a boundary. Where the condition does not hold each
has no effect. A read probe of a rank without a trial reads scratch row 2 and gives nothing to an engine; a kind that does
not fit the reservation is not issued. -/
def Obligations.TimedHostPathEvents : Prop :=
  ∀ (s : State) (work : List GapAccess) (rank : Rank) (len : Nat) (data mon : BitVec 768),
    let r := rank.val
    let taken : State := { s with ca := { s.ca with probeDue := s.ca.probeDue &&& (15 - 1 <<< r) } }
    (s.ca.arm ≠ .none → hostHeard s = true → exec .saveArmLapse s =
      .next (raise 3 (synFs3 true false false 1 0 0x53) { s with ca := { s.ca with arm := .none } })) ∧
    (s.ca.arm = .none → exec .saveArmLapse s = .next s) ∧
    (s.ca.grantPend = some len → coreOn s = true → exec .grantStart s = .next (grantBegin len s)) ∧
    (s.ca.grantPend = none → exec .grantStart s = .next s) ∧
    (flag s Fld.CA_STATUS_GRANT = true → exec (.grantEnd work) s = .next (grantFinish work s)) ∧
    (flag s Fld.CA_STATUS_GRANT = false → exec (.grantEnd work) s = .next s) ∧
    (s.ca.clearing = true → exec .parityBlockEnd s =
      .next (setF Fld.CA_STATUS_PAR_BLOCKED 0 { s with ca := { s.ca with clearing := false } })) ∧
    (s.ca.clearing = false → exec .parityBlockEnd s = .next s) ∧
    (hostLive s = true → flag s Fld.CA_STATUS_PAR_BLOCKED = true →
      exec .parityBlockRefresh s = .next (blockRefresh s)) ∧
    (flag s Fld.CA_STATUS_PAR_BLOCKED = false → exec .parityBlockRefresh s = .next s) ∧
    (s.dl.hold = true → exec .trHoldLapse s =
      .next (trace 0x0502 0 (resumeLanes { s with dl := { s.dl with hold := false } }))) ∧
    (s.dl.hold = false → exec .trHoldLapse s = .next s) ∧
    (coreOn s = true → s.ca.probeDue.testBit r = true → probeOpen s r = true →
      exec (.reservationProbe rank data mon) s = .next (probe r data.toNat mon.toNat taken)) ∧
    (coreOn s = true → s.ca.probeDue.testBit r = true → probeOpen s r = false →
      exec (.reservationProbe rank data mon) s = .next taken) ∧
    ((coreOn s = false ∨ s.ca.probeDue.testBit r = false) → exec (.reservationProbe rank data mon) s = .next s) ∧
    ((∀ g ∈ s.cb.gaps, g.rank ≠ r) → fitRead s = true → let t := probe r data.toNat mon.toNat s
      t.ca.own = s.ca.own ++ [.probeRead r 2 0] ∧ t.ca.probing.testBit r = true ∧ t.cb = s.cb ∧ Frame [.ca] [] s t) ∧
    ((∀ g ∈ s.cb.gaps, g.rank ≠ r) → fitRead s = false → probe r data.toNat mon.toNat s = s) ∧
    (coreOn s = true → flag s Fld.CA_STATUS_SAVE_BLOCK = false → exec .idleBoundary s = .next (boundaryAll s))

/-- GRANT_LEN is refused with FS 3 unless ranks are named, precharged and no grant is pending or active; the grant
shows its ranks while it runs. GRANT_LEN makes a grant pending where no grant is active or pending, a named rank is
populated, the code is at most 5 and every named rank is precharged; else it is FS 3 and changes nothing else. A grant
that begins shows its ranks and STATUS.GRANT; at its end CA_GRANT reads 0, STATUS.GRANT reads 0 and no bank of the
granted ranks is open. -/
def Obligations.GrantBelongsToItsRanks : Prop :=
  ∀ (s : State) (data : Nat) (work : List GapAccess),
    (flag s Fld.CA_STATUS_GRANT = false → s.ca.grantPend = none → s.ca.grantRank &&& rankEn s ≠ 0 → data % 8 ≤ 5 →
      (∀ r ∈ rankList, (s.ca.grantRank &&& rankEn s).testBit r = true → rankOpen s r = false) →
      grantLen data s = { s with ca := { s.ca with grantPend := some (data % 8) } }) ∧
    ((flag s Fld.CA_STATUS_GRANT = true ∨ s.ca.grantPend ≠ none ∨ s.ca.grantRank &&& rankEn s = 0 ∨ 5 < data % 8 ∨
      ∃ r ∈ rankList, (s.ca.grantRank &&& rankEn s).testBit r = true ∧ rankOpen s r = true) →
      grantLen data s = raise 3 (synFs3 false true false s.ca.page 1 data) s) ∧
    flag (grantFinish work s) Fld.CA_STATUS_GRANT = false ∧
    (∀ r ∈ bitsOf 4 (grantedRanks s), rankOpen (grantFinish work s) r = false)

/-- A write burst that no forwarded or consumed command opened is not received, checked or counted. With no write waiting
for data, a burst of any content, any CRC beats and any monitor decisions changes nothing. The data of a WR or WRA that
was dropped for parity or for FS 1 come all the same: the dropped command opens none of the writes that the burst of
another waits for, and its own burst changes nothing but the list of data still to come. -/
def Obligations.DataWithoutACommandIsIgnored : Prop :=
  ∀ (s : State) (data mon : BitVec 640) (crc : BitVec 80) (held : Bool) (p : CaPins) (bg : BitVec 3) (bank : BitVec 2)
    (col : BitVec 6) (bo : BitVec 4) (c : Nat) (o : OpenBurst) (rest : List OpenBurst),
    (s.dl.writes = [] → exec (.writeBurst data crc mon held) s = .next s) ∧
    (coreOn s = true → s.dl.writes = o :: rest → o.kind = .dropped →
      exec (.writeBurst data crc mon held) s = .next { s with dl := { s.dl with writes := rest } }) ∧
    (let h := probeEnds p (heard p s)
     hostLive s = true → selected p ≠ [] → getF s Fld.FC_INJ_CA_N = 0 → flag s Fld.CA_PAR_MODE_EN = true →
      parityOdd p = true → exec (.cmdWr p bg bank col bo) s = .next (dropWrite p (parityFail p h)) ∧
        exec (.cmdWra p bg bank col bo) s = .next (dropWrite p (parityFail p h))) ∧
    (let h := probeEnds p (heard p s)
     hostLive s = true → selected p ≠ [] → getF h Fld.FC_INJ_CA_N = 0 →
      (flag h Fld.CA_PAR_MODE_EN = false ∨ parityOdd p = false) → flag h Fld.CA_STATUS_PAR_BLOCKED = false →
      illCode false true false p h = some c → exec (.cmdWr p bg bank col bo) s = .next (dropWrite p (illegal c p h)) ∧
        exec (.cmdWra p bg bank col bo) s = .next (dropWrite p (illegal c p h))) ∧
    (Received p s → 1 < (selected p).length →
      exec (.cmdWr p bg bank col bo) s = .next (dropWrite p (illegal 1 p (heard p s)))) ∧
    (parityFail p s).dl.writes = s.dl.writes ∧ (illegal c p s).dl.writes = s.dl.writes ∧
    (hostLive s = true → ∃ d, (dropWrite p s).dl.writes = s.dl.writes ++ [d] ∧ d.kind = .dropped ∧
      Frame [.dl] [] s (dropWrite p s))

/-- A host write burst belongs to the oldest open write: its CRC and its code are checked, then it goes to the DRAM or
to the ledger. The burst is taken by the oldest open write, and gives every running evaluation its bits. CRC failures
count only where the host's write CRC was on as the command came and CRC_CHECK is 1. A DRAM burst goes to the DRAM even
when its CRC failed, with fresh CRC of all six lanes over the data sent where write CRC is on; an aperture burst goes to
the ledger, and to the DRAM as well where its command was forwarded. With PD_CORE off nothing is received. A DRAM alert
records the ranks written in the 64 tCK before, is counted (saturating) and raised as FS 20, and breaks every half-done
pair of a gap trial; between the end of S1 and the end of S4 the ranks named, or where none is named every rank written
since S1, are marked cold, and otherwise no mark changes. -/
def Obligations.WriteBurstsReachDramOrLedger : Prop :=
  ∀ (s : State) (data mon : BitVec 640) (crc : BitVec 80) (held : Bool) (o : OpenBurst) (rest : List OpenBurst),
    let s1 : State := { s with dl := { s.dl with writes := rest } }
    let lanes := crcFails o data.toNat crc.toNat s1
    let u := writeCheck o data.toNat (crcFailed o lanes (levelAnswer (hostSample data.toNat mon.toNat
      { s with dl := { s.dl with writes := rest, writePre := snooped o Fld.HL_SNOOP_WPRE } })))
    (coreOn s = false → exec (.writeBurst data crc mon held) s = .next s) ∧
    (coreOn s = true → s.dl.writes = o :: rest → o.kind = .dram →
      exec (.writeBurst data crc mon held) s = .next (toDram o data.toNat u)) ∧
    (∀ l, coreOn s = true → s.dl.writes = o :: rest → o.kind = .aperture l false →
      exec (.writeBurst data crc mon held) s =
        .next (ledgerBurst o l data.toNat (lanes ≠ 0) (countHeld held u))) ∧
    (∀ l, coreOn s = true → s.dl.writes = o :: rest → o.kind = .aperture l true →
      exec (.writeBurst data crc mon held) s =
        .next (toDram o data.toNat (ledgerBurst o l data.toNat (lanes ≠ 0) (countHeld held u)))) ∧
    ((snooped o Fld.HL_SNOOP_WRCRC_ON = 0 ∨ flag s Fld.HL_CFG_CRC_CHECK = false) → lanes = 0) ∧
    (snooped o Fld.HL_SNOOP_WRCRC_ON = 1 → flag s Fld.HL_CFG_CRC_CHECK = true → ∀ n, n < 5 →
      (lanes.testBit n = true ↔ (Config.laneCrc (BitVec.ofNat 128 (hostLane data.toNat n))).toNat
        ≠ natBits crc.toNat (16 * n + 15) (16 * n))) ∧
    crcFailed o 0 s = s ∧
    (∃ w, (toDram o data.toNat s).dl.dramWrite = some w ∧ w.rank = o.rank ∧
      w.data = BitVec.ofNat 768 (dramBurst s o.rank data.toNat) ∧
      (w.crc.isSome = true ↔ snooped o Fld.HL_SNOOP_WRCRC_ON = 1)) ∧
    Frame [.dl] [] s (toDram o data.toNat s) ∧
    (∀ ranks : BitVec 4, (coreOn s = false → exec (.dalertEvent ranks) s = .next s) ∧
      (coreOn s = true → ∃ t, exec (.dalertEvent ranks) s = .next t ∧ getF t Fld.DL_ALERT_RANKS = ranks.toNat ∧
        getF t Fld.DL_ALERT_COUNT = sat 65535 (getF s Fld.DL_ALERT_COUNT + 1) ∧
        t.fc.events = addEvents s.fc.events 20 1 (BitVec.ofNat 64
          (ranks.toNat * 0x10000 + b2n (flag s Fld.HL_SNOOP_WRCRC_ON) * 2 + b2n (inDrain s))) ∧
        (∀ g ∈ t.cb.gaps, g.sent = none) ∧
        (inDrain s = false → getF t Fld.PM_RANK_COLD_MARK = getF s Fld.PM_RANK_COLD_MARK) ∧
        (inDrain s = true → ranks ≠ 0 →
          getF t Fld.PM_RANK_COLD_MARK = getF s Fld.PM_RANK_COLD_MARK ||| ranks.toNat)))

/-- A read burst belongs to the oldest open read and is judged by the state of its rank. With no open read a burst
changes nothing; an aperture read's burst is discarded; mode-register data is delivered raw; a DRAM burst of a served
device is judged: in the pattern mode that held as it was opened by R146, in a rank outside PROTECTED by Table LG-4, in a
rank whose lane is swept, or was as the burst was opened, by R175, else by Table LG-1 where checking is in force and raw
where it is not. A read that a sweep takes gives the engine its 16 beats; one that fails its check ends the sweep's
trial with FS 17 kind 8. The last burst that a stopped engine waited for completes the command that stopped it. -/
def Obligations.ReadBurstsAreJudgedByRankState : Prop :=
  ∀ (s : State) (data : BitVec 768) (mon : BitVec 128) (o : OpenBurst) (rest : List OpenBurst),
    let u : State := { s with dl := { s.dl with reads := rest } }
    let ls := burstLanes data.toNat
    let judged := s.dl.reads = o :: rest ∧ o.kind = .dram ∧ served s = true ∧ patternOn o = false
    (s.dl.reads = [] → exec (.readBurstCheck data mon) s = .next s) ∧
    (∀ l f, s.dl.reads = o :: rest → o.kind = .aperture l f →
      exec (.readBurstCheck data mon) s = .next (settleEngines u)) ∧
    (s.dl.reads = o :: rest → o.kind = .mrr →
      exec (.readBurstCheck data mon) s = .next (settleEngines (deliver o (rawLine u ls) u))) ∧
    (s.dl.reads = o :: rest → o.kind = .dram → served s = true → patternOn o = true →
      exec (.readBurstCheck data mon) s = .next (settleEngines (readPattern o ls u))) ∧
    (judged → rankProtected s o.rank = false →
      exec (.readBurstCheck data mon) s = .next (settleEngines (readErased o ls u))) ∧
    (∀ k, judged → rankProtected s o.rank = true → o.swept = some k →
      exec (.readBurstCheck data mon) s = .next (settleEngines (readTail k o ls u))) ∧
    (∀ w, judged → rankProtected s o.rank = true → o.swept = none → s.cb.sweep = some w → w.rank = o.rank →
      exec (.readBurstCheck data mon) s = .next (settleEngines (readSwept w o ls mon.toNat u))) ∧
    (judged → rankProtected s o.rank = true → o.swept = none → (∀ w, s.cb.sweep = some w → w.rank ≠ o.rank) →
      (flag s Fld.LG_STATUS_CHECK_IN_FORCE = true →
        exec (.readBurstCheck data mon) s = .next (settleEngines (readProtected o ls u))) ∧
      (flag s Fld.LG_STATUS_CHECK_IN_FORCE = false →
        exec (.readBurstCheck data mon) s = .next (settleEngines (deliver o (rawLine u ls) u)))) ∧
    (∀ w, hctPasses s (ofHostLanes (sweptLine s ls w.lane)) = true → w.kind8 = false → w.ending = false →
      ∃ v, (readSwept w o ls mon.toNat s).cb.sweep = some v ∧ v.beats = w.beats + 16 ∧ v.rank = w.rank ∧ v.lane = w.lane) ∧
    (∀ w, hctPasses s (ofHostLanes (sweptLine s ls w.lane)) = false → s.cb.sweep = some w →
      let t := readSwept w o ls mon.toNat s
      t.cb.sweep = some { w with kind8 := true } ∧
      t.fc.events = addEvents s.fc.events 17 1 (BitVec.ofNat 64 (synRead 8 7 o (xorAll ls))))

/-- A lane replaced by the XOR of the other five is the lane that was written. Where the six lanes of a burst XOR to 0
(the parity lane is the XOR of the data lanes), rebuilding any one lane from a burst in which that lane reads any
value gives back the host lanes of the burst as written, under whatever map is in force. -/
def Obligations.ParityRebuildsOneLane : Prop :=
  ∀ (s : State) (ls : List Nat) (k v : Nat), ls.length = 6 → k < 6 → xorAll ls = 0 →
    rebuiltLine s (ls.set k v) k = rawLine s ls

/-- In a PROTECTED rank a clean burst is delivered raw, one bad lane is located and corrected, and what cannot be
located is delivered raw with FS 17. Parity 0 and the code passing or no table loaded: the raw line and no event.
Parity 0 and the code failing: FS 17 kind 7. Parity wrong with no table loaded: kind 4. Parity wrong, the raw line
passing and no trial passing: FS 16 kind 1 for the parity lane. Exactly one trial passing and the raw line failing:
its line, with FS 16 kind 0 for its lane. No trial passing and the raw line failing: kind 2. In each case the
delivered line is the one named. -/
def Obligations.ProtectedReadsFollowTableLG1 : Prop :=
  ∀ (s : State) (o : OpenBurst) (ls : List Nat),
    let raw := rawLine s ls
    let ok := hctPasses s (ofHostLanes raw)
    let loaded := flag s Fld.LG_STATUS_HCT_LOADED
    (xorAll ls = 0 → (loaded = false ∨ ok = true) → readProtected o ls s = deliver o raw s) ∧
    (xorAll ls = 0 → loaded = true → ok = false → readProtected o ls s = deliver o raw (failRead 7 o 0 s)) ∧
    (xorAll ls ≠ 0 → loaded = false → readProtected o ls s = deliver o raw (failRead 4 o (xorAll ls) s)) ∧
    (xorAll ls ≠ 0 → loaded = true → trials s ls = [] → ok = true →
      readProtected o ls s = deliver o raw (correctRead 1 (parLane s) o (xorAll ls) s)) ∧
    (∀ d line, xorAll ls ≠ 0 → loaded = true → trials s ls = [(d, line)] → ok = false →
      readProtected o ls s = deliver o line (correctRead 0 d o (xorAll ls) s)) ∧
    (xorAll ls ≠ 0 → loaded = true → trials s ls = [] → ok = false →
      readProtected o ls s = deliver o raw (failRead 2 o (xorAll ls) s)) ∧
    (∀ t, xorAll ls ≠ 0 → loaded = true → t ∈ trials s ls → ok = true →
      readProtected o ls s = deliver o raw (failRead 3 o (xorAll ls) s)) ∧
    (∀ l, (deliver o l s).dl.hostRead = some (BitVec.ofNat 640 (ofHostLanes l)) ∧ Frame [.dl] [] s (deliver o l s))

/-- The host-code table is written through its window, verified, and comes into force or leaves it at a boundary. A
window write stores the word and moves the address on unless a table is loaded or pending; a window read moves it on.
A load starts verification unless one is pending or the HCT RAM is out of use (the latter the model's choice, log entry
64); an unload is due at the next boundary. Verification of a sound table makes a load due with its strength and CRC, of
an unsound one rejects it with its code, and the table in force stays in force (the model's choice, log entry 64). At a
boundary what is due comes into force. With PD_CORE off the register commands have no effect. -/
def Obligations.HostCodeTableCommands : Prop :=
  ∀ (s : State) (rows : Byte) (value : Word),
    let h := windowTable s
    let noted := setB Fld.LG_HCTC_STRONG (hctStrong h) (setB Fld.LG_HCTC_REJECT (hctReject h ≠ 0)
      (setF Fld.LG_HCTC_REJECT_CODE (hctReject h) s))
    (coreOn s = true → flag s Fld.LG_HCTC_LOADED = false → flag s Fld.LG_HCTC_PENDING = false →
      exec (.hctWindowWrite value) s = .next (setF Fld.LG_HCTA_ADDR ((getF s Fld.LG_HCTA_ADDR + 1) % 2564)
        { s with lg := { s.lg with hct := smSet (zeroDefault 32) s.lg.hct (getF s Fld.LG_HCTA_ADDR) value } })) ∧
    ((coreOn s = false ∨ flag s Fld.LG_HCTC_LOADED = true ∨ flag s Fld.LG_HCTC_PENDING = true) →
      exec (.hctWindowWrite value) s = .next s) ∧
    (coreOn s = true → exec .hctWindowRead s =
      .next (setF Fld.LG_HCTA_ADDR ((getF s Fld.LG_HCTA_ADDR + 1) % 2564) s)) ∧
    (coreOn s = false → exec .hctWindowRead s = .next s ∧ exec (.hctLoad rows) s = .next s ∧
      exec .hctUnload s = .next s) ∧
    (coreOn s = true → flag s Fld.LG_HCTC_PENDING = false → flag s Fld.MT_STATUS_HCT_OUT = false →
      exec (.hctLoad rows) s = .next (setF Fld.LG_HCTC_PENDING 1 (setF Fld.LG_HCTC_ROWS rows.toNat
        { s with lg := { s.lg with pend := .verifying, hctRows := rows.toNat } }))) ∧
    ((flag s Fld.LG_HCTC_PENDING = true ∨ flag s Fld.MT_STATUS_HCT_OUT = true) → exec (.hctLoad rows) s = .next s) ∧
    (coreOn s = true → exec .hctUnload s = .next { s with lg := { s.lg with unloadDue := true } }) ∧
    (s.lg.pend ≠ .verifying → exec .hctVerifyDone s = .next s) ∧
    (s.lg.pend = .verifying → hctReject h = 0 → exec .hctVerifyDone s =
      .next (setReg Fld.LG_HCTCRC_CRC.addr (hctCrc h)
        (completeTokens tokHct "ok" { noted with lg := { s.lg with pend := .load (hctStrong h) } }))) ∧
    (s.lg.pend = .verifying → hctReject h ≠ 0 → exec .hctVerifyDone s =
      .next (setF Fld.LG_HCTC_PENDING 0 (completeTokens tokHct "err E60 hardware"
        { noted with lg := { s.lg with pend := .none } }))) ∧
    (∀ strong, s.lg.pend = .load strong → s.lg.unloadDue = false → s.cb.sweep = none → exec .hctInForce s =
      .next (let t := setF Fld.LG_HCTC_LOADED 1 (setF Fld.LG_HCTC_PENDING 0 (setF Fld.LG_STATUS_HCT_LOADED 1
          (setB Fld.LG_STATUS_HCT_STRONG strong (setF Fld.LD_OPSTAT_NO_HCT 0
            { s with lg := { s.lg with pend := .none, table := h } }))))
        setB Fld.LG_STATUS_CHECK_IN_FORCE (flag t Fld.LG_CTRL_CHECK_EN) t)) ∧
    (s.lg.pend = .none → s.lg.unloadDue = true → s.cb.sweep = none → exec .hctInForce s =
      .next (let t := setF Fld.LG_HCTC_LOADED 0 (setF Fld.LG_STATUS_HCT_LOADED 0 (setF Fld.LG_STATUS_HCT_STRONG 0
          (setF Fld.LD_OPSTAT_NO_HCT 1 { s with lg := { s.lg with unloadDue := false, table := .empty } })))
        setB Fld.LG_STATUS_CHECK_IN_FORCE (flag t Fld.LG_CTRL_CHECK_EN) t))

/-- The erasure policy, erasures, second failures, readmissions and the failure window act as they fall due. A
decision follows a promotion of FS 16, once: it erases the top lane of the top PROTECTED rank where its share reaches
ERASE_SHARE, and is traced where none does; with AUTO_ERASE 0, or no promotion waiting, nothing is erased. At a rank's boundary the erasure that waits takes effect, then a second failure of an
erased rank, then an accepted readmission; a rank for which none waits is left alone. The window clears LG_RFAIL of
every rank unless SECOND_WIN is 0. What an erasure does: the rank reads ERASED with its lane, LG_RFAIL of the rank 0,
FS 18 has one event more, and for the parity lane PL_FAULT is 1 and FS 23 has one more. -/
def Obligations.RankStatesChangeAtBoundaries : Prop :=
  ∀ (s : State) (rank : Rank),
    ((s.lg.decide = false ∨ s.sw.halted = true ∨ flag s Fld.LG_CTRL_AUTO_ERASE = false) →
      exec .eraseDecision s = .next { s with lg := { s.lg with decide := false } }) ∧
    (∀ k, k < 24 → s.lg.decide = true → s.sw.halted = false → flag s Fld.LG_CTRL_AUTO_ERASE = true →
      rankProtected s (k / 6) = true → (smGet (zeroDefault 32) s.lg.inc k).toNat ≠ 0 →
      (∀ j, j < 24 → j ≠ k → smGet (zeroDefault 32) s.lg.inc j = 0) → getF s Fld.LG_POLICY_ERASE_SHARE ≤ 100 →
      exec .eraseDecision s =
        .next (eraseLane (k / 6) (k % 6) 0 { s with lg := { s.lg with decide := false, inc := [] } })) ∧
    (∀ f, s.lg.fails.find? (fun f => f.rank = rank.val && !f.second) = some f →
      exec (.erasureTakesEffect rank) s = .next (completeTokens (waitErase rank.val) "ok" (checkSweep (guardStatus
        (degrade f.lane (eraseNow rank.val f.lane f.cause
          { s with lg := { s.lg with fails := s.lg.fails.erase f } })))))) ∧
    ((∀ f ∈ s.lg.fails, f.rank = rank.val → f.second = true) → exec (.erasureTakesEffect rank) s = .next s) ∧
    (∀ f, s.lg.fails.find? (fun f => f.rank = rank.val && f.second) = some f → rankErased s rank.val = true →
      exec (.secondFailureTakesEffect rank) s = .next (completeTokens (waitSecond rank.val) "ok" (guardStatus
        (secondNow rank.val f.cause { s with lg := { s.lg with fails := s.lg.fails.erase f } })))) ∧
    ((∀ f ∈ s.lg.fails, f.rank = rank.val → f.second = false) →
      exec (.secondFailureTakesEffect rank) s = .next s) ∧
    (rank.val ∉ s.lg.readmit → exec (.readmitTakesEffect rank) s = .next s) ∧
    (rank.val ∈ s.lg.readmit →
      ∃ t, exec (.readmitTakesEffect rank) s = .next t ∧ rank.val ∉ t.lg.readmit ∧
        rankProtected t rank.val = true ∧ ∀ f ∈ t.lg.fails, f.rank ≠ rank.val) ∧
    (flag s Fld.LG_POLICY_SECOND_WIN = true → ∃ t, exec .rfailWindowClear s = .next t ∧
      (∀ r, r < 4 → getF t (Fld.LG_RFAIL_COUNT.at r) = 0) ∧
      Frame [] [Fld.LG_RFAIL_COUNT.addr, Fld.LG_RFAIL_COUNT.addr + 4, Fld.LG_RFAIL_COUNT.addr + 8,
        Fld.LG_RFAIL_COUNT.addr + 12] s t) ∧
    (flag s Fld.LG_POLICY_SECOND_WIN = false → exec .rfailWindowClear s = .next s) ∧
    (∀ d cause, d < 6 →
      let t := eraseNow rank.val d cause s
      rankErased t rank.val = true ∧ erasedLane t rank.val = d ∧ getF t (Fld.LG_RFAIL_COUNT.at rank.val) = 0 ∧
      (d = parLane s → rankPl t rank.val = true ∧
        ∃ syn, t.fc.events = addEvents (addEvents s.fc.events 18 1 syn) 23 1 syn) ∧
      (d ≠ parLane s → rankPl t rank.val = rankPl s rank.val ∧ ∃ syn, t.fc.events = addEvents s.fc.events 18 1 syn) ∧
      Frame [.fc] [(Fld.LG_RANK_ERASED.at rank.val).addr, (Fld.LG_RFAIL_COUNT.at rank.val).addr] s t)

/-- Evaluations start on every free lane; a complete trial is accepted and makes codes pending, or is rejected with FS 11. A
period starts an evaluation on each free host lane and on the C/A receivers where allowed, counting one that still
runs as abandoned, under the limits as they stand then. A lane that runs none, or whose samples are not complete, is left
alone; a trial that passes the tests makes its codes pending, counts as an evaluation and clears the lane's rejections; one
that fails is counted, captured and raised as FS 11. A C/A trial does the same for the receive Vref. A stale lane is
marked and traced. -/
def Obligations.HostSideCalibration : Prop :=
  ∀ (s : State) (lane : HLane) (x : Scan) (n : Fin 6),
    let r := trialResult (hostTrialOf x)
    let step := knownScope s (scopeHost lane.val) && !x.acq
    let c := hostCodes s lane.val r
    let why := acceptReason x.lim ⟨true, step, step⟩ (hostTrialOf x) r (codesInRange c)
    let v : Int := getF s Fld.CB_CAV_VREF + r.vmove
    let caWhy := acceptReason x.lim ⟨true, false, knownScope s scopeCa⟩ (hostTrialOf x) r (0 ≤ v && v ≤ 255)
    (∃ t, exec .hostEvalStart s = .next t ∧
      (∀ k, k < 6 → hostRuns t k = (hostRuns s k || hostLaneFree s k)) ∧
      (∀ k, k < 6 → hostLaneFree s k = true → ∃ y, hostScan t k = some y ∧ y.lim = limNow s ∧ y.rep = repNow s) ∧
      Frame [.cb] [Fld.CB_HABN_COUNT.addr] s t) ∧
    (hostScan s lane.val = none → exec (.hostTrialDone lane) s = .next s) ∧
    (hostScan s lane.val = some x → hostDone x = false → exec (.hostTrialDone lane) s = .next s) ∧
    (hostScan s lane.val = some x → hostDone x = true → why ≠ 0 →
      exec (.hostTrialDone lane) s = .next (setBitF Fld.CB_HSTAT_LAST_ACC lane.val false
        (countReject lane.val (rejectTrial 11 0 why 0 0 lane.val r (endHost lane.val s))))) ∧
    (hostScan s lane.val = some x → hostDone x = true → why = 0 →
      exec (.hostTrialDone lane) s = .next (acceptHost lane.val c r (endHost lane.val s))) ∧
    (let t := acceptHost lane.val c r s
     scopeHost lane.val ∈ t.cb.fresh ∧ smGet (zeroDefault 8) t.cb.rejects lane.val = 0 ∧
      bitF t Fld.CB_HSTAT_STALE lane.val = false ∧ bitF t Fld.CB_HSTAT_ACQ lane.val = false ∧
      bitF t Fld.CB_HSTAT_LAST_ACC lane.val = true ∧ getF t (hostVref lane.val) = getF s (hostVref lane.val) ∧
      t.dl.evals = sat 255 (s.dl.evals + 1)) ∧
    (hostScan s 5 = none → exec .caTrialDone s = .next s) ∧
    (hostScan s 5 = some x → hostDone x = false → exec .caTrialDone s = .next s) ∧
    (hostScan s 5 = some x → x.bits.length = 19 → hostDone x = true → ∃ t, exec .caTrialDone s = .next t ∧
      flag t Fld.CB_HSTAT_CA_ACC = decide (caWhy = 0) ∧ flag t Fld.CB_CAQ_VALID = true ∧
      getF t Fld.CB_CAV_VREF = getF s Fld.CB_CAV_VREF ∧
      (caWhy = 0 → scopeCa ∈ t.cb.fresh ∧ flag t Fld.CB_HSTAT_CA_STALE = false ∧ t.fc = (endHost 5 s).fc ∧
        t.dl.evals = sat 255 (s.dl.evals + 1)) ∧
      (caWhy ≠ 0 → t.cb.pend = s.cb.pend ∧ flag t Fld.CB_RLOG_VALID = true ∧
        ∃ syn, t.fc.events = addEvents (endHost 5 s).fc.events 11 1 syn)) ∧
    (hostLaneFree s n.val = true → flag s Fld.CB_HPOL_STALE_AFTER = true → n.val ≠ 5 → exec (.staleTimeout n) s =
      .next (trace 0x0701 (2 + n.val * 4) (setBitF Fld.CB_HSTAT_STALE n.val true s))) ∧
    (hostLaneFree s n.val = true → flag s Fld.CB_HPOL_STALE_AFTER = true → n.val = 5 → exec (.staleTimeout n) s =
      .next (trace 0x0701 0x22 (setF Fld.CB_HSTAT_CA_STALE 1 s))) ∧
    ((hostLaneFree s n.val = false ∨ flag s Fld.CB_HPOL_STALE_AFTER = false) → exec (.staleTimeout n) s = .next s)

/-- Sweeps and gap trials start, pass to their second run, end accepted or rejected, or are abandoned. A sweep starts
on the next lane-rank of the round that may be swept while none runs, with the limits as they stand then. Its first passing
trial is kept and the second begins; a trial that fails ends it with FS 21, one that does not agree with FS 22, and an
agreeing one makes the mean codes pending and counts the sweep. A trial that is not complete, or that a kind-8 event or a
pause has ended, gives nothing to the engine. A sweep over its limit is abandoned and counted, and ends at the next
boundary. Each populated rank without a trial starts a write trial of the lanes without CAL_HOLD; a complete trial judges
its lanes, all of them rejected if the host hit its scratch row, and ends; one that is not complete goes on; one over its
limit is abandoned, and NOPROG set where no probe or grant reached the rank. -/
def Obligations.DramSideCalibration : Prop :=
  ∀ (s : State) (rank : Rank) (w : Sweep) (g : GapTrial) (k : Nat),
    let known := knownScope s (scopeRead w.rank w.lane)
    let trial := trialOf .double (edgeThr w.rep) w.bits
    let x := trialResult trial
    let why := acceptReason w.lim ⟨true, known, known⟩ trial x (codesInRange (readCodes s w.rank w.lane x))
    let runs := s.cb.sweep = some w ∧ w.kind8 = false ∧ w.ending = false ∧ sweepDone w = true
    (dramEngines s = true → flag s Fld.CB_CTRL_SWEEP_EN = true → s.cb.sweep = none → nextSweep s = some k →
      ∃ t, exec .sweepStart s = .next t ∧
        t.cb.sweep = some ⟨k / 6, k % 6, limNow s, repNow s, noScans 8, 0, none, false, false⟩ ∧
        flag t Fld.CB_DSTAT_SWEEPING = true ∧ Frame [.cb] [Fld.CB_DSTAT_SWEEPING.addr] s t) ∧
    ((dramEngines s = false ∨ flag s Fld.CB_CTRL_SWEEP_EN = false ∨ s.cb.sweep ≠ none ∨ nextSweep s = none) →
      exec .sweepStart s = .next s) ∧
    (runs → why = 0 → w.first = none → exec .sweepTrialDone s = .next (sweepSecond w x s)) ∧
    (∃ v, (sweepSecond w x s).cb.sweep = some v ∧ v.first = some x ∧ v.beats = 0 ∧ v.rank = w.rank ∧ v.lane = w.lane ∧
      Frame [.cb] [Fld.CB_DSTAT_TRIAL_B.addr] s (sweepSecond w x s)) ∧
    (runs → why ≠ 0 → exec .sweepTrialDone s = .next (rejectSweep w 21 why x s)) ∧
    (∀ a, runs → why = 0 → w.first = some a → agree w.rep true a x = false →
      exec .sweepTrialDone s = .next (rejectSweep w 22 5 a s)) ∧
    (∀ a, runs → why = 0 → w.first = some a → agree w.rep true a x = true →
      codesInRange (readCodes s w.rank w.lane (meanResult a x)) = true →
      exec .sweepTrialDone s = .next (acceptSweep w (meanResult a x) s)) ∧
    ((s.cb.sweep = none ∨ (s.cb.sweep = some w ∧ (w.kind8 = true ∨ w.ending = true ∨ sweepDone w = false))) →
      exec .sweepTrialDone s = .next s) ∧
    (s.cb.sweep = some w → w.kind8 = false → w.ending = false → exec .sweepAbandon s =
      .next (incF Fld.CB_DABN_COUNT { s with cb := { s.cb with sweep := some { w with ending := true } } })) ∧
    ((s.cb.sweep = none ∨ (s.cb.sweep = some w ∧ (w.kind8 = true ∨ w.ending = true))) → exec .sweepAbandon s = .next s) ∧
    (s.cb.sweep = some w → w.ending = true → (sweepBoundary w.rank s).cb.sweep = none) ∧
    (dramEngines s = true → flag s Fld.CB_CTRL_GAP_EN = true → populated s rank.val = true →
      (∀ h ∈ s.cb.gaps, h.rank ≠ rank.val) →
      (gapLanes s rank.val true = 0 → exec (.gapTrialStart rank) s = .next s) ∧
      (gapLanes s rank.val true ≠ 0 → ∃ t h, exec (.gapTrialStart rank) s = .next t ∧ t.cb.gaps = s.cb.gaps ++ [h] ∧
        h.rank = rank.val ∧ h.write = true ∧ h.lanes = gapLanes s rank.val true ∧ h.lim = limNow s ∧ h.rep = repNow s ∧
        Frame [.cb] [Fld.CB_DSTAT_GAPRUN.addr] s t)) ∧
    ((∃ h ∈ s.cb.gaps, h.rank = rank.val) → exec (.gapTrialStart rank) s = .next s) ∧
    (s.cb.gaps.find? (fun h => h.rank = rank.val) = none →
      exec (.gapTrialDone rank) s = .next s ∧ exec (.gapTrialAbandon rank) s = .next s) ∧
    (s.cb.gaps.find? (fun h => h.rank = rank.val) = some g →
      (gapComplete g = false → exec (.gapTrialDone rank) s = .next s) ∧
      (gapComplete g = true → g.hit = true → exec (.gapTrialDone rank) s = .next (gapEnd g ((bitsOf 6 g.lanes).foldl
        (fun t d => rejectTrial 21 (if g.write then 3 else 2) 7 1 rank.val d (trialResult (gapTrialOf g g.runA d)) t) s))) ∧
      (gapComplete g = true → g.hit = false → g.write = true → exec (.gapTrialDone rank) s =
        .next (gapEnd g ((bitsOf 6 g.lanes).foldl (fun t d => gapWriteLane g d t) s))) ∧
      (gapComplete g = true → g.hit = false → g.write = false → exec (.gapTrialDone rank) s =
        .next (gapEnd g ((bitsOf 6 g.lanes).foldl (fun t d => gapReadLane g d t) s))) ∧
      exec (.gapTrialAbandon rank) s = .next (gapEnd g (if g.reached then incF Fld.CB_DABN_COUNT s
        else setBitF Fld.CB_DSTAT_NOPROG rank.val true (incF Fld.CB_DABN_COUNT s))))

/-- ZQ measurements and duty steps move codes by at most one step, pending; a value pending for a second is marked. A
measurement moves the impedance codes of the lanes without CAL_HOLD of both sides one step toward it, as pending values; a
saturated side is rejected instead (FS 11 for the host side, FS 21 for the DRAM side, reason 8), and the fused default
codes wait in place of a step (that they come at a boundary is the model's choice, log entry 65). A duty step makes the code
one up or down pending, or is rejected at the end of the range; a lane with CAL_HOLD makes none. With the engine off, or
outside RUN, nothing happens. A starved value sets STARVED with its trace entry, and none does without a pending value. -/
def Obligations.ImpedanceDutyAndStarvation : Prop :=
  ∀ (s : State) (hu hd du dd : BitVec 5) (hs ds up dram : Bool) (lane : DLane),
    let f := if dram then Fld.DL_DRV_DCC.lane lane.val else Fld.HL_DRV_DCC.lane lane.val
    let on := coreOn s = true ∧ inRun s = true
    (on → flag s Fld.CB_CTRL_ZQ_EN = true →
      exec (.zqMeasure hu hd du dd true true) s = .next (zqSaturated true (zqSaturated false s)) ∧
      exec (.zqMeasure hu hd du dd false false) s =
        .next (zqSide (zqCodes s true du.toNat dd.toNat) (zqSide (zqCodes s false hu.toNat hd.toNat) s))) ∧
    ((coreOn s = false ∨ inRun s = false ∨ flag s Fld.CB_CTRL_ZQ_EN = false) →
      exec (.zqMeasure hu hd du dd hs ds) s = .next s) ∧
    (∀ d : Bool, (zqSaturated d s).fc.events = addEvents s.fc.events (if d then 21 else 11) 1
        (BitVec.ofNat 64 (8 * 2 ^ 56 + b2n d * 2 ^ 48)) ∧
      ∀ a, a ≠ Fld.CB_RLOG_VALID.addr → reg (zqSaturated d s) a = reg s a) ∧
    (∀ fs, Frame [.cb] [] s (zqSide fs s)) ∧
    (calHeld s dram lane.val = true → ∀ e ∈ zqCodes s dram hu.toNat hd.toNat, e.1.addr ≠ f.addr) ∧
    (∀ now want : Nat, (stepToward now want - (now : Int)).natAbs ≤ 1 ∧ stepToward want want = (want : Int) ∧
      (now ≠ want → (stepToward now want - want).natAbs < ((now : Int) - want).natAbs)) ∧
    (on → flag s Fld.CB_CTRL_DCC_EN = true → lane.val ∈ freeLanes s dram →
      (up = true → getS s f < 31 → exec (.dccStep dram lane up) s = .next (pendF f (getS s f + 1) s)) ∧
      (up = false → -32 < getS s f → exec (.dccStep dram lane up) s = .next (pendF f (getS s f - 1) s)) ∧
      (up = true ∧ getS s f = 31 ∨ up = false ∧ getS s f = -32 → exec (.dccStep dram lane up) s = .next (rejectWith (if dram then 21 else 11) 0 7
        (b2n dram) 0 lane.val 0 0 0 0 0 (incF (Fld.CB_CNT_REJ.bank (cntBank (b2n dram) 0 lane.val)) s)))) ∧
    ((coreOn s = false ∨ inRun s = false ∨ flag s Fld.CB_CTRL_DCC_EN = false ∨ lane.val ∉ freeLanes s dram) →
      exec (.dccStep dram lane up) s = .next s) ∧
    (coreOn s = true → s.cb.pend ≠ [] →
      exec .pendingStarved s = .next (trace 0x0701 1 (setF Fld.CB_STATUS_STARVED 1 s))) ∧
    (s.cb.pend = [] → s.committed = [] → exec .pendingStarved s = .next s)

/-- A pending code does not change the code in force until a boundary of its scope, which brings it in and keeps the
others waiting. Making a code pending changes no register. At a boundary every register home outside the scope of the
boundary reads as before, no pending value of the scope remains, and every pending value outside the scope still
waits. -/
def Obligations.PendingCodesWaitForTheirBoundary : Prop :=
  ∀ (s : State) (f : Field) (v : Int) (p : Nat → Bool),
    Frame [.cb] [] s (pendF f v s) ∧
    (∀ a, p a = false → reg (applyPend p s) a = reg s a) ∧
    (∀ e ∈ (applyPend p s).cb.pend, p e.1 = false) ∧
    (∀ e ∈ s.cb.pend, p e.1 = false → e ∈ (applyPend p s).cb.pend)

/-- An eye is measured by counting disagreements and stepping outward to the first offset outside it. A comparison of n
bits counts n bits, and a disagreement for every bit that differs; a rate is valid from 2^(EDGE_THR + 2) bits, and an offset
is outside at a rate of 2^-EDGE_THR. The search of a side finds the first offset outside, all before it being valid and
inside; it has no edge only where every offset of the range is inside; else it dwells where the rate is not yet valid. A
burst adds its bits to one dwell while the bit is not done and to none when it is, and never steps beyond the range, so that
the edges lie within −63 to +63 taps and −128 to +127 steps. The move is (L + R) / 2 toward zero and W is R − L. Which side
is measured first is the model's choice (log entry 62). -/
def Obligations.EyeEdgesAreFoundBySearch : Prop :=
  ∀ (thr max k n ref sample : Nat) (l : List Tally) (t x : Tally) (m : Sampling) (s : BitScan) (e : BitEye) (a b : Int),
    let inside := fun (t : Tally) => tallyValid thr t = true ∧ tallyOutside thr t = false
    let total := fun (s : BitScan) => ((s.l ++ s.r ++ s.b ++ s.t).map tallyBits).sum
    let fits := fun (s : BitScan) =>
      s.l.length ≤ 64 ∧ s.r.length ≤ 63 ∧ s.b.length ≤ bottomMax m ∧ s.t.length ≤ 127
    tallyBits (tallyOf n ref sample) = n ∧
    tallyBad (tallyOf n ref sample) = ((List.range n).filter (fun i => ref.testBit i != sample.testBit i)).length ∧
    (tallyValid thr t = true ↔ 2 ^ (thr + 2) ≤ t.n1 + t.n0) ∧
    (tallyOutside thr t = true ↔ t.n1 + t.n0 ≤ (t.b1 + t.b0) * 2 ^ thr) ∧
    (search thr max l 0 = .found k →
      (∃ y, l[k]? = some y ∧ tallyValid thr y = true ∧ tallyOutside thr y = true) ∧ ∀ y ∈ l.take k, inside y) ∧
    (search thr max l 0 = .missing → max ≤ l.length ∧ ∀ y ∈ l, inside y) ∧
    (search thr max l 0 = .dwell k → (∀ y ∈ l.take k, inside y) ∧
      ((l[k]? = none ∧ k = l.length ∧ k < max) ∨ ∃ y, l[k]? = some y ∧ tallyValid thr y = false)) ∧
    (bitDone m thr s = true → feedOne m thr x s = s) ∧
    (bitDone m thr s = false → total (feedOne m thr x s) = total s + tallyBits x) ∧
    (fits s → fits (feedOne m thr x s)) ∧
    (fits s → m ≠ .acquire →
      let e := bitEye m thr s
      (e.l = some a → -63 ≤ a ∧ a ≤ 0) ∧ (e.r = some a → 1 ≤ a ∧ a ≤ 63) ∧
      (e.t = some a → 1 ≤ a ∧ a ≤ 127) ∧ (e.b = some a → -128 ≤ a ∧ a ≤ 0)) ∧
    (e.l = some a → e.r = some b → eyeMove e = (a + b).tdiv 2 ∧ eyeW e = (b - a).toNat)

/-- A trial is accepted only if every eye is found, wide and high enough, its moves within their steps and its codes
in range. Where the reason is 0 every edge was found, every width is at least MIN_WIDTH, and, with the tests that
apply, every height at least MIN_HEIGHT, every move at most MAX_STEP and the Vref move at most MAX_VSTEP, and the
codes are in range; and where all of that holds the reason is 0. Missing edges are reason 7 whatever else fails, a
small width 2 before the rest. -/
def Obligations.AcceptanceTestsInOrder : Prop :=
  ∀ (lim : Word) (ts : TestSet) (t : Trial) (x : TrialResult) (inRange : Bool),
    let found := ∀ e ∈ t.eyes, (if ts.volt then eyeFound e else eyeTimed e) = true
    let wide := ∀ w ∈ x.ws, minWidth lim ≤ w
    let high := ts.volt = true → ∀ h ∈ x.hs, minHeight lim ≤ h
    let near := ts.step = true → ∀ m ∈ x.moves, m.natAbs ≤ maxStep lim
    let vnear := ts.vstep = true → x.vmove.natAbs ≤ maxVstep lim
    (acceptReason lim ts t x inRange = 0 ↔ found ∧ wide ∧ high ∧ near ∧ vnear ∧ inRange = true) ∧
    (¬ found → acceptReason lim ts t x inRange = 7) ∧ (found → ¬ wide → acceptReason lim ts t x inRange = 2) ∧
    (found → wide → ¬ high → acceptReason lim ts t x inRange = 3) ∧
    (found → wide → high → ¬ near → acceptReason lim ts t x inRange = 1) ∧
    (found → wide → high → near → ¬ vnear → acceptReason lim ts t x inRange = 4)

/-- A stored word reads back; one flipped bit is corrected and two are uncorrectable. For every 64-bit value: its
stored form has a clean syndrome and gives the value back; with any one of its 72 bits flipped it is judged corrected
to the value; with any two different bits flipped it is judged uncorrectable. -/
def Obligations.LedgerWordsAreProtected : Prop :=
  ∀ (d : Dword) (i j : Nat), i < 72 → j < 72 → i ≠ j →
    (judgeStored (secdedEncode d) 0).1 = ⟨d, false, false⟩ ∧
    (judgeStored (secdedEncode d ^^^ BitVec.ofNat 72 (2 ^ i)) 0).1 = ⟨d, false, true⟩ ∧
    (judgeStored (secdedEncode d ^^^ BitVec.ofNat 72 (2 ^ i) ^^^ BitVec.ofNat 72 (2 ^ j)) 0).1.ue = true

/-- A ledger word reads as last written, and a write leaves every other word and the bitmaps alone. After a word is
written its stored form is the code word of its data, every other ledger word is as before, and so are the dirty
bitmaps, the tags and every register; its waiting write-back is dropped and no other is. -/
def Obligations.LedgerLinesReadBack : Prop :=
  ∀ (s : State) (l w k : Nat) (d : Dword),
    let t := putWord l w d s
    ledgerStored t (wordKey l w) = secdedEncode d ∧ (k ≠ wordKey l w → ledgerStored t k = ledgerStored s k) ∧
    t.ld.maps = s.ld.maps ∧ t.ld.tags = s.ld.tags ∧ t.ld.ops = s.ld.ops ∧
    (k ∈ t.ld.scrub ↔ k ∈ s.ld.scrub ∧ k ≠ wordKey l w) ∧ Frame [.ld] [] s t

/-- Port E: the window reads and writes one word or is refused; write-backs, parking, waking and scans. A window
access while BUSY has no effect; before READY, or a write to an op slot, a replica line or during a save or restore,
it completes with REFUSED; while port E serves requester 3 alone it stays BUSY; else a read puts the word and its result into the registers and a write lands, marked and
queued. A corrected word that waits is written back. A replica bank parks with its tag where all of R266 holds; a
parked bank that is reached wakes, and is scanned; a scan that runs ends, its corrected words written back, and a bank
whose words are all clean changes nothing. -/
def Obligations.LedgerPortCommands : Prop :=
  ∀ (s : State) (held collide : Bool) (k : Fin 7) (damage : List (Nat × BitVec 72)) (key : Nat) (rest : List Nat),
    let l := getF s Fld.LD_EA_LINE
    ((coreOn s = false ∨ flag s Fld.LD_ECMD_BUSY = true) → exec (.ldWindowRead held) s = .next s ∧
      exec (.ldWindowWrite held collide) s = .next s) ∧
    (coreOn s = true → flag s Fld.LD_ECMD_BUSY = false → portERefused s false l = true →
      exec (.ldWindowRead held) s = .next (windowStatus false false false true false s)) ∧
    (coreOn s = true → flag s Fld.LD_ECMD_BUSY = false → portERefused s true l = true →
      exec (.ldWindowWrite held collide) s = .next (windowStatus false false false true false s)) ∧
    (let r := readWord 1 2 l (getF s Fld.LD_EA_WORD) (wakeFor l (countHeld held s))
     coreOn s = true → flag s Fld.LD_ECMD_BUSY = false → flag s Fld.LD_STATUS_READY = true → portEBusy s = false →
      exec (.ldWindowRead held) s = .next (windowStatus false r.1.ue r.1.corr false held
        (setReg Fld.LD_ED0_DATA_LO.addr (BitVec.ofNat 32 r.1.data.toNat)
          (setReg Fld.LD_ED1_DATA_HI.addr (BitVec.ofNat 32 (r.1.data.toNat >>> 32)) r.2)))) ∧
    (coreOn s = true → flag s Fld.LD_ECMD_BUSY = false → portEBusy s = true →
      (portERefused s false l = false → exec (.ldWindowRead held) s = .next (setF Fld.LD_ECMD_BUSY 1 s)) ∧
      (portERefused s true l = false → exec (.ldWindowWrite held collide) s = .next (setF Fld.LD_ECMD_BUSY 1 s))) ∧
    (coreOn s = true → flag s Fld.LD_ECMD_BUSY = false → portERefused s true l = false → portEBusy s = false →
      exec (.ldWindowWrite held false) s = .next (windowStatus false false false false held
        (enqueueOwn l (markDirty l (putWord l (getF s Fld.LD_EA_WORD)
          (BitVec.ofNat 64 (getF s Fld.LD_ED0_DATA_LO + getF s Fld.LD_ED1_DATA_HI <<< 32))
          (wakeFor l (countHeld held s))))))) ∧
    (s.ld.scrub = [] → exec .ledgerScrubWriteBack s = .next s) ∧
    (s.ld.scrub = key :: rest → flag s Fld.LD_STATUS_READY = true → portEBusy s = false →
      (judgeStored (ledgerStored s key) 0).1.ue = false → exec .ledgerScrubWriteBack s =
        .next (setStored key (secdedEncode (judgeStored (ledgerStored s key) 0).1.data)
          { s with ld := { s.ld with scrub := rest } })) ∧
    (flag s Fld.LD_STATUS_READY = true → (served s = true ∨ inService s = true) →
      flag s Fld.LD_CFG_AUTO_RETAIN = true → flag s Fld.LD_CFG_REPL_HOST = false →
      flag s Fld.LD_STATUS_MIRROR_IN_FORCE = true → s.ld.cfgNext = none → 8 + k.val ∉ s.ld.scanning →
      exec (.bankPark k) s = .next (setBitF Fld.LD_STATUS_PARKED k.val true (writeTag (8 + k.val) s))) ∧
    ((flag s Fld.LD_CFG_AUTO_RETAIN = false ∨ flag s Fld.LD_STATUS_MIRROR_IN_FORCE = false) →
      exec (.bankPark k) s = .next s) ∧
    (bankParked s (8 + k.val) = true →
      exec (.bankWake k damage) s = .next (wakeBank (8 + k.val) (damageLedger damage s))) ∧
    (bankParked s (8 + k.val) = false → exec (.bankWake k damage) s = .next s) ∧
    (bankParked s (8 + k.val) = true → tagAgrees s (8 + k.val) = true → s.ld.cfgNext = none →
      bankParked (wakeBank (8 + k.val) s) (8 + k.val) = false ∧ 8 + k.val ∈ (wakeBank (8 + k.val) s).ld.scanning) ∧
    ((portEBusy s = true ∨ 8 + k.val ∉ s.ld.scanning) → exec (.bankScanDone k) s = .next s) ∧
    (portEBusy s = false → 8 + k.val ∈ s.ld.scanning →
      (scanCounts s.ld.words (inBank (8 + k.val))).1 = 0 →
      (scanCounts s.ld.words (inBank (8 + k.val))).2 ≤ getF s Fld.LD_RETAIN_CORR_MAX →
      ∃ t, exec (.bankScanDone k) s = .next t ∧ 8 + k.val ∉ t.ld.scanning ∧
        t.ld.words = scanCorrect (zeroDefault 72) s.ld.words (inBank (8 + k.val)) ∧
        ((scanCounts s.ld.words (inBank (8 + k.val))).2 = 0 →
          t.fc = s.fc ∧ t.ld.words = s.ld.words ∧ Frame [.ld] [Fld.LD_STATUS_SCANNING.addr] s t))

/-- The oldest descriptor executes: CLEAR, READ, ADD, SWAP and CAS, an invalid one writing its status, a replay
nothing. As its last beat arrives a descriptor joins the queue with the table in force, the status of its checks and the
verdict of the replay guard (that it does not see a descriptor in flight is R281's order, log entry 67). With no descriptor
waiting, or an oldest one of another opcode of the table, a row has no effect. Else the oldest leaves the queue: a failing
check writes a result line with its status, counts and captures it, and raises FS 2 unless its burst fails the code; a
replayed result is counted and not run again; CLEAR empties its slot; the others run. Where it was the last and the slots
are being switched off, the deferred completion follows. -/
def Obligations.OpSlotsExecuteInOrder : Prop :=
  ∀ (s : State) (o : OpDesc) (rest : List OpDesc) (slot : Nat),
    let line := o.line.toNat
    let u : State := { s with ld := { s.ld with ops := rest } }
    let settle := fun (t : State) =>
      if rest = [] && !flag t Fld.LD_OPCFG_EN then completeTokens waitOps "ok" t else t
    let valid := s.ld.ops = o :: rest ∧ o.status = 0 ∧ o.replay = false
    (s.ld.ops = [] → exec .opClear s = .next s ∧ exec .opRead s = .next s ∧ exec .opAdd s = .next s ∧
      exec .opSwap s = .next s ∧ exec .opCas s = .next s) ∧
    (s.ld.ops = o :: rest → descOpcode line = opcAdd → exec .opClear s = .next s ∧ exec .opRead s = .next s ∧
      exec .opSwap s = .next s ∧ exec .opCas s = .next s) ∧
    (valid → descOpcode line = opcClear →
      exec .opClear s = .next (settle (clearSlot (emptyChecks o.table) o.slot u))) ∧
    (valid → descOpcode line = opcRead → exec .opRead s = .next (settle (opRun o.table o.slot line u))) ∧
    (valid → descOpcode line = opcAdd → exec .opAdd s = .next (settle (opRun o.table o.slot line u))) ∧
    (valid → descOpcode line = opcSwap → exec .opSwap s = .next (settle (opRun o.table o.slot line u))) ∧
    (valid → descOpcode line = opcCas → exec .opCas s = .next (settle (opRun o.table o.slot line u))) ∧
    (s.ld.ops = o :: rest → o.status = 0 → o.replay = true →
      let t := settle (incF Fld.LD_OPREP_REPLAYS u)
      (descOpcode line = opcClear → exec .opClear s = .next t) ∧ (descOpcode line = opcRead → exec .opRead s = .next t) ∧
      (descOpcode line = opcAdd → exec .opAdd s = .next t) ∧ (descOpcode line = opcSwap → exec .opSwap s = .next t) ∧
      (descOpcode line = opcCas → exec .opCas s = .next t)) ∧
    (s.ld.ops = o :: rest → o.status ≠ 0 →
      let e := opError o.slot o.status (putResult o.slot (resultLine o.table line o.status 0 0 0 0) u)
      let t := settle (if o.status = 0x16 then e else raise 2 (synOp o.slot o.status) e)
      (opcKnown (descOpcode line) = false → exec .opClear s = .next t ∧ exec .opRead s = .next t ∧
        exec .opAdd s = .next t ∧ exec .opSwap s = .next t ∧ exec .opCas s = .next t) ∧
      (descOpcode line = opcClear → exec .opClear s = .next t) ∧ (descOpcode line = opcRead → exec .opRead s = .next t) ∧
      (descOpcode line = opcAdd → exec .opAdd s = .next t) ∧ (descOpcode line = opcSwap → exec .opSwap s = .next t) ∧
      (descOpcode line = opcCas → exec .opCas s = .next t)) ∧
    (∀ n : Nat, ∃ d, (opReceive slot n s).ld.ops = s.ld.ops ++ [d] ∧ d.slot = slot ∧ d.line = BitVec.ofNat 640 n ∧
      d.table = s.lg.table ∧ d.status = opStatus s n ∧ (descOnce n = false → d.replay = false) ∧
      (descOnce n = false → Frame [.ld] [] s (opReceive slot n s)))

/-- ADD wraps or saturates, SWAP replaces, CAS writes only on a match. For field values within the width: wrapping ADD
leaves the sum modulo the width with carry flagged; unsigned saturating ADD the smaller of the sum and the largest
value; signed saturating ADD stays between the least and greatest signed value and is flagged exactly when it clamps;
SWAP leaves operand A; CAS leaves operand B on a match with status 1 and writes nothing with status 2 otherwise; READ
and CLEAR write nothing. -/
def Obligations.AtomicResultsAreRight : Prop :=
  ∀ (line v a w : Nat), (w = 1 ∨ w = 2 ∨ w = 4 ∨ w = 8) → v < 2 ^ (8 * w) → a < 2 ^ (8 * w) →
    opAddResult 0 w v a = ⟨some ((v + a) % 2 ^ (8 * w)), (v + a) % 2 ^ (8 * w), 1, decide (2 ^ (8 * w) ≤ v + a)⟩ ∧
    (opAddResult 1 w v a).write = some (min (v + a) (2 ^ (8 * w) - 1)) ∧
    (let t := signed (8 * w) v + signed (8 * w) a
     let hi : Int := 2 ^ (8 * w - 1) - 1
     let lo : Int := -2 ^ (8 * w - 1)
     (opAddResult 2 w v a).write = some (unsigned (8 * w) (max lo (min hi t))) ∧
       ((opAddResult 2 w v a).rflag = true ↔ t < lo ∨ hi < t)) ∧
    (descOpcode line = opcSwap → opResult line v = ⟨some (descOperand line 8), descOperand line 8, 1, false⟩) ∧
    (descOpcode line = opcCas → v = descOperand line 8 →
      opResult line v = ⟨some (descOperand line 16), descOperand line 16, 1, false⟩) ∧
    (descOpcode line = opcCas → v ≠ descOperand line 8 → opResult line v = ⟨none, v, 2, false⟩) ∧
    (descOpcode line = opcRead → opResult line v = ⟨none, v, 1, false⟩)

/-- March runs start where permitted and end with their results; a burn blows one fuse and is verified. A run starts
where the engine is idle, no save runs and the mode permits it, and otherwise nothing happens; it ends, by itself or
aborted, only while it runs, and leaves DONE, ABORTED, PASS and the failed targets as its reads have it, FS 62 with it
where any read failed. A burn starts in SERVICE with PD_CORE on, before RETIRED, with the engine idle and a
sound request; at its end BUSY and BURNING read 0, no fuse that was blown is unblown, BURN_FAIL says whether the entry reads
as asked, and the spare is used from then on only if it does; an entry that does not is torn from the next start-up on. The
entry that a burn writes for a column below 72 is valid with odd parity and names it. -/
def Obligations.MarchAndBurnCommands : Prop :=
  ∀ (s : State) (reads : List MarchRead) (bank : BitVec 4) (spare : BitVec 2) (col : BitVec 7) (stuck : BitVec 9),
    let fails := marchFails (runOf s.mt.ctrl s.mt.banks) reads
    (flag s Fld.MT_STATUS_BUSY = false → saving s = false → marchAllowed s = true →
      exec .marchStart s = .next (marchBegin s)) ∧
    ((flag s Fld.MT_STATUS_BUSY = true ∨ saving s = true ∨ marchAllowed s = false) → exec .marchStart s = .next s) ∧
    (let t := marchBegin s
     flag t Fld.MT_STATUS_BUSY = true ∧ flag t Fld.MT_STATUS_DONE = false ∧ t.mt.start = s.aon ∧
      t.mt.ctrl = reg s Fld.MT_CTRL_MODE.addr ∧ t.mt.banks = reg s Fld.MT_BANKS_BANKS.addr) ∧
    (marchBusy s = false → exec (.marchAbort reads) s = .next s ∧ exec (.marchDone reads) s = .next s) ∧
    (marchBusy s = true → exec (.marchAbort reads) s = .next (marchEnd true reads s) ∧
      exec (.marchDone reads) s = .next (marchEnd false reads s)) ∧
    (let t := recordRun (runOf s.mt.ctrl s.mt.banks) reads s
     flag t Fld.MT_STATUS_PASS = fails.isEmpty ∧ getF t Fld.MT_STATUS_MEM_FAIL = failedTargets fails % 32 ∧
      (fails = [] → t.fc = s.fc) ∧
      (fails ≠ [] → t.fc.events = addEvents s.fc.events 62 1 (BitVec.ofNat 64 (synFs62 fails)))) ∧
    (inService s = true → coreOn s = true → lcState s ≠ 4 → flag s Fld.MT_STATUS_BUSY = false → saving s = false →
      burnBad s bank.toNat spare.toNat col.toNat = false → exec (.burnGo bank spare col) s =
        .next (setF Fld.MT_STATUS_PHASE 9 (setF Fld.MT_STATUS_BURNING 1 (setF Fld.MT_STATUS_BUSY 1
          { s with mt := { s.mt with burn := some (bank.toNat, spare.toNat, col.toNat), start := s.aon } })))) ∧
    ((inService s = false ∨ lcState s = 4 ∨ flag s Fld.MT_STATUS_BUSY = true ∨
      burnBad s bank.toNat spare.toNat col.toNat = true) → exec (.burnGo bank spare col) s = .next s) ∧
    (s.mt.burn = none → exec (.burnDone stuck) s = .next s) ∧
    (∀ b k c, s.mt.burn = some (b, k, c) → ∃ t, exec (.burnDone stuck) s = .next t ∧ t.mt.burn = none ∧
      flag t Fld.MT_STATUS_BUSY = false ∧ flag t Fld.MT_STATUS_BURNING = false ∧
      (let old := smGet (zeroDefault 9) s.fuses.spares (b * 4 + k)
       let new := smGet (zeroDefault 9) t.fuses.spares (b * 4 + k)
       new = old ||| (fuseEntry c &&& ~~~stuck) ∧
        flag t Fld.MT_STATUS_BURN_FAIL = decide (new ≠ fuseEntry c) ∧
        (new ≠ fuseEntry c → t.mt.steer = s.mt.steer ∧ b * 4 + k ∈ t.fuses.spoilt) ∧
        (new = fuseEntry c → smGet (zeroDefault 9) t.mt.steer (b * 4 + k) = fuseEntry c ∧ b * 4 + k ∉ t.mt.torn))) ∧
    (∀ c, c < 72 → entrySound (fuseEntry c) = true ∧ (fuseEntry c).toNat % 128 = c)

/-- A march run makes the reads of its algorithm, backgrounds and parts, at their places, and fails where one returns another
value. March C− takes ten operations a word and the extended algorithm fourteen; both write before they read, and every
read of an element expects what the word last was written. A run tests the arrays of its targets and banks: four ledger
groups with the HCT and trace RAM beside the first, then with the spare pass the four groups again with March C− and the
solid background, then Garnet, then the bitmaps and tags. A read of a word, background, element or array that the run does
not have is none of its reads and fails nothing; a read that returns what it expects fails nothing; one that does not is
among the failing reads, which keep the order of execution. -/
def Obligations.MarchRunsFollowTheirTables : Prop :=
  ∀ (r : MarchRun) (reads : List MarchRead) (x : MarchRead) (ext : Bool),
    opsPerWord false = 10 ∧ opsPerWord true = 14 ∧
    (let ops := (marchElements ext).flatMap (·.ops)
     (ops[0]?).map (·.read) = some false ∧
      ∀ i, i + 1 < ops.length → ∀ a b, ops[i]? = some a → ops[i + 1]? = some b → b.read = true → b.one = a.one) ∧
    (∀ p ∈ marchParts r, p.arrays ≠ [] ∧ (∀ a ∈ p.arrays, arrayTested r a = true) ∧
      (p.spare = true → r.spares = true ∧ ∀ a ∈ p.arrays, a < 16)) ∧
    (∀ a, arrayTested r a = true → ∃ p ∈ marchParts r, p.spare = false ∧ a ∈ p.arrays) ∧
    (∀ f ∈ marchFails r reads, f.read ∈ reads ∧ f.bits = failBits r f.read ∧ f.bits ≠ 0 ∧
      arrayTested r f.read.array = true ∧ f.read.word.toNat < arrayWords f.read.array ∧
      (f.read.spare = true → r.spares = true ∧ f.read.bg = 0 ∧ f.read.array < 16)) ∧
    (∀ t, x ∈ reads → failBits r x ≠ 0 → readAt r x 0 (marchParts r) = some t →
      ∃ f ∈ marchFails r reads, f.at_ = t * 32 + x.array) ∧
    ((x.bg.toNat ∉ r.bgs → x.spare = false → readAt r x 0 (marchParts r) = none) ∧
      (arrayTested r x.array = false → readAt r x 0 (marchParts r) = none)) ∧
    (marchFails r reads).Pairwise (fun f g => f.at_ < g.at_)

/-- Bytes written at a keep word's address read back, and no other keep word changes. For every byte list written from
a word's first byte, with no cell fault: the same number of bytes read from that address gives the list, every keep
word outside the words written is as stored before, and everything beside the keep is unchanged. -/
def Obligations.KeepBytesReadBack : Prop :=
  ∀ (s : State) (a k : Nat) (bs : List Byte), a % 8 = 0 →
    let t := keepWrite a bs [] s
    keepPeek t a bs.length = bs ∧
    (k < a / 8 ∨ a / 8 + (bs.length + 7) / 8 ≤ k → keepStored t k = keepStored s k) ∧
    Frame [.kp] [] s t

/-- Calibration stores begin and end, failed stores are tried once more, records are stored again, retention accrues.
A store begins on the register write, and by itself while served with AUTO_STORE, the movement condition and the
interval passed: STORING is set and nothing else but the storing flag changes. It is not begun twice. Its end with no
save past S1 and no commit is the run of both copies and the completion of `cal store`; while a commit runs it waits; past S1's end only the copy that is
being written is finished (which of the two is a free value of the model, log entry 41);
with no store running there is nothing to end. The run leaves STORING clear and LAST_STORE_FAIL tells whether both
copies were verified. The oldest failed store is tried again, once, by its own kind; none waits or none may run,
nothing changes. The oldest record due is stored again while served. Each minute in RUN and SERVICE adds the retention
that minute used, and at the limit REFRESH_DUE is set; elsewhere nothing is added. A configuration store that waits
ends; none waits, nothing changes. -/
def Obligations.KeepRecordsAreStoredAndKept : Prop :=
  ∀ (s : State) (flips : List (Nat × BitVec 72)) (r : Retry) (rest : List Retry) (g i : Nat) (more : List (Nat × Nat)),
    (coreOn s = true → storeOpen s = true → flag s Fld.CB_STATUS_STORING = false →
      flag s Fld.CK_STATUS_RS_VALID = true →
      exec .calStoreNow s = .next (setF Fld.CB_STATUS_STORING 1 { s with cb := { s.cb with storing := true } }) ∧
      ((served s = true ∨ inService s = true) → flag s Fld.CB_CTRL_AUTO_STORE = true → storeDue s = true →
        getF s Fld.CB_STORE_INTERVAL * ticksPerS ≤ ticksSince s.aon s.cb.lastStore →
        exec .calStoreAuto s = .next (setF Fld.CB_STATUS_STORING 1 { s with cb := { s.cb with storing := true } }))) ∧
    (flag s Fld.CB_STATUS_STORING = true → exec .calStoreNow s = .next s ∧ exec .calStoreAuto s = .next s) ∧
    (flag s Fld.CB_CTRL_AUTO_STORE = false → exec .calStoreAuto s = .next s) ∧
    (flag s Fld.CB_STATUS_STORING = false → exec (.calStoreDone flips) s = .next s) ∧
    (flag s Fld.CB_STATUS_STORING = true → (saving s = false ∨ flag s Fld.CA_STATUS_SAVE_BLOCK = false) →
      (s.kp.commit.isSome = true → exec (.calStoreDone flips) s = .next s) ∧
      (s.kp.commit.isSome = false →
        exec (.calStoreDone flips) s = .next (calStoreEnd s.kp.calDue flips s) ∧
        getF (calStoreRun s.kp.calDue true flips s) Fld.CB_STATUS_STORING = 0)) ∧
    (flag s Fld.CB_STATUS_STORING = true → saving s = true → flag s Fld.CA_STATUS_SAVE_BLOCK = true →
      exec (.calStoreDone flips) s = .next (calStoreCut flips s) ∧ getF (calStoreCut flips s) Fld.CB_STATUS_STORING = 0 ∧
        (calStoreCut flips s).kp.retry = s.kp.retry ∧ (calStoreCut flips s).cb = s.cb) ∧
    (s.kp.retry = [] ∨ storeAllowed s = false → exec (.recordStoreRetry flips) s = .next s) ∧
    (s.kp.retry = r :: rest → storeAllowed s = true →
      let s1 := { s with kp := { s.kp with retry := rest } }
      exec (.recordStoreRetry flips) s = .next
        (match r with
        | .config gen => completeTokens tokCfgStore
            (if (cfgStoreRun gen false flips s1).1 then "ok" else "err E60 hardware") (cfgStoreRun gen false flips s1).2
        | .cal full => calStoreRun full false flips s1
        | .configAgain => cfgAgain false flips s1
        | .calAgain rs => calAgain rs false flips s1
        | .keyAgain k => keyAgain k false flips s1
        | .install key => installKey key false flips s1
        | .patch bytes => patchWrite bytes false flips s1)) ∧
    (s.kp.rewrite = [] ∨ served s = false ∨ storeAllowed s = false → exec (.keepRecordRewrite flips) s = .next s) ∧
    (s.kp.rewrite = (g, i) :: more → served s = true → storeAllowed s = true →
      let s1 := { s with kp := { s.kp with rewrite := more } }
      exec (.keepRecordRewrite flips) s = .next
        (if g = 1 then cfgAgain true flips s1 else if g = 2 then calAgain (i / 2) true flips s1 else keyAgain i true flips s1)) ∧
    (mgtOn s = true → (inRun s = true ∨ inService s = true) →
      ∃ t, exec .keepRetainAccrue s = .next t ∧ t.kp.retain = s.kp.retain + retainMinute (hottest s) ∧
        getF t Fld.KP_RETAIN_USED = sat 0xFFFF ((s.kp.retain + retainMinute (hottest s)) / retainMille) ∧
        (getF s Fld.KP_RETAIN_LIMIT * retainMille ≤ s.kp.retain + retainMinute (hottest s) →
          flag t Fld.KP_STATUS_REFRESH_DUE = true) ∧
        (s.kp.retain + retainMinute (hottest s) < getF s Fld.KP_RETAIN_LIMIT * retainMille →
          flag t Fld.KP_STATUS_REFRESH_DUE = flag s Fld.KP_STATUS_REFRESH_DUE) ∧
        Frame [.kp] [Fld.KP_RETAIN_USED.addr, Fld.KP_STATUS_REFRESH_DUE.addr] s t) ∧
    (inRun s = false → inService s = false → exec .keepRetainAccrue s = .next s) ∧
    (s.kp.genNext = none → exec (.keepConfigStoreDone flips) s = .next s) ∧
    (mgtOn s = true → exec (.keepConfigStoreDone flips) s = .next (cfgStoreEnd flips s))

/-- A checkpoint writes the slot that is not sealed; a refresh ends with two of them and clears the counts. A
checkpoint or refresh begins only while served, with no commit, save, checkpoint or refresh running; otherwise the
command has no effect. A checkpoint sets CHECKPOINT and commits the marked lines to slot B if slot A holds the newest
seal, else to slot A; its end counts the accesses that waited on an atomic, seals and clears CHECKPOINT. A refresh rewrites the records, the patch and the keys,
marks every line, and its end, outside a save, runs both checkpoints and leaves RETAIN, REFRESH_DUE, REFRESHING and
the corrected count 0; inside a save it stops with REFRESH_DUE as it was. -/
def Obligations.CheckpointsAndRefreshes : Prop :=
  ∀ (s : State) (flips : List (Nat × BitVec 72)) (holds : BitVec 16),
    let h := countHolds holds.toNat s
    (checkpointAllowed s = true ↔ served s = true ∧ s.kp.commit = none ∧ saving s = false ∧
      flag s Fld.KP_STATUS_CHECKPOINT = false ∧ flag s Fld.KP_STATUS_REFRESHING = false) ∧
    (checkpointAllowed s = false → exec (.keepCheckpoint flips) s = .next s ∧ exec (.keepRefresh flips) s = .next s) ∧
    (checkpointAllowed s = true →
      ∃ t, exec (.keepCheckpoint flips) s = .next t ∧ flag t Fld.KP_STATUS_CHECKPOINT = true ∧
        t.kp.words = (commitLines flips (commitBegin 1 (if getF s Fld.KP_STATUS_SEAL_SLOT = 0 then 1 else 0) 0 flips
          { s with kp := { s.kp with bad := false } })).kp.words) ∧
    (flag s Fld.KP_STATUS_CHECKPOINT = true → saving s = false →
      exec (.keepCheckpointDone flips holds) s = .next (completeTokens tokCheckpoint (workResult (checkpointEnd flips h))
        (setF Fld.KP_STATUS_CHECKPOINT 0 (checkpointEnd flips h)))) ∧
    getF h Fld.LD_HOLD_HOLDS = sat 0xFFFF (getF s Fld.LD_HOLD_HOLDS + holds.toNat) ∧
    Frame [] [Fld.LD_HOLD_HOLDS.addr] s h ∧
    ((flag s Fld.KP_STATUS_CHECKPOINT = false ∨ saving s = true) → exec (.keepCheckpointDone flips holds) s = .next s) ∧
    (checkpointAllowed s = true →
      exec (.keepRefresh flips) s = .next (refreshBegin flips { s with kp := { s.kp with bad := false } })) ∧
    (flag s Fld.KP_STATUS_REFRESHING = false → exec (.keepRefreshDone flips holds) s = .next s) ∧
    (flag s Fld.KP_STATUS_REFRESHING = true → saving s = true →
      exec (.keepRefreshDone flips holds) s = .next (setF Fld.KP_STATUS_REFRESHING 0 s)) ∧
    (flag s Fld.KP_STATUS_REFRESHING = true → saving s = false →
      ∃ t, exec (.keepRefreshDone flips holds) s = .next (completeTokens tokRefresh (workResult t) t) ∧
        t.kp.retain = 0 ∧ t.kp.corrSince = 0 ∧ getF t Fld.KP_RETAIN_USED = 0 ∧
        flag t Fld.KP_STATUS_REFRESH_DUE = false ∧ flag t Fld.KP_STATUS_REFRESHING = false ∧
        t.kp.words = (checkpointEnd flips (checkpointBegin 2 flips
          (checkpointEnd flips (checkpointBegin 2 flips h)))).kp.words)

/-- A trigger starts a save where one can start; the SAVE pair waits for its second channel. SAVE_NOW starts a save
with cause 0x04 where a save can start: the cause, the AON time and SAVING are latched; during a save it is traced and
otherwise ignored. Both channels of the pair low start a save with cause 0x02 and stop the timer; the first channel
alone starts the timer for it; a channel that stays alone for PS_TDSC ticks raises FS 32 and starts the save; a
channel released before that is counted and ignored. In start-up reset nothing is sampled, and with no timer running
there is no expiry. -/
def Obligations.SaveTriggersAreJudged : Prop :=
  ∀ (s : State) (low0 low1 : Bool),
    (saveable s = true ↔ s.boot = .up ∧ flag s Fld.PS_STATUS_SAVING = false ∧
      ((inRun s = true ∧ flag s Fld.PM_MODE_WAITING = false) ∨ inService s = true)) ∧
    (mgtOn s = true → saveable s = true →
      ∃ t, exec .saveNow s = .next t ∧ flag t Fld.PS_STATUS_SAVING = true ∧ getF t Fld.PS_STATUS_CAUSE = 0x04 ∧
        getF t Fld.PS_STATUS_STEP = 1 ∧ flag t Fld.PM_MODE_SAVING = true ∧ t.ps.s0 = s.aon ∧
        Frame [.ps] [Fld.PS_STATUS_STEP.addr, Fld.PM_MODE_SAVING.addr, Fld.PS_IN_DISC_RUN.addr] s t) ∧
    (mgtOn s = true → saveable s = false → inSave s = true → exec .saveNow s = .next (trace 0x0106 0x04 s)) ∧
    (saveable s = false → inSave s = false → exec .saveNow s = .next s) ∧
    (s.boot = .held → exec (.savePairSample low0 low1) s = .next s) ∧
    (s.boot ≠ .held → saveable s = true →
      exec (.savePairSample low0 low1) s = .next (savePair low0 low1 (saveLevels low0 low1 s))) ∧
    savePair true true s = saveBegin 0x02 false s ∧
    (flag s Fld.PS_IN_DISC_RUN = false →
      savePair false false s = s ∧ savePair true false s = discStart 0 s ∧ savePair false true s = discStart 1 s) ∧
    (flag s Fld.PS_IN_DISC_RUN = true → getF s Fld.PS_IN_DISC_CH = 0 →
      savePair false true s = discStart 1 s ∧
      savePair false false s = discIgnore 0 (getF s Fld.PS_IN_DISC_TICKS + 1) s ∧
      (getF s Fld.PS_TDSC_TICKS ≤ getF s Fld.PS_IN_DISC_TICKS + 1 →
        savePair true false s = discExpire 0 (getF s Fld.PS_IN_DISC_TICKS + 1) s) ∧
      (getF s Fld.PS_IN_DISC_TICKS + 1 < getF s Fld.PS_TDSC_TICKS →
        savePair true false s = setF Fld.PS_IN_DISC_TICKS (getF s Fld.PS_IN_DISC_TICKS + 1) s)) ∧
    (saveable s = true → flag s Fld.PS_IN_DISC_RUN = true → exec .discrepancyExpiry s =
      .next (discExpire (getF s Fld.PS_IN_DISC_CH) (getF s Fld.PS_TDSC_TICKS) s)) ∧
    ((saveable s = false ∨ flag s Fld.PS_IN_DISC_RUN = false) → exec .discrepancyExpiry s = .next s)

/-- Each command of a save acts in its own step and nowhere else. S0 ends with the nonce formed, and goes on with S1, or with
S2 and the host blocked where the host is not served; S1 ends with the host
blocked and RDY and the busy line low; S2 to S4 end once nothing is in flight; the Steward takes S5 over only where it
runs, or its time runs out and the save is unrecorded; S6 seals once the lag is drained; S7 powers down and enters
HOLD; an overrun raises FS 36 once; DORMANT is entered from HOLD once PM_DORM seconds have passed since the end of S7,
never with 0xFFFF. A SERVICE entry shares S1 to S4 and ends in SERVICE. Out of its step each command changes nothing. -/
def Obligations.SaveStepsFollowTheirOrder : Prop :=
  ∀ (s : State) (flips : List (Nat × BitVec 72)) (reads : List MarchRead),
    (inSave s = true →
      (getF s Fld.PS_STATUS_STEP = 1 → ∃ t, exec .saveRecognised s = .next t ∧
        getF t Fld.PS_STATUS_STEP = (if s.ps.entry = 3 ∨ noHost s = true then 3 else 2) ∧
        getF t Fld.PS_NONCEL_NONCE_LO = s.ps.s0.toNat % 2 ^ 32 ∧
        getF t Fld.PS_NONCEH_NONCE_HI = (getF s Fld.PS_SEALNO_SEALNO + 1) % 2 ^ 32 ∧
        getF t Fld.FC_INJ_CA_N = 0 ∧ getF t Fld.PM_MODE_RESTORING = 0 ∧ t.ps.entry = 0 ∧
        (s.ps.entry ≠ 3 → noHost s = true → flag t Fld.CA_STATUS_SAVE_BLOCK = true ∧ t.pins.rdy = false)) ∧
      (getF s Fld.PS_STATUS_STEP ≠ 1 → exec .saveRecognised s = .next s) ∧
      (getF s Fld.PS_STATUS_STEP = 2 → exec (.quiesceEnd reads) s = .next (saveS2 (blockHost reads s)) ∧
        getF (saveS2 (blockHost reads s)) Fld.PS_STATUS_STEP = 3) ∧
      (getF s Fld.PS_STATUS_STEP = 3 → drained s = true → s.ps.entry ≠ 3 → exec .drainDone s = .next
        (setStep 5 (setF Fld.PS_TS4_US (usSince 24 s s.ps.s0) (selfRefresh (canaries (drain s)))))) ∧
      (getF s Fld.PS_STATUS_STEP = 5 → s.sw.halted = false → flag s Fld.CK_STATUS_MCLK_LOCK = true →
        exec (.saveCommitStart flips) s = .next (saveCommit flips s)) ∧
      ((s.sw.halted = true ∨ getF s Fld.PS_STATUS_STEP ≠ 5) → exec (.saveCommitStart flips) s = .next s) ∧
      (getF s Fld.PS_STATUS_STEP = 5 → ∃ t, exec .stewardTakeoverTimeout s = .next t ∧
        getF t Fld.PS_STATUS_STEP = 8 ∧ flag t Fld.PS_STATUS_UNRECORDED = true ∧
        flag t Fld.PS_STATUS_NO_STEWARD = true ∧ (s.mt.clearDue = none → t.kp = s.kp)) ∧
      (getF s Fld.PS_STATUS_STEP ≠ 5 → exec .stewardTakeoverTimeout s = .next s) ∧
      (getF s Fld.PS_STATUS_STEP = 6 → (flag s Fld.TW_STATUS_REPL_RUN = false ∨
        flag s Fld.TW_STATUS_RESYNC_HELD = true ∨ flag s Fld.TW_STATUS_LAG_DRAINED = true) →
        exec (.commitLinesDone flips) s = .next (saveFinish flips s) ∧
        getF (saveFinish flips s) Fld.PS_STATUS_STEP = 8) ∧
      (flag s Fld.TW_STATUS_REPL_RUN = true → flag s Fld.TW_STATUS_RESYNC_HELD = false →
        flag s Fld.TW_STATUS_LAG_DRAINED = false → exec (.commitLinesDone flips) s = .next s) ∧
      (getF s Fld.PS_STATUS_STEP = 8 → exec .sealDone s = .next (saveHold s)) ∧
      (getF s Fld.PS_STATUS_STEP ≠ 8 → exec .sealDone s = .next s) ∧
      (flag s Fld.PS_STATUS_OVERRUN = true → exec .saveDeadlineOverrun s = .next s) ∧
      (flag s Fld.PS_STATUS_OVERRUN = false → exec .saveDeadlineOverrun s = .next
        (raise 36 ((getF s Fld.PS_STATUS_STEP - 1) * 2 ^ 32 + usSince 32 s s.ps.s0) (setF Fld.PS_STATUS_OVERRUN 1 s)))) ∧
    (inSave s = false → exec .saveRecognised s = .next s ∧ exec (.saveCommitStart flips) s = .next s ∧
      exec .stewardTakeoverTimeout s = .next s ∧ exec (.commitLinesDone flips) s = .next s ∧
      exec .sealDone s = .next s ∧ exec .saveDeadlineOverrun s = .next s ∧
      (s.ps.entry = 2 → exec (.quiesceEnd reads) s = .next
        (let b := blockHost reads s
         { b with ps := { b.ps with entry := 3 } })) ∧
      (s.ps.entry = 3 → drained s = true → exec .drainDone s = .next (serviceEnter (selfRefresh (canaries (drain s))))) ∧
      (s.ps.entry ≠ 2 → exec (.quiesceEnd reads) s = .next s) ∧ (s.ps.entry ≠ 3 → exec .drainDone s = .next s)) ∧
    (drained s = false → exec .drainDone s = .next s) ∧
    (let t := blockHost reads s
     flag t Fld.CA_STATUS_SAVE_BLOCK = true ∧ t.pins.rdy = false ∧ t.pins.halertBusy = false ∧ t.cb.storing = false) ∧
    (mode (serviceEnter s) = modeService ∧ flag (serviceEnter s) Fld.PM_MODE_SAVING = false ∧
      (s.pins.pgood = false → coreOn (serviceEnter s) = false)) ∧
    (let t := saveHold s
     mode t = (if getF s Fld.PM_DORM_DORMANT_AFTER = 0 then modeDormant else modeHold) ∧ t.pins.holdack = true ∧
        flag t Fld.PM_MODE_SAVING = false ∧ flag t Fld.PS_STATUS_SAVING = false) ∧
    (∀ h, mode s = modeHold → getF s Fld.PM_DORM_DORMANT_AFTER ≠ 0xFFFF → s.ps.holdAt = some h →
      getF s Fld.PM_DORM_DORMANT_AFTER * ticksPerS ≤ ticksSince s.aon h →
      ∃ t, exec .dormantEntry s = .next t ∧ mode t = modeDormant ∧ getF t Fld.PM_DOMAIN_LDG = 0 ∧ t.ld.words = [] ∧
        t.ld.tags = [] ∧ t.ps.dormAt = some s.aon) ∧
    ((mode s ≠ modeHold ∨ getF s Fld.PM_DORM_DORMANT_AFTER = 0xFFFF ∨ s.ps.holdAt = none ∨
      (∃ h, s.ps.holdAt = some h ∧ ticksSince s.aon h < getF s Fld.PM_DORM_DORMANT_AFTER * ticksPerS)) →
      exec .dormantEntry s = .next s)

/-- A restore starts on its conditions, refreshes while it waits, hands back and reports its results. A restore starts
only in HOLD, DORMANT or the wait on the restore path, with the restore conditions and a Steward that runs; HOLDACK
falls, RESTORING and the boot path are set, the mode is RUN.TRAIN, and U0 to U7 follow. HOLDACK has been shown for two ticks. A CHIPRST that the save
deferred resets the device in place of them, unless the limit is reached. While hand-back waits each populated rank
gets a REFab. Hand-back runs once HRST_N is recognised high or ignored; what it reports makes PS_RSTAT valid with the
ledger code, the warm and cold ranks and the origin. Elsewhere each command has no effect. -/
def Obligations.RestoreStartsAndHandsBack : Prop :=
  ∀ (s : State) (w : WakeUp) (b : BringUp) (damage garnet : List (Nat × BitVec 72)) (cs : List RankCheck)
    (flips : List (Nat × BitVec 72)),
    (mayRestore s = true ↔ (s.pins.pgood = true ∧ flag s Fld.CK_STATUS_HCK_PRESENT = true ∧
      flag s Fld.PS_IN_SAVE0_LOW = false ∧ flag s Fld.PS_IN_SAVE1_LOW = false) ∧ s.boot = .up ∧ s.sw.halted = false ∧
      (s.pins.holdack = false ∨ holdackShown s = true) ∧
      (mode s = modeHold ∨ mode s = modeDormant ∨ (inTrain s = true ∧ s.rs.path = .restoreWait))) ∧
    (mayRestore s = false → exec (.restoreStart w b damage garnet cs) s = .next s) ∧
    (mayRestore s = true → flag s Fld.PS_STATUS_DEFER_CHIPRST = false →
      exec (.restoreStart w b damage garnet cs) s = .next (restoreRun w b damage garnet cs (restoreBegin s))) ∧
    (mayRestore s = true → flag s Fld.PS_STATUS_DEFER_CHIPRST = true → chipLimited s = false →
      exec (.restoreStart w b damage garnet cs) s = .next (faultReset (s.fc.deferred.headD (0, 0)).1
        (setF Fld.PS_STATUS_DEFER_CHIPRST 0 { outageEnds s with
          pins := { s.pins with holdack := false }, fc := { s.fc with deferred := [] } }))) ∧
    (mayRestore s = true → flag s Fld.PS_STATUS_DEFER_CHIPRST = true → chipLimited s = true →
      exec (.restoreStart w b damage garnet cs) s = .next (restoreRun w b damage garnet cs
        (restoreBegin (setF Fld.FC_STATUS_RST_LIMIT 1
          (setF Fld.PS_STATUS_DEFER_CHIPRST 0 { s with fc := { s.fc with deferred := [] } }))))) ∧
    (let t := restoreBegin s
     inTrain t = true ∧ restoring t = true ∧ flag t Fld.PM_MODE_WAITING = false ∧ getF t Fld.CK_BOOT_PATH = 2 ∧
      t.pins.holdack = false ∧ t.rs.t0 = s.aon) ∧
    (inTrain s = true → (s.rs.path = .restoreReady ∨ s.rs.path = .serviceReady) →
      ∃ t, exec .restoreRefresh s = .next t ∧ t.ca.own = s.ca.own ++ (popRanks s).map OwnCmd.refab ∧ Frame [.ca] [] s t ∧
        ∀ r ∈ popRanks s, smGet (zeroDefault 49) t.ca.refAt r = BitVec.ofNat 49 (2 ^ 48 + s.aon.toNat)) ∧
    ((inTrain s = false ∨ (s.rs.path ≠ .restoreReady ∧ s.rs.path ≠ .serviceReady)) →
      exec .restoreRefresh s = .next s ∧ exec (.restoreHandBack flips) s = .next s) ∧
    (hrstLow s = true → exec (.restoreHandBack flips) s = .next s) ∧
    (inTrain s = true → hrstLow s = false → s.rs.path = .restoreReady →
      exec (.restoreHandBack flips) s = .next (restoreHandBack false flips s)) ∧
    (inTrain s = true → hrstLow s = false → s.rs.path = .serviceReady →
      exec (.restoreHandBack flips) s = .next (restoreHandBack true flips s)) ∧
    (s.rs.ledger < 8 → s.rs.warm < 16 → s.rs.cold < 16 → s.rs.origin < 4 → s.rs.source.getD 0 < 2 →
      let t := restoreResults s
      flag t Fld.PS_RSTAT_VALID = true ∧ getF t Fld.PS_RSTAT_LEDGER = s.rs.ledger ∧
        getF t Fld.PS_RSTAT_WARM = s.rs.warm ∧ getF t Fld.PS_RSTAT_COLD = s.rs.cold ∧
        getF t Fld.PS_RSTAT_FROM = s.rs.origin)

/-- A flit in sequence is acknowledged and acts; a bad one is counted and answered with NAK; others are discarded.
A control flit is received in error where its sync header or TYPE is not that of its row or its CRC-16 differs from the one
over its bytes 0 to 13, with a CRC that injection inverts. With the link up and no injection, a flit with the expected
sequence number moves the expected number on by one (a LINE with its five data flits by six), releases the flits its ACK
covers, and then has the effect of its type: NAK replays, IDENT compares the positions, STATUS is taken over, TIME_REQ is
answered, TIME_RSP gives an offset, SAVE and BYE start a save where one can start, LAG_END marks the lag drained,
RESYNC_REQ marks the lines, LINE is written to the replica. A bad flit is counted and answered with NAK, and a bad data
flit keeps its line from the ledger; one out of sequence, and any while the link is not up, has no effect. -/
def Obligations.FlitsAreTakenInOrder : Prop :=
  ∀ (s : State) (seq ack expected b2 b3 b4 b5 b6 cause : Byte) (w : FlitWire) (pos resync poison held : Bool)
    (version : BitVec 24) (hb gen : Word) (t2 t3 s0 : Time) (first count : BitVec 16) (l : BitVec 14) (data : BitVec 640)
    (tails : List DataWire) (d : DataWire) (more : List DataWire) (type : Nat) (fields : List Byte) (f : State → State),
    let good := fun (type : Nat) (fields : List Byte) => w.sync = 1 ∧ w.type.toNat = type ∧
      w.crc = crc16 (w.type :: ack :: fieldBytes fields)
    let quiet := linkUp s = true ∧ flag s Fld.FC_INJ_TW_N = false
    let taken := fun type fields => quiet ∧ seq = s.tw.rxSeq ∧ good type fields
    let u := ackFlits ack { s with tw := { s.tw with rxSeq := seq + 1 } }
    let nak := sendFlit (.nak s.tw.rxSeq) (incF Fld.TW_CNT_CRCERR s)
    let lineFields := leBytes 2 (l.toNat + b2n resync * 0x4000 + b2n poison * 0x8000) ++ (leBytes 80 data.toNat).take 10
    let goodTail := fun (i : Nat) (x : DataWire) => x.sync = 2 ∧ x.crc = crc16 (dataBytes data i)
    (taken 0x01 [] → exec (.flitIdle seq ack w) s = .next u) ∧
    (taken 0x02 [expected] → exec (.flitNak seq ack w expected) s = .next (nakReceived expected u)) ∧
    (taken 0x03 (leBytes 1 (b2n pos) ++ leBytes 3 version.toNat ++ leBytes 4 hb.toNat) →
      exec (.flitIdent seq ack w pos version hb) s = .next (identReceived pos version hb u)) ∧
    (taken 0x04 ([b2, b3, b4, b5, b6] ++ leBytes 3 version.toNat ++ leBytes 4 gen.toNat) →
      exec (.flitStatus seq ack w b2 b3 b4 b5 b6 version gen) s =
        .next (statusReceived b2 b3 b4 b5 b6 version gen u)) ∧
    (taken 0x05 [] → exec (.flitTimeReq seq ack w) s = .next (sendFlit (.timeRsp s.aon s.aon) u)) ∧
    (taken 0x06 (leBytes 6 t2.toNat ++ leBytes 6 t3.toNat) →
      exec (.flitTimeRsp seq ack w t2 t3) s = .next (timeResponse t2 t3 u)) ∧
    (taken 0x07 (cause :: leBytes 6 s0.toNat) → exec (.flitSave seq ack w cause s0) s = .next
      (let v := saveTrigger 0x03 { u with tw := { u.tw with saveSeen := true } }
       if inSave u then trace 0x0A01 2 v else v)) ∧
    (taken 0x08 [] → exec (.flitLagEnd seq ack w) s = .next (setF Fld.TW_STATUS_LAG_DRAINED 1 u)) ∧
    (taken 0x09 [] → exec (.flitBye seq ack w) s = .next (contagion { u with tw := { u.tw with byeSeen := true } })) ∧
    (taken 0x0A (leBytes 2 first.toNat ++ leBytes 2 count.toNat) →
      exec (.flitResyncReq seq ack w first count) s = .next (resyncRequested first.toNat count.toNat u)) ∧
    (taken 0x10 lineFields → tails.length = 5 → (∀ i x, tails[i]? = some x → goodTail i x) →
      exec (.flitLine seq ack w l resync poison data tails held) s =
        .next (lineReceived l.toNat poison data.toNat held { u with tw := { u.tw with rxSeq := seq + 6 } })) ∧
    (taken 0x10 lineFields → tails = d :: more → more.length = 4 → ¬ goodTail 0 d →
      ∃ t, exec (.flitLine seq ack w l resync poison data tails held) s = .next t ∧ t.tw.rxSeq = seq + 1 ∧ t.ld = s.ld) ∧
    (quiet → ¬ good 0x01 [] → exec (.flitIdle seq ack w) s = .next nak) ∧
    (quiet → ¬ good type fields → receiveFlit type fields seq ack w f s = nak) ∧
    (quiet → good type fields → seq ≠ s.tw.rxSeq → receiveFlit type fields seq ack w f s = s) ∧
    (linkUp s = true → flag s Fld.FC_INJ_TW_N = true → good type fields →
      receiveFlit type fields seq ack w f s =
        flitError (setF Fld.FC_INJ_TW_N (getF s Fld.FC_INJ_TW_N - 1) s)) ∧
    (linkUp s = false →
      exec (.flitIdle seq ack w) s = .next s ∧ exec (.flitNak seq ack w expected) s = .next s ∧
      exec (.flitIdent seq ack w pos version hb) s = .next s ∧
      exec (.flitStatus seq ack w b2 b3 b4 b5 b6 version gen) s = .next s ∧
      exec (.flitTimeReq seq ack w) s = .next s ∧ exec (.flitTimeRsp seq ack w t2 t3) s = .next s ∧
      exec (.flitSave seq ack w cause s0) s = .next s ∧ exec (.flitLagEnd seq ack w) s = .next s ∧
      exec (.flitBye seq ack w) s = .next s ∧ exec (.flitResyncReq seq ack w first count) s = .next s ∧
      exec (.flitLine seq ack w l resync poison data tails held) s = .next s)

/-- A flit sent is framed with its CRC and held with its number; the twin's save is contagious; lines land only in the replica
half. While the link is up, no flit waits and there is room among the 64, a flit is sent with the next number, with the ACK
of the last flit taken in order, on the lane of its number, and held until acknowledged; while the link is down none is
sent. Every flit is 16 bytes, the last two the CRC-16 of the others; a LINE is six flits and every other body one. A STATUS
that shows SAVING or a BYE starts a save with cause 0x03 and FS 45 where one can start and no SAVE flit came. A received
line is dropped and counted unless lines are accepted, and an accepted one changes no ledger word outside own line
15,872 + L and the banks it wakes. A time response without a request has no effect; the first sample is stored with the
offset it gives. -/
def Obligations.WhatFlitsDo : Prop :=
  ∀ (s : State) (b : FlitBody) (l data : Nat) (poison held : Bool) (t1 t2 t3 : Time) (n ack : Byte) (f : HeldFlit),
    (linkUp s = false → sendFlit b s = s) ∧
    (linkUp s = true → s.tw.waiting = [] → heldFlits s + flitLen b ≤ 64 →
      let t := sendFlit b s
      let fs := flitsOf s.tw.txSeq b
      t.tw.held = s.tw.held ++ fs ∧ t.tw.sent = s.tw.sent ++ fs.map (frameFlit (s.tw.rxSeq - 1)) ∧
        t.tw.txSeq = s.tw.txSeq + BitVec.ofNat 8 (flitLen b) ∧ Frame [.tw] [] s t) ∧
    (flitLen b = match b with
      | .line _ _ _ _ => 6
      | _ => 1) ∧
    (f ∈ flitsOf n b →
      let x := frameFlit ack f
      x.bytes.length = 16 ∧ x.bytes.drop 14 = crcBytes (x.bytes.take 14) ∧ x.lane = BitVec.ofNat 1 (f.seq.toNat % 2) ∧
        (f.data = false → x.sync = 1 ∧ x.bytes[1]? = some ack) ∧ (f.data = true → x.sync = 2)) ∧
    (saveable s = true → s.tw.saveSeen = false →
      ∃ t, contagion s = t ∧ flag t Fld.PS_STATUS_SAVING = true ∧ getF t Fld.PS_STATUS_CAUSE = 0x03 ∧
        t.fc.events = addEvents s.fc.events 45 1 1) ∧
    ((saveable s = false ∨ s.tw.saveSeen = true) → contagion s = s) ∧
    ((acceptsLines s = false ∨ 15872 ≤ l) → lineReceived l poison data held s = incF Fld.TW_DROP_COUNT s) ∧
    (acceptsLines s = true → l < 15872 → bankParked s (lineBank (15872 + l)) = false →
      ∀ k, k / 10 ≠ 15872 + l → ledgerStored (lineReceived l poison data held s) k = ledgerStored s k) ∧
    (s.tw.t1 = none → timeResponse t2 t3 s = s) ∧
    (s.tw.t1 = some t1 → s.tw.sample = none →
      (timeResponse t2 t3 s).tw.sample = some (BitVec.ofNat 48 (unsigned 48
        ((((t2.toNat : Int) - t1.toNat) + ((t3.toNat : Int) - s.aon.toNat)).tdiv 2)), s.aon) ∧
      (timeResponse t2 t3 s).tw.t1 = none)

/-- The link trains, comes up, goes down and retrains; STATUS, time, lines and LAG_END are sent. Training starts, and
comes up, only with PD_MGT, XOSC, TWIN_EN and LINK_EN; an up link that loses lock goes down and is counted; a retrain
that runs out takes it down; a link that is not up UP_WAIT seconds after a hand-back raises FS 40 once. STATUS and TIME_REQ are
sent; a replica line goes out only while the replica may send, port E serves the twin and six flits fit; LAG_END once in a
save, when no own-half write can land any more and the queue is empty. TW_RESUME releases a held resynchronisation, TW_RESYNC asks for one while the replica runs, TW_RETRAIN retrains
an up link. Elsewhere each has no effect. -/
def Obligations.LinkAndReplicaCommands : Prop :=
  ∀ (s : State) (inv : BitVec 2) (held : Bool),
    (mayTrain s = true ↔ mgtOn s = true ∧ twinEn s = true ∧ flag s Fld.CK_STATUS_XOSC_RUN = true ∧
      flag s Fld.TW_CFG_LINK_EN = true) ∧
    (mayTrain s = true → getF s Fld.TW_STATUS_LINK = 1 → exec (.linkUp inv) s = .next (linkComesUp inv s)) ∧
    (mayTrain s = true → (getF s Fld.TW_STATUS_LINK = 0 ∨ getF s Fld.TW_STATUS_LINK = 3) →
      exec .linkTrainRetry s = .next (setF Fld.TW_STATUS_LINK 1 s)) ∧
    (mayTrain s = false → exec (.linkUp inv) s = .next s ∧ exec .linkTrainRetry s = .next s) ∧
    (linkUp s = true →
      ∃ t, exec .linkDown s = .next t ∧ linkUp t = false ∧ t.tw.held = [] ∧ t.tw.waiting = [] ∧
        getF t Fld.TW_STATUS_LINK = 3 ∧ getF t Fld.TW_DOWN_DOWNS = getF (incF Fld.TW_DOWN_DOWNS s) Fld.TW_DOWN_DOWNS) ∧
    (linkUp s = false → exec .linkDown s = .next s ∧ exec (.replicaLineSend held) s = .next s ∧
      exec .lagEndSend s = .next s ∧ exec .statusSend s = .next s ∧ exec .timeReqSend s = .next s ∧
      exec .twRetrain s = .next s) ∧
    (s.tw.retraining = true → linkUp s = false → exec .retrainTimeout s = .next (linkLost 2 s)) ∧
    (s.tw.retraining = false → exec .retrainTimeout s = .next s) ∧
    (mgtOn s = true → twinEn s = true → flag s Fld.TW_CFG_LINK_EN = true → handedBack s = true →
      s.tw.upSeen = false → linkUp s = false → getF s Fld.TW_CFG_UP_WAIT * ticksPerS ≤ ticksSince s.aon s.tw.hbAt →
      exec .upWaitExpiry s = .next (raise 40 4 { s with tw := { s.tw with upSeen := true } })) ∧
    ((s.tw.upSeen = true ∨ ticksSince s.aon s.tw.hbAt < getF s Fld.TW_CFG_UP_WAIT * ticksPerS) → exec .upWaitExpiry s = .next s) ∧
    exec .statusSend s = .next (sendFlit (.status (statusBytes s)) s) ∧
    (linkUp s = true → exec .timeReqSend s = .next (sendFlit .timeReq { s with tw := { s.tw with t1 := some s.aon } })) ∧
    (linkUp s = true → inSave s = true → ownWritesOver s = true → s.tw.queue = [] → s.tw.lagEndSent = false →
      exec .lagEndSend s = .next (sendFlit .lagEnd { s with tw := { s.tw with lagEndSent := true } })) ∧
    ((s.tw.lagEndSent = true ∨ s.tw.queue ≠ [] ∨ s.ps.s1Ended = false) → exec .lagEndSend s = .next s) ∧
    (linkUp s = true → mayQueue s = true → lineRoom s = true → portETwin s = true →
      (∀ l rest, s.tw.queue = l :: rest → exec (.replicaLineSend held) s =
        .next (sendLine l false (countHeld held { s with tw := { s.tw with queue := rest } }))) ∧
      (s.tw.queue = [] → firstStale s = none → exec (.replicaLineSend held) s = .next s) ∧
      (∀ l, s.tw.queue = [] → firstStale s = some l →
        exec (.replicaLineSend held) s = .next (replicaSend (countHeld held s)))) ∧
    ((mayQueue s = false ∨ lineRoom s = false ∨ portETwin s = false) → exec (.replicaLineSend held) s = .next s) ∧
    (mgtOn s = true → flag s Fld.TW_STATUS_RESYNC_HELD = true →
      exec .twResume s = .next (requestAll (setF Fld.TW_STATUS_RESYNC_HELD 0 s))) ∧
    (flag s Fld.TW_STATUS_RESYNC_HELD = false → exec .twResume s = .next s) ∧
    (mgtOn s = true → flag s Fld.TW_STATUS_REPL_RUN = true → exec .twResync s = .next (fullRequest s)) ∧
    (flag s Fld.TW_STATUS_REPL_RUN = false → exec .twResync s = .next s) ∧
    (mgtOn s = true → linkUp s = true →
      exec .twRetrain s = .next (replUpdate (incF Fld.TW_DOWN_RETRAINS (setF Fld.TW_STATUS_LINK 1
        { s with tw := { s.tw with retraining := true } }))))

/-- The collector's tick, its windows, the trap handler, the history, and the writes that wait for the tick. With
PD_MGT on, a tick collects; one with nothing to collect changes nothing. A window that closes sets the source's count
to 0. The handler takes the lowest pending source and returns, hangs, or raises FS 53. 600 s without a CHIPRST restart
its count. A history entry that may be written leaves the queue. Each FC command queues its write for the next tick;
from DEPLOYED onward forcing and injection without an authenticated session have no effect. A queued acknowledgement,
clear or force then does what it names. -/
def Obligations.FaultCollectorCommands : Prop :=
  ∀ (s : State) (src : BitVec 6) (ends : HandlerEnd) (flips : List (Nat × BitVec 72)) (high : Bool) (v : Word)
    (n : Nat) (rest : List Nat) (e : HistEntry) (more : List HistEntry),
    let put := fun (a : Nat) (w : Word) => { s with fc := { s.fc with writes := s.fc.writes ++ [⟨a, w, 0xFFFFFFFF, none⟩] } }
    (mgtOn s = true → exec .faultCollect s = .next (collect s)) ∧
    (s.fc.writes = [] → s.fc.deferred = [] → s.fc.events = [] → collect s = s) ∧
    (mgtOn s = true → exec (.fcWindowClose src) s = .next (setF (Fld.FC_SCNT_WCOUNT.bank src.toNat) 0 s)) ∧
    (mgtOn s = false → exec .faultCollect s = .next s ∧ exec (.fcWindowClose src) s = .next s ∧
      exec .fcAck s = .next s ∧ exec .fcClrSticky s = .next s ∧ exec .fcRecordClear s = .next s ∧
      exec (.fcStickyClear high v) s = .next s ∧ exec (.fcForce high v) s = .next s ∧ exec (.fcInj v) s = .next s) ∧
    ((s.fc.nmt = [] ∨ stewardRuns s = false ∨ s.fc.nmtRun.isSome = true) → exec (.nmtHandler ends) s = .next s) ∧
    (s.fc.nmt = n :: rest → stewardRuns s = true → s.fc.nmtRun = none →
      exec (.nmtHandler .returns) s = .next { s with fc := { s.fc with nmt := rest } } ∧
      exec (.nmtHandler .hangs) s = .next { s with fc := { s.fc with nmt := rest, nmtRun := some n } } ∧
      exec (.nmtHandler (.exception v)) s = .next (raise 53 (n * 2 ^ 32 + v.toNat)
        { s with fc := { s.fc with nmt := rest, nmtRun := some n }, sw := { s.sw with halted := true } })) ∧
    (s.boot ≠ .held → ∃ t, exec .chiprstWindowExpiry s = .next t ∧ getF t Fld.FC_STATUS_RST_COUNT = 0 ∧
      flag t Fld.FC_STATUS_RST_LIMIT = false ∧ Frame [] [Fld.FC_STATUS_RST_LIMIT.addr] s t) ∧
    (s.boot = .held → exec .chiprstWindowExpiry s = .next s) ∧
    ((s.fc.hist = [] ∨ histAllowed s = false) → exec (.historyWrite flips) s = .next s) ∧
    (s.fc.hist = e :: more → histAllowed s = true →
      ∃ t, exec (.historyWrite flips) s = .next t ∧ t.fc.hist = more ∧ t.fc.lastHist = some s.aon) ∧
    (mgtOn s = true → exec .fcAck s = .next (put 0x3C40 1) ∧ exec .fcClrSticky s = .next (put 0x3C40 2) ∧
      exec .fcRecordClear s = .next (put 0x3C08 0x80000000) ∧
      exec (.fcStickyClear high v) s = .next (put (if high then 0x3C2C else 0x3C28) v)) ∧
    (mgtOn s = true → (2 ≤ lcState s ∧ flag s Fld.GN_STATUS_SESS_AUTH = false) →
      exec (.fcForce high v) s = .next s ∧ exec (.fcInj v) s = .next s) ∧
    (mgtOn s = true → (lcState s < 2 ∨ flag s Fld.GN_STATUS_SESS_AUTH = true) →
      (namesReserved (if high then 32 else 0) v = false →
        exec (.fcForce high v) s = .next (put (if high then 0x3C58 else 0x3C54) v)) ∧
      (v.toNat / 2 ^ 16 % 2 ^ 8 ≠ 0 → exec (.fcInj v) s = .next (put 0x3C64 v))) ∧
    (flag s Fld.FC_FIRST_VALID = true →
      applyFcWrite s ⟨0x3C40, 1, 0xFFFFFFFF, none⟩ = setF Fld.FC_FIRST_ACKED 1 s ∧
      reg (applyFcWrite s ⟨0x3C08, 0x80000000, 0xFFFFFFFF, none⟩) Fld.FC_FIRST_VALID.addr = 0 ∧
      reg (applyFcWrite s ⟨0x3C08, 0x80000000, 0xFFFFFFFF, none⟩) Fld.FC_OVF_OVF.addr = 0) ∧
    (flag s Fld.FC_FIRST_VALID = false → applyFcWrite s ⟨0x3C40, 1, 0xFFFFFFFF, none⟩ = s ∧
      applyFcWrite s ⟨0x3C08, 0x80000000, 0xFFFFFFFF, none⟩ = s)

/-- A collection beside an unacknowledged record is merged into it and replaces none of its fields. While VALID is 1
and ACKED is 0, recording a collection sets its source's bit in FC_MERGE0 or FC_MERGE1 and no other source's, adds its
events to MCNT up to 8,191, and leaves every other field of the record, the time and the syndrome as they were. -/
def Obligations.MergedCollections : Prop :=
  ∀ (s : State) (j : Judged) (n : Nat), j.src < 64 → n < 64 →
    flag s Fld.FC_FIRST_VALID = true → flag s Fld.FC_FIRST_ACKED = false →
    let t := record j s
    bitF t (mergeField j.src) (j.src % 32) = true ∧
    (n ≠ j.src → bitF t (mergeField n) (n % 32) = bitF s (mergeField n) (n % 32)) ∧
    getF t Fld.FC_FIRST_MCNT = min 8191 (getF s Fld.FC_FIRST_MCNT + j.count) ∧
    (∀ f ∈ [Fld.FC_FIRST_VALID, Fld.FC_FIRST_ACKED, Fld.FC_FIRST_FORCED, Fld.FC_FIRST_PROMOTED, Fld.FC_FIRST_CLASS,
        Fld.FC_FIRST_REACT, Fld.FC_FIRST_SOURCE, Fld.FC_FTIMEL_TIME_LO, Fld.FC_FTIMEH_TIME_HI, Fld.FC_FSYNL_SYN_LO,
        Fld.FC_FSYNH_SYN_HI], getF t f = getF s f)

/-- A first collection is captured, a late one overflows, counts promote above THR, sticky bits stay while live. With
VALID 0 the collection's source, class, reactions, flags, time and syndrome make the record, with ACKED and MCNT 0.
With VALID and ACKED 1 it sets OVF and adds its events to OVF.COUNT, and the record stays. A count above THR promotes,
returns to 0 and counts one promotion; THR 0 never promotes. Every collection sets its sticky bit; a clearing write
clears it with its class and PIN latch unless the source is live. The reactions are RXN, with PRXN at a promotion. -/
def Obligations.RecordsCountsAndStickyBits : Prop :=
  ∀ (s : State) (j : Judged) (n k : Nat), j.src < 64 → j.cls < 4 → j.react < 32 → n < 64 →
    (flag s Fld.FC_FIRST_VALID = false →
      let t := record j s
      flag t Fld.FC_FIRST_VALID = true ∧ flag t Fld.FC_FIRST_ACKED = false ∧ getF t Fld.FC_FIRST_MCNT = 0 ∧
      getF t Fld.FC_FIRST_SOURCE = j.src ∧ getF t Fld.FC_FIRST_CLASS = j.cls ∧ getF t Fld.FC_FIRST_REACT = j.react ∧
      flag t Fld.FC_FIRST_PROMOTED = j.prom ∧ flag t Fld.FC_FIRST_FORCED = j.forced ∧
      getF t Fld.FC_FTIMEL_TIME_LO = s.aon.toNat % 2 ^ 32 ∧ getF t Fld.FC_FTIMEH_TIME_HI = s.aon.toNat / 2 ^ 32 ∧
      getF t Fld.FC_FSYNL_SYN_LO = j.syn.toNat % 2 ^ 32 ∧ getF t Fld.FC_FSYNH_SYN_HI = j.syn.toNat / 2 ^ 32) ∧
    (flag s Fld.FC_FIRST_VALID = true → flag s Fld.FC_FIRST_ACKED = true →
      let t := record j s
      flag t Fld.FC_OVF_OVF = true ∧ getF t Fld.FC_OVF_COUNT = min 65535 (getF s Fld.FC_OVF_COUNT + j.count) ∧
      reg t Fld.FC_FIRST_VALID.addr = reg s Fld.FC_FIRST_VALID.addr ∧
      bitF t (mergeField n) (n % 32) = bitF s (mergeField n) (n % 32)) ∧
    (getF s (Fld.FC_SRC_THR.bank n) = 0 → (countEvents n k s).1 = false) ∧
    (getF s (Fld.FC_SRC_THR.bank n) ≠ 0 →
      ((countEvents n k s).1 = true ↔ getF s (Fld.FC_SRC_THR.bank n) < getF s (Fld.FC_SCNT_WCOUNT.bank n) + k) ∧
      getF (countEvents n k s).2 (Fld.FC_SCNT_WCOUNT.bank n) =
        (if getF s (Fld.FC_SRC_THR.bank n) < getF s (Fld.FC_SCNT_WCOUNT.bank n) + k then 0
         else getF s (Fld.FC_SCNT_WCOUNT.bank n) + k)) ∧
    bitF (markSticky j s) (stickyField j.src) (j.src % 32) = true ∧
    (liveBit s n = true → stickyClear n s = s) ∧
    (liveBit s n = false →
      let t := stickyClear n s
      bitF t (stickyField n) (n % 32) = false ∧ bitF t (pinField n) (n % 32) = false ∧
      smGet (zeroDefault 2) t.fc.cls n = 0 ∧ t.fc.events = s.fc.events) ∧
    reactionSet s n false = getF s (Fld.FC_SRC_RXN.bank n) ∧
    reactionSet s n true = getF s (Fld.FC_SRC_RXN.bank n) ||| getF s (Fld.FC_SRC_PRXN.bank n)

/-- Tamper wipes Garnet and owes an erase; its latch clears only as R441 allows; keys and nonces come and go. A
recognised tamper clears Garnet, both keys and the session's authentication, sets the latch, clears ERASE_DONE and
owes the erase of the key records, with FS 59 in RUN and SERVICE. The erase, once owed and with AONRST_N high, empties
the key-record region and sets ERASE_DONE; in HOLD and DORMANT it is traced. Release clears TAMPER_NOW. A write to
TAMPER_CLR clears the latch only with TAMPER_N high, ERASE_DONE set and, where a console key demands it,
authentication. A seal key is generated only under R435's conditions. A nonce that is outstanding
lapses 30 s after it was issued. -/
def Obligations.KeysAndTamper : Prop :=
  ∀ (s : State) (flips : List (Nat × BitVec 72)) (k : Nat),
    (∃ t, exec .tamperRecognised s = .next t ∧ t.gn.words = [] ∧ t.gn.eraseDue = true ∧
      flag t Fld.GN_STATUS_TAMPER_LATCH = true ∧ flag t Fld.GN_STATUS_TAMPER_NOW = true ∧
      flag t Fld.GN_STATUS_ERASE_DONE = false ∧ flag t Fld.GN_STATUS_SEAL_KEY = false ∧
      flag t Fld.GN_STATUS_CON_KEY = false ∧ flag t Fld.GN_STATUS_SESS_AUTH = false ∧
      getF t Fld.GN_TAMPT_TIME = s.aon.toNat % 2 ^ 32 ∧ t.kp = s.kp ∧ t.ld = s.ld) ∧
    (s.gn.eraseDue = true → s.boot ≠ .held →
      ∃ t, exec .keyRecordErase s = .next t ∧ flag t Fld.GN_STATUS_ERASE_DONE = true ∧ t.gn.eraseDue = false ∧
        (keepRegion (8 * k) = 7 → keepStored t k = 0) ∧ (keepRegion (8 * k) ≠ 7 → keepStored t k = keepStored s k) ∧
        t.gn.words = s.gn.words) ∧
    ((s.gn.eraseDue = false ∨ s.boot = .held) → exec .keyRecordErase s = .next s) ∧
    exec .tamperNRelease s = .next (setF Fld.GN_STATUS_TAMPER_NOW 0 s) ∧
    (mgtOn s = true → flag s Fld.GN_STATUS_TAMPER_NOW = false → flag s Fld.GN_STATUS_ERASE_DONE = true →
      (flag s Fld.GN_STATUS_CON_KEY = false ∨ lcState s < 2 ∨ flag s Fld.GN_STATUS_SESS_AUTH = true) →
      exec .tamperClr s = .next (setF Fld.GN_STATUS_TAMPER_LATCH 0 { s with gn := { s.gn with tamperMode := none } })) ∧
    ((flag s Fld.GN_STATUS_TAMPER_NOW = true ∨ flag s Fld.GN_STATUS_ERASE_DONE = false ∨
      (flag s Fld.GN_STATUS_CON_KEY = true ∧ 2 ≤ lcState s ∧ flag s Fld.GN_STATUS_SESS_AUTH = false)) →
      exec .tamperClr s = .next s) ∧
    (mayGenerate false s = true ↔ flag s Fld.GN_STATUS_SEAL_KEY = false ∧ peekKey s 1 = none ∧
      flag s Fld.GN_STATUS_TAMPER_LATCH = false ∧ s.gn.eraseDue = false ∧ lcState s ≠ 4 ∧
      (served s = true ∨ inService s = true) ∧ saving s = false) ∧
    (mayGenerate false s = false → exec (.sealKeyGenerate flips) s = .next s) ∧
    (mgtOn s = true → mayGenerate false s = true →
      ∃ t, exec (.sealKeyGenerate flips) s = .next t ∧
        (flag t Fld.GN_STATUS_SEAL_KEY = true ↔
          (storeKey 1 (Config.drawnKey s.draws) (topKeygen s 1 + 1) flips (drew s)).1 = true)) ∧
    ((nonceOut s = false ∨ nonceOld s = false) → exec .nonceLapse s = .next s) ∧
    (nonceOut s = true → nonceOld s = true → exec .nonceLapse s = .next (lapseNonce s) ∧ nonceOut (lapseNonce s) = false)

/-- One partner holds the console; its command meets the checks in order, and the first that fails answers. While the
console is down a command has no effect; from the partner that does not hold the lease it is counted as refused input;
a free lease is taken by the sender, whose command then acts as the holder's. A command whose first failing check is
answered with that error; beside the answer a refused command has no effect, but a register write, a save trigger and a
ledger access may report or trace the refusal. The checks come in the order object, E40, E50,
E20, E21, E30. Work with eight tokens outstanding answers E30 and nothing begins; with fewer it begins under a token
that was free. -/
def Obligations.ConsoleJudgesCommands : Prop :=
  ∀ (v : Transport) (c : ConCmd) (env : ConEnv) (s : State) (e : ErrCode) (what : Nat) (run : State → State),
    (consoleUp s = false → conLine v c env s = s) ∧
    (consoleUp s = true → holder s ≠ 0 → holder s ≠ holderCode v → conLine v c env s = refuseInput 1 s) ∧
    (consoleUp s = true → holder s = 0 →
      holder (takeLease v s) = holderCode v ∧ conLine v c env s = conLine v c env (takeLease v s)) ∧
    (consoleUp s = true → holder s = holderCode v → judgeCmd v c (hear s) = some e →
      conLine v c env s = reply (nextSeq s) "\n" (fails e (refusedCmd e c env (working s)))) ∧
    (consoleUp s = true → holder s = holderCode v → judgeCmd v c (hear s) = none →
      conLine v c env s = reply (nextSeq s) "\n" (effectCmd v c env (working s))) ∧
    ((∀ a x, c ≠ .wr a x) → c ≠ .saveNow → (∀ l x, c ≠ .ledgerRd l x) → (∀ l x h o, c ≠ .ledgerWr l x h o) →
      refusedCmd e c env s = s) ∧
    (∀ o, objectError c = some o → judgeCmd v c s = some o) ∧
    (objectError c = none → noAuth v c s = true → judgeCmd v c s = some .e40) ∧
    (objectError c = none → noAuth v c s = false → wrongMode c s = true → judgeCmd v c s = some .e50) ∧
    (objectError c = none → noAuth v c s = false → wrongMode c s = false → argsBad c s = true →
      judgeCmd v c s = some .e20) ∧
    (objectError c = none → noAuth v c s = false → wrongMode c s = false → argsBad c s = false → locked c s = true →
      judgeCmd v c s = some .e21) ∧
    (objectError c = none → noAuth v c s = false → wrongMode c s = false → argsBad c s = false → locked c s = false →
      judgeCmd v c s = (if resourceBusy c s then some .e30 else none)) ∧
    (8 ≤ s.con.tokens.length → defers what run s = fails .e30 s) ∧
    (s.con.tokens.length < 8 → s.con.nextToken < 256 → (∀ t ∈ s.con.tokens, t.1 < 256) →
      ∃ tok, tok < 256 ∧ tok ∉ s.con.tokens.map (·.1) ∧
        defers what run s = ⟨[errLine .e31 ("tok=" ++ hexStr 2 tok)], .nothing,
          run { s with con := { s.con with tokens := s.con.tokens ++ [(tok, what)], nextToken := (tok + 1) % 256 } }⟩)

/-- What the accepted commands from help to keep config do and answer. A command of the lease holder that passes every
check has its own effect and is answered: help and show print, get and set read and set a policy, rd and wr read and
write a register, commit and discard act on the staged values, save now triggers, train dram trains a rank, cal store
stores, cal hold and enable set their field, set, wr, cal hold and cal enable answer E31 where their effect waits, lane erase and readmit ask for the change, ledger rd and wr use the
window, and the keep commands begin their work under a token. The two GL_COMMIT writes act as the commands do. -/
def Obligations.ConsoleRowsThatReadAndSet : Prop :=
  ∀ (s : State) (via : Transport) (verb arg : Option String) (object name value engine : String) (addr v : Nat)
    (env : ConEnv) (rank lane line word hi lo : Nat) (train : RankTrain) (flips : List (Nat × BitVec 72))
    (dram on held collide hct : Bool) (gen : Option Nat) (x : ShowObj) (p : Policy) (f : Field) (run : State → State),
    let w := working s
    (Accepted via (.help verb) s → exec (.conHelp via verb) s = Answered s (replies (helpLines verb) w)) ∧
    (Accepted via (.shows (some object) arg) s → objectOf object = some x →
      exec (.conShow via object arg) s = Answered s (replies (showLines x arg w) w)) ∧
    (Accepted via (.get (some name)) s → policyOf name = some p →
      exec (.conGet via name) s = Answered s (replies ["ok " ++ p.name ++ "=" ++ policyText w p] w)) ∧
    (Accepted via (.set (some name) (some value)) s → policyOf name = some p →
      exec (.conSet via name value) s =
        Answered s (changes p.field.addr (setPolicy p ((policyValue p value).getD 0)) w)) ∧
    (Accepted via (.rd (some addr)) s → exec (.conRd via addr) s =
      Answered s (replies ["ok " ++ hexWord (readReg addr w).1.toNat] (readReg addr w).2)) ∧
    (Accepted via (.wr (some addr) (some v)) s → exec (.conWr via addr v env) s =
      Answered s (changes addr (writeEffect addr (BitVec.ofNat 32 v) env) w)) ∧
    (changeWaits addr s (run s) = 0 → changes addr run s = okay (run s)) ∧
    (changeWaits addr s (run s) ≠ 0 → changes addr run s = defers (changeWaits addr s (run s)) run s) ∧
    (Accepted via .commit s → commitFails s = none →
      exec (.conCommit via) s = Answered s (okOrDefers tokCommit (fun t => !commitPending t) (fun t => (commitNow t).2) w)) ∧
    (Accepted via .discard s → exec (.conCommitDiscard via) s = Answered s (okay { w with staged := [] })) ∧
    (mgtOn s = true → exec .glCommitWrite s = .next (commitNow s).2 ∧ exec .glDiscardWrite s = .next { s with staged := [] }) ∧
    (commitPending s = true → (commitNow s).2 = s) ∧
    (Accepted via .saveNow s → exec (.saveNowCmd via) s = Answered s (okay (saveTrigger 0x04 w))) ∧
    (Accepted via (.trainDram (some rank)) s → exec (.trainDram via rank train flips) s =
      Answered s (defersDone (trainOne rank train flips) w)) ∧
    (Accepted via .calStore s → s.kp.commit = none →
      let t := calStoreEnd s.kp.calDue flips (calStoreStart w)
      exec (.calStore via flips) s = Answered s
        (if flag t Fld.CB_STATUS_LAST_STORE_FAIL then fails .e60 t else okay t)) ∧
    (Accepted via (.calHold (some (dram, lane)) (some on)) s → exec (.calHold via dram lane on) s = Answered s
      (changes (holdField dram lane).addr (fun t => switchEffect (setB (holdField dram lane) on t)) w)) ∧
    (Accepted via (.calEnable (some engine) (some on)) s → engineOf engine = some f →
      exec (.calEnable via engine on) s = Answered s
        (changes f.addr (fun t => switchEffect (setB f on t)) w)) ∧
    (Accepted via (.laneErase (some rank) (some lane) true) s → exec (.laneErase via rank lane true) s = Answered s
      (okOrDefers (if namesSecond w rank lane then waitSecond rank else waitErase rank) freePoint (eraseAsk rank lane) w)) ∧
    (Accepted via (.laneReadmit (some rank) (some lane) true) s → exec (.laneReadmit via rank lane true) s = Answered s
      (okOrDefers (waitReadmit rank) freePoint (readmitAsk rank) w)) ∧
    (Accepted via (.ledgerRd (some line) none) s → exec (.ledgerRd via line none held) s =
      Answered s (runLineRead line held w)) ∧
    (Accepted via (.ledgerRd (some line) (some (some word))) s → exec (.ledgerRd via line (some word) held) s =
      Answered s (runWordRead line word held w)) ∧
    (Accepted via (.ledgerWr (some line) (some word) (some hi) (some lo)) s →
      exec (.ledgerWr via line word hi lo held collide) s = Answered s (runWordWrite line word hi lo held collide w)) ∧
    (Accepted via .keepCheckpoint s → exec (.keepCheckpointCmd via flips) s =
      Answered s (defers tokCheckpoint (checkpointStart flips) w)) ∧
    (Accepted via .keepRefresh s → exec (.keepRefreshCmd via flips) s =
      Answered s (defers tokRefresh (refreshStart flips) w)) ∧
    (Accepted via (.cfgStore (gen.map some)) s → exec (.keepConfigStore via gen) s =
      Answered s (defers tokCfgStore (cfgStoreBegin gen) w)) ∧
    (Accepted via (.cfgLoad (if hct then some true else none)) s → exec (.keepConfigLoad via hct) s =
      Answered s (runCfgLoad hct w))

/-- What the accepted commands from fault ack to ca unblock do and answer. A command of the lease holder that passes
every check has its own effect and is answered: the fault commands write the collector's registers for the next tick,
the twin commands act on the link, trace show prints, auth begin draws a nonce, prove judges a proof, end ends the
session, install stores a key, lifecycle advance blows the fuses, test march, abort and repair act on the engine,
reset chip resets once the reply is out, the mode commands change the session or begin SERVICE and RUN, and ca unblock
asks the block off. -/
def Obligations.ConsoleRowsThatOperate : Prop :=
  ∀ (s : State) (via : Transport) (n src : Nat) (synh synl last : Option Nat) (what : ClearWhat) (inj : Inject)
    (fields : FaultFields) (aon : Bool) (proof : BitVec 128) (key : BitVec 256) (flips : List (Nat × BitVec 72))
    (target bank spare col : Nat) (stuck : BitVec 4) (stuck9 : BitVec 9) (keys : MarchKeys)
    (reads : List MarchRead) (b : BringUp) (checks : List RankCheck),
    let w := working s
    let put := fun (a : Nat) (v m : Word) => { w with fc := { w.fc with writes := w.fc.writes ++ [⟨a, v, m, none⟩] } }
    (Accepted via .faultAck s → exec (.faultAck via) s = Answered s (okay (put 0x3C40 1 0xFFFFFFFF))) ∧
    (Accepted via (.faultClear (some what)) s → exec (.faultClear via what) s = Answered s (runClear what w)) ∧
    (Accepted via (.faultClear (some .record)) s →
      exec (.faultClear via .record) s = Answered s (okay (put 0x3C08 0x80000000 0xFFFFFFFF))) ∧
    (Accepted via (.faultForce (some n) (synh.map some) (synl.map some)) s → exec (.faultForce via n synh synl) s =
      Answered s (runForce n (synh.getD 0) (synl.getD 0) w)) ∧
    (Accepted via (.faultInject (some inj)) s → exec (.faultInject via inj) s = Answered s
      (okay (put 0x3C64 (BitVec.ofNat 32 (injectWrite inj).1) (BitVec.ofNat 32 (injectWrite inj).2)))) ∧
    (Accepted via (.faultConfig (some src) (some fields)) s → exec (.faultConfig via src fields) s =
      Answered s (runConfig src fields w)) ∧
    (Accepted via (.twin .resume) s → exec (.twinResume via) s = Answered s (okay (resumeResync w))) ∧
    (Accepted via (.twin .resync) s → exec (.twinResync via) s = Answered s
      (okay (if flag s Fld.TW_STATUS_REPL_RUN then fullRequest w else w))) ∧
    (Accepted via (.twin .retrain) s → exec (.twinRetrain via) s = Answered s (okay (retrain w))) ∧
    (Accepted via (.traceShow aon (last.map some)) s → exec (.traceShow via aon last) s = Answered s
      (replies (traceLines (if aon then s.tr.fifo else s.tr.ring) (last.getD 16)) w)) ∧
    (Accepted via .authBegin s → exec (.authBegin via) s = Answered s
      (replies ["ok nonce=" ++ hexStr 16 (Config.authNonce s.draws).toNat] (authDraw (transportByte via) w).2)) ∧
    (Accepted via (.authProve proof) s → exec (.authProve via proof) s = Answered s
      (if (authJudge (transportByte via) proof w).1 then replies ["ok auth"] (authJudge (transportByte via) proof w).2
       else fails .e41 (authJudge (transportByte via) proof w).2)) ∧
    (Accepted via .authEnd s → exec (.authEnd via) s = Answered s ⟨["ok"], .endSession, w⟩) ∧
    (Accepted via (.authInstall key) s → exec (.authInstall via key flips) s = Answered s (runInstall key flips w)) ∧
    (Accepted via (.lifecycle (some target) true) s → exec (.lifecycleAdvance via target true stuck) s = Answered s
      (if flag (lcTransition target stuck w) Fld.GN_STATUS_LC_FAIL then fails .e60 (lcTransition target stuck w)
       else okay (lcTransition target stuck w))) ∧
    (Accepted via (.testMarch (some keys)) s → exec (.testMarch via keys) s =
      Answered s (okay (marchStart (marchKeys keys w)))) ∧
    (Accepted via .testAbort s → exec (.testAbort via reads) s =
      Answered s (defers tokMarch (marchEnd true reads) w)) ∧
    (Accepted via (.testRepair (some bank) (some spare) (some col)) s →
      exec (.testRepair via bank spare col stuck9) s = Answered s (runRepair bank spare col stuck9 w)) ∧
    (Accepted via (.resetChip true) s → exec (.resetChip via true) s = Answered s ⟨["ok"], .chip, w⟩) ∧
    (Accepted via .modeScript s → exec (.modeScript via) s = Answered s ⟨["ok script"], .script, w⟩) ∧
    (Accepted via .modeHuman s → exec (.modeHuman via) s = Answered s ⟨["ok"], .human, w⟩) ∧
    (Accepted via .modeService s → exec (.modeService via) s = Answered s (defers tokService serviceBegin w)) ∧
    (Accepted via .modeRun s → exec (.modeRun via b checks) s = Answered s (defers tokRun (serviceRun b checks) w)) ∧
    (Accepted via .caUnblock s → exec (.caUnblock via) s = Answered s
      (okay (if flag s Fld.CA_STATUS_PAR_BLOCKED then { w with ca := { w.ca with clearing := true } } else w))) ∧
    (consoleUp s = false → exec (.faultAck via) s = .next s ∧ exec (.resetChip via true) s = .next s ∧
      exec (.modeScript via) s = .next s)

/-- The UART and the I3C target: bytes, lines, private transfers, in-band interrupts and CCCs. While the console is
up: a UART line end runs the line of the holder, taking a free lease; bytes of the transport that does not hold the
lease are counted as refused; a lost byte spoils the line. Edges that fit a CR, of a rate within the limits, set the rate. A
frame met by a stopped MCLK is counted. A lease lapses when its time has passed since the holder's last byte. A private
write takes the free lease and fills the input, and is ended by a NACK where the input has no room; a private read gives at
most MRL queued bytes, and a NACK without them. An in-band interrupt is sent, retried three times and then dropped and
counted. Each CCC sets or reports its own value, and another is NACKed; a SETDASA to another static address is not this
device's. That the five intervals of a CR measure the bit time is the model's inference (log entry 69). -/
def Obligations.ConsoleTransports : Prop :=
  ∀ (s : State) (env : ConEnv) (byte : Byte) (edges : CrEdges) (len : Nat) (bytes : List Byte) (addr other : BitVec 7)
    (i : Ibi) (rest : List Ibi) (full nacked : Bool),
    let say := fun (a : Option (List Byte)) (t : State) => { t with con := { t.con with answer := a } }
    let rx := rxByte s
    let got := fun (t : State) => goOn env (bufferInput bytes
      (say (if t.con.input.length + bytes.length ≤ 256 then some [] else none) (hear t)))
    let rate := 9 * 3200000000 / (edges.low1 + edges.high1 + edges.low2 + edges.high2 + edges.low3)
    let mine : BitVec 7 := if flag s Fld.GL_STRAP_TWIN_POS then 0x5B else 0x5A
    (consoleUp s = false → exec (.uartLine env) s = .next s ∧ exec (.uartFrame byte full) s = .next s ∧
      exec (.uartAutobaud edges) s = .next s ∧ exec .conRxWake s = .next s ∧
      exec (.i3cPrivateWrite bytes env) s = .next s ∧
      exec (.i3cPrivateRead len env) s = .next s ∧ exec (.ibiRetry nacked) s = .next s ∧ exec .enec s = .next s ∧
      exec (.entdaa addr) s = .next s ∧ exec .getpid s = .next s ∧ exec .otherCcc s = .next s) ∧
    (consoleUp s = true →
      (holder s = 1 → exec (.uartLine env) s = .next (lineEnd .uart env rx)) ∧
      (holder s = 0 → exec (.uartLine env) s = .next (lineEnd .uart env (takeLease .uart rx))) ∧
      (holder s = 2 → exec (.uartLine env) s = .next (refuseInput 1 rx) ∧
        exec (.uartFrame byte full) s = .next (refuseInput 1 rx)) ∧
      (holder s ≠ 2 → exec (.uartFrame byte true) s = .next { rx with con := { rx.con with overrun := true } } ∧
        (byte ≠ 0x0D#8 → byte ≠ 0x0A#8 → exec (.uartFrame byte false) s = .next (lineByteIn byte rx)) ∧
        exec (.uartFrame 0x0D#8 false) s = .next rx) ∧
      (rx.con.tx = [] ∧ (holder s ≠ 2 → rx.con.heard = s.aon) ∧ Frame [.con] [] s rx) ∧
      (flag s Fld.CN_CFG_AUTOBAUD = true → isCr edges = true → 9600 ≤ rate → rate ≤ 3000000 →
        exec (.uartAutobaud edges) s = .next (setF Fld.CN_UART_BAUD (rate / 100) s)) ∧
      ((flag s Fld.CN_CFG_AUTOBAUD = false ∨ isCr edges = false ∨ rate < 9600 ∨ 3000000 < rate) →
        exec (.uartAutobaud edges) s = .next s) ∧
      (mclkStopped s = true → exec .conRxWake s = .next (incF Fld.CN_STAT1_WAKELOST s)) ∧
      (mclkStopped s = false → exec .conRxWake s = .next s) ∧
      (holder s = 1 → exec (.i3cPrivateWrite bytes env) s = .next (say (some []) (refuseInput 1 s))) ∧
      (holder s = 2 → exec (.i3cPrivateWrite bytes env) s = .next (got s)) ∧
      (holder s = 0 → exec (.i3cPrivateWrite bytes env) s = .next (got (takeLease .i3c s))) ∧
      ((holder s ≠ 2 ∨ s.con.out = []) → exec (.i3cPrivateRead len env) s = .next (say none s)) ∧
      (holder s = 2 → s.con.out ≠ [] →
        let n := min len (getF s Fld.CN_I3C_MRL)
        exec (.i3cPrivateRead len env) s = .next (goOn env (pump
          { s with con := { s.con with out := s.con.out.drop n, answer := some (s.con.out.take n) } }))) ∧
      (s.con.ibis = i :: rest → flag s Fld.CN_I3C_DA_VALID = true → flag s Fld.CN_I3C_IBI_EN = true →
        exec (.ibiRetry false) s = .next { s with con := { s.con with ibis := rest } } ∧
        (i.tries < 3 → exec (.ibiRetry true) s =
          .next { s with con := { s.con with ibis := { i with tries := i.tries + 1 } :: rest } }) ∧
        (3 ≤ i.tries → exec (.ibiRetry true) s =
          .next (incF Fld.CN_STAT2_IBILOST { s with con := { s.con with ibis := rest } }))) ∧
      exec .enec s = .next (say (some []) (setF Fld.CN_I3C_IBI_EN 1 s)) ∧
      exec .disec s = .next (say (some []) (setF Fld.CN_I3C_IBI_EN 0 s)) ∧
      exec .rstdaa s = .next (say (some []) (setF Fld.CN_I3C_DA 0 (setF Fld.CN_I3C_DA_VALID 0 s))) ∧
      (other ≠ mine → exec (.setdasa other addr) s = .next s) ∧
      (flag s Fld.CN_I3C_DA_VALID = false →
        exec (.entdaa addr) s = .next (say (some []) (setF Fld.CN_I3C_DA addr.toNat (setF Fld.CN_I3C_DA_VALID 1 s))) ∧
        exec (.setdasa mine addr) s =
          .next (say (some []) (setF Fld.CN_I3C_DA addr.toNat (setF Fld.CN_I3C_DA_VALID 1 s))) ∧
        exec (.setnewda addr) s = .next (say none s)) ∧
      (flag s Fld.CN_I3C_DA_VALID = true →
        exec (.setnewda addr) s = .next (say (some []) (setF Fld.CN_I3C_DA addr.toNat (setF Fld.CN_I3C_DA_VALID 1 s))) ∧
        exec (.entdaa addr) s = .next (say none s) ∧ exec (.setdasa mine addr) s = .next (say none s)) ∧
      (16 ≤ len → len ≤ 256 → exec (.setmrl len) s = .next (say (some []) (setF Fld.CN_I3C_MRL len s)) ∧
        exec (.setmwl len) s = .next { s with con := { s.con with mwl := len, answer := some [] } }) ∧
      ((len < 16 ∨ 256 < len) → exec (.setmrl len) s = .next (say none s) ∧ exec (.setmwl len) s = .next (say none s)) ∧
      exec .getpid s = .next (say (some (beBytes 6 (0x03A7 * 2 ^ 33 + 0x6800 * 2 ^ 16
        + b2n (flag s Fld.GL_STRAP_TWIN_POS) * 2 ^ 12 + 1))) s) ∧
      exec .getbcr s = .next (say (some [0x06#8]) s) ∧ exec .getdcr s = .next (say (some [0x00#8]) s) ∧
      exec .getmrl s = .next (say (some (beBytes 2 (getF s Fld.CN_I3C_MRL) ++ [0x02#8])) s) ∧
      exec .getmwl s = .next (say (some (beBytes 2 s.con.mwl)) s) ∧
      (∃ low, exec .getstatus s = .next (say (some [BitVec.ofNat 8 (holder s), low]) { s with draws := s.draws + 1 })) ∧
      exec .otherCcc s = .next (say none s)) ∧
    (s.con.ibis = [] → exec (.ibiRetry nacked) s = .next s) ∧
    (ticksSince s.aon s.con.heard < getF s Fld.CN_CFG_LEASE * ticksPerS → exec .leaseLapse s = .next s) ∧
    (holder s = 0 → exec .leaseLapse s = .next s) ∧
    (holder s ≠ 0 → getF s Fld.CN_CFG_LEASE * ticksPerS ≤ ticksSince s.aon s.con.heard →
      ∃ t, exec .leaseLapse s = .next t ∧ holder t = 0 ∧ t.staged = [] ∧ t.con.tokens = [] ∧
      t.con.out = [] ∧ t.con.events = [] ∧ flag t Fld.GN_STATUS_SESS_AUTH = false)

/-- Register writes and latched reads, the CA_CLR and TR_CTRL bits, the sensors, and the TAP's instructions. An
address that names no register reads 0 with no effect, E11 inside 0x0000 to 0x4FFF and E20 outside or unaligned; an
accepted write has its effect and a refused one none (E21 of sticky bits apart), but that a window access which R253 refuses
is reported in LD_ECMD. Writing one register gives RW bits
the value and clears W1C bits. Reading a first register latches its companions. CA_CLR asks the parity block off,
clears CA_RSVHIT or CA_ALERT; TR_CTRL.CLEAR empties the ring. A conversion stores saturated codes, and a threshold
that is reached raises its source once. IDCODE puts 0x1680_074F between TDI and TDO, 32 bits; every opcode that no
instruction has, and EXTEST and SAMPLE where the life cycle closes them, the one bit of BYPASS; EXTEST, only in SERVICE, puts
every output ball at the level of its data cell while its enable cell is 1, and else at high impedance (the meaning of the
enable cell is the model's, log entry 60); elsewhere the device's function drives it; SAMPLE captures the balls, then takes
what is preloaded; a low TRST_N loads IDCODE. -/
def Obligations.RegistersSensorsAndTap : Prop :=
  ∀ (s : State) (a b : Nat) (v : Word) (env : ConEnv) (r : RegRow) (t0 t1 t2 t3 : Int) (n : Nat) (cells captured : BitVec 449)
    (preload : Option (BitVec 449)) (h : Nat × Int) (op : BitVec 4) (ball : Ball),
    ((0x5000 ≤ a ∨ a % 4 ≠ 0) → readAddr a s = (some .e20, 0, s) ∧ writeAddr a v env s = (some .e20, s)) ∧
    (a < 0x5000 → a % 4 = 0 → regRow a = none → readAddr a s = (some .e11, 0, s) ∧ writeAddr a v env s = (some .e11, s)) ∧
    (mgtOn s = true → writeError s a v = none → exec (.registerWrite a v env) s = .next (writeEffect a v env s)) ∧
    (∀ e, writeError s a v = some e → e ≠ .e21 → a ≠ 0x283C → exec (.registerWrite a v env) s = .next s) ∧
    (mgtOn s = true → coreOn s = true → writeError s 0x283C v = some .e50 → exec (.registerWrite 0x283C v env) s =
      .next (windowStatus false false false true false s)) ∧
    (mgtOn s = false → exec (.registerWrite a v env) s = .next s) ∧
    (regRow a = some r → r.rws = 0 → reg (plainWrite a v s) a =
      (((reg s a &&& ~~~BitVec.ofNat 32 (r.rw ||| r.rwl)) ||| (v &&& BitVec.ofNat 32 (r.rw ||| r.rwl)))
        &&& ~~~(v &&& BitVec.ofNat 32 r.w1c)) &&& regMask a) ∧
    (a < 0x5000 → a % 4 = 0 → (regRow a).isSome = true → regPowered s a = true → isLatched a = false → a ≠ 0x2108 →
      ∃ t, exec (.latchedPairRead a) s = .next t ∧ t.regs = s.regs ∧
        (b ∈ latchesOf a → (readReg b t).1 = viewReg s b) ∧ Frame [.latch] [] s t) ∧
    (isLatched a = true → exec (.latchedPairRead a) s = .next s) ∧
    (coreOn s = true → mgtOn s = true →
      exec .caClrUnblock s = .next (if flag s Fld.CA_STATUS_PAR_BLOCKED then { s with ca := { s.ca with clearing := true } } else s) ∧
      exec .caClrRsvhit s = .next (setReg Fld.CA_RSVHIT_COUNT.addr 0 s) ∧
      exec .caClrAlert s = .next (setF Fld.CA_ALERT_PULSES 0 (setF Fld.CA_ALERT_MERGED 0 s))) ∧
    (coreOn s = true → flag s Fld.TR_STATUS_RUNNING = false →
      exec .trClear s = .next { s with tr := { s.tr with ring := [] } }) ∧
    (coreOn s = true → flag s Fld.TR_STATUS_RUNNING = true → flag s Fld.TR_CTRL_FREEZE = false →
      ∃ t, exec .trClear s = .next t ∧ t.tr.ring = [⟨s.aon, 0x0001, 0⟩]) ∧
    (coreOn s = false → exec .trClear s = .next s ∧ exec .caClrUnblock s = .next s ∧ exec .caClrRsvhit s = .next s ∧
      exec .caClrAlert s = .next s) ∧
    (mgtOn s = true → exec (.sensorConversion t0 t1 t2 t3) s = .next (sensorEnd [t0, t1, t2, t3] s)) ∧
    (mgtOn s = false → exec (.sensorConversion t0 t1 t2 t3) s = .next s) ∧
    (n < 4 → getF (sensorStore n t0 s) (Fld.SN_TEMP_CODE.at n) = unsigned 16 (max (-240) (min 600 t0)) ∧
      flag (sensorStore n t0 s) (Fld.SN_TEMP_VALID.at n) = true ∧
      ((t0 < -240 ∨ 600 < t0) → (sensorStore n t0 s).fc.events = addEvents s.fc.events 58 1 (BitVec.ofNat 64 (synFs58 n t0)))) ∧
    (flag s Fld.SN_STATUS_WARN_ON = false → (getF s Fld.SN_THR_WARN : Int) * 4 ≤ h.2 →
      let u := thresholdStep Fld.SN_STATUS_WARN_ON (getF s Fld.SN_THR_WARN) 56 1 h s
      flag u Fld.SN_STATUS_WARN_ON = true ∧
        u.fc.events = addEvents s.fc.events 56 1 (BitVec.ofNat 64 (synTemp h.1 (unsigned 16 h.2)))) ∧
    (flag s Fld.SN_STATUS_WARN_ON = true → ((getF s Fld.SN_THR_WARN : Int) - getF s Fld.SN_THR_HYST) * 4 ≤ h.2 →
      thresholdStep Fld.SN_STATUS_WARN_ON (getF s Fld.SN_THR_WARN) 56 1 h s = s) ∧
    idcode = 0x1680074F ∧ irIdcode = 0x1 ∧ irBypass = 0xF ∧
    (tapUp s = true →
      exec .tapIdcode s = .next { s with tap := { s.tap with ir := 0x1, bypass := false } } ∧
      exec .trstNLow s = .next { s with tap := { s.tap with ir := 0x1, bypass := false } } ∧
      (2 < op.toNat → exec (.tapBypass op) s = .next { s with tap := { s.tap with ir := op, bypass := false } }) ∧
      (inService s = true → tapOpen s = true → exec (.tapExtest cells) s = .next { s with tap := ⟨0x0, cells, false⟩ }) ∧
      ((inService s = false ∨ tapOpen s = false) →
        exec (.tapExtest cells) s = .next { s with tap := { s.tap with ir := 0xF, bypass := false } }) ∧
      (tapOpen s = true → exec (.tapSamplePreload preload captured) s =
        .next { s with tap := ⟨0x2, preload.getD (boundaryCapture s captured), false⟩ }) ∧
      (tapOpen s = false → exec (.tapSamplePreload preload captured) s =
        .next { s with tap := { s.tap with ir := 0xF, bypass := false } })) ∧
    (s.tap.ir = 0x1 → tapData s = (32, 0x1680074F)) ∧
    ((2 < s.tap.ir.toNat ∨ (s.tap.ir ≠ 0x1 ∧ tapOpen s = false) ∨ (s.tap.ir = 0x0 ∧ inService s = false)) →
      tapData s = (1, b2n s.tap.bypass) ∧ ballDrive s ball = functionDrive s ball) ∧
    (tapUp s = true → tapOpen s = true → inService s = true → s.tap.ir = 0x0 → ball.sig.kind ≠ .input →
      ballDrive s ball = (if s.tap.boundary.getLsbD (cellAt ball .enable)
        then .level (s.tap.boundary.getLsbD (cellAt ball .data)) else .highZ)) ∧
    (ball.sig.kind = .input → ballDrive s ball = functionDrive s ball) ∧
    (tapUp s = false → exec .tapIdcode s = .next s ∧ exec .trstNLow s = .next s ∧ exec (.tapBypass op) s = .next s ∧
      exec (.tapExtest cells) s = .next s ∧ exec (.tapSamplePreload preload captured) s = .next s)
end

