-- ==== Sys2Proof/Laws/Sparse.lean ====
section
/-! SUPPORT. The laws of the sparse maps: a read after a write of the same key gives the value written, a write leaves every
other key alone, and writing, erasing and dropping keep the canonical form. -/

namespace Sys2Proof.Machine

variable {w : Nat} {d : Nat → BitVec w}

theorem smErase_cons (e : Nat × BitVec w) (t : SMap w) (k : Nat) :
    smErase (e :: t) k = if e.1 = k then smErase t k else e :: smErase t k := by
  by_cases h : e.1 = k <;> simp [smErase, h]

theorem smGet_erase_same (m : SMap w) (k : Nat) : smGet d (smErase m k) k = d k := by
  induction m with
  | nil => rfl
  | cons e t ih => by_cases h : e.1 = k <;> simp [smErase_cons, h, smGet, ih]

theorem smGet_erase_other (m : SMap w) {k j : Nat} (h : j ≠ k) : smGet d (smErase m k) j = smGet d m j := by
  induction m with
  | nil => rfl
  | cons e t ih =>
    rw [smErase_cons]
    split
    · rename_i he
      rw [ih, smGet, if_neg (fun x => h (x.symm.trans he))]
    · simp only [smGet, ih]

theorem smGet_insert (m : SMap w) (k j : Nat) (v : BitVec w) (h : ∀ e ∈ m, e.1 ≠ k) :
    smGet d (smInsert m k v) j = if j = k then v else smGet d m j := by
  induction m with
  | nil => simp [smInsert, smGet, eq_comm]
  | cons e t ih =>
    have hk : e.1 ≠ k := h e (by simp)
    have ht := ih (fun x hx => h x (by simp [hx]))
    unfold smInsert
    split
    · simp [smGet, eq_comm]
    · by_cases hj : e.1 = j
      · rw [smGet, if_pos hj, if_neg (fun x => hk (hj.trans x)), smGet, if_pos hj]
      · rw [smGet, if_neg hj, ht, smGet, if_neg hj]

theorem smErase_ne (m : SMap w) (k : Nat) : ∀ e ∈ smErase m k, e.1 ≠ k := by
  intro e he
  simpa using (List.mem_filter.mp he).2

/-- A read after a write of the same key gives the value written. -/
theorem smGet_smSet_same (m : SMap w) (k : Nat) (v : BitVec w) : smGet d (smSet d m k v) k = v := by
  unfold smSet
  split
  · rename_i h; rw [smGet_erase_same, h]
  · rw [smGet_insert _ _ _ _ (smErase_ne m k)]; simp

/-- A write leaves every other key alone. -/
theorem smGet_smSet_other (m : SMap w) {k j : Nat} (v : BitVec w) (h : j ≠ k) :
    smGet d (smSet d m k v) j = smGet d m j := by
  unfold smSet
  split
  · exact smGet_erase_other m h
  · rw [smGet_insert _ _ _ _ (smErase_ne m k), if_neg h, smGet_erase_other m h]

/-! ### The canonical form -/

/-- The canonical form as two facts about the list. -/
theorem smWf_iff (m : SMap w) :
    smWf d m = true ↔ m.Pairwise (fun a b => a.1 < b.1) ∧ ∀ e ∈ m, e.2 ≠ d e.1 := by
  have hs : smSorted m = true ↔ m.Pairwise (fun a b => a.1 < b.1) := by
    induction m with
    | nil => simp [smSorted]
    | cons a t ih =>
      cases t with
      | nil => simp [smSorted]
      | cons b u =>
        simp only [smSorted, Bool.and_eq_true, decide_eq_true_eq, ih, List.pairwise_cons]
        constructor
        · rintro ⟨hab, hb, hu⟩
          refine ⟨?_, hb, hu⟩
          intro x hx
          rcases List.mem_cons.mp hx with rfl | hx
          · exact hab
          · exact Nat.lt_trans hab (hb x hx)
        · rintro ⟨ha, hb, hu⟩
          exact ⟨ha b (by simp), hb, hu⟩
  simp [smWf, hs]

theorem smWf_filter {m : SMap w} (p : Nat × BitVec w → Bool) (h : smWf d m = true) : smWf d (m.filter p) = true := by
  rw [smWf_iff] at h ⊢
  exact ⟨h.1.filter p, fun e he => h.2 e (List.mem_filter.mp he).1⟩

/-- Dropping keys keeps the canonical form. -/
theorem smWf_smDrop {m : SMap w} {p : Nat → Bool} (h : smWf d m = true) : smWf d (smDrop m p) = true := smWf_filter _ h

theorem mem_smInsert {m : SMap w} {k : Nat} {v : BitVec w} {e : Nat × BitVec w} (h : e ∈ smInsert m k v) :
    e = (k, v) ∨ e ∈ m := by
  induction m with
  | nil => simpa [smInsert] using h
  | cons a t ih =>
    simp only [smInsert] at h
    split at h
    · simpa using h
    · rcases List.mem_cons.mp h with rfl | h
      · simp
      · rcases ih h with rfl | h <;> simp [*]

theorem smInsert_pairwise {m : SMap w} {k : Nat} {v : BitVec w} (h : m.Pairwise (fun a b => a.1 < b.1))
    (hk : ∀ e ∈ m, e.1 ≠ k) : (smInsert m k v).Pairwise (fun a b => a.1 < b.1) := by
  induction m with
  | nil => simp [smInsert]
  | cons a t ih =>
    have ha := List.pairwise_cons.mp h
    simp only [smInsert]
    split
    · rename_i hl
      refine List.pairwise_cons.mpr ⟨?_, h⟩
      intro x hx
      rcases List.mem_cons.mp hx with rfl | hx
      · exact hl
      · exact Nat.lt_trans hl (ha.1 x hx)
    · rename_i hl
      refine List.pairwise_cons.mpr ⟨?_, ih ha.2 (fun e he => hk e (by simp [he]))⟩
      intro x hx
      rcases mem_smInsert hx with rfl | hx
      · have := hk a (by simp)
        dsimp only
        omega
      · exact ha.1 x hx

/-- Writing a key keeps the canonical form. -/
theorem smWf_smSet {m : SMap w} {k : Nat} {v : BitVec w} (h : smWf d m = true) : smWf d (smSet d m k v) = true := by
  unfold smSet
  split
  · exact smWf_filter _ h
  · rename_i hv
    rw [smWf_iff] at h ⊢
    refine ⟨smInsert_pairwise (h.1.filter _) (smErase_ne m k), ?_⟩
    intro e he
    rcases mem_smInsert he with rfl | he
    · exact hv
    · exact h.2 e (List.mem_filter.mp he).1

/-- A fold of operations that keep the canonical form keeps it. -/
theorem smWf_foldl {α : Type} {f : SMap w → α → SMap w} {l : List α} {m : SMap w}
    (hf : ∀ a e, smWf d a = true → smWf d (f a e) = true) (h : smWf d m = true) : smWf d (l.foldl f m) = true := by
  induction l generalizing m with
  | nil => exact h
  | cons a l ih => exact ih (hf _ _ h)

/-- Every entry after a write is the one written or was there before. -/
theorem mem_smSet {m : SMap w} {k : Nat} {v : BitVec w} {e : Nat × BitVec w} (h : e ∈ smSet d m k v) :
    e = (k, v) ∨ e ∈ m := by
  unfold smSet at h
  split at h
  · exact .inr (List.mem_filter.mp h).1
  · rcases mem_smInsert h with rfl | h
    · exact .inl rfl
    · exact .inr (List.mem_filter.mp h).1

end Sys2Proof.Machine
end

