-- ==== Sys2Proof/Laws/Kept.lean ====
section
/-! SUPPORT. What every operation of the block keeps: the queue of waiting commands, and `Sound`. `Kept q s` says both; the
files Laws/Kept<module>.lean say of every function that changes the state that it keeps `Kept q`. -/

namespace Sys2Proof.Machine

/-- The parts of a state that `Kept` speaks of. -/
def PartsOk (q p : List Instr) (regs : SMap 32) (words maps tags keep garnet : SMap 72) (hct : SMap 32)
    (ring fifo : List TraceEntry) (ibis : List Ibi) (events : List String) : Prop :=
  p = q ∧ smWf regDefault regs = true ∧ regs.all (fun e => e.2 &&& regMask e.1 = e.2) = true
    ∧ smWf (zeroDefault 72) words = true ∧ smWf mapDefault maps = true ∧ smWf (zeroDefault 72) tags = true
    ∧ smWf (zeroDefault 72) keep = true ∧ smWf (zeroDefault 72) garnet = true ∧ smWf (zeroDefault 32) hct = true
    ∧ ring.length ≤ 1024 ∧ fifo.length ≤ 64 ∧ ibis.length ≤ 8 ∧ events.length ≤ 16

/-- The commands `q` wait, and the state is sound. -/
def Kept (q : List Instr) (s : State) : Prop :=
  PartsOk q s.pending s.regs s.ld.words s.ld.maps s.ld.tags s.kp.words s.gn.words s.lg.hct s.tr.ring s.tr.fifo
    s.con.ibis s.con.events

/-- An outcome whose next state, if it is one, is `Kept q`. -/
def KeptOut (q : List Instr) (o : Host.Outcome State Fault Refusal) : Prop := ∀ t, o = .next t → Kept q t

theorem kept_iff {q : List Instr} {s : State} : Kept q s ↔ s.pending = q ∧ Sound s := by
  simp only [Kept, PartsOk, Sound, RegsOk, regsMasked, Memory.wf, Bounded, Bool.and_eq_true, and_assoc]

theorem keptOut_next {q : List Instr} {s : State} : KeptOut q (.next s) ↔ Kept q s :=
  ⟨fun h => h s rfl, fun h _ e => by cases e; exact h⟩

theorem keptOut_ite {q : List Instr} {s t : Host.Outcome State Fault Refusal} {c : Prop} [Decidable c] (hs : KeptOut q s)
    (ht : KeptOut q t) : KeptOut q (if c then s else t) := by split <;> assumption

theorem kept_fold {q : List Instr} {s : State} : PartsOk q s.pending s.regs s.ld.words s.ld.maps s.ld.tags s.kp.words
    s.gn.words s.lg.hct s.tr.ring s.tr.fifo s.con.ibis s.con.events ↔ Kept q s := ⟨id, id⟩

theorem kept_mk {q aon boot regs staged committed latch draws fuses pins clk tr fc ca dl lg cb ld kp gn mt sw ps rs tw con
    tap pending} :
    Kept q (State.mk aon boot regs staged committed latch draws fuses pins clk tr fc ca dl lg cb ld kp gn mt sw ps rs tw con
      tap pending)
      ↔ PartsOk q pending regs ld.words ld.maps ld.tags kp.words gn.words lg.hct tr.ring tr.fifo con.ibis con.events :=
  ⟨id, id⟩

theorem kept_ite {q : List Instr} {s t : State} {c : Prop} [Decidable c] (hs : Kept q s) (ht : Kept q t) :
    Kept q (if c then s else t) := by split <;> assumption

theorem kept_ite1 {q : List Instr} {α : Type} {s t : State × α} {c : Prop} [Decidable c] (hs : Kept q s.1)
    (ht : Kept q t.1) : Kept q (if c then s else t).1 := by split <;> assumption

theorem kept_ite2 {q : List Instr} {α : Type} {s t : α × State} {c : Prop} [Decidable c] (hs : Kept q s.2)
    (ht : Kept q t.2) : Kept q (if c then s else t).2 := by split <;> assumption

theorem kept_ite22 {q : List Instr} {α β : Type} {s t : α × β × State} {c : Prop} [Decidable c] (hs : Kept q s.2.2)
    (ht : Kept q t.2.2) : Kept q (if c then s else t).2.2 := by split <;> assumption

theorem kept_foldl {q : List Instr} {α : Type} {f : State → α → State} {l : List α} {s : State}
    (hf : ∀ t e, Kept q t → Kept q (f t e)) (h : Kept q s) : Kept q (l.foldl f s) := by
  induction l generalizing s with
  | nil => exact h
  | cons a l ih => exact ih (hf _ _ h)

theorem kept_foldl2 {q : List Instr} {α β : Type} {f : β × State → α → β × State} {l : List α} {s : β × State}
    (hf : ∀ t e, Kept q t.2 → Kept q (f t e).2) (h : Kept q s.2) : Kept q (l.foldl f s).2 := by
  induction l generalizing s with
  | nil => exact h
  | cons a l ih => exact ih (hf _ _ h)

theorem kept_foldl1 {q : List Instr} {α β : Type} {f : State × β → α → State × β} {l : List α} {s : State × β}
    (hf : ∀ t e, Kept q t.1 → Kept q (f t e).1) (h : Kept q s.1) : Kept q (l.foldl f s).1 := by
  induction l generalizing s with
  | nil => exact h
  | cons a l ih => exact ih (hf _ _ h)

/-! ### The updates of the parts -/

theorem kept_regs {q : List Instr} {s : State} (h : Kept q s) {m : SMap 32} (hm : smWf regDefault m = true)
    (hb : m.all (fun e => e.2 &&& regMask e.1 = e.2) = true) : Kept q { s with regs := m } :=
  ⟨h.1, hm, hb, h.2.2.2⟩

theorem kept_setReg {q : List Instr} {a : Nat} {v : Word} {s : State} (h : Kept q s) : Kept q (setReg a v s) := by
  have hs : smWf regDefault s.regs = true := h.2.1
  have hb : s.regs.all (fun e => e.2 &&& regMask e.1 = e.2) = true := h.2.2.1
  refine kept_regs h (smWf_smSet hs) ?_
  rw [List.all_eq_true] at hb ⊢
  intro e he
  rcases mem_smSet he with rfl | he
  · simp [BitVec.and_assoc]
  · exact hb e he

theorem kept_dropRegs {q : List Instr} {p : Nat → Bool} {s : State} (h : Kept q s) :
    Kept q { s with regs := smDrop s.regs p } := by
  refine kept_regs h (smWf_smDrop h.2.1) ?_
  have hb : s.regs.all (fun e => e.2 &&& regMask e.1 = e.2) = true := h.2.2.1
  rw [List.all_eq_true] at hb ⊢
  exact fun e he => hb e (List.mem_filter.mp he).1

theorem kept_ring {q : List Instr} {s : State} (h : Kept q s) {l : List TraceEntry} (hl : l.length ≤ 1024) :
    Kept q { s with tr := { s.tr with ring := l } } := by
  simp only [Kept, PartsOk] at h ⊢
  simp only [h, hl, and_self]

theorem kept_fifo {q : List Instr} {s : State} (h : Kept q s) {l : List TraceEntry} (hl : l.length ≤ 64) :
    Kept q { s with tr := { s.tr with fifo := l } } := by
  simp only [Kept, PartsOk] at h ⊢
  simp only [h, hl, and_self]

theorem kept_ibis {q : List Instr} {s : State} (h : Kept q s) {l : List Ibi} (hl : l.length ≤ 8) :
    Kept q { s with con := { s.con with ibis := l } } := by
  simp only [Kept, PartsOk] at h ⊢
  simp only [h, hl, and_self]

theorem kept_events {q : List Instr} {s : State} (h : Kept q s) {l : List String} (hl : l.length ≤ 16) :
    Kept q { s with con := { s.con with events := l } } := by
  simp only [Kept, PartsOk] at h ⊢
  simp only [h, hl, and_self]

theorem kept_words {q : List Instr} {s : State} (h : Kept q s) {m : SMap 72} (hm : smWf (zeroDefault 72) m = true) :
    Kept q { s with ld := { s.ld with words := m } } := by
  simp only [Kept, PartsOk] at h ⊢
  simp only [h, hm, and_self]

theorem kept_maps {q : List Instr} {s : State} (h : Kept q s) {m : SMap 72} (hm : smWf mapDefault m = true) :
    Kept q { s with ld := { s.ld with maps := m } } := by
  simp only [Kept, PartsOk] at h ⊢
  simp only [h, hm, and_self]

theorem kept_tags {q : List Instr} {s : State} (h : Kept q s) {m : SMap 72} (hm : smWf (zeroDefault 72) m = true) :
    Kept q { s with ld := { s.ld with tags := m } } := by
  simp only [Kept, PartsOk] at h ⊢
  simp only [h, hm, and_self]

theorem kept_keep {q : List Instr} {s : State} (h : Kept q s) {m : SMap 72} (hm : smWf (zeroDefault 72) m = true) :
    Kept q { s with kp := { s.kp with words := m } } := by
  simp only [Kept, PartsOk] at h ⊢
  simp only [h, hm, and_self]

theorem kept_garnet {q : List Instr} {s : State} (h : Kept q s) {m : SMap 72} (hm : smWf (zeroDefault 72) m = true) :
    Kept q { s with gn := { s.gn with words := m } } := by
  simp only [Kept, PartsOk] at h ⊢
  simp only [h, hm, and_self]

theorem kept_hct {q : List Instr} {s : State} (h : Kept q s) {m : SMap 32} (hm : smWf (zeroDefault 32) m = true) :
    Kept q { s with lg := { s.lg with hct := m } } := by
  simp only [Kept, PartsOk] at h ⊢
  simp only [h, hm, and_self]

/-! ### The parts of a kept state -/

theorem Kept.wfRegs {q : List Instr} {s : State} (h : Kept q s) : smWf regDefault s.regs = true := h.2.1
theorem Kept.wfWords {q : List Instr} {s : State} (h : Kept q s) : smWf (zeroDefault 72) s.ld.words = true := h.2.2.2.1
theorem Kept.wfMaps {q : List Instr} {s : State} (h : Kept q s) : smWf mapDefault s.ld.maps = true := h.2.2.2.2.1
theorem Kept.wfTags {q : List Instr} {s : State} (h : Kept q s) : smWf (zeroDefault 72) s.ld.tags = true := h.2.2.2.2.2.1
theorem Kept.wfKeep {q : List Instr} {s : State} (h : Kept q s) : smWf (zeroDefault 72) s.kp.words = true :=
  h.2.2.2.2.2.2.1
theorem Kept.wfGarnet {q : List Instr} {s : State} (h : Kept q s) : smWf (zeroDefault 72) s.gn.words = true :=
  h.2.2.2.2.2.2.2.1
theorem Kept.wfHct {q : List Instr} {s : State} (h : Kept q s) : smWf (zeroDefault 32) s.lg.hct = true :=
  h.2.2.2.2.2.2.2.2.1
theorem Kept.ringLen {q : List Instr} {s : State} (h : Kept q s) : s.tr.ring.length ≤ 1024 := h.2.2.2.2.2.2.2.2.2.1
theorem Kept.fifoLen {q : List Instr} {s : State} (h : Kept q s) : s.tr.fifo.length ≤ 64 := h.2.2.2.2.2.2.2.2.2.2.1
theorem Kept.ibisLen {q : List Instr} {s : State} (h : Kept q s) : s.con.ibis.length ≤ 8 := h.2.2.2.2.2.2.2.2.2.2.2.1
theorem Kept.eventsLen {q : List Instr} {s : State} (h : Kept q s) : s.con.events.length ≤ 16 :=
  h.2.2.2.2.2.2.2.2.2.2.2.2

end Sys2Proof.Machine
end

