-- ==== Sys2Proof/Laws/KeptOps.lean ====
section
/-! SUPPORT. Every function of Machine/Ops.lean that changes the state keeps `Kept`. -/

set_option linter.unusedSimpArgs false
set_option Elab.async false

namespace Sys2Proof.Machine

theorem kept_setF {q f v s} (h : Kept q s) : Kept q (setF f v s) := by
  simp (maxDischargeDepth := 60) +contextual only [setF, kept_setReg, h]

theorem kept_setB {q f b s} (h : Kept q s) : Kept q (setB f b s) := by
  simp (maxDischargeDepth := 60) +contextual only [setB, kept_setF, h]

theorem kept_addF {q f n s} (h : Kept q s) : Kept q (addF f n s) := by
  simp (maxDischargeDepth := 60) +contextual only [addF, kept_setF, h]

theorem kept_incF {q f s} (h : Kept q s) : Kept q (incF f s) := by
  simp (maxDischargeDepth := 60) +contextual only [incF, kept_addF, h]

theorem kept_setBitF {q f i b s} (h : Kept q s) : Kept q (setBitF f i b s) := by
  simp (maxDischargeDepth := 60) +contextual only [setBitF, kept_setF, h]

theorem kept_stage {q a m v s} (h : Kept q s) : Kept q (stage a m v s) := by
  simp (maxDischargeDepth := 60) +contextual only [stage, kept_mk, kept_fold, h]

theorem kept_applyCommitted {q p s} (h : Kept q s) : Kept q (applyCommitted p s) := by
  simp (maxDischargeDepth := 60) +contextual only [applyCommitted, kept_mk, kept_fold, kept_foldl, kept_setReg, h, implies_true]

theorem kept_fifoPush {q e s} (h : Kept q s) : Kept q (fifoPush e s) := by
  unfold fifoPush
  dsimp only
  split
  · exact kept_fifo h (by simp <;> omega)
  · exact kept_incF (kept_fifo h (by simp <;> omega))

theorem kept_ringPush {q e s} (h : Kept q s) : Kept q (ringPush e s) := by
  have := h.ringLen
  exact kept_ring h (by split <;> simp_all)

theorem kept_trace {q code args s} (h : Kept q s) : Kept q (trace code args s) := by
  simp (maxDischargeDepth := 60) +contextual only [trace, kept_ite, kept_fifoPush, kept_incF, kept_ringPush, h]

theorem kept_raise {q src syn s} (h : Kept q s) : Kept q (raise src syn s) := by
  simp (maxDischargeDepth := 60) +contextual only [raise, kept_mk, kept_fold, h]

theorem kept_recordTransition {q m b cause s} (h : Kept q s) : Kept q (recordTransition m b cause s) := by
  simp (maxDischargeDepth := 60) +contextual only [recordTransition, kept_setReg, kept_trace, h]

theorem kept_transition {q m b cause s} (h : Kept q s) : Kept q (transition m b cause s) := by
  simp (maxDischargeDepth := 60) +contextual only [transition, kept_mk, kept_fold, kept_recordTransition, kept_setF, h]

theorem kept_drew {q s} (h : Kept q s) : Kept q (drew s) := by
  simp (maxDischargeDepth := 60) +contextual only [drew, kept_mk, kept_fold, h]

theorem kept_issue {q l s} (h : Kept q s) : Kept q (issue l s) := by
  simp (maxDischargeDepth := 60) +contextual only [issue, kept_mk, kept_fold, h]

theorem kept_ibi {q mdb data s} (h : Kept q s) : Kept q (ibi mdb data s) := by
  unfold ibi
  split
  · split
    · exact kept_ibis h (by simp; omega)
    · exact kept_incF h
  · exact h

theorem kept_outAppend {q b s} (h : Kept q s) : Kept q (outAppend b s) := by
  simp (maxDischargeDepth := 60) +contextual only [outAppend, kept_mk, kept_fold, kept_ite, kept_ibi, h]

theorem kept_uartEvent {q t s} (h : Kept q s) : Kept q (uartEvent t s) := by
  simp (maxDischargeDepth := 60) +contextual only [uartEvent, kept_mk, kept_fold, h]

theorem kept_queueEvent {q t s} (h : Kept q s) : Kept q (queueEvent t s) := by
  unfold queueEvent
  split
  · exact kept_events h (by simp; omega)
  · exact kept_incF (by simpa only [kept_mk, kept_fold] using h)

theorem kept_sendEvent {q t s} (h : Kept q s) : Kept q (sendEvent t s) := by
  simp (maxDischargeDepth := 60) +contextual only [sendEvent, kept_ite, kept_outAppend, kept_queueEvent, kept_uartEvent, h]

theorem kept_conEvent {q isFault t s} (h : Kept q s) : Kept q (conEvent isFault t s) := by
  simp (maxDischargeDepth := 60) +contextual only [conEvent, kept_ite, kept_ibi, kept_queueEvent, kept_sendEvent, h]

theorem kept_completeTokens {q what result s} (h : Kept q s) : Kept q (completeTokens what result s) := by
  simp (maxDischargeDepth := 60) +contextual only [completeTokens, kept_mk, kept_fold, kept_foldl, kept_conEvent, h, implies_true]

theorem kept_settleEngines {q s} (h : Kept q s) : Kept q (settleEngines s) := by
  simp (maxDischargeDepth := 60) +contextual only [settleEngines, kept_ite, kept_foldl, kept_completeTokens, h, implies_true]

end Sys2Proof.Machine
end

