-- ==== Sys2Proof/Laws/KeptOperands.lean ====
section
/-! SUPPORT. Every function of Machine/Operands.lean that changes the state keeps `Kept`. -/

set_option linter.unusedSimpArgs false
set_option Elab.async false

namespace Sys2Proof.Machine

theorem kept_trackOpen {q rank bg bank row s} (h : Kept q s) : Kept q (trackOpen rank bg bank row s) := by
  simp (maxDischargeDepth := 60) +contextual only [trackOpen, kept_mk, kept_fold, h]

theorem kept_trackClosed {q p s} (h : Kept q s) : Kept q (trackClosed p s) := by
  simp (maxDischargeDepth := 60) +contextual only [trackClosed, kept_mk, kept_fold, h]

theorem kept_closeRank {q rank s} (h : Kept q s) : Kept q (closeRank rank s) := by
  simp (maxDischargeDepth := 60) +contextual only [closeRank, kept_trackClosed, h]

end Sys2Proof.Machine
end

