-- ==== Sys2Proof/Laws/KeptFlags.lean ====
section
/-! SUPPORT. Every function of Machine/Flags.lean that changes the state keeps `Kept`. -/

set_option linter.unusedSimpArgs false
set_option Elab.async false

namespace Sys2Proof.Machine

theorem kept_halertPulse {q s} (h : Kept q s) : Kept q (halertPulse s) := by
  simp (maxDischargeDepth := 60) +contextual only [halertPulse, kept_mk, kept_fold, kept_incF, h]

theorem kept_halert {q cause s} (h : Kept q s) : Kept q (halert cause s) := by
  unfold halert
  (try dsimp only)
  (repeat' split) <;> simp (maxDischargeDepth := 60) +contextual only [kept_mk, kept_fold, kept_ite, kept_ite1, kept_ite2, kept_ite22, kept_foldl, kept_foldl2, kept_foldl1, kept_drew, kept_halertPulse, kept_incF, h, implies_true, and_self]

end Sys2Proof.Machine
end

