-- ==== Sys2Proof/Laws/KeptLaneGuard.lean ====
section
/-! SUPPORT. Every function of Machine/LaneGuard.lean that changes the state keeps `Kept`. -/

set_option linter.unusedSimpArgs false
set_option Elab.async false

namespace Sys2Proof.Machine

theorem kept_dropSweep {q s} (h : Kept q s) : Kept q (dropSweep s) := by
  unfold dropSweep
  (try dsimp only)
  (repeat' split) <;> simp (maxDischargeDepth := 60) +contextual only [kept_mk, kept_fold, kept_ite, kept_ite1, kept_ite2, kept_ite22, kept_foldl, kept_foldl2, kept_foldl1, kept_setF, kept_settleEngines, h, implies_true, and_self]

theorem kept_checkSweep {q s} (h : Kept q s) : Kept q (checkSweep s) := by
  unfold checkSweep
  (try dsimp only)
  (repeat' split) <;> simp (maxDischargeDepth := 60) +contextual only [kept_mk, kept_fold, kept_ite, kept_ite1, kept_ite2, kept_ite22, kept_foldl, kept_foldl2, kept_foldl1, kept_dropSweep, h, implies_true, and_self]

theorem kept_hctStart {q rows s} (h : Kept q s) : Kept q (hctStart rows s) := by
  simp (maxDischargeDepth := 60) +contextual only [hctStart, kept_mk, kept_fold, kept_setF, h]

theorem kept_hctVerify {q s} (h : Kept q s) : Kept q (hctVerify s) := by
  unfold hctVerify
  (try dsimp only)
  (repeat' split) <;> simp (maxDischargeDepth := 60) +contextual only [kept_mk, kept_fold, kept_ite, kept_ite1, kept_ite2, kept_ite22, kept_foldl, kept_foldl2, kept_foldl1, kept_completeTokens, kept_setB, kept_setF, kept_setReg, h, implies_true, and_self]

theorem kept_hctClear {q s} (h : Kept q s) : Kept q (hctClear s) := by
  simp (maxDischargeDepth := 60) +contextual only [hctClear, kept_mk, kept_fold, kept_setF, h]

theorem kept_hctUnloadNow {q s} (h : Kept q s) : Kept q (hctUnloadNow s) := by
  simp (maxDischargeDepth := 60) +contextual only [hctUnloadNow, kept_ite, kept_ite1, kept_ite2, kept_hctClear, h]

theorem kept_hctLoadNow {q s} (h : Kept q s) : Kept q (hctLoadNow s) := by
  unfold hctLoadNow
  (try dsimp only)
  (repeat' split) <;> simp (maxDischargeDepth := 60) +contextual only [kept_mk, kept_fold, kept_ite, kept_ite1, kept_ite2, kept_ite22, kept_foldl, kept_foldl2, kept_foldl1, kept_setB, kept_setF, h, implies_true, and_self]

theorem kept_guardBoundary {q s} (h : Kept q s) : Kept q (guardBoundary s) := by
  simp (maxDischargeDepth := 60) +contextual only [guardBoundary, kept_checkSweep, kept_hctLoadNow, kept_hctUnloadNow, kept_setB, h]

theorem kept_hctWrite {q v s} (h : Kept q s) : Kept q (hctWrite v s) := by
  unfold hctWrite
  split
  · exact h
  · exact kept_setF (kept_hct h (smWf_smSet h.wfHct))

theorem kept_hctReadStep {q s} (h : Kept q s) : Kept q (hctReadStep s) := by
  simp (maxDischargeDepth := 60) +contextual only [hctReadStep, kept_setF, h]

theorem kept_guardStatus {q s} (h : Kept q s) : Kept q (guardStatus s) := by
  simp (maxDischargeDepth := 60) +contextual only [guardStatus, kept_setB, h]

theorem kept_queueFail {q f s} (h : Kept q s) : Kept q (queueFail f s) := by
  simp (maxDischargeDepth := 60) +contextual only [queueFail, kept_mk, kept_fold, kept_guardStatus, h]

theorem kept_declareSecond {q r lane cause s} (h : Kept q s) : Kept q (declareSecond r lane cause s) := by
  simp (maxDischargeDepth := 60) +contextual only [declareSecond, kept_ite, kept_ite1, kept_ite2, kept_queueFail, h, implies_true]

theorem kept_eraseLane {q r d cause s} (h : Kept q s) : Kept q (eraseLane r d cause s) := by
  unfold eraseLane
  (try dsimp only)
  (repeat' split) <;> simp (maxDischargeDepth := 60) +contextual only [kept_mk, kept_fold, kept_ite, kept_ite1, kept_ite2, kept_declareSecond, kept_queueFail, kept_ite22, h, implies_true, and_self]

theorem kept_takeFail {q p s} (h : Kept q s) : Kept q (takeFail p s) := by
  unfold takeFail
  (try dsimp only)
  (repeat' split) <;> simp (maxDischargeDepth := 60) +contextual only [kept_mk, kept_fold, kept_ite, kept_ite1, kept_ite2, kept_ite22, kept_foldl, kept_foldl2, kept_foldl1, h, implies_true, and_self]

theorem kept_eraseNow {q r d cause s} (h : Kept q s) : Kept q (eraseNow r d cause s) := by
  simp (maxDischargeDepth := 60) +contextual only [eraseNow, kept_ite, kept_raise, kept_setF, h]

theorem kept_degrade {q d s} (h : Kept q s) : Kept q (degrade d s) := by
  simp (maxDischargeDepth := 60) +contextual only [degrade, kept_ite, kept_transition, h]

theorem kept_erasureEffect {q r s} (h : Kept q s) : Kept q (erasureEffect r s) := by
  unfold erasureEffect
  (try dsimp only)
  (repeat' split) <;> simp (maxDischargeDepth := 60) +contextual only [kept_mk, kept_fold, kept_ite, kept_ite1, kept_ite2, kept_ite22, kept_foldl, kept_foldl2, kept_foldl1, kept_checkSweep, kept_completeTokens, kept_degrade, kept_eraseNow, kept_guardStatus, kept_takeFail, h, implies_true, and_self]

theorem kept_secondNow {q r cause s} (h : Kept q s) : Kept q (secondNow r cause s) := by
  simp (maxDischargeDepth := 60) +contextual only [secondNow, kept_raise, kept_setF, h]

theorem kept_secondEffect {q r s} (h : Kept q s) : Kept q (secondEffect r s) := by
  unfold secondEffect
  (try dsimp only)
  (repeat' split) <;> simp (maxDischargeDepth := 60) +contextual only [kept_mk, kept_fold, kept_ite, kept_ite1, kept_ite2, kept_ite22, kept_foldl, kept_foldl2, kept_foldl1, kept_completeTokens, kept_guardStatus, kept_secondNow, kept_takeFail, h, implies_true, and_self]

theorem kept_readmitNow {q r s} (h : Kept q s) : Kept q (readmitNow r s) := by
  simp (maxDischargeDepth := 60) +contextual only [readmitNow, kept_mk, kept_fold, kept_foldl, kept_setF, kept_setReg, h, implies_true]

theorem kept_readmitEffect {q r s} (h : Kept q s) : Kept q (readmitEffect r s) := by
  simp (maxDischargeDepth := 60) +contextual only [readmitEffect, kept_ite, kept_completeTokens, kept_guardStatus, kept_readmitNow, kept_transition, h]

theorem kept_eraseDecision {q s} (h : Kept q s) : Kept q (eraseDecision s) := by
  simp (maxDischargeDepth := 60) +contextual only [eraseDecision, kept_mk, kept_fold, kept_ite, kept_eraseLane, kept_trace, h]

theorem kept_rfailClear {q s} (h : Kept q s) : Kept q (rfailClear s) := by
  simp (maxDischargeDepth := 60) +contextual only [rfailClear, kept_ite, kept_foldl, kept_setF, h, implies_true]

theorem kept_deliver {q o ls s} (h : Kept q s) : Kept q (deliver o ls s) := by
  simp (maxDischargeDepth := 60) +contextual only [deliver, kept_mk, kept_fold, h]

theorem kept_failRead {q kind o syn s} (h : Kept q s) : Kept q (failRead kind o syn s) := by
  simp (maxDischargeDepth := 60) +contextual only [failRead, kept_incF, kept_raise, h]

theorem kept_correctRead {q kind lane o syn s} (h : Kept q s) : Kept q (correctRead kind lane o syn s) := by
  simp (maxDischargeDepth := 60) +contextual only [correctRead, kept_mk, kept_fold, kept_incF, kept_raise, h]

theorem kept_readProtected {q o ls s} (h : Kept q s) : Kept q (readProtected o ls s) := by
  unfold readProtected
  (try dsimp only)
  (repeat' split) <;> simp (maxDischargeDepth := 60) +contextual only [kept_mk, kept_fold, kept_ite, kept_ite1, kept_ite2, kept_correctRead, kept_deliver, kept_failRead, kept_ite22, h, implies_true, and_self]

theorem kept_countRfail {q r s} (h : Kept q s) : Kept q (countRfail r s) := by
  simp (maxDischargeDepth := 60) +contextual only [countRfail, kept_ite, kept_ite1, kept_ite2, kept_declareSecond, kept_incF, h]

theorem kept_readErased {q o ls s} (h : Kept q s) : Kept q (readErased o ls s) := by
  simp (maxDischargeDepth := 60) +contextual only [readErased, kept_ite, kept_ite1, kept_ite2, kept_countRfail, kept_deliver, kept_failRead, h]

theorem kept_sweepSample {q w ls mon s} (h : Kept q s) : Kept q (sweepSample w ls mon s) := by
  simp (maxDischargeDepth := 60) +contextual only [sweepSample, kept_mk, kept_fold, kept_ite, kept_ite1, kept_ite2, h]

theorem kept_sweepKind8 {q s} (h : Kept q s) : Kept q (sweepKind8 s) := by
  simp (maxDischargeDepth := 60) +contextual only [sweepKind8, kept_mk, kept_fold, h, implies_true]

theorem kept_readSwept {q w o ls mon s} (h : Kept q s) : Kept q (readSwept w o ls mon s) := by
  simp (maxDischargeDepth := 60) +contextual only [readSwept, kept_ite, kept_ite1, kept_ite2, kept_deliver, kept_failRead, kept_sweepKind8, kept_sweepSample, h]

theorem kept_readTail {q k o ls s} (h : Kept q s) : Kept q (readTail k o ls s) := by
  unfold readTail
  (try dsimp only)
  (repeat' split) <;> simp (maxDischargeDepth := 60) +contextual only [kept_ite, kept_ite1, kept_ite2, kept_deliver, kept_failRead, kept_ite22, h, implies_true, and_self]

theorem kept_readPattern {q o ls s} (h : Kept q s) : Kept q (readPattern o ls s) := by
  simp (maxDischargeDepth := 60) +contextual only [readPattern, kept_ite, kept_ite1, kept_ite2, kept_deliver, h, implies_true]

theorem kept_judgeRead {q o d mon s} (h : Kept q s) : Kept q (judgeRead o d mon s) := by
  unfold judgeRead
  (try dsimp only)
  (repeat' split) <;> simp (maxDischargeDepth := 60) +contextual only [kept_mk, kept_fold, kept_ite, kept_ite1, kept_ite2, kept_deliver, kept_readErased, kept_readPattern, kept_readProtected, kept_readSwept, kept_readTail, kept_ite22, h, implies_true, and_self]

theorem keptOut_execReadBurstCheck {q data mon s} (h : Kept q s) : KeptOut q (execReadBurstCheck data mon s) := by
  unfold execReadBurstCheck
  (try dsimp only)
  (repeat' split) <;> simp (maxDischargeDepth := 60) +contextual only [keptOut_next, kept_mk, kept_fold, kept_ite, kept_ite1, kept_ite2, kept_deliver, kept_judgeRead, kept_settleEngines, kept_ite22, h, implies_true, and_self]

theorem keptOut_execRfailWindowClear {q s} (h : Kept q s) : KeptOut q (execRfailWindowClear s) := by
  simp (maxDischargeDepth := 60) +contextual only [execRfailWindowClear, keptOut_next, kept_rfailClear, h]

theorem keptOut_execEraseDecision {q s} (h : Kept q s) : KeptOut q (execEraseDecision s) := by
  simp (maxDischargeDepth := 60) +contextual only [execEraseDecision, keptOut_next, kept_eraseDecision, h]

theorem keptOut_execErasureTakesEffect {q rank s} (h : Kept q s) : KeptOut q (execErasureTakesEffect rank s) := by
  simp (maxDischargeDepth := 60) +contextual only [execErasureTakesEffect, keptOut_next, kept_erasureEffect, h]

theorem keptOut_execSecondFailureTakesEffect {q rank s} (h : Kept q s) : KeptOut q (execSecondFailureTakesEffect rank s) := by
  simp (maxDischargeDepth := 60) +contextual only [execSecondFailureTakesEffect, keptOut_next, kept_secondEffect, h]

theorem keptOut_execReadmitTakesEffect {q rank s} (h : Kept q s) : KeptOut q (execReadmitTakesEffect rank s) := by
  simp (maxDischargeDepth := 60) +contextual only [execReadmitTakesEffect, keptOut_next, kept_readmitEffect, h]

theorem keptOut_execHctLoad {q rows s} (h : Kept q s) : KeptOut q (execHctLoad rows s) := by
  simp (maxDischargeDepth := 60) +contextual only [execHctLoad, keptOut_next, kept_ite, kept_hctStart, h]

theorem keptOut_execHctUnload {q s} (h : Kept q s) : KeptOut q (execHctUnload s) := by
  simp (maxDischargeDepth := 60) +contextual only [execHctUnload, keptOut_next, kept_mk, kept_fold, kept_ite, h]

theorem keptOut_execHctVerifyDone {q s} (h : Kept q s) : KeptOut q (execHctVerifyDone s) := by
  simp (maxDischargeDepth := 60) +contextual only [execHctVerifyDone, keptOut_next, kept_hctVerify, h]

theorem keptOut_execHctInForce {q s} (h : Kept q s) : KeptOut q (execHctInForce s) := by
  simp (maxDischargeDepth := 60) +contextual only [execHctInForce, keptOut_next, kept_guardBoundary, h]

theorem keptOut_execHctWindowWrite {q value s} (h : Kept q s) : KeptOut q (execHctWindowWrite value s) := by
  simp (maxDischargeDepth := 60) +contextual only [execHctWindowWrite, keptOut_next, kept_ite, kept_hctWrite, h]

theorem keptOut_execHctWindowRead {q s} (h : Kept q s) : KeptOut q (execHctWindowRead s) := by
  simp (maxDischargeDepth := 60) +contextual only [execHctWindowRead, keptOut_next, kept_ite, kept_hctReadStep, h]

end Sys2Proof.Machine
end

