-- ==== Sys2Proof/Laws/KeptCalibration.lean ====
section
/-! SUPPORT. Every function of Machine/Calibration.lean that changes the state keeps `Kept`. -/

set_option linter.unusedSimpArgs false
set_option Elab.async false

namespace Sys2Proof.Machine

theorem kept_setKnown {q k b s} (h : Kept q s) : Kept q (setKnown k b s) := by
  simp (maxDischargeDepth := 60) +contextual only [setKnown, kept_mk, kept_fold, h]

theorem kept_markFresh {q k s} (h : Kept q s) : Kept q (markFresh k s) := by
  simp (maxDischargeDepth := 60) +contextual only [markFresh, kept_mk, kept_fold, h, implies_true]

theorem kept_settleFresh {q p s} (h : Kept q s) : Kept q (settleFresh p s) := by
  simp (maxDischargeDepth := 60) +contextual only [settleFresh, kept_mk, kept_fold, kept_ite, kept_ite1, kept_ite2, kept_foldl, kept_foldl2, kept_foldl1, kept_setKnown, h, implies_true]

theorem kept_setQuality {q key ws hs s} (h : Kept q s) : Kept q (setQuality key ws hs s) := by
  simp (maxDischargeDepth := 60) +contextual only [setQuality, kept_mk, kept_fold, h]

theorem kept_rejectWith {q src top reason side r lane bit w x8 move vmove s} (h : Kept q s) : Kept q (rejectWith src top reason side r lane bit w x8 move vmove s) := by
  simp (maxDischargeDepth := 60) +contextual only [rejectWith, kept_ite, kept_raise, kept_setReg, h]

theorem kept_rejectTrial {q src top reason side r lane t s} (h : Kept q s) : Kept q (rejectTrial src top reason side r lane t s) := by
  simp (maxDischargeDepth := 60) +contextual only [rejectTrial, kept_incF, kept_rejectWith, h]

theorem kept_pendF {q f v s} (h : Kept q s) : Kept q (pendF f v s) := by
  simp (maxDischargeDepth := 60) +contextual only [pendF, kept_mk, kept_fold, h]

theorem kept_applyPend {q p s} (h : Kept q s) : Kept q (applyPend p s) := by
  simp (maxDischargeDepth := 60) +contextual only [applyPend, kept_mk, kept_fold, kept_foldl, kept_setReg, h, implies_true]

theorem kept_endHost {q n s} (h : Kept q s) : Kept q (endHost n s) := by
  simp (maxDischargeDepth := 60) +contextual only [endHost, kept_mk, kept_fold, kept_settleEngines, h]

theorem kept_pauseHost {q n s} (h : Kept q s) : Kept q (pauseHost n s) := by
  simp (maxDischargeDepth := 60) +contextual only [pauseHost, kept_mk, kept_fold, kept_endHost, h]

theorem kept_pauseHostAll {q s} (h : Kept q s) : Kept q (pauseHostAll s) := by
  simp (maxDischargeDepth := 60) +contextual only [pauseHostAll, kept_foldl, kept_pauseHost, h, implies_true]

theorem kept_dropGap {q r s} (h : Kept q s) : Kept q (dropGap r s) := by
  simp (maxDischargeDepth := 60) +contextual only [dropGap, kept_mk, kept_fold, kept_setBitF, kept_settleEngines, h]

theorem kept_stopEngines {q s} (h : Kept q s) : Kept q (stopEngines s) := by
  simp (maxDischargeDepth := 60) +contextual only [stopEngines, kept_mk, kept_fold, kept_foldl, kept_dropGap, kept_dropSweep, kept_pauseHostAll, h, implies_true]

theorem kept_trimCommitted {q a m s} (h : Kept q s) : Kept q (trimCommitted a m s) := by
  unfold trimCommitted
  (try dsimp only)
  (repeat' split) <;> simp (maxDischargeDepth := 60) +contextual only [kept_mk, kept_fold, kept_ite, kept_ite1, kept_ite2, kept_ite22, kept_foldl, kept_foldl2, kept_foldl1, kept_dropGap, kept_dropSweep, kept_pauseHost, kept_setF, h, implies_true, and_self]

theorem kept_trimBoundary {q p s} (h : Kept q s) : Kept q (trimBoundary p s) := by
  simp (maxDischargeDepth := 60) +contextual only [trimBoundary, kept_ite, kept_foldl, kept_applyCommitted, kept_applyPend, kept_setF, kept_trimCommitted, h, implies_true]

theorem kept_holdHost {q n s} (h : Kept q s) : Kept q (holdHost n s) := by
  simp (maxDischargeDepth := 60) +contextual only [holdHost, kept_mk, kept_fold, kept_pauseHost, h]

theorem kept_hostPauses {q idle s} (h : Kept q s) : Kept q (hostPauses idle s) := by
  simp (maxDischargeDepth := 60) +contextual only [hostPauses, kept_mk, kept_fold, kept_ite, kept_ite1, kept_ite2, kept_foldl, kept_foldl2, kept_foldl1, kept_holdHost, h, implies_true]

theorem kept_resumeLanes {q s} (h : Kept q s) : Kept q (resumeLanes s) := by
  simp (maxDischargeDepth := 60) +contextual only [resumeLanes, kept_mk, kept_fold, h, implies_true]

theorem kept_sweepBoundary {q r s} (h : Kept q s) : Kept q (sweepBoundary r s) := by
  unfold sweepBoundary
  (try dsimp only)
  (repeat' split) <;> simp (maxDischargeDepth := 60) +contextual only [kept_mk, kept_fold, kept_ite, kept_ite1, kept_ite2, kept_ite22, kept_foldl, kept_foldl2, kept_foldl1, kept_dropSweep, kept_incF, h, implies_true, and_self]

theorem kept_gapBoundary {q r s} (h : Kept q s) : Kept q (gapBoundary r s) := by
  simp (maxDischargeDepth := 60) +contextual only [gapBoundary, kept_mk, kept_fold, kept_ite, kept_ite1, kept_ite2, kept_dropGap, kept_settleEngines, h, implies_true]

theorem kept_rankBoundary {q r s} (h : Kept q s) : Kept q (rankBoundary r s) := by
  simp (maxDischargeDepth := 60) +contextual only [rankBoundary, kept_gapBoundary, kept_settleFresh, kept_sweepBoundary, kept_trimBoundary, h]

theorem kept_hostBoundary {q s} (h : Kept q s) : Kept q (hostBoundary s) := by
  simp (maxDischargeDepth := 60) +contextual only [hostBoundary, kept_hostPauses, kept_settleFresh, kept_trimBoundary, h, implies_true]

theorem kept_commonBoundary {q s} (h : Kept q s) : Kept q (commonBoundary s) := by
  simp (maxDischargeDepth := 60) +contextual only [commonBoundary, kept_trimBoundary, h]

theorem kept_anyBoundary {q s} (h : Kept q s) : Kept q (anyBoundary s) := by
  simp (maxDischargeDepth := 60) +contextual only [anyBoundary, kept_foldl, kept_foldl2, kept_foldl1, kept_gapBoundary, kept_hostPauses, kept_settleFresh, kept_sweepBoundary, kept_trimBoundary, h, implies_true]

theorem kept_putScan {q n x s} (h : Kept q s) : Kept q (putScan n x s) := by
  simp (maxDischargeDepth := 60) +contextual only [putScan, kept_mk, kept_fold, h, implies_true]

theorem kept_startHost {q n s} (h : Kept q s) : Kept q (startHost n s) := by
  simp (maxDischargeDepth := 60) +contextual only [startHost, kept_ite, kept_ite1, kept_ite2, kept_incF, kept_putScan, h]

theorem kept_hostSample {q line mon s} (h : Kept q s) : Kept q (hostSample line mon s) := by
  simp (maxDischargeDepth := 60) +contextual only [hostSample, kept_mk, kept_fold, kept_ite, kept_ite1, kept_ite2, h, implies_true]

theorem kept_caSample {q p s} (h : Kept q s) : Kept q (caSample p s) := by
  simp (maxDischargeDepth := 60) +contextual only [caSample, kept_mk, kept_fold, kept_ite, kept_ite1, kept_ite2, h, implies_true]

theorem kept_pendHost {q n c s} (h : Kept q s) : Kept q (pendHost n c s) := by
  simp (maxDischargeDepth := 60) +contextual only [pendHost, kept_foldl, kept_pendF, h, implies_true]

theorem kept_countReject {q n s} (h : Kept q s) : Kept q (countReject n s) := by
  simp (maxDischargeDepth := 60) +contextual only [countReject, kept_mk, kept_fold, kept_ite, kept_setBitF, h]

theorem kept_countEval {q s} (h : Kept q s) : Kept q (countEval s) := by
  simp (maxDischargeDepth := 60) +contextual only [countEval, kept_mk, kept_fold, h]

theorem kept_acceptHost {q n c r s} (h : Kept q s) : Kept q (acceptHost n c r s) := by
  simp (maxDischargeDepth := 60) +contextual only [acceptHost, kept_countEval, kept_mk, kept_fold, kept_incF, kept_markFresh, kept_pendHost, kept_setBitF, kept_setQuality, h]

theorem kept_hostTrial {q n s} (h : Kept q s) : Kept q (hostTrial n s) := by
  unfold hostTrial
  (try dsimp only)
  (repeat' split) <;> simp (maxDischargeDepth := 60) +contextual only [kept_mk, kept_fold, kept_ite, kept_ite1, kept_ite2, kept_acceptHost, kept_countReject, kept_endHost, kept_rejectTrial, kept_setBitF, kept_ite22, h, implies_true, and_self]

theorem kept_caTrial {q s} (h : Kept q s) : Kept q (caTrial s) := by
  unfold caTrial
  (try dsimp only)
  (repeat' split) <;> simp (maxDischargeDepth := 60) +contextual only [kept_mk, kept_fold, kept_ite, kept_ite1, kept_ite2, kept_countEval, kept_endHost, kept_incF, kept_markFresh, kept_pendF, kept_rejectWith, kept_setF, kept_setReg, kept_ite22, h, implies_true, and_self]

theorem kept_zqSide {q fs s} (h : Kept q s) : Kept q (zqSide fs s) := by
  simp (maxDischargeDepth := 60) +contextual only [zqSide, kept_foldl, kept_pendF, h, implies_true]

theorem kept_zqSaturated {q dram s} (h : Kept q s) : Kept q (zqSaturated dram s) := by
  simp (maxDischargeDepth := 60) +contextual only [zqSaturated, kept_ite, kept_ite1, kept_ite2, kept_foldl, kept_foldl2, kept_foldl1, kept_pendF, kept_rejectWith, h, implies_true]

theorem kept_zqMeasure {q hu hd du dd hs ds s} (h : Kept q s) : Kept q (zqMeasure hu hd du dd hs ds s) := by
  simp (maxDischargeDepth := 60) +contextual only [zqMeasure, kept_ite, kept_ite1, kept_ite2, kept_zqSaturated, kept_zqSide, h]

theorem kept_dccStep {q dram lane up s} (h : Kept q s) : Kept q (dccStep dram lane up s) := by
  simp (maxDischargeDepth := 60) +contextual only [dccStep, kept_ite, kept_incF, kept_pendF, kept_rejectWith, h]

theorem kept_sweepStart {q s} (h : Kept q s) : Kept q (sweepStart s) := by
  unfold sweepStart
  (try dsimp only)
  (repeat' split) <;> simp (maxDischargeDepth := 60) +contextual only [kept_mk, kept_fold, kept_ite, kept_ite1, kept_ite2, kept_ite22, kept_foldl, kept_foldl2, kept_foldl1, kept_setF, h, implies_true, and_self]

theorem kept_pendRead {q r d c s} (h : Kept q s) : Kept q (pendRead r d c s) := by
  simp (maxDischargeDepth := 60) +contextual only [pendRead, kept_foldl, kept_pendF, h, implies_true]

theorem kept_pendWrite {q r d c s} (h : Kept q s) : Kept q (pendWrite r d c s) := by
  simp (maxDischargeDepth := 60) +contextual only [pendWrite, kept_foldl, kept_pendF, h, implies_true]

theorem kept_setWwidth {q r d ws s} (h : Kept q s) : Kept q (setWwidth r d ws s) := by
  simp (maxDischargeDepth := 60) +contextual only [setWwidth, kept_setF, h]

theorem kept_countSweepReject {q r d s} (h : Kept q s) : Kept q (countSweepReject r d s) := by
  simp (maxDischargeDepth := 60) +contextual only [countSweepReject, kept_ite, kept_incF, kept_setF, kept_setKnown, h]

theorem kept_rejectSweep {q w src why x s} (h : Kept q s) : Kept q (rejectSweep w src why x s) := by
  simp (maxDischargeDepth := 60) +contextual only [rejectSweep, kept_countSweepReject, kept_dropSweep, kept_rejectTrial, h]

theorem kept_acceptSweep {q w m s} (h : Kept q s) : Kept q (acceptSweep w m s) := by
  simp (maxDischargeDepth := 60) +contextual only [acceptSweep, kept_dropSweep, kept_incF, kept_markFresh, kept_pendRead, kept_setF, kept_setQuality, h]

theorem kept_sweepSecond {q w x s} (h : Kept q s) : Kept q (sweepSecond w x s) := by
  simp (maxDischargeDepth := 60) +contextual only [sweepSecond, kept_mk, kept_fold, kept_setF, h]

theorem kept_sweepTrial {q s} (h : Kept q s) : Kept q (sweepTrial s) := by
  unfold sweepTrial
  (try dsimp only)
  (repeat' split) <;> simp (maxDischargeDepth := 60) +contextual only [kept_mk, kept_fold, kept_ite, kept_ite1, kept_ite2, kept_acceptSweep, kept_rejectSweep, kept_sweepSecond, kept_ite22, h, implies_true, and_self]

theorem kept_sweepAbandon {q s} (h : Kept q s) : Kept q (sweepAbandon s) := by
  unfold sweepAbandon
  (try dsimp only)
  (repeat' split) <;> simp (maxDischargeDepth := 60) +contextual only [kept_mk, kept_fold, kept_ite, kept_ite1, kept_ite2, kept_ite22, kept_foldl, kept_foldl2, kept_foldl1, kept_dropSweep, kept_incF, h, implies_true, and_self]

theorem kept_gapRun {q r write s} (h : Kept q s) : Kept q (gapRun r write s) := by
  simp (maxDischargeDepth := 60) +contextual only [gapRun, kept_mk, kept_fold, kept_ite, kept_ite1, kept_ite2, kept_setBitF, h]

theorem kept_gapStart {q r s} (h : Kept q s) : Kept q (gapStart r s) := by
  simp (maxDischargeDepth := 60) +contextual only [gapStart, kept_ite, kept_gapRun, h]

theorem kept_gapEnd {q g s} (h : Kept q s) : Kept q (gapEnd g s) := by
  simp (maxDischargeDepth := 60) +contextual only [gapEnd, kept_ite, kept_dropGap, kept_gapRun, h]

theorem kept_gapAccepted {q r d s} (h : Kept q s) : Kept q (gapAccepted r d s) := by
  simp (maxDischargeDepth := 60) +contextual only [gapAccepted, kept_incF, kept_setBitF, h]

theorem kept_gapWriteLane {q g d s} (h : Kept q s) : Kept q (gapWriteLane g d s) := by
  simp (maxDischargeDepth := 60) +contextual only [gapWriteLane, kept_mk, kept_fold, kept_ite, kept_ite1, kept_ite2, kept_gapAccepted, kept_markFresh, kept_pendWrite, kept_rejectTrial, kept_setWwidth, h]

theorem kept_gapReadLane {q g d s} (h : Kept q s) : Kept q (gapReadLane g d s) := by
  simp (maxDischargeDepth := 60) +contextual only [gapReadLane, kept_ite, kept_ite1, kept_ite2, kept_gapAccepted, kept_markFresh, kept_pendRead, kept_rejectTrial, kept_setQuality, h]

theorem kept_gapDone {q r s} (h : Kept q s) : Kept q (gapDone r s) := by
  unfold gapDone
  (try dsimp only)
  (repeat' split) <;> simp (maxDischargeDepth := 60) +contextual only [kept_mk, kept_fold, kept_ite, kept_ite1, kept_ite2, kept_foldl, kept_foldl2, kept_foldl1, kept_gapEnd, kept_gapReadLane, kept_gapWriteLane, kept_rejectTrial, kept_ite22, h, implies_true, and_self]

theorem kept_gapAbandon {q r s} (h : Kept q s) : Kept q (gapAbandon r s) := by
  unfold gapAbandon
  (try dsimp only)
  (repeat' split) <;> simp (maxDischargeDepth := 60) +contextual only [kept_mk, kept_fold, kept_ite, kept_ite1, kept_ite2, kept_ite22, kept_foldl, kept_foldl2, kept_foldl1, kept_gapEnd, kept_incF, kept_setBitF, h, implies_true, and_self]

theorem kept_putGap {q g s} (h : Kept q s) : Kept q (putGap g s) := by
  simp (maxDischargeDepth := 60) +contextual only [putGap, kept_mk, kept_fold, kept_ite, kept_ite1, kept_ite2, h, implies_true]

theorem kept_gapHit {q r s} (h : Kept q s) : Kept q (gapHit r s) := by
  simp (maxDischargeDepth := 60) +contextual only [gapHit, kept_mk, kept_fold, kept_ite, kept_setBitF, h]

theorem kept_gapAlert {q s} (h : Kept q s) : Kept q (gapAlert s) := by
  simp (maxDischargeDepth := 60) +contextual only [gapAlert, kept_mk, kept_fold, h, implies_true]

theorem kept_gapPause {q s} (h : Kept q s) : Kept q (gapPause s) := by
  simp (maxDischargeDepth := 60) +contextual only [gapPause, kept_ite, kept_foldl, kept_dropGap, h, implies_true]

theorem kept_prbsSent {q r s} (h : Kept q s) : Kept q (prbsSent r s) := by
  simp (maxDischargeDepth := 60) +contextual only [prbsSent, kept_mk, kept_fold, kept_foldl, kept_foldl2, kept_foldl1, h, implies_true]

theorem kept_setVrefDq {q r d code s} (h : Kept q s) : Kept q (setVrefDq r d code s) := by
  simp (maxDischargeDepth := 60) +contextual only [setVrefDq, kept_mk, kept_fold, kept_issue, h]

theorem kept_rejectStep {q src top why r d s} (h : Kept q s) : Kept q (rejectStep src top why r d s) := by
  simp (maxDischargeDepth := 60) +contextual only [rejectStep, kept_rejectTrial, h]

theorem kept_trainRead {q r d lim rep t s} (h : Kept q s) : Kept q (trainRead r d lim rep t s).1 := by
  unfold trainRead
  (try dsimp only)
  (repeat' split) <;> simp (maxDischargeDepth := 60) +contextual only [kept_mk, kept_fold, kept_applyPend, kept_issue, kept_pendRead, kept_rejectTrial, kept_setQuality, kept_ite, kept_ite1, kept_ite2, kept_ite22, h, implies_true, and_self]

theorem kept_trainWrite {q r d lim rep t s} (h : Kept q s) : Kept q (trainWrite r d lim rep t s).1 := by
  unfold trainWrite
  (try dsimp only)
  (repeat' split) <;> simp (maxDischargeDepth := 60) +contextual only [kept_mk, kept_fold, kept_applyPend, kept_issue, kept_pendWrite, kept_rejectStep, kept_rejectTrial, kept_setVrefDq, kept_setWwidth, kept_ite, kept_ite1, kept_ite2, kept_ite22, h, implies_true, and_self]

theorem kept_trainStrobe {q r d lim rep write a b s} (h : Kept q s) : Kept q (trainStrobe r d lim rep write a b s).1 := by
  unfold trainStrobe
  (try dsimp only)
  (repeat' split) <;> simp (maxDischargeDepth := 60) +contextual only [kept_mk, kept_fold, kept_ite, kept_ite1, kept_ite2, kept_issue, kept_rejectStep, kept_setF, kept_ite22, h, implies_true, and_self]

theorem kept_thenStep {q x step} (h : Kept q x.1) (hstep : ∀ a, Kept q a → Kept q (step a).1) : Kept q (thenStep x step).1 := by
  simp (maxDischargeDepth := 60) +contextual only [thenStep, kept_ite, kept_ite1, kept_ite2, h, hstep]

theorem kept_trainLane {q r d t s} (h : Kept q s) : Kept q (trainLane r d t s).1 := by
  simp (maxDischargeDepth := 60) +contextual only [trainLane, kept_ite, kept_ite1, kept_ite2, kept_incF, kept_issue, kept_rejectStep, kept_setKnown, kept_thenStep, kept_trainRead, kept_trainStrobe, kept_trainWrite, h, implies_true]

theorem keptOut_execHostEvalStart {q s} (h : Kept q s) : KeptOut q (execHostEvalStart s) := by
  simp (maxDischargeDepth := 60) +contextual only [execHostEvalStart, keptOut_next, kept_foldl, kept_startHost, h, implies_true]

theorem keptOut_execHostTrialDone {q lane s} (h : Kept q s) : KeptOut q (execHostTrialDone lane s) := by
  simp (maxDischargeDepth := 60) +contextual only [execHostTrialDone, keptOut_next, kept_hostTrial, h]

theorem keptOut_execCaTrialDone {q s} (h : Kept q s) : KeptOut q (execCaTrialDone s) := by
  simp (maxDischargeDepth := 60) +contextual only [execCaTrialDone, keptOut_next, kept_caTrial, h]

theorem keptOut_execStaleTimeout {q lane s} (h : Kept q s) : KeptOut q (execStaleTimeout lane s) := by
  simp (maxDischargeDepth := 60) +contextual only [execStaleTimeout, keptOut_next, kept_ite, kept_setBitF, kept_setF, kept_trace, h]

theorem keptOut_execZqMeasure {q hostUp hostDown dramUp dramDown hostSat dramSat s} (h : Kept q s) : KeptOut q (execZqMeasure hostUp hostDown dramUp dramDown hostSat dramSat s) := by
  simp (maxDischargeDepth := 60) +contextual only [execZqMeasure, keptOut_next, kept_ite, kept_zqMeasure, h]

theorem keptOut_execDccStep {q dram lane up s} (h : Kept q s) : KeptOut q (execDccStep dram lane up s) := by
  simp (maxDischargeDepth := 60) +contextual only [execDccStep, keptOut_next, kept_ite, kept_dccStep, h]

theorem keptOut_execPendingStarved {q s} (h : Kept q s) : KeptOut q (execPendingStarved s) := by
  simp (maxDischargeDepth := 60) +contextual only [execPendingStarved, keptOut_next, kept_ite, kept_setF, kept_trace, h]

theorem keptOut_execSweepStart {q s} (h : Kept q s) : KeptOut q (execSweepStart s) := by
  simp (maxDischargeDepth := 60) +contextual only [execSweepStart, keptOut_next, kept_sweepStart, h]

theorem keptOut_execSweepTrialDone {q s} (h : Kept q s) : KeptOut q (execSweepTrialDone s) := by
  simp (maxDischargeDepth := 60) +contextual only [execSweepTrialDone, keptOut_next, kept_sweepTrial, h]

theorem keptOut_execSweepAbandon {q s} (h : Kept q s) : KeptOut q (execSweepAbandon s) := by
  simp (maxDischargeDepth := 60) +contextual only [execSweepAbandon, keptOut_next, kept_sweepAbandon, h]

theorem keptOut_execGapTrialStart {q rank s} (h : Kept q s) : KeptOut q (execGapTrialStart rank s) := by
  simp (maxDischargeDepth := 60) +contextual only [execGapTrialStart, keptOut_next, kept_gapStart, h]

theorem keptOut_execGapTrialDone {q rank s} (h : Kept q s) : KeptOut q (execGapTrialDone rank s) := by
  simp (maxDischargeDepth := 60) +contextual only [execGapTrialDone, keptOut_next, kept_gapDone, h]

theorem keptOut_execGapTrialAbandon {q rank s} (h : Kept q s) : KeptOut q (execGapTrialAbandon rank s) := by
  simp (maxDischargeDepth := 60) +contextual only [execGapTrialAbandon, keptOut_next, kept_gapAbandon, h]

end Sys2Proof.Machine
end

