-- ==== Sys2Proof/Laws/KeptLedger.lean ====
section
/-! SUPPORT. Every function of Machine/Ledger.lean that changes the state keeps `Kept`. -/

set_option linter.unusedSimpArgs false
set_option Elab.async false

namespace Sys2Proof.Machine

theorem kept_setStored {q k v s} (h : Kept q s) : Kept q (setStored k v s) := kept_words h (smWf_smSet h.wfWords)

theorem kept_takeLedgerInj {q port s} (h : Kept q s) : Kept q (takeLedgerInj port s).2 := by
  simp (maxDischargeDepth := 60) +contextual only [takeLedgerInj, kept_ite2, kept_setF, h]

theorem kept_ledgerEvent {q ue req l w syn s} (h : Kept q s) : Kept q (ledgerEvent ue req l w syn s) := by
  simp (maxDischargeDepth := 60) +contextual only [ledgerEvent, kept_ite, kept_incF, kept_raise, kept_setReg, h]

theorem kept_readWord {q port req l w s} (h : Kept q s) : Kept q (readWord port req l w s).2 := by
  simp (maxDischargeDepth := 60) +contextual only [readWord, kept_mk, kept_fold, kept_ite, kept_ite2, kept_ledgerEvent, kept_takeLedgerInj, h]

theorem kept_readWords {q port req l ws s} (h : Kept q s) : Kept q (readWords port req l ws s).2 := by
  induction ws generalizing s with
  | nil => exact h
  | cons w ws ih => exact ih (kept_readWord h)

theorem kept_readLine {q port req l s} (h : Kept q s) : Kept q (readLine port req l s).2 := by
  simp (maxDischargeDepth := 60) +contextual only [readLine, kept_readWords, h]

theorem kept_setMap {q b i d s} (h : Kept q s) : Kept q (setMap b i d s) := kept_maps h (smWf_smSet h.wfMaps)

theorem kept_readMap {q b i s} (h : Kept q s) : Kept q (readMap b i s).2 := by
  simp (maxDischargeDepth := 60) +contextual only [readMap, kept_ite2, kept_raise, kept_setMap, h]

theorem kept_markIn {q b l s} (h : Kept q s) : Kept q (markIn b l s) := by
  simp (maxDischargeDepth := 60) +contextual only [markIn, kept_readMap, kept_setMap, h]

theorem kept_unmarkIn {q b l s} (h : Kept q s) : Kept q (unmarkIn b l s) := by
  simp (maxDischargeDepth := 60) +contextual only [unmarkIn, kept_readMap, kept_setMap, h]

theorem kept_markDirty {q l s} (h : Kept q s) : Kept q (markDirty l s) := by
  simp (maxDischargeDepth := 60) +contextual only [markDirty, kept_ite, kept_markIn, h]

theorem kept_markAll {q b s} (h : Kept q s) : Kept q (markAll b s) := kept_maps h (smWf_smDrop h.wfMaps)

theorem kept_markedLines {q b s} (h : Kept q s) : Kept q (markedLines b s).2 := by
  simp (maxDischargeDepth := 60) +contextual only [markedLines, kept_foldl2, kept_readMap, h, implies_true]

theorem kept_staleRegs {q s} (h : Kept q s) : Kept q (staleRegs s) := by
  simp (maxDischargeDepth := 60) +contextual only [staleRegs, kept_setF, h]

theorem kept_enqueueOwn {q l s} (h : Kept q s) : Kept q (enqueueOwn l s) := by
  simp (maxDischargeDepth := 60) +contextual only [enqueueOwn, kept_mk, kept_fold, kept_ite, kept_raise, kept_setF, kept_staleRegs, h]

theorem kept_putWord {q l w d s} (h : Kept q s) : Kept q (putWord l w d s) := by
  simp (maxDischargeDepth := 60) +contextual only [putWord, kept_mk, kept_fold, kept_setStored, h]

theorem kept_putLine {q poison l ws s} (h : Kept q s) : Kept q (putLine poison l ws s) := by
  simp (maxDischargeDepth := 60) +contextual only [putLine, kept_ite, kept_foldl, kept_putWord, kept_setStored, h, implies_true]

theorem kept_writeLine {q l ws s} (h : Kept q s) : Kept q (writeLine l ws s) := by
  simp (maxDischargeDepth := 60) +contextual only [writeLine, kept_enqueueOwn, kept_markDirty, kept_putLine, h]

theorem kept_clearSlot {q checks i s} (h : Kept q s) : Kept q (clearSlot checks i s) := by
  simp (maxDischargeDepth := 60) +contextual only [clearSlot, kept_putLine, h]

theorem kept_clearSlots {q s} (h : Kept q s) : Kept q (clearSlots s) := by
  have hw := @kept_words q s h _ (smWf_smDrop (p := fun k => slotFirst * 10 ≤ k) h.wfWords)
  unfold clearSlots
  dsimp only
  split
  · exact hw
  · exact kept_foldl (fun _ _ ht => kept_clearSlot ht) hw

theorem kept_clearLedger {q s} (h : Kept q s) : Kept q (clearLedger s) :=
  ⟨h.1, h.2.1, h.2.2.1, rfl, rfl, h.2.2.2.2.2⟩

theorem kept_hostReadLine {q l s} (h : Kept q s) : Kept q (hostReadLine l s).2 := by
  simp (maxDischargeDepth := 60) +contextual only [hostReadLine, kept_ite2, kept_incF, kept_readLine, h]

theorem kept_damageLedger {q l s} (h : Kept q s) : Kept q (damageLedger l s) := by
  unfold damageLedger
  refine kept_foldl (fun t e ht => ?_) h
  dsimp only
  split
  · exact kept_setStored ht
  · split
    · exact kept_maps ht (smWf_smSet ht.wfMaps)
    · exact kept_tags ht (smWf_smSet ht.wfTags)

theorem kept_writeTag {q k s} (h : Kept q s) : Kept q (writeTag k s) := kept_tags h (smWf_smSet h.wfTags)

theorem kept_mendTag {q k s} (h : Kept q s) : Kept q (mendTag k s) := by
  unfold mendTag
  dsimp only
  split
  · exact kept_tags h (smWf_smSet h.wfTags)
  · exact h

theorem kept_scanEvents {q p s} (h : Kept q s) : Kept q (scanEvents p s) := by
  simp (maxDischargeDepth := 60) +contextual only [scanEvents, kept_ite, kept_ite1, kept_ite2, kept_foldl, kept_foldl2, kept_foldl1, kept_ledgerEvent, h, implies_true]

theorem smWf_scanCorrect {d : Nat → BitVec 72} {m : SMap 72} {p : Nat → Bool} (h : smWf d m = true) :
    smWf d (scanCorrect d m p) = true := by
  unfold scanCorrect
  refine smWf_foldl (fun a e ha => ?_) h
  dsimp only
  split
  · exact smWf_smSet ha
  · exact ha

theorem kept_retentionCheck {q s} (h : Kept q s) : Kept q (retentionCheck s) := by
  have h0 : Kept q (scanEvents (fun _ => true) s) := kept_scanEvents h
  have h1 : Kept q ((List.range 18).foldl (fun t k => mendTag k t) (scanEvents (fun _ => true) s)) :=
    kept_foldl (fun _ _ ht => kept_mendTag ht) h0
  have h2 := kept_maps (kept_words h1 (smWf_scanCorrect (p := fun _ => true) h0.wfWords))
    (smWf_scanCorrect (p := fun _ => true) h0.wfMaps)
  unfold retentionCheck
  dsimp only
  split
  · refine kept_setF (kept_setF (kept_setF (kept_setF (kept_foldl (fun t e ht => ?_) h2))))
    split
    · exact kept_markAll ht
    · exact ht
  · refine kept_raise (kept_setF (kept_setF (kept_setF (kept_setF (kept_foldl (fun t e ht => ?_) h2)))))
    split
    · exact kept_markAll ht
    · exact ht

theorem kept_emitFlit {q b s} (h : Kept q s) : Kept q (emitFlit b s) := by
  simp (maxDischargeDepth := 60) +contextual only [emitFlit, kept_mk, kept_fold, h]

theorem kept_sendFlit {q b s} (h : Kept q s) : Kept q (sendFlit b s) := by
  unfold sendFlit
  (try dsimp only)
  (repeat' split) <;> simp (maxDischargeDepth := 60) +contextual only [kept_mk, kept_fold, kept_ite, kept_ite1, kept_ite2, kept_ite22, kept_foldl, kept_foldl2, kept_foldl1, kept_emitFlit, h, implies_true, and_self]

theorem kept_pumpFlits {q n s} (h : Kept q s) : Kept q (pumpFlits n s) := by
  induction n generalizing s with
  | zero => exact h
  | succ n ih =>
    unfold pumpFlits
    split
    · exact h
    · split
      · exact ih (kept_emitFlit h)
      · exact h

theorem kept_syncUpdate {q s} (h : Kept q s) : Kept q (syncUpdate s) := by
  simp (maxDischargeDepth := 60) +contextual only [syncUpdate, kept_ite, kept_setB, kept_setF, h]

theorem kept_requestLines {q first n s} (h : Kept q s) : Kept q (requestLines first n s) := by
  simp (maxDischargeDepth := 60) +contextual only [requestLines, kept_mk, kept_fold, kept_sendFlit, kept_staleRegs, kept_syncUpdate, h]

theorem kept_requestAll {q s} (h : Kept q s) : Kept q (requestAll s) := by
  simp (maxDischargeDepth := 60) +contextual only [requestAll, kept_mk, kept_fold, kept_sendFlit, kept_staleRegs, kept_syncUpdate, h]

theorem kept_bankFail {q b s} (h : Kept q s) : Kept q (bankFail b s) := by
  simp (maxDischargeDepth := 60) +contextual only [bankFail, kept_foldl, kept_raise, kept_requestLines, kept_setMap, h, implies_true]

theorem kept_scanStatus {q s} (h : Kept q s) : Kept q (scanStatus s) := by
  simp (maxDischargeDepth := 60) +contextual only [scanStatus, kept_setB, h]

theorem kept_wakeSettle {q s} (h : Kept q s) : Kept q (wakeSettle s) := by
  unfold wakeSettle
  (try dsimp only)
  (repeat' split) <;> simp (maxDischargeDepth := 60) +contextual only [kept_mk, kept_fold, kept_ite, kept_ite1, kept_ite2, kept_completeTokens, kept_setB, kept_ite22, h, implies_true, and_self]

theorem kept_wakeBank {q b s} (h : Kept q s) : Kept q (wakeBank b s) := by
  simp (maxDischargeDepth := 60) +contextual only [wakeBank, kept_mk, kept_fold, kept_ite, kept_ite1, kept_ite2, kept_bankFail, kept_incF, kept_mendTag, kept_scanStatus, kept_setBitF, kept_wakeSettle, h]

theorem kept_retainWrite {q auto host s} (h : Kept q s) : Kept q (retainWrite auto host s) := by
  simp (maxDischargeDepth := 60) +contextual only [retainWrite, kept_mk, kept_fold, kept_ite, kept_ite1, kept_ite2, kept_setB, h]

theorem kept_wakeFor {q l s} (h : Kept q s) : Kept q (wakeFor l s) := by
  simp (maxDischargeDepth := 60) +contextual only [wakeFor, kept_wakeBank, h]

theorem kept_scanDone {q b s} (h : Kept q s) : Kept q (scanDone b s) := by
  unfold scanDone
  split
  · exact h
  · have h1 := kept_scanStatus (q := q) (s := { s with ld := { s.ld with scanning := s.ld.scanning.filter (fun x => x ≠ b) } }) h
    have h2 := kept_scanEvents (p := inBank b) h1
    have h3 := kept_words h2 (smWf_scanCorrect (p := inBank b) h2.wfWords)
    dsimp only
    split
    · exact h3
    · exact kept_bankFail h3

theorem kept_wakeBanks {q p s} (h : Kept q s) : Kept q (wakeBanks p s) := by
  simp (maxDischargeDepth := 60) +contextual only [wakeBanks, kept_foldl, kept_wakeBank, h, implies_true]

theorem kept_windowStatus {q collide ue corr refused held s} (h : Kept q s) : Kept q (windowStatus collide ue corr refused held s) := by
  simp (maxDischargeDepth := 60) +contextual only [windowStatus, kept_setB, kept_setF, h]

theorem kept_countHeld {q held s} (h : Kept q s) : Kept q (countHeld held s) := by
  simp (maxDischargeDepth := 60) +contextual only [countHeld, kept_ite, kept_incF, h]

theorem kept_countHolds {q n s} (h : Kept q s) : Kept q (countHolds n s) := by
  simp (maxDischargeDepth := 60) +contextual only [countHolds, kept_setF, h]

theorem kept_windowRead {q held s} (h : Kept q s) : Kept q (windowRead held s) := by
  simp (maxDischargeDepth := 60) +contextual only [windowRead, kept_ite, kept_countHeld, kept_readWord, kept_setF, kept_setReg, kept_wakeFor, kept_windowStatus, h]

theorem kept_portEWrite {q l w d s} (h : Kept q s) : Kept q (portEWrite l w d s) := by
  simp (maxDischargeDepth := 60) +contextual only [portEWrite, kept_enqueueOwn, kept_markDirty, kept_putWord, kept_wakeFor, h]

theorem kept_windowWrite {q held collide s} (h : Kept q s) : Kept q (windowWrite held collide s) := by
  simp (maxDischargeDepth := 60) +contextual only [windowWrite, kept_ite, kept_countHeld, kept_incF, kept_portEWrite, kept_setF, kept_windowStatus, h]

theorem keptOut_execLedgerScrubWriteBack {q s} (h : Kept q s) : KeptOut q (execLedgerScrubWriteBack s) := by
  unfold execLedgerScrubWriteBack
  (try dsimp only)
  (repeat' split) <;> simp (maxDischargeDepth := 60) +contextual only [keptOut_next, keptOut_ite, kept_mk, kept_fold, kept_ite, kept_ite1, kept_ite2, kept_ite22, kept_foldl, kept_foldl2, kept_foldl1, kept_setStored, h, implies_true, and_self]

theorem keptOut_execLdWindowRead {q held s} (h : Kept q s) : KeptOut q (execLdWindowRead held s) := by
  simp (maxDischargeDepth := 60) +contextual only [execLdWindowRead, keptOut_next, kept_ite, kept_windowRead, h]

theorem keptOut_execLdWindowWrite {q held collide s} (h : Kept q s) : KeptOut q (execLdWindowWrite held collide s) := by
  simp (maxDischargeDepth := 60) +contextual only [execLdWindowWrite, keptOut_next, kept_ite, kept_windowWrite, h]

theorem keptOut_execBankPark {q k s} (h : Kept q s) : KeptOut q (execBankPark k s) := by
  simp (maxDischargeDepth := 60) +contextual only [execBankPark, keptOut_next, kept_ite, kept_setBitF, kept_writeTag, h]

theorem keptOut_execBankWake {q k damage s} (h : Kept q s) : KeptOut q (execBankWake k damage s) := by
  simp (maxDischargeDepth := 60) +contextual only [execBankWake, keptOut_next, kept_ite, kept_damageLedger, kept_wakeBank, h]

theorem keptOut_execBankScanDone {q k s} (h : Kept q s) : KeptOut q (execBankScanDone k s) := by
  simp (maxDischargeDepth := 60) +contextual only [execBankScanDone, keptOut_next, kept_ite, kept_ite1, kept_ite2, kept_scanDone, h]

end Sys2Proof.Machine
end

