-- ==== Sys2Proof/Laws/KeptOpSlots.lean ====
section
/-! SUPPORT. Every function of Machine/OpSlots.lean that changes the state keeps `Kept`. -/

set_option linter.unusedSimpArgs false
set_option Elab.async false

namespace Sys2Proof.Machine

theorem kept_putResult {q slot ws s} (h : Kept q s) : Kept q (putResult slot ws s) := by
  simp (maxDischargeDepth := 60) +contextual only [putResult, kept_putLine, h]

theorem kept_opError {q slot status s} (h : Kept q s) : Kept q (opError slot status s) := by
  simp (maxDischargeDepth := 60) +contextual only [opError, kept_ite, kept_incF, kept_setReg, h]

theorem kept_opNotExecuted {q slot noHct s} (h : Kept q s) : Kept q (opNotExecuted slot noHct s) := by
  simp (maxDischargeDepth := 60) +contextual only [opNotExecuted, kept_ite, kept_incF, kept_raise, kept_setReg, h]

theorem kept_opReplay {q slot line s} (h : Kept q s) : Kept q (opReplay slot line s).2 := by
  simp (maxDischargeDepth := 60) +contextual only [opReplay, kept_readWords, h]

theorem kept_opRun {q h0 slot line s} (h : Kept q s) : Kept q (opRun h0 slot line s) := by
  unfold opRun
  (try dsimp only)
  (repeat' split) <;> simp (maxDischargeDepth := 60) +contextual only [kept_mk, kept_fold, kept_ite, kept_ite1, kept_ite2, kept_foldl, kept_foldl2, kept_foldl1, kept_enqueueOwn, kept_incF, kept_markDirty, kept_opError, kept_putResult, kept_putWord, kept_readWords, kept_setF, kept_ite22, h, implies_true, and_self]

theorem kept_opReceive {q slot line s} (h : Kept q s) : Kept q (opReceive slot line s) := by
  simp (maxDischargeDepth := 60) +contextual only [opReceive, kept_mk, kept_fold, kept_ite, kept_ite1, kept_ite2, kept_opReplay, h]

theorem kept_opExecute {q o s} (h : Kept q s) : Kept q (opExecute o s) := by
  simp (maxDischargeDepth := 60) +contextual only [opExecute, kept_ite, kept_ite1, kept_ite2, kept_clearSlot, kept_incF, kept_opError, kept_opRun, kept_putResult, kept_raise, h]

theorem kept_opStep {q opc s} (h : Kept q s) : Kept q (opStep opc s) := by
  unfold opStep
  (try dsimp only)
  (repeat' split) <;> simp (maxDischargeDepth := 60) +contextual only [kept_mk, kept_fold, kept_ite, kept_ite1, kept_ite2, kept_ite22, kept_foldl, kept_foldl2, kept_foldl1, kept_completeTokens, kept_opExecute, h, implies_true, and_self]

theorem keptOut_execOpClear {q s} (h : Kept q s) : KeptOut q (execOpClear s) := by
  simp (maxDischargeDepth := 60) +contextual only [execOpClear, keptOut_next, kept_opStep, h]

theorem keptOut_execOpRead {q s} (h : Kept q s) : KeptOut q (execOpRead s) := by
  simp (maxDischargeDepth := 60) +contextual only [execOpRead, keptOut_next, kept_opStep, h]

theorem keptOut_execOpAdd {q s} (h : Kept q s) : KeptOut q (execOpAdd s) := by
  simp (maxDischargeDepth := 60) +contextual only [execOpAdd, keptOut_next, kept_opStep, h]

theorem keptOut_execOpSwap {q s} (h : Kept q s) : KeptOut q (execOpSwap s) := by
  simp (maxDischargeDepth := 60) +contextual only [execOpSwap, keptOut_next, kept_opStep, h]

theorem keptOut_execOpCas {q s} (h : Kept q s) : KeptOut q (execOpCas s) := by
  simp (maxDischargeDepth := 60) +contextual only [execOpCas, keptOut_next, kept_opStep, h]

end Sys2Proof.Machine
end

