-- ==== Sys2Proof/Laws/KeptKeep.lean ====
section
/-! SUPPORT. Every function of Machine/Keep.lean that changes the state keeps `Kept`. -/

set_option linter.unusedSimpArgs false
set_option Elab.async false

namespace Sys2Proof.Machine

theorem kept_setKeep {q k v s} (h : Kept q s) : Kept q (setKeep k v s) := kept_keep h (smWf_smSet h.wfKeep)

theorem kept_keepFlips {q lo hi flips s} (h : Kept q s) : Kept q (keepFlips lo hi flips s) := by
  simp (maxDischargeDepth := 60) +contextual only [keepFlips, kept_ite, kept_foldl, kept_setKeep, h, implies_true]

theorem kept_putBytes {q n k bs s} (h : Kept q s) : Kept q (putBytes n k bs s) := by
  induction n generalizing k bs s with
  | zero => exact h
  | succ n ih => exact ih (kept_setKeep h)

theorem kept_keepWrite {q a bs flips s} (h : Kept q s) : Kept q (keepWrite a bs flips s) := by
  simp (maxDischargeDepth := 60) +contextual only [keepWrite, kept_keepFlips, kept_putBytes, h]

theorem kept_keepCapture {q ue k s} (h : Kept q s) : Kept q (keepCapture ue k s) := by
  simp (maxDischargeDepth := 60) +contextual only [keepCapture, kept_ite, kept_incF, kept_raise, kept_setReg, h]

theorem kept_keepCorrected {q k s} (h : Kept q s) : Kept q (keepCorrected k s) := by
  simp (maxDischargeDepth := 60) +contextual only [keepCorrected, kept_mk, kept_fold, kept_ite, kept_setF, h]

theorem kept_keepEvent {q ue k s} (h : Kept q s) : Kept q (keepEvent ue k s) := by
  simp (maxDischargeDepth := 60) +contextual only [keepEvent, kept_ite, kept_keepCapture, kept_keepCorrected, h]

theorem kept_keepRead {q a n s} (h : Kept q s) : Kept q (keepRead a n s).2 := by
  simp (maxDischargeDepth := 60) +contextual only [keepRead, kept_ite, kept_foldl, kept_keepEvent, kept_setF, h, implies_true]

theorem kept_crcFail {q region index copy write s} (h : Kept q s) : Kept q (crcFail region index copy write s) := by
  simp (maxDischargeDepth := 60) +contextual only [crcFail, kept_mk, kept_fold, kept_ite, kept_incF, kept_raise, h]

theorem kept_readCopy {q a magic index copy len s} (h : Kept q s) : Kept q (readCopy a magic index copy len s).2 := by
  simp (maxDischargeDepth := 60) +contextual only [readCopy, kept_ite, kept_crcFail, kept_keepRead, h]

theorem kept_setWear {q region n s} (h : Kept q s) : Kept q (setWear region n s) := by
  simp (maxDischargeDepth := 60) +contextual only [setWear, kept_ite, kept_raise, kept_setF, h]

theorem kept_wearOne {q region s} (h : Kept q s) : Kept q (wearOne region s) := by
  simp (maxDischargeDepth := 60) +contextual only [wearOne, kept_setWear, h]

theorem kept_wearRing {q region n s} (h : Kept q s) : Kept q (wearRing region n s) := by
  simp (maxDischargeDepth := 60) +contextual only [wearRing, kept_mk, kept_fold, kept_setWear, h]

theorem kept_wearCal {q slot s} (h : Kept q s) : Kept q (wearCal slot s) := by
  simp (maxDischargeDepth := 60) +contextual only [wearCal, kept_mk, kept_fold, kept_setWear, h]

theorem kept_storeOne {q a c bs ok index flips s} (h : Kept q s) : Kept q (storeOne a c bs ok index flips s).2 := by
  simp (maxDischargeDepth := 60) +contextual only [storeOne, kept_ite, kept_ite1, kept_ite2, kept_crcFail, kept_keepRead, kept_keepWrite, h]

theorem kept_storeTwo {q a0 a1 copy ok index flips s} (h : Kept q s) : Kept q (storeTwo a0 a1 copy ok index flips s).2 := by
  simp (maxDischargeDepth := 60) +contextual only [storeTwo, kept_ite, kept_ite1, kept_ite2, kept_storeOne, h]

theorem kept_entryAttempt {q type kind slot sealSlot sealNo cause flips s} (h : Kept q s) : Kept q (entryAttempt type kind slot sealSlot sealNo cause flips s).2 := by
  simp (maxDischargeDepth := 60) +contextual only [entryAttempt, kept_mk, kept_fold, kept_ite, kept_ite1, kept_ite2, kept_crcFail, kept_keepRead, kept_keepWrite, kept_setF, kept_wearRing, h, implies_true]

theorem kept_writeEntry {q type kind slot sealSlot sealNo cause flips s} (h : Kept q s) : Kept q (writeEntry type kind slot sealSlot sealNo cause flips s).2 := by
  simp (maxDischargeDepth := 60) +contextual only [writeEntry, kept_ite, kept_ite2, kept_entryAttempt, kept_setF, h]

theorem kept_readPersist {q s} (h : Kept q s) : Kept q (readPersist s).2 := by
  unfold readPersist
  (try dsimp only)
  (repeat' split) <;> simp (maxDischargeDepth := 60) +contextual only [kept_mk, kept_fold, kept_ite, kept_ite1, kept_ite2, kept_ite22, kept_foldl, kept_foldl2, kept_foldl1, kept_readCopy, h, implies_true, and_self]

theorem kept_loadEntry {q e s} (h : Kept q s) : Kept q (loadEntry e s) := by
  simp (maxDischargeDepth := 60) +contextual only [loadEntry, kept_mk, kept_fold, kept_foldl, kept_setF, h, implies_true]

theorem kept_readCal {q rs copy s} (h : Kept q s) : Kept q (readCal rs copy s).2 := by
  simp (maxDischargeDepth := 60) +contextual only [readCal, kept_ite, kept_crcFail, kept_keepRead, h]

theorem kept_rememberStored {q s} (h : Kept q s) : Kept q (rememberStored s) := by
  simp (maxDischargeDepth := 60) +contextual only [rememberStored, kept_mk, kept_fold, h]

theorem kept_calStoreCopy {q c seq full flips s} (h : Kept q s) : Kept q (calStoreCopy c seq full flips s).2 := by
  simp (maxDischargeDepth := 60) +contextual only [calStoreCopy, kept_storeOne, kept_wearCal, h, implies_true]

theorem kept_calStoreRun {q full again flips s} (h : Kept q s) : Kept q (calStoreRun full again flips s) := by
  simp (maxDischargeDepth := 60) +contextual only [calStoreRun, kept_mk, kept_fold, kept_ite, kept_ite1, kept_ite2, kept_calStoreCopy, kept_rememberStored, kept_setF, h]

theorem kept_calApply {q bs s} (h : Kept q s) : Kept q (calApply bs s) := by
  simp (maxDischargeDepth := 60) +contextual only [calApply, kept_mk, kept_fold, kept_ite, kept_foldl, kept_setF, kept_setKnown, h, implies_true]

theorem kept_midCodes {q s} (h : Kept q s) : Kept q (midCodes s) := kept_dropRegs h

theorem kept_calLoad {q rs s} (h : Kept q s) : Kept q (calLoad rs s) := by
  unfold calLoad
  (try dsimp only)
  (repeat' split) <;> simp (maxDischargeDepth := 60) +contextual only [kept_mk, kept_fold, kept_ite, kept_ite1, kept_ite2, kept_ite22, kept_foldl, kept_foldl2, kept_foldl1, kept_calApply, kept_midCodes, kept_readCal, kept_rememberStored, kept_setF, h, implies_true, and_self]

theorem kept_readCfg {q s} (h : Kept q s) : Kept q (readCfg s).2 := by
  simp (maxDischargeDepth := 60) +contextual only [readCfg, kept_ite2, kept_readCopy, h]

theorem kept_cfgLoad {q p s} (h : Kept q s) : Kept q (cfgLoad p s) := by
  simp (maxDischargeDepth := 60) +contextual only [cfgLoad, kept_ite, kept_foldl, kept_setReg, h, implies_true]

theorem smWf_nil {w : Nat} {d : Nat → BitVec w} : smWf d [] = true := rfl

theorem kept_cfgLoadHct {q s} (h : Kept q s) : Kept q (cfgLoadHct s) := by
  unfold cfgLoadHct
  dsimp only
  split
  · exact h
  · exact kept_hctLoadNow (kept_hctVerify (kept_hctStart
      (kept_hct h (smWf_foldl (fun _ _ ha => smWf_smSet ha) smWf_nil))))

theorem kept_cfgStoreRun {q gen again flips s} (h : Kept q s) : Kept q (cfgStoreRun gen again flips s).2 := by
  simp (maxDischargeDepth := 60) +contextual only [cfgStoreRun, kept_mk, kept_fold, kept_ite, kept_ite2, kept_storeTwo, kept_wearOne, h]

theorem kept_addRetain {q n s} (h : Kept q s) : Kept q (addRetain n s) := by
  simp (maxDischargeDepth := 60) +contextual only [addRetain, kept_mk, kept_fold, kept_ite, kept_setF, h]

theorem kept_calStoreStart {q s} (h : Kept q s) : Kept q (calStoreStart s) := by
  simp (maxDischargeDepth := 60) +contextual only [calStoreStart, kept_mk, kept_fold, kept_ite, kept_setF, h]

theorem keptOut_execCalStoreAuto {q s} (h : Kept q s) : KeptOut q (execCalStoreAuto s) := by
  simp (maxDischargeDepth := 60) +contextual only [execCalStoreAuto, keptOut_next, kept_ite, kept_calStoreStart, h]

theorem keptOut_execCalStoreNow {q s} (h : Kept q s) : KeptOut q (execCalStoreNow s) := by
  simp (maxDischargeDepth := 60) +contextual only [execCalStoreNow, keptOut_next, kept_calStoreStart, h]

theorem kept_calStoreEnd {q full flips s} (h : Kept q s) : Kept q (calStoreEnd full flips s) := by
  simp (maxDischargeDepth := 60) +contextual only [calStoreEnd, kept_mk, kept_fold, kept_calStoreRun, kept_completeTokens, h]

theorem kept_calStoreCut {q flips s} (h : Kept q s) : Kept q (calStoreCut flips s) := by
  simp (maxDischargeDepth := 60) +contextual only [calStoreCut, kept_ite, kept_ite1, kept_ite2, kept_calStoreCopy, kept_drew, kept_setF, h]

theorem keptOut_execCalStoreDone {q flips s} (h : Kept q s) : KeptOut q (execCalStoreDone flips s) := by
  simp (maxDischargeDepth := 60) +contextual only [execCalStoreDone, keptOut_next, kept_ite, kept_ite1, kept_ite2, kept_calStoreCut, kept_calStoreEnd, h]

theorem keptOut_execKeepRetainAccrue {q s} (h : Kept q s) : KeptOut q (execKeepRetainAccrue s) := by
  simp (maxDischargeDepth := 60) +contextual only [execKeepRetainAccrue, keptOut_next, kept_ite, kept_addRetain, h]

end Sys2Proof.Machine
end

