-- ==== Sys2Proof/Laws/KeptGarnet.lean ====
section
/-! SUPPORT. Every function of Machine/Garnet.lean that changes the state keeps `Kept`. -/

set_option linter.unusedSimpArgs false
set_option Elab.async false

namespace Sys2Proof.Machine

theorem kept_setGarnet {q i d s} (h : Kept q s) : Kept q (setGarnet i d s) := kept_garnet h (smWf_smSet h.wfGarnet)

theorem kept_damageGarnet {q l s} (h : Kept q s) : Kept q (damageGarnet l s) :=
  kept_foldl (fun _ _ ht => kept_garnet ht (smWf_smSet ht.wfGarnet)) h

theorem kept_readGarnet {q i s} (h : Kept q s) : Kept q (readGarnet i s).2 := by
  simp (maxDischargeDepth := 60) +contextual only [readGarnet, kept_ite2, kept_raise, kept_setGarnet, h]

theorem kept_readGarnets {q n i s} (h : Kept q s) : Kept q (readGarnets n i s).2 := by
  induction n generalizing i s with
  | zero => exact h
  | succ n ih => exact ih (kept_readGarnet h)

theorem kept_putKey {q k key gen s} (h : Kept q s) : Kept q (putKey k key gen s) := by
  simp (maxDischargeDepth := 60) +contextual only [putKey, kept_foldl, kept_setF, kept_setGarnet, h, implies_true]

theorem kept_dropKey {q k s} (h : Kept q s) : Kept q (dropKey k s) := by
  simp (maxDischargeDepth := 60) +contextual only [dropKey, kept_foldl, kept_setF, kept_setGarnet, h, implies_true]

theorem kept_endAuth {q s} (h : Kept q s) : Kept q (endAuth s) := by
  simp (maxDischargeDepth := 60) +contextual only [endAuth, kept_setF, kept_setGarnet, h]

theorem kept_wipeGarnet {q s} (h : Kept q s) : Kept q (wipeGarnet s) := by
  have h1 : Kept q (setF Fld.GN_STATUS_SESS_AUTH 0 (setReg Fld.GN_KEYGEN_CON.addr 0 (setReg Fld.GN_KCV_SEAL.addr 0
    (setF Fld.GN_STATUS_SEAL_KEY 0 (setF Fld.GN_STATUS_CON_KEY 0 s))))) :=
    kept_setF (kept_setReg (kept_setReg (kept_setF (kept_setF h))))
  exact kept_garnet h1 rfl

theorem kept_readKeyCopy {q k c s} (h : Kept q s) : Kept q (readKeyCopy k c s).2 := by
  simp (maxDischargeDepth := 60) +contextual only [readKeyCopy, kept_ite2, kept_crcFail, kept_readCopy, h]

theorem kept_readKey {q k s} (h : Kept q s) : Kept q (readKey k s).2 := by
  simp (maxDischargeDepth := 60) +contextual only [readKey, kept_readKeyCopy, h]

theorem kept_storeKey {q k key gen flips s} (h : Kept q s) : Kept q (storeKey k key gen flips s).2 := by
  simp (maxDischargeDepth := 60) +contextual only [storeKey, kept_mk, kept_fold, kept_ite, kept_setB, kept_setF, kept_storeTwo, kept_wearOne, h]

theorem kept_unwrapKey {q k s} (h : Kept q s) : Kept q (unwrapKey k s) := by
  unfold unwrapKey
  (try dsimp only)
  (repeat' split) <;> simp (maxDischargeDepth := 60) +contextual only [kept_mk, kept_fold, kept_ite, kept_ite1, kept_ite2, kept_ite22, kept_foldl, kept_foldl2, kept_foldl1, kept_dropKey, kept_putKey, kept_readKey, kept_setF, h, implies_true, and_self]

theorem kept_unwrapKeys {q s} (h : Kept q s) : Kept q (unwrapKeys s) := by
  simp (maxDischargeDepth := 60) +contextual only [unwrapKeys, kept_ite, kept_unwrapKey, h]

theorem kept_garnetKey {q k s} (h : Kept q s) : Kept q (garnetKey k s).2 := by
  simp (maxDischargeDepth := 60) +contextual only [garnetKey, kept_ite2, kept_dropKey, kept_readGarnet, kept_readGarnets, kept_unwrapKeys, h]

theorem kept_checkKeys {q s} (h : Kept q s) : Kept q (checkKeys s) := by
  simp (maxDischargeDepth := 60) +contextual only [checkKeys, kept_ite, kept_dropKey, kept_readGarnets, kept_unwrapKey, kept_unwrapKeys, h]

theorem kept_eraseKeys {q s} (h : Kept q s) : Kept q (eraseKeys s) := by
  have h1 : Kept q (setF Fld.GN_STATUS_ERASE_DONE 1 (setF Fld.GN_STATUS_SEAL_REC 0 (setF Fld.GN_STATUS_CON_REC 0 s))) :=
    kept_setF (kept_setF (kept_setF h))
  exact kept_keep h1 (smWf_smDrop h1.wfKeep)

theorem kept_generateSeal {q b3 flips s} (h : Kept q s) : Kept q (generateSeal b3 flips s) := by
  simp (maxDischargeDepth := 60) +contextual only [generateSeal, kept_ite, kept_drew, kept_putKey, kept_storeKey, h]

theorem kept_clearTamper {q s} (h : Kept q s) : Kept q (clearTamper s) := by
  simp (maxDischargeDepth := 60) +contextual only [clearTamper, kept_mk, kept_fold, kept_ite, kept_setF, h]

theorem kept_tamperAtHandBack {q s} (h : Kept q s) : Kept q (tamperAtHandBack s) := by
  simp (maxDischargeDepth := 60) +contextual only [tamperAtHandBack, kept_ite, kept_raise, h]

theorem kept_readLc {q s} (h : Kept q s) : Kept q (readLc s) := by
  simp (maxDischargeDepth := 60) +contextual only [readLc, kept_setF, h]

theorem kept_lcTransition {q stage stuck s} (h : Kept q s) : Kept q (lcTransition stage stuck s) := by
  simp (maxDischargeDepth := 60) +contextual only [lcTransition, kept_mk, kept_fold, kept_conEvent, kept_eraseKeys, kept_raise, kept_readLc, kept_setB, kept_wipeGarnet, h]

theorem kept_authDraw {q transport s} (h : Kept q s) : Kept q (authDraw transport s).2 := by
  simp (maxDischargeDepth := 60) +contextual only [authDraw, kept_drew, kept_setGarnet, h]

theorem kept_lapseNonce {q s} (h : Kept q s) : Kept q (lapseNonce s) := by
  simp (maxDischargeDepth := 60) +contextual only [lapseNonce, kept_setGarnet, h]

theorem kept_authJudge {q transport proof s} (h : Kept q s) : Kept q (authJudge transport proof s).2 := by
  simp (maxDischargeDepth := 60) +contextual only [authJudge, kept_mk, kept_fold, kept_ite2, kept_garnetKey, kept_incF, kept_lapseNonce, kept_raise, kept_readGarnet, kept_setF, kept_setGarnet, h]

theorem keptOut_execTamperRecognised {q s} (h : Kept q s) : KeptOut q (execTamperRecognised s) := by
  simp (maxDischargeDepth := 60) +contextual only [execTamperRecognised, keptOut_next, kept_mk, kept_fold, kept_ite, kept_raise, kept_setF, kept_setReg, kept_trace, kept_wipeGarnet, h]

theorem keptOut_execKeyRecordErase {q s} (h : Kept q s) : KeptOut q (execKeyRecordErase s) := by
  simp (maxDischargeDepth := 60) +contextual only [execKeyRecordErase, keptOut_next, kept_ite, kept_eraseKeys, kept_trace, h]

theorem keptOut_execTamperNRelease {q s} (h : Kept q s) : KeptOut q (execTamperNRelease s) := by
  simp (maxDischargeDepth := 60) +contextual only [execTamperNRelease, keptOut_next, kept_setF, h]

theorem keptOut_execTamperClr {q s} (h : Kept q s) : KeptOut q (execTamperClr s) := by
  simp (maxDischargeDepth := 60) +contextual only [execTamperClr, keptOut_next, kept_ite, kept_clearTamper, h]

theorem keptOut_execSealKeyGenerate {q flips s} (h : Kept q s) : KeptOut q (execSealKeyGenerate flips s) := by
  simp (maxDischargeDepth := 60) +contextual only [execSealKeyGenerate, keptOut_next, kept_ite, kept_generateSeal, h]

theorem keptOut_execNonceLapse {q s} (h : Kept q s) : KeptOut q (execNonceLapse s) := by
  simp (maxDischargeDepth := 60) +contextual only [execNonceLapse, keptOut_next, kept_ite, kept_lapseNonce, h]

end Sys2Proof.Machine
end

