-- ==== Sys2Proof/Laws/KeptTwinCore.lean ====
section
/-! SUPPORT. Every function of Machine/TwinCore.lean that changes the state keeps `Kept`. -/

set_option linter.unusedSimpArgs false
set_option Elab.async false

namespace Sys2Proof.Machine

theorem kept_fullRequest {q s} (h : Kept q s) : Kept q (fullRequest s) := by
  simp (maxDischargeDepth := 60) +contextual only [fullRequest, kept_mk, kept_fold, kept_ite, kept_conEvent, kept_requestAll, kept_setF, kept_staleRegs, kept_syncUpdate, h]

theorem kept_replUpdate {q s} (h : Kept q s) : Kept q (replUpdate s) := by
  simp (maxDischargeDepth := 60) +contextual only [replUpdate, kept_mk, kept_fold, kept_ite, kept_fullRequest, kept_setB, h]

theorem kept_resumeResync {q s} (h : Kept q s) : Kept q (resumeResync s) := by
  simp (maxDischargeDepth := 60) +contextual only [resumeResync, kept_ite, kept_requestAll, kept_setF, h]

theorem kept_linkLost {q cause s} (h : Kept q s) : Kept q (linkLost cause s) := by
  simp (maxDischargeDepth := 60) +contextual only [linkLost, kept_mk, kept_fold, kept_ite, kept_incF, kept_raise, kept_replUpdate, kept_setF, h]

theorem kept_retrain {q s} (h : Kept q s) : Kept q (retrain s) := by
  simp (maxDischargeDepth := 60) +contextual only [retrain, kept_mk, kept_fold, kept_ite, kept_incF, kept_replUpdate, kept_setF, h]

theorem kept_linkNoXosc {q s} (h : Kept q s) : Kept q (linkNoXosc s) := by
  simp (maxDischargeDepth := 60) +contextual only [linkNoXosc, kept_ite, kept_linkLost, kept_setF, h]

theorem kept_trainLink {q s} (h : Kept q s) : Kept q (trainLink s) := by
  simp (maxDischargeDepth := 60) +contextual only [trainLink, kept_ite, kept_setF, h]

theorem kept_setModule {q s} (h : Kept q s) : Kept q (setModule s) := by
  simp (maxDischargeDepth := 60) +contextual only [setModule, kept_mk, kept_fold, kept_conEvent, kept_ibi, kept_setF, h]

theorem kept_twinHandBack {q kind ledger warm cold valid s} (h : Kept q s) : Kept q (twinHandBack kind ledger warm cold valid s) := by
  simp (maxDischargeDepth := 60) +contextual only [twinHandBack, kept_mk, kept_fold, kept_ite, kept_fullRequest, kept_replUpdate, kept_setB, kept_setF, kept_setModule, h]

theorem kept_twinSaveBegin {q s} (h : Kept q s) : Kept q (twinSaveBegin s) := by
  simp (maxDischargeDepth := 60) +contextual only [twinSaveBegin, kept_mk, kept_fold, kept_setF, h]

end Sys2Proof.Machine
end

