-- ==== Sys2Proof/Laws/KeptCommit.lean ====
section
/-! SUPPORT. Every function of Machine/Commit.lean that changes the state keeps `Kept`. -/

set_option linter.unusedSimpArgs false
set_option Elab.async false

namespace Sys2Proof.Machine

theorem kept_commitStatus {q on s} (h : Kept q s) : Kept q (commitStatus on s) := by
  simp (maxDischargeDepth := 60) +contextual only [commitStatus, kept_setB, h]

theorem kept_commitEntry {q kind slot cause flips s} (h : Kept q s) : Kept q (commitEntry kind slot cause flips s) := by
  simp (maxDischargeDepth := 60) +contextual only [commitEntry, kept_ite, kept_setF, kept_writeEntry, h]

theorem kept_commitBegin {q kind slot cause flips s} (h : Kept q s) : Kept q (commitBegin kind slot cause flips s) := by
  simp (maxDischargeDepth := 60) +contextual only [commitBegin, kept_mk, kept_fold, kept_commitEntry, kept_commitStatus, kept_keepWrite, kept_wearOne, h]

theorem kept_commitLine {q c l s} (h : Kept q s) : Kept q (commitLine c l s).2 := by
  simp (maxDischargeDepth := 60) +contextual only [commitLine, kept_foldl, kept_readLine, kept_setKeep, kept_unmarkIn, h, implies_true]

theorem kept_commitFold {q : List Instr} {l : List Nat} {c : Commit} {s : State} (h : Kept q s) :
    Kept q (l.foldl (fun (a : Commit × State) l => commitLine a.1 l a.2) (c, s)).2 :=
  kept_foldl2 (fun _ _ ht => kept_commitLine ht) h

theorem kept_commitLines {q flips s} (h : Kept q s) : Kept q (commitLines flips s) := by
  unfold commitLines
  split
  · exact h
  · simp only [kept_mk, kept_fold]
    apply kept_keepFlips
    apply kept_commitFold
    exact kept_markedLines (kept_wakeBanks (kept_markedLines h))

theorem kept_commitMaps {q c flips s} (h : Kept q s) : Kept q (commitMaps c flips s) := by
  simp (maxDischargeDepth := 60) +contextual only [commitMaps, kept_keepWrite, h]

theorem kept_commitSeal {q c key flips s} (h : Kept q s) : Kept q (commitSeal c key flips s) := by
  simp (maxDischargeDepth := 60) +contextual only [commitSeal, kept_ite, kept_crcFail, kept_keepRead, kept_keepWrite, kept_setF, kept_writeEntry, h]

theorem kept_commitEnd {q s} (h : Kept q s) : Kept q (commitEnd s) := by
  simp (maxDischargeDepth := 60) +contextual only [commitEnd, kept_mk, kept_fold, kept_commitStatus, h]

theorem kept_spillTrace {q flips s} (h : Kept q s) : Kept q (spillTrace flips s) := by
  simp (maxDischargeDepth := 60) +contextual only [spillTrace, kept_ite, kept_crcFail, kept_keepRead, kept_keepWrite, kept_setF, kept_wearRing, h]

theorem kept_checkpointBegin {q kind flips s} (h : Kept q s) : Kept q (checkpointBegin kind flips s) := by
  simp (maxDischargeDepth := 60) +contextual only [checkpointBegin, kept_commitBegin, kept_commitLines, h]

theorem kept_checkpointEnd {q flips s} (h : Kept q s) : Kept q (checkpointEnd flips s) := by
  unfold checkpointEnd
  (try dsimp only)
  (repeat' split) <;> simp (maxDischargeDepth := 60) +contextual only [kept_mk, kept_fold, kept_ite, kept_ite1, kept_ite2, kept_ite22, kept_foldl, kept_foldl2, kept_foldl1, kept_commitEnd, kept_commitMaps, kept_commitSeal, kept_garnetKey, kept_setF, h, implies_true, and_self]

theorem kept_checkpointStart {q flips s} (h : Kept q s) : Kept q (checkpointStart flips s) := by
  simp (maxDischargeDepth := 60) +contextual only [checkpointStart, kept_mk, kept_fold, kept_ite, kept_checkpointBegin, kept_setF, h]

theorem kept_cfgAgain {q again flips s} (h : Kept q s) : Kept q (cfgAgain again flips s) := by
  unfold cfgAgain
  (try dsimp only)
  (repeat' split) <;> simp (maxDischargeDepth := 60) +contextual only [kept_mk, kept_fold, kept_ite, kept_ite1, kept_ite2, kept_ite22, kept_foldl, kept_foldl2, kept_foldl1, kept_readCfg, kept_storeTwo, kept_wearOne, h, implies_true, and_self]

theorem kept_calAgain {q rs again flips s} (h : Kept q s) : Kept q (calAgain rs again flips s) := by
  unfold calAgain
  (try dsimp only)
  (repeat' split) <;> simp (maxDischargeDepth := 60) +contextual only [kept_mk, kept_fold, kept_ite, kept_ite1, kept_ite2, kept_ite22, kept_foldl, kept_foldl2, kept_foldl1, kept_setF, kept_storeTwo, kept_wearCal, h, implies_true, and_self]

theorem kept_keyAgain {q k again flips s} (h : Kept q s) : Kept q (keyAgain k again flips s) := by
  unfold keyAgain
  (try dsimp only)
  (repeat' split) <;> simp (maxDischargeDepth := 60) +contextual only [kept_mk, kept_fold, kept_ite, kept_ite1, kept_ite2, kept_ite22, kept_foldl, kept_foldl2, kept_foldl1, kept_readKey, kept_storeKey, h, implies_true, and_self]

theorem kept_patchWrite {q bytes again flips s} (h : Kept q s) : Kept q (patchWrite bytes again flips s) := by
  simp (maxDischargeDepth := 60) +contextual only [patchWrite, kept_mk, kept_fold, kept_ite, kept_ite1, kept_ite2, kept_storeOne, kept_wearOne, h, implies_true]

theorem kept_patchAgain {q flips s} (h : Kept q s) : Kept q (patchAgain flips s) := by
  simp (maxDischargeDepth := 60) +contextual only [patchAgain, kept_ite, kept_ite1, kept_ite2, kept_patchWrite, kept_readCopy, h]

theorem kept_installKey {q key again flips s} (h : Kept q s) : Kept q (installKey key again flips s) := by
  simp (maxDischargeDepth := 60) +contextual only [installKey, kept_mk, kept_fold, kept_ite, kept_endAuth, kept_putKey, kept_storeKey, h]

theorem kept_refreshBegin {q flips s} (h : Kept q s) : Kept q (refreshBegin flips s) := by
  simp (maxDischargeDepth := 60) +contextual only [refreshBegin, kept_foldl, kept_calAgain, kept_cfgAgain, kept_keyAgain, kept_markAll, kept_patchAgain, kept_setF, h, implies_true]

theorem kept_refreshStart {q flips s} (h : Kept q s) : Kept q (refreshStart flips s) := by
  simp (maxDischargeDepth := 60) +contextual only [refreshStart, kept_mk, kept_fold, kept_ite, kept_refreshBegin, h]

theorem keptOut_execKeepCheckpoint {q flips s} (h : Kept q s) : KeptOut q (execKeepCheckpoint flips s) := by
  simp (maxDischargeDepth := 60) +contextual only [execKeepCheckpoint, keptOut_next, kept_checkpointStart, h]

theorem keptOut_execKeepCheckpointDone {q flips holds s} (h : Kept q s) : KeptOut q (execKeepCheckpointDone flips holds s) := by
  simp (maxDischargeDepth := 60) +contextual only [execKeepCheckpointDone, keptOut_next, kept_ite, kept_ite1, kept_ite2, kept_checkpointEnd, kept_completeTokens, kept_countHolds, kept_setF, h]

theorem keptOut_execKeepRefresh {q flips s} (h : Kept q s) : KeptOut q (execKeepRefresh flips s) := by
  simp (maxDischargeDepth := 60) +contextual only [execKeepRefresh, keptOut_next, kept_refreshStart, h]

theorem keptOut_execKeepRefreshDone {q flips holds s} (h : Kept q s) : KeptOut q (execKeepRefreshDone flips holds s) := by
  simp (maxDischargeDepth := 60) +contextual only [execKeepRefreshDone, keptOut_next, kept_mk, kept_fold, kept_ite, kept_ite1, kept_ite2, kept_checkpointBegin, kept_checkpointEnd, kept_completeTokens, kept_countHolds, kept_setF, h]

theorem keptOut_execRecordStoreRetry {q flips s} (h : Kept q s) : KeptOut q (execRecordStoreRetry flips s) := by
  unfold execRecordStoreRetry
  (try dsimp only)
  (repeat' split) <;> simp (maxDischargeDepth := 60) +contextual only [keptOut_next, kept_mk, kept_fold, kept_ite, kept_ite1, kept_ite2, kept_calAgain, kept_calStoreRun, kept_cfgAgain, kept_cfgStoreRun, kept_completeTokens, kept_installKey, kept_keyAgain, kept_patchWrite, kept_ite22, h, implies_true, and_self]

theorem keptOut_execKeepRecordRewrite {q flips s} (h : Kept q s) : KeptOut q (execKeepRecordRewrite flips s) := by
  unfold execKeepRecordRewrite
  (try dsimp only)
  (repeat' split) <;> simp (maxDischargeDepth := 60) +contextual only [keptOut_next, keptOut_ite, kept_mk, kept_fold, kept_ite, kept_ite1, kept_ite2, kept_ite22, kept_foldl, kept_foldl2, kept_foldl1, kept_calAgain, kept_cfgAgain, kept_keyAgain, h, implies_true, and_self]

end Sys2Proof.Machine
end

