-- ==== Sys2Proof/Laws/KeptDataLanes.lean ====
section
/-! SUPPORT. Every function of Machine/DataLanes.lean that changes the state keeps `Kept`. -/

set_option linter.unusedSimpArgs false
set_option Elab.async false

namespace Sys2Proof.Machine

theorem kept_clShort {q s} (h : Kept q s) : Kept q (clShort s) := by
  simp (maxDischargeDepth := 60) +contextual only [clShort, kept_ite, kept_setB, kept_setF, kept_trace, h]

theorem kept_snoopShared {q ranks e s} (h : Kept q s) : Kept q (snoopShared ranks e s) := by
  unfold snoopShared
  (try dsimp only)
  (repeat' split) <;> simp (maxDischargeDepth := 60) +contextual only [kept_mk, kept_fold, kept_ite, kept_ite1, kept_ite2, kept_setF, kept_ite22, h, implies_true, and_self]

theorem kept_skewSettle {q s} (h : Kept q s) : Kept q (skewSettle s) := by
  simp (maxDischargeDepth := 60) +contextual only [skewSettle, kept_mk, kept_fold, kept_setB, h, implies_true]

theorem kept_trainStep {q on n s} (h : Kept q s) : Kept q (trainStep on n s) := by
  simp (maxDischargeDepth := 60) +contextual only [trainStep, kept_mk, kept_fold, kept_ite, kept_ite1, kept_ite2, kept_pauseHostAll, h]

theorem kept_snoopOne {q s e} (h : Kept q s) : Kept q (snoopOne s e) := by
  unfold snoopOne
  (try dsimp only)
  (repeat' split) <;> simp (maxDischargeDepth := 60) +contextual only [kept_mk, kept_fold, kept_setB, kept_trace, kept_trainStep, h]

theorem kept_snoop {q ranks sets s} (h : Kept q s) : Kept q (snoop ranks sets s) := by
  simp (maxDischargeDepth := 60) +contextual only [snoop, kept_ite, kept_ite1, kept_ite2, kept_foldl, kept_foldl2, kept_foldl1, kept_clShort, kept_setF, kept_skewSettle, kept_snoopOne, kept_snoopShared, kept_trace, h, implies_true]

theorem kept_trainAnswer {q p s} (h : Kept q s) : Kept q (trainAnswer p s) := by
  simp (maxDischargeDepth := 60) +contextual only [trainAnswer, kept_mk, kept_fold, kept_ite, kept_ite1, kept_ite2, h, implies_true]

theorem kept_levelAnswer {q s} (h : Kept q s) : Kept q (levelAnswer s) := by
  simp (maxDischargeDepth := 60) +contextual only [levelAnswer, kept_mk, kept_fold, kept_ite, kept_ite1, kept_ite2, kept_drew, h, implies_true]

theorem kept_toDram {q rank line s} (h : Kept q s) : Kept q (toDram rank line s) := by
  simp (maxDischargeDepth := 60) +contextual only [toDram, kept_mk, kept_fold, h]

theorem kept_crcFailed {q o lanes s} (h : Kept q s) : Kept q (crcFailed o lanes s) := by
  simp (maxDischargeDepth := 60) +contextual only [crcFailed, kept_ite, kept_foldl, kept_halert, kept_incF, kept_raise, kept_setReg, h, implies_true]

theorem kept_writeCheck {q o line s} (h : Kept q s) : Kept q (writeCheck o line s) := by
  simp (maxDischargeDepth := 60) +contextual only [writeCheck, kept_ite, kept_incF, kept_raise, h]

theorem kept_slotWrite {q i line failed s} (h : Kept q s) : Kept q (slotWrite i line failed s) := by
  simp (maxDischargeDepth := 60) +contextual only [slotWrite, kept_ite, kept_ite1, kept_ite2, kept_opNotExecuted, kept_opReceive, kept_putLine, h]

theorem kept_ledgerBurst {q o l line failed s} (h : Kept q s) : Kept q (ledgerBurst o l line failed s) := by
  simp (maxDischargeDepth := 60) +contextual only [ledgerBurst, kept_ite, kept_slotWrite, kept_writeLine, h]

theorem kept_takeBurst {q o line crc mon held s} (h : Kept q s) : Kept q (takeBurst o line crc mon held s) := by
  unfold takeBurst
  (try dsimp only)
  (repeat' split) <;> simp (maxDischargeDepth := 60) +contextual only [kept_mk, kept_fold, kept_ite, kept_ite1, kept_ite2, kept_countHeld, kept_crcFailed, kept_hostSample, kept_ledgerBurst, kept_levelAnswer, kept_toDram, kept_writeCheck, kept_ite22, h, implies_true, and_self]

theorem kept_writeBurst {q line crc mon held s} (h : Kept q s) : Kept q (writeBurst line crc mon held s) := by
  unfold writeBurst
  (try dsimp only)
  (repeat' split) <;> simp (maxDischargeDepth := 60) +contextual only [kept_mk, kept_fold, kept_ite, kept_ite1, kept_ite2, kept_takeBurst, kept_ite22, h, implies_true, and_self]

theorem kept_dalert {q ranks s} (h : Kept q s) : Kept q (dalert ranks s) := by
  simp (maxDischargeDepth := 60) +contextual only [dalert, kept_ite, kept_ite1, kept_ite2, kept_gapAlert, kept_halert, kept_incF, kept_raise, kept_setF, h]

theorem keptOut_execWriteBurst {q data crc mon held s} (h : Kept q s) : KeptOut q (execWriteBurst data crc mon held s) := by
  simp (maxDischargeDepth := 60) +contextual only [execWriteBurst, keptOut_next, kept_ite, kept_ite1, kept_ite2, kept_writeBurst, h]

theorem keptOut_execDalertEvent {q ranks s} (h : Kept q s) : KeptOut q (execDalertEvent ranks s) := by
  simp (maxDischargeDepth := 60) +contextual only [execDalertEvent, keptOut_next, kept_ite, kept_dalert, h]

theorem keptOut_execTrHoldLapse {q s} (h : Kept q s) : KeptOut q (execTrHoldLapse s) := by
  simp (maxDischargeDepth := 60) +contextual only [execTrHoldLapse, keptOut_next, kept_mk, kept_fold, kept_ite, kept_ite1, kept_ite2, kept_resumeLanes, kept_trace, h]

end Sys2Proof.Machine
end

