-- ==== Sys2Proof/Laws/KeptResets.lean ====
section
/-! SUPPORT. Every function of Machine/Resets.lean that changes the state keeps `Kept`. -/

set_option linter.unusedSimpArgs false
set_option Elab.async false

namespace Sys2Proof.Machine

theorem kept_resetRegs {q p s} (h : Kept q s) : Kept q (resetRegs p s) := kept_dropRegs h

theorem kept_loadClass {q c s} (h : Kept q s) : Kept q (loadClass c s) := by
  simp (maxDischargeDepth := 60) +contextual only [loadClass, kept_cfgLoad, h]

theorem kept_setDomains {q ldg mgt core hio dio s} (h : Kept q s) : Kept q (setDomains ldg mgt core hio dio s) := by
  simp (maxDischargeDepth := 60) +contextual only [setDomains, kept_setF, h]

theorem kept_setIsland {q l s} (h : Kept q s) : Kept q (setIsland l s) := by
  simp (maxDischargeDepth := 60) +contextual only [setIsland, kept_mk, kept_fold, h]

theorem kept_giveIsland {q s} (h : Kept q s) : Kept q (giveIsland s) := by
  simp (maxDischargeDepth := 60) +contextual only [giveIsland, kept_mk, kept_fold, h]

theorem kept_takeIsland {q s} (h : Kept q s) : Kept q (takeIsland s) := by
  simp (maxDischargeDepth := 60) +contextual only [takeIsland, kept_mk, kept_fold, h]

theorem kept_hpllToXosc {q s} (h : Kept q s) : Kept q (hpllToXosc s) := by
  simp (maxDischargeDepth := 60) +contextual only [hpllToXosc, kept_setB, h]

theorem kept_hpllOff {q s} (h : Kept q s) : Kept q (hpllOff s) := by
  simp (maxDischargeDepth := 60) +contextual only [hpllOff, kept_setF, h]

theorem kept_coreReset {q s} (h : Kept q s) : Kept q (coreReset s) := by
  have h1 := kept_resetRegs (p := inClass .core) h
  exact kept_setReg (kept_setF (kept_ring (kept_hct h1 (m := []) rfl) (l := []) (by simp)))

theorem kept_coreUp {q s} (h : Kept q s) : Kept q (coreUp s) := by
  simp (maxDischargeDepth := 60) +contextual only [coreUp, kept_coreReset, kept_loadClass, kept_setReg, h]

theorem kept_sessionEnd {q s} (h : Kept q s) : Kept q (sessionEnd s) := by
  unfold sessionEnd
  dsimp only
  have h1 := kept_endAuth (q := q) (s := { s with staged := [], con := { s.con with line := [], long := false, overrun := false, badByte := false, input := [], reply := [], out := [], events := [], dropped := 0, tokens := [], last := none, busy := false, ending := false } })
      (kept_events h (l := []) (by simp))
  split
  · exact h
  · split
    · exact kept_setReg h1
    · exact kept_trace (kept_setReg h1)

theorem kept_consoleReset {q s} (h : Kept q s) : Kept q (consoleReset s) :=
  kept_ibis (kept_events h (l := []) (by simp)) (l := []) (by simp)

theorem kept_twinReset {q s} (h : Kept q s) : Kept q (twinReset s) := by
  simp (maxDischargeDepth := 60) +contextual only [twinReset, kept_mk, kept_fold, h]

theorem kept_collectorReset {q s} (h : Kept q s) : Kept q (collectorReset s) := by
  simp (maxDischargeDepth := 60) +contextual only [collectorReset, kept_mk, kept_fold, h]

theorem kept_gradeValues {q s} (h : Kept q s) : Kept q (gradeValues s) := by
  simp (maxDischargeDepth := 60) +contextual only [gradeValues, kept_ite, kept_setReg, h]

theorem kept_mgtReset {q s} (h : Kept q s) : Kept q (mgtReset s) := by
  simp (maxDischargeDepth := 60) +contextual only [mgtReset, kept_mk, kept_fold, kept_collectorReset, kept_consoleReset, kept_gradeValues, kept_resetRegs, kept_twinReset, h]

theorem kept_resetBase {q s} (h : Kept q s) : Kept q (resetBase s) :=
  kept_setReg (kept_setReg (kept_setReg ⟨h.1, rfl, rfl, rfl, rfl, rfl, h.wfKeep, rfl, rfl, Nat.zero_le _, Nat.zero_le _,
    Nat.zero_le _, Nat.zero_le _⟩))

theorem kept_aonReset {q s} (h : Kept q s) : Kept q (aonReset s) := by
  simp (maxDischargeDepth := 60) +contextual only [aonReset, kept_mk, kept_fold, kept_resetBase, h]

theorem kept_aonRelease {q s} (h : Kept q s) : Kept q (aonRelease s) :=
  kept_fifo (s := { s with boot := .starting }) h (by simp)

theorem kept_chipReset {q s} (h : Kept q s) : Kept q (chipReset s) := by
  have h1 := kept_sessionEnd h
  have h2 := kept_ring (kept_fifo (kept_resetBase h1) h1.fifoLen) (l := []) (by simp)
  unfold chipReset
  dsimp only
  exact kept_trace (kept_setReg (kept_setReg (kept_setReg (kept_setF (kept_foldl (fun t e ht => kept_setReg ht) h2)))))

end Sys2Proof.Machine
end

