-- ==== Sys2Proof/Laws/KeptMarchRepair.lean ====
section
/-! SUPPORT. Every function of Machine/MarchRepair.lean that changes the state keeps `Kept`. -/

set_option linter.unusedSimpArgs false
set_option Elab.async false

namespace Sys2Proof.Machine

theorem kept_loadSteering {q s} (h : Kept q s) : Kept q (loadSteering s) := by
  simp (maxDischargeDepth := 60) +contextual only [loadSteering, kept_mk, kept_fold, h]

theorem kept_clearResults {q s} (h : Kept q s) : Kept q (clearResults s) := by
  simp (maxDischargeDepth := 60) +contextual only [clearResults, kept_resetRegs, kept_setReg, h]

theorem kept_spareBad {q b hit s} (h : Kept q s) : Kept q (spareBad b hit s) := by
  simp (maxDischargeDepth := 60) +contextual only [spareBad, kept_mk, kept_fold, h]

theorem kept_recordFail {q f s} (h : Kept q s) : Kept q (recordFail f s) := by
  simp (maxDischargeDepth := 60) +contextual only [recordFail, kept_ite, kept_ite1, kept_ite2, kept_incF, kept_setBitF, kept_setF, kept_setReg, kept_spareBad, h]

theorem kept_recordRun {q r reads s} (h : Kept q s) : Kept q (recordRun r reads s) := by
  simp (maxDischargeDepth := 60) +contextual only [recordRun, kept_ite, kept_ite1, kept_ite2, kept_foldl, kept_foldl2, kept_foldl1, kept_raise, kept_recordFail, kept_setB, kept_setF, h, implies_true]

theorem kept_clearBanks {q banks s} (h : Kept q s) : Kept q (clearBanks banks s) := by
  have h1 := kept_maps (kept_words h (smWf_smDrop (p := fun k => banks.testBit (k / 20480)) h.wfWords))
    (smWf_smDrop (p := fun k => banks.testBit (k % 512 / 32)) h.wfMaps)
  unfold clearBanks
  dsimp only
  split
  · exact kept_clearSlots h1
  · exact h1

theorem kept_hctScrap {q s} (h : Kept q s) : Kept q (hctScrap s) :=
  kept_setF (kept_hctClear (s := { s with lg := { s.lg with hct := [], pend := .none } }) (kept_hct h (m := []) rfl))

theorem kept_restoreTargets {q targets banks s} (h : Kept q s) : Kept q (restoreTargets targets banks s) := by
  unfold restoreTargets
  dsimp only
  have h1 : Kept q (if targets.testBit 0 then clearBanks banks s else s) := kept_ite (kept_clearBanks h) h
  generalize (if targets.testBit 0 = true then clearBanks banks s else s) = s1 at *
  have h2 : Kept q (if targets.testBit 1 then { s1 with ld := { s1.ld with maps := [], tags := [] } } else s1) :=
    kept_ite (kept_tags (kept_maps h1 (m := []) rfl) (m := []) rfl) h1
  generalize (if targets.testBit 1 = true then { s1 with ld := { s1.ld with maps := [], tags := [] } } else s1) = s2 at *
  have h3 : Kept q (if targets.testBit 2 then unwrapKeys (wipeGarnet s2) else s2) :=
    kept_ite (kept_unwrapKeys (kept_wipeGarnet h2)) h2
  generalize (if targets.testBit 2 = true then unwrapKeys (wipeGarnet s2) else s2) = s3 at *
  have h4 : Kept q (if targets.testBit 3 then cfgLoadHct (hctScrap s3) else s3) :=
    kept_ite (kept_cfgLoadHct (kept_hctScrap h3)) h3
  generalize (if targets.testBit 3 = true then cfgLoadHct (hctScrap s3) else s3) = s4 at *
  have h5 := kept_ring h4 (l := []) (by simp)
  exact kept_ite (kept_ite (kept_trace h5) h5) h4

theorem kept_marchBegin {q s} (h : Kept q s) : Kept q (marchBegin s) := by
  simp (maxDischargeDepth := 60) +contextual only [marchBegin, kept_mk, kept_fold, kept_clearResults, kept_setF, h]

theorem kept_marchStart {q s} (h : Kept q s) : Kept q (marchStart s) := by
  simp (maxDischargeDepth := 60) +contextual only [marchStart, kept_ite, kept_marchBegin, h]

theorem kept_marchEnd {q aborted reads s} (h : Kept q s) : Kept q (marchEnd aborted reads s) := by
  simp (maxDischargeDepth := 60) +contextual only [marchEnd, kept_mk, kept_fold, kept_ite, kept_ite1, kept_ite2, kept_completeTokens, kept_conEvent, kept_recordRun, kept_restoreTargets, kept_setB, kept_setF, h]

theorem kept_marchStop {q s} (h : Kept q s) : Kept q (marchStop s) := by
  simp (maxDischargeDepth := 60) +contextual only [marchStop, kept_ite, kept_ite1, kept_ite2, kept_drew, kept_marchEnd, h]

theorem kept_clearTested {q s} (h : Kept q s) : Kept q (clearTested s) := by
  unfold clearTested
  (try dsimp only)
  (repeat' split) <;> simp (maxDischargeDepth := 60) +contextual only [kept_mk, kept_fold, kept_restoreTargets, kept_ite, kept_ite1, kept_ite2, kept_ite22, h, implies_true, and_self]

theorem kept_startupMarch {q reads s} (h : Kept q s) : Kept q (startupMarch reads s) := by
  simp (maxDischargeDepth := 60) +contextual only [startupMarch, kept_ite, kept_ite1, kept_ite2, kept_clearResults, kept_recordRun, kept_setB, kept_setF, h]

theorem kept_burnStart {q b k col s} (h : Kept q s) : Kept q (burnStart b k col s) := by
  simp (maxDischargeDepth := 60) +contextual only [burnStart, kept_mk, kept_fold, kept_setF, h]

theorem kept_burnEnd {q stuck s} (h : Kept q s) : Kept q (burnEnd stuck s) := by
  unfold burnEnd
  (try dsimp only)
  (repeat' split) <;> simp (maxDischargeDepth := 60) +contextual only [kept_mk, kept_fold, kept_ite, kept_ite1, kept_ite2, kept_ite22, kept_foldl, kept_foldl2, kept_foldl1, kept_setB, kept_setF, h, implies_true, and_self]

theorem keptOut_execMarchStart {q s} (h : Kept q s) : KeptOut q (execMarchStart s) := by
  simp (maxDischargeDepth := 60) +contextual only [execMarchStart, keptOut_next, kept_marchStart, h]

theorem keptOut_execMarchAbort {q findings s} (h : Kept q s) : KeptOut q (execMarchAbort findings s) := by
  simp (maxDischargeDepth := 60) +contextual only [execMarchAbort, keptOut_next, kept_marchEnd, h]

theorem keptOut_execMarchDone {q findings s} (h : Kept q s) : KeptOut q (execMarchDone findings s) := by
  simp (maxDischargeDepth := 60) +contextual only [execMarchDone, keptOut_next, kept_marchEnd, h]

theorem keptOut_execBurnGo {q bank spare col s} (h : Kept q s) : KeptOut q (execBurnGo bank spare col s) := by
  simp (maxDischargeDepth := 60) +contextual only [execBurnGo, keptOut_next, kept_ite, kept_burnStart, h]

theorem keptOut_execBurnDone {q stuck s} (h : Kept q s) : KeptOut q (execBurnDone stuck s) := by
  simp (maxDischargeDepth := 60) +contextual only [execBurnDone, keptOut_next, kept_burnEnd, h]

end Sys2Proof.Machine
end

