-- ==== Sys2Proof/Laws/KeptSave.lean ====
section
/-! SUPPORT. Every function of Machine/Save.lean that changes the state keeps `Kept`. -/

set_option linter.unusedSimpArgs false
set_option Elab.async false

namespace Sys2Proof.Machine

theorem kept_injClear {q s} (h : Kept q s) : Kept q (injClear s) := by
  simp (maxDischargeDepth := 60) +contextual only [injClear, kept_setF, h]

theorem kept_setStep {q n s} (h : Kept q s) : Kept q (setStep n s) := by
  simp (maxDischargeDepth := 60) +contextual only [setStep, kept_setF, h]

theorem kept_overrun {q step s} (h : Kept q s) : Kept q (overrun step s) := by
  simp (maxDischargeDepth := 60) +contextual only [overrun, kept_ite, kept_raise, kept_setF, h]

theorem kept_saveBegin {q cause fs32 s} (h : Kept q s) : Kept q (saveBegin cause fs32 s) := by
  simp (maxDischargeDepth := 60) +contextual only [saveBegin, kept_mk, kept_fold, kept_setF, kept_setReg, h]

theorem kept_saveTrigger {q cause s} (h : Kept q s) : Kept q (saveTrigger cause s) := by
  simp (maxDischargeDepth := 60) +contextual only [saveTrigger, kept_ite, kept_saveBegin, kept_trace, h]

theorem kept_discExpire {q ch n s} (h : Kept q s) : Kept q (discExpire ch n s) := by
  simp (maxDischargeDepth := 60) +contextual only [discExpire, kept_raise, kept_saveBegin, kept_setF, h]

theorem kept_discIgnore {q ch n s} (h : Kept q s) : Kept q (discIgnore ch n s) := by
  simp (maxDischargeDepth := 60) +contextual only [discIgnore, kept_incF, kept_setF, kept_trace, h]

theorem kept_discStart {q ch s} (h : Kept q s) : Kept q (discStart ch s) := by
  simp (maxDischargeDepth := 60) +contextual only [discStart, kept_setF, h]

theorem kept_savePair {q low0 low1 s} (h : Kept q s) : Kept q (savePair low0 low1 s) := by
  simp (maxDischargeDepth := 60) +contextual only [savePair, kept_ite, kept_discExpire, kept_discIgnore, kept_discStart, kept_saveBegin, kept_setF, h]

theorem kept_saveLevels {q low0 low1 s} (h : Kept q s) : Kept q (saveLevels low0 low1 s) := by
  simp (maxDischargeDepth := 60) +contextual only [saveLevels, kept_ite, kept_setB, kept_trace, h]

theorem kept_savePairTick {q low0 low1 s} (h : Kept q s) : Kept q (savePairTick low0 low1 s) := by
  simp (maxDischargeDepth := 60) +contextual only [savePairTick, kept_ite, kept_saveLevels, kept_savePair, kept_setF, kept_trace, h]

theorem kept_formNonce {q s} (h : Kept q s) : Kept q (formNonce s) := by
  simp (maxDischargeDepth := 60) +contextual only [formNonce, kept_setF, h]

theorem kept_saveMessage {q s} (h : Kept q s) : Kept q (saveMessage s) := by
  simp (maxDischargeDepth := 60) +contextual only [saveMessage, kept_ite, kept_sendFlit, h]

theorem kept_serviceBegin {q s} (h : Kept q s) : Kept q (serviceBegin s) := by
  simp (maxDischargeDepth := 60) +contextual only [serviceBegin, kept_mk, kept_fold, kept_formNonce, kept_setF, h]

theorem kept_blockHost {q findings s} (h : Kept q s) : Kept q (blockHost findings s) := by
  simp (maxDischargeDepth := 60) +contextual only [blockHost, kept_mk, kept_fold, kept_marchEnd, kept_setF, kept_stopEngines, h]

theorem kept_saveS2 {q s} (h : Kept q s) : Kept q (saveS2 s) := by
  simp (maxDischargeDepth := 60) +contextual only [saveS2, kept_mk, kept_fold, kept_saveMessage, kept_setStep, h]

theorem kept_saveS0 {q s} (h : Kept q s) : Kept q (saveS0 s) := by
  simp (maxDischargeDepth := 60) +contextual only [saveS0, kept_mk, kept_fold, kept_ite, kept_ite1, kept_ite2, kept_blockHost, kept_conEvent, kept_formNonce, kept_injClear, kept_marchStop, kept_saveS2, kept_setB, kept_setF, kept_setStep, kept_twinSaveBegin, h]

theorem kept_markRefresh {q r s} (h : Kept q s) : Kept q (markRefresh r s) := by
  simp (maxDischargeDepth := 60) +contextual only [markRefresh, kept_mk, kept_fold, h]

theorem kept_drain {q s} (h : Kept q s) : Kept q (drain s) := by
  simp (maxDischargeDepth := 60) +contextual only [drain, kept_ite, kept_foldl, kept_issue, kept_markRefresh, kept_setF, kept_setReg, kept_trackClosed, h, implies_true]

theorem kept_canaries {q s} (h : Kept q s) : Kept q (canaries s) := by
  simp (maxDischargeDepth := 60) +contextual only [canaries, kept_mk, kept_fold, kept_issue, kept_setF, h, implies_true]

theorem kept_selfRefresh {q s} (h : Kept q s) : Kept q (selfRefresh s) := by
  simp (maxDischargeDepth := 60) +contextual only [selfRefresh, kept_ite, kept_ite1, kept_ite2, kept_issue, kept_setF, kept_setIsland, kept_takeIsland, h]

theorem kept_coreDown {q s} (h : Kept q s) : Kept q (coreDown s) := by
  simp (maxDischargeDepth := 60) +contextual only [coreDown, kept_coreReset, kept_hpllOff, kept_injClear, kept_setF, kept_takeIsland, h]

theorem kept_serviceDown {q s} (h : Kept q s) : Kept q (serviceDown s) := by
  simp (maxDischargeDepth := 60) +contextual only [serviceDown, kept_mk, kept_fold, kept_coreDown, kept_marchStop, h]

theorem kept_serviceEnter {q s} (h : Kept q s) : Kept q (serviceEnter s) := by
  simp (maxDischargeDepth := 60) +contextual only [serviceEnter, kept_mk, kept_fold, kept_ite, kept_ite1, kept_ite2, kept_completeTokens, kept_serviceDown, kept_setF, kept_transition, h]

theorem kept_drainDone {q s} (h : Kept q s) : Kept q (drainDone s) := by
  simp (maxDischargeDepth := 60) +contextual only [drainDone, kept_ite, kept_canaries, kept_drain, kept_selfRefresh, kept_serviceEnter, kept_setF, kept_setStep, h]

theorem kept_stewardLost {q s} (h : Kept q s) : Kept q (stewardLost s) := by
  simp (maxDischargeDepth := 60) +contextual only [stewardLost, kept_ite, kept_commitEnd, kept_overrun, kept_setF, kept_setStep, h]

theorem kept_stewardStopped {q s} (h : Kept q s) : Kept q (stewardStopped s) := by
  simp (maxDischargeDepth := 60) +contextual only [stewardStopped, kept_ite, kept_stewardLost, h]

theorem kept_saveCommit {q flips s'} (h : Kept q s') : Kept q (saveCommit flips s') := by
  unfold saveCommit
  (try dsimp only)
  (repeat' split) <;> simp (maxDischargeDepth := 60) +contextual only [kept_mk, kept_fold, kept_ite, kept_ite1, kept_ite2, kept_clearTested, kept_commitBegin, kept_commitLines, kept_setF, kept_setStep, kept_ite22, h, implies_true, and_self]

theorem kept_saveSeal {q c flips s} (h : Kept q s) : Kept q (saveSeal c flips s) := by
  simp (maxDischargeDepth := 60) +contextual only [saveSeal, kept_commitEnd, kept_commitMaps, kept_commitSeal, kept_conEvent, kept_garnetKey, kept_setB, kept_setF, kept_spillTrace, h]

theorem kept_saveFinish {q flips s} (h : Kept q s) : Kept q (saveFinish flips s) := by
  unfold saveFinish
  (try dsimp only)
  (repeat' split) <;> simp (maxDischargeDepth := 60) +contextual only [kept_mk, kept_fold, kept_ite, kept_ite1, kept_ite2, kept_ite22, kept_foldl, kept_foldl2, kept_foldl1, kept_commitLines, kept_saveSeal, kept_setF, kept_setStep, h, implies_true, and_self]

theorem kept_writeTags {q s} (h : Kept q s) : Kept q (writeTags s) := by
  simp (maxDischargeDepth := 60) +contextual only [writeTags, kept_foldl, kept_writeTag, h, implies_true]

theorem kept_faultReset {q n s} (h : Kept q s) : Kept q (faultReset n s) := by
  simp (maxDischargeDepth := 60) +contextual only [faultReset, kept_mk, kept_fold, kept_chipReset, kept_incF, h]

theorem kept_keepDeferred {q s} (h : Kept q s) : Kept q (keepDeferred s) := by
  simp (maxDischargeDepth := 60) +contextual only [keepDeferred, kept_mk, kept_fold, kept_setB, h]

theorem kept_powerDown {q s0} (h : Kept q s0) : Kept q (powerDown s0) := by
  simp (maxDischargeDepth := 60) +contextual only [powerDown, kept_mk, kept_fold, kept_coreReset, kept_loadClass, kept_mgtReset, kept_sessionEnd, kept_setDomains, kept_setReg, h]

theorem kept_goDormant {q s} (h : Kept q s) : Kept q (goDormant s) :=
  kept_tags (kept_transition (m := modeDormant) (b := 0) (cause := 0x06) (kept_wipeGarnet (kept_clearLedger
    (kept_setF (f := Fld.PM_DOMAIN_LDG) (v := 0) h)))) (m := []) rfl

theorem kept_enterHold {q s} (h : Kept q s) : Kept q (enterHold s) := by
  simp (maxDischargeDepth := 60) +contextual only [enterHold, kept_mk, kept_fold, kept_ite, kept_goDormant, kept_keepDeferred, kept_setF, kept_setStep, kept_transition, h]

theorem kept_saveHold {q s} (h : Kept q s) : Kept q (saveHold s) := by
  simp (maxDischargeDepth := 60) +contextual only [saveHold, kept_ite, kept_enterHold, kept_powerDown, kept_sendFlit, kept_writeTags, h]

theorem keptOut_execSavePairSample {q save0Low save1Low s} (h : Kept q s) : KeptOut q (execSavePairSample save0Low save1Low s) := by
  simp (maxDischargeDepth := 60) +contextual only [execSavePairSample, keptOut_next, kept_ite, kept_savePairTick, h]

theorem keptOut_execDiscrepancyExpiry {q s} (h : Kept q s) : KeptOut q (execDiscrepancyExpiry s) := by
  simp (maxDischargeDepth := 60) +contextual only [execDiscrepancyExpiry, keptOut_next, kept_ite, kept_discExpire, h]

theorem keptOut_execSaveNow {q s} (h : Kept q s) : KeptOut q (execSaveNow s) := by
  simp (maxDischargeDepth := 60) +contextual only [execSaveNow, keptOut_next, kept_ite, kept_saveTrigger, h]

theorem keptOut_execSaveRecognised {q s} (h : Kept q s) : KeptOut q (execSaveRecognised s) := by
  simp (maxDischargeDepth := 60) +contextual only [execSaveRecognised, keptOut_next, kept_ite, kept_saveS0, h]

theorem keptOut_execQuiesceEnd {q reads s} (h : Kept q s) : KeptOut q (execQuiesceEnd reads s) := by
  simp (maxDischargeDepth := 60) +contextual only [execQuiesceEnd, keptOut_next, kept_mk, kept_fold, kept_ite, kept_ite1, kept_ite2, kept_blockHost, kept_saveS2, h]

theorem keptOut_execDrainDone {q s} (h : Kept q s) : KeptOut q (execDrainDone s) := by
  simp (maxDischargeDepth := 60) +contextual only [execDrainDone, keptOut_next, kept_ite, kept_drainDone, h]

theorem keptOut_execSaveCommitStart {q flips s} (h : Kept q s) : KeptOut q (execSaveCommitStart flips s) := by
  simp (maxDischargeDepth := 60) +contextual only [execSaveCommitStart, keptOut_next, kept_ite, kept_saveCommit, h]

theorem keptOut_execStewardTakeoverTimeout {q s} (h : Kept q s) : KeptOut q (execStewardTakeoverTimeout s) := by
  simp (maxDischargeDepth := 60) +contextual only [execStewardTakeoverTimeout, keptOut_next, kept_ite, kept_ite1, kept_ite2, kept_clearTested, kept_overrun, kept_setF, kept_setStep, h]

theorem keptOut_execCommitLinesDone {q flips s} (h : Kept q s) : KeptOut q (execCommitLinesDone flips s) := by
  simp (maxDischargeDepth := 60) +contextual only [execCommitLinesDone, keptOut_next, kept_ite, kept_saveFinish, h]

theorem keptOut_execSealDone {q s} (h : Kept q s) : KeptOut q (execSealDone s) := by
  simp (maxDischargeDepth := 60) +contextual only [execSealDone, keptOut_next, kept_ite, kept_saveHold, h]

theorem keptOut_execSaveDeadlineOverrun {q s} (h : Kept q s) : KeptOut q (execSaveDeadlineOverrun s) := by
  simp (maxDischargeDepth := 60) +contextual only [execSaveDeadlineOverrun, keptOut_next, kept_ite, kept_overrun, h]

theorem keptOut_execDormantEntry {q s} (h : Kept q s) : KeptOut q (execDormantEntry s) := by
  simp (maxDischargeDepth := 60) +contextual only [execDormantEntry, keptOut_next, kept_ite, kept_goDormant, h]

end Sys2Proof.Machine
end

