-- ==== Sys2Proof/Laws/KeptCommandPath.lean ====
section
/-! SUPPORT. Every function of Machine/CommandPath.lean that changes the state keeps `Kept`. -/

set_option linter.unusedSimpArgs false
set_option Elab.async false

namespace Sys2Proof.Machine

theorem kept_apstat {q s} (h : Kept q s) : Kept q (apstat s) := by
  unfold apstat
  (try dsimp only)
  (repeat' split) <;> simp (maxDischargeDepth := 60) +contextual only [kept_mk, kept_fold, kept_ite, kept_ite1, kept_ite2, kept_ite22, kept_foldl, kept_foldl2, kept_foldl1, kept_setB, kept_setF, h, implies_true, and_self]

theorem kept_aperBoundary {q s} (h : Kept q s) : Kept q (aperBoundary s) := by
  simp (maxDischargeDepth := 60) +contextual only [aperBoundary, kept_ite, kept_applyCommitted, kept_apstat, kept_clShort, h]

theorem kept_commitSettle {q s} (h : Kept q s) : Kept q (commitSettle s) := by
  simp (maxDischargeDepth := 60) +contextual only [commitSettle, kept_ite, kept_completeTokens, h]

theorem kept_guardRank {q r s} (h : Kept q s) : Kept q (guardRank r s) := by
  simp (maxDischargeDepth := 60) +contextual only [guardRank, kept_ite, kept_erasureEffect, kept_readmitEffect, kept_secondEffect, h]

theorem kept_everyBoundary {q s} (h : Kept q s) : Kept q (everyBoundary s) := by
  simp (maxDischargeDepth := 60) +contextual only [everyBoundary, kept_aperBoundary, kept_commitSettle, kept_guardBoundary, h]

theorem kept_boundaryRank {q r s} (h : Kept q s) : Kept q (boundaryRank r s) := by
  simp (maxDischargeDepth := 60) +contextual only [boundaryRank, kept_guardRank, kept_rankBoundary, h]

theorem kept_boundaryAll {q s} (h : Kept q s) : Kept q (boundaryAll s) := by
  simp (maxDischargeDepth := 60) +contextual only [boundaryAll, kept_foldl, kept_anyBoundary, kept_everyBoundary, kept_guardRank, h, implies_true]

theorem kept_slotDeselect {q s} (h : Kept q s) : Kept q (slotDeselect s) := by
  simp (maxDischargeDepth := 60) +contextual only [slotDeselect, kept_mk, kept_fold, h]

theorem kept_forward {q p s} (h : Kept q s) : Kept q (forward p s) := by
  simp (maxDischargeDepth := 60) +contextual only [forward, kept_mk, kept_fold, h]

theorem kept_parityFail {q p s} (h : Kept q s) : Kept q (parityFail p s) := by
  simp (maxDischargeDepth := 60) +contextual only [parityFail, kept_ite, kept_halert, kept_incF, kept_raise, kept_setF, kept_setReg, kept_slotDeselect, h]

theorem kept_illegal {q code p s} (h : Kept q s) : Kept q (illegal code p s) := by
  simp (maxDischargeDepth := 60) +contextual only [illegal, kept_ite, kept_incF, kept_raise, kept_setF, kept_slotDeselect, h]

theorem kept_probeEnds {q p s} (h : Kept q s) : Kept q (probeEnds p s) := by
  simp (maxDischargeDepth := 60) +contextual only [probeEnds, kept_mk, kept_fold, kept_ite, kept_ite1, kept_ite2, kept_drew, h, implies_true]

theorem kept_receive {q p bcw reserved single badMrw effect s0} (h : Kept q s0) (heffect : ∀ a, Kept q a → Kept q (effect a)) : Kept q (receive p bcw reserved single badMrw effect s0) := by
  unfold receive
  (try dsimp only)
  (repeat' split) <;> simp (maxDischargeDepth := 60) +contextual only [kept_mk, kept_fold, kept_ite, kept_ite1, kept_ite2, kept_caSample, kept_illegal, kept_parityFail, kept_probeEnds, kept_setF, kept_slotDeselect, kept_trainAnswer, kept_ite22, h, heffect, implies_true, and_self]

theorem kept_actEffect {q p bg bank row s} (h : Kept q s) : Kept q (actEffect p bg bank row s) := by
  simp (maxDischargeDepth := 60) +contextual only [actEffect, kept_apstat, kept_forward, kept_trackOpen, h]

theorem kept_preEffect {q p kind bg bank s} (h : Kept q s) : Kept q (preEffect p kind bg bank s) := by
  simp (maxDischargeDepth := 60) +contextual only [preEffect, kept_apstat, kept_forward, kept_trackClosed, h]

theorem kept_countProbe {q r s} (h : Kept q s) : Kept q (countProbe r s) := by
  simp (maxDischargeDepth := 60) +contextual only [countProbe, kept_mk, kept_fold, kept_ite, h]

theorem kept_refRank {q free r s} (h : Kept q s) : Kept q (refRank free r s) := by
  simp (maxDischargeDepth := 60) +contextual only [refRank, kept_ite, kept_boundaryRank, kept_closeRank, kept_markRefresh, h]

theorem kept_refEffect {q p hostFree dramFree rankFree s} (h : Kept q s) : Kept q (refEffect p hostFree dramFree rankFree s) := by
  simp (maxDischargeDepth := 60) +contextual only [refEffect, kept_ite, kept_foldl, kept_apstat, kept_commonBoundary, kept_countProbe, kept_everyBoundary, kept_forward, kept_hostBoundary, kept_refRank, h, implies_true]

theorem kept_sreEffect {q p s} (h : Kept q s) : Kept q (sreEffect p s) := by
  simp (maxDischargeDepth := 60) +contextual only [sreEffect, kept_foldl, kept_apstat, kept_closeRank, kept_forward, kept_setF, h, implies_true]

theorem kept_otherEffect {q p srx s} (h : Kept q s) : Kept q (otherEffect p srx s) := by
  simp (maxDischargeDepth := 60) +contextual only [otherEffect, kept_ite, kept_foldl, kept_forward, kept_setBitF, h, implies_true]

theorem kept_reservedHit {q r idx write s} (h : Kept q s) : Kept q (reservedHit r idx write s) := by
  simp (maxDischargeDepth := 60) +contextual only [reservedHit, kept_ite, kept_gapHit, kept_incF, kept_setB, kept_setF, kept_trace, h]

theorem kept_autoClose {q auto r bg bank s} (h : Kept q s) : Kept q (autoClose auto r bg bank s) := by
  simp (maxDischargeDepth := 60) +contextual only [autoClose, kept_ite, kept_trackClosed, h]

theorem kept_dramAccess {q p bg bank col bo write auto s} (h : Kept q s) : Kept q (dramAccess p bg bank col bo write auto s) := by
  unfold dramAccess
  (try dsimp only)
  (repeat' split) <;> simp (maxDischargeDepth := 60) +contextual only [kept_mk, kept_fold, kept_ite, kept_ite1, kept_ite2, kept_ite22, kept_foldl, kept_foldl2, kept_foldl1, kept_apstat, kept_autoClose, kept_forward, kept_reservedHit, h, implies_true, and_self]

theorem kept_aperViolation {q s0 l off bo write s col} (_h : Kept q s0) (h1 : Kept q s) : Kept q (aperViolation s0 l off bo write s col) := by
  simp (maxDischargeDepth := 60) +contextual only [aperViolation, kept_ite, kept_raise, h1]

theorem kept_aperAccess {q p bg bank row off col bo write auto held s} (h : Kept q s) : Kept q (aperAccess p bg bank row off col bo write auto held s) := by
  simp (maxDischargeDepth := 60) +contextual only [aperAccess, kept_mk, kept_fold, kept_ite, kept_aperViolation, kept_apstat, kept_autoClose, kept_countHeld, kept_forward, kept_hostReadLine, kept_slotDeselect, h]

theorem kept_dropWrite {q p s} (h : Kept q s) : Kept q (dropWrite p s) := by
  simp (maxDischargeDepth := 60) +contextual only [dropWrite, kept_mk, kept_fold, kept_ite, kept_ite1, kept_ite2, h]

theorem kept_access {q p bg bank col bo write auto held s} (h : Kept q s) : Kept q (access p bg bank col bo write auto held s) := by
  unfold access
  (try dsimp only)
  (repeat' split) <;> simp (maxDischargeDepth := 60) +contextual only [kept_mk, kept_fold, kept_ite, kept_ite1, kept_ite2, kept_ite22, kept_foldl, kept_foldl2, kept_foldl1, kept_aperAccess, kept_dramAccess, h, implies_true, and_self]

theorem kept_receiveWrite {q p bg bank col bo auto s} (h : Kept q s) : Kept q (receiveWrite p bg bank col bo auto s) := by
  unfold receiveWrite
  (try dsimp only)
  (repeat' split) <;> simp (maxDischargeDepth := 60) +contextual only [kept_ite, kept_ite1, kept_ite2, kept_access, kept_dropWrite, kept_receive, kept_ite22, h, implies_true, and_self]

theorem kept_bcwError {q grant mrr word data s} (h : Kept q s) : Kept q (bcwError grant mrr word data s) := by
  simp (maxDischargeDepth := 60) +contextual only [bcwError, kept_raise, h]

theorem kept_breakArm {q s} (h : Kept q s) : Kept q (breakArm s) := by
  simp (maxDischargeDepth := 60) +contextual only [breakArm, kept_mk, kept_fold, kept_ite, h]

theorem kept_unblock {q s} (h : Kept q s) : Kept q (unblock s) := by
  simp (maxDischargeDepth := 60) +contextual only [unblock, kept_mk, kept_fold, kept_ite, h]

theorem kept_saveArm {q data s} (h : Kept q s) : Kept q (saveArm data s) := by
  simp (maxDischargeDepth := 60) +contextual only [saveArm, kept_mk, kept_fold, kept_ite, kept_bcwError, h]

theorem kept_saveGo {q data s} (h : Kept q s) : Kept q (saveGo data s) := by
  simp (maxDischargeDepth := 60) +contextual only [saveGo, kept_mk, kept_fold, kept_ite, kept_bcwError, kept_saveTrigger, kept_trace, h]

theorem kept_grantLen {q data s} (h : Kept q s) : Kept q (grantLen data s) := by
  simp (maxDischargeDepth := 60) +contextual only [grantLen, kept_mk, kept_fold, kept_ite, kept_bcwError, h]

theorem kept_bcwWrite {q w data s} (h : Kept q s) : Kept q (bcwWrite w data s) := by
  have h1 := kept_breakArm h
  unfold bcwWrite
  dsimp only
  generalize breakArm s = s1 at *
  refine kept_ite (kept_saveGo h) (kept_ite (kept_saveArm h) (kept_ite (kept_ite h1 (kept_bcwError h1)) (kept_ite h1
    (kept_ite (kept_grantLen h1) (kept_ite (kept_setF h1) (kept_ite (kept_ite (kept_unblock h1) (kept_bcwError h1))
    (kept_ite (kept_ite h1 (kept_bcwError h1)) (kept_ite h1 (kept_bcwError h1)))))))))

theorem kept_mrrAnswer {q v s} (h : Kept q s) : Kept q (mrrAnswer v s) := by
  simp (maxDischargeDepth := 60) +contextual only [mrrAnswer, kept_mk, kept_fold, h]

theorem kept_bcwRead {q p w s} (h : Kept q s) : Kept q (bcwRead p w s) := by
  unfold bcwRead
  (try dsimp only)
  (repeat' split) <;> simp (maxDischargeDepth := 60) +contextual only [kept_mk, kept_fold, kept_ite, kept_ite1, kept_ite2, kept_ite22, kept_foldl, kept_foldl2, kept_foldl1, kept_bcwError, kept_breakArm, kept_mrrAnswer, h, implies_true, and_self]

theorem kept_hostBcwWrite {q p w data s} (h : Kept q s) : Kept q (hostBcwWrite p w data s) := by
  simp (maxDischargeDepth := 60) +contextual only [hostBcwWrite, kept_bcwWrite, kept_receive, kept_slotDeselect, h, implies_true]

theorem kept_hostBcwRead {q p w s} (h : Kept q s) : Kept q (hostBcwRead p w s) := by
  simp (maxDischargeDepth := 60) +contextual only [hostBcwRead, kept_bcwRead, kept_receive, kept_slotDeselect, h, implies_true]

theorem kept_mrwEffect {q p sets s} (h : Kept q s) : Kept q (mrwEffect p sets s) := by
  simp (maxDischargeDepth := 60) +contextual only [mrwEffect, kept_forward, kept_snoop, h]

theorem kept_mrrEffect {q p s} (h : Kept q s) : Kept q (mrrEffect p s) := by
  simp (maxDischargeDepth := 60) +contextual only [mrrEffect, kept_mk, kept_fold, kept_forward, h]

theorem kept_mpcEffect {q step s} (h : Kept q s) : Kept q (mpcEffect step s) := by
  unfold mpcEffect
  (try dsimp only)
  (repeat' split) <;> simp (maxDischargeDepth := 60) +contextual only [kept_mk, kept_fold, kept_ite, kept_ite1, kept_ite2, kept_ite22, kept_foldl, kept_foldl2, kept_foldl1, kept_slotDeselect, kept_trainStep, h, implies_true, and_self]

theorem kept_grantBegin {q len s} (h : Kept q s) : Kept q (grantBegin len s) := by
  simp (maxDischargeDepth := 60) +contextual only [grantBegin, kept_mk, kept_fold, kept_foldl, kept_gapStart, kept_setF, kept_setReg, h, implies_true]

theorem kept_trialAccess {q g data mon s} (h : Kept q s) : Kept q (trialAccess g data mon s) := by
  unfold trialAccess
  (try dsimp only)
  (repeat' split) <;> simp (maxDischargeDepth := 60) +contextual only [kept_mk, kept_fold, kept_ite, kept_ite1, kept_ite2, kept_incF, kept_issue, kept_prbsSent, kept_putGap, kept_ite22, h, implies_true, and_self]

theorem kept_probe {q r data mon s} (h : Kept q s) : Kept q (probe r data mon s) := by
  unfold probe
  (try dsimp only)
  (repeat' split) <;> simp (maxDischargeDepth := 60) +contextual only [kept_mk, kept_fold, kept_ite, kept_ite1, kept_ite2, kept_issue, kept_trialAccess, kept_ite22, h, implies_true, and_self]

theorem kept_probeSlot {q r data mon s} (h : Kept q s) : Kept q (probeSlot r data mon s) := by
  unfold probeSlot
  (try dsimp only)
  (repeat' split) <;> simp (maxDischargeDepth := 60) +contextual only [kept_mk, kept_fold, kept_ite, kept_ite1, kept_ite2, kept_probe, kept_ite22, h, implies_true, and_self]

theorem kept_probesOver {q s} (h : Kept q s) : Kept q (probesOver s) := by
  simp (maxDischargeDepth := 60) +contextual only [probesOver, kept_mk, kept_fold, kept_ite, kept_ite1, kept_ite2, kept_gapPause, h]

theorem kept_grantAccess {q a s} (h : Kept q s) : Kept q (grantAccess a s) := by
  unfold grantAccess
  (try dsimp only)
  (repeat' split) <;> simp (maxDischargeDepth := 60) +contextual only [kept_mk, kept_fold, kept_ite, kept_ite1, kept_ite2, kept_trialAccess, kept_ite22, h, implies_true, and_self]

theorem kept_grantFinish {q work s} (h : Kept q s) : Kept q (grantFinish work s) := by
  simp (maxDischargeDepth := 60) +contextual only [grantFinish, kept_mk, kept_fold, kept_ite, kept_ite1, kept_ite2, kept_foldl, kept_foldl2, kept_foldl1, kept_apstat, kept_closeRank, kept_gapPause, kept_grantAccess, kept_setF, kept_setReg, h, implies_true]

theorem kept_blockRefresh {q s} (h : Kept q s) : Kept q (blockRefresh s) := by
  simp (maxDischargeDepth := 60) +contextual only [blockRefresh, kept_ite, kept_foldl, kept_apstat, kept_commonBoundary, kept_everyBoundary, kept_issue, kept_refRank, h, implies_true]

theorem keptOut_execCmdAct {q p bg bank row s} (h : Kept q s) : KeptOut q (execCmdAct p bg bank row s) := by
  simp (maxDischargeDepth := 60) +contextual only [execCmdAct, keptOut_next, kept_actEffect, kept_receive, h, implies_true]

theorem keptOut_execCmdRd {q p bg bank col bo held s} (h : Kept q s) : KeptOut q (execCmdRd p bg bank col bo held s) := by
  simp (maxDischargeDepth := 60) +contextual only [execCmdRd, keptOut_next, kept_access, kept_receive, h, implies_true]

theorem keptOut_execCmdWr {q p bg bank col bo s} (h : Kept q s) : KeptOut q (execCmdWr p bg bank col bo s) := by
  simp (maxDischargeDepth := 60) +contextual only [execCmdWr, keptOut_next, kept_receiveWrite, h]

theorem keptOut_execCmdRda {q p bg bank col bo held s} (h : Kept q s) : KeptOut q (execCmdRda p bg bank col bo held s) := by
  simp (maxDischargeDepth := 60) +contextual only [execCmdRda, keptOut_next, kept_access, kept_receive, h, implies_true]

theorem keptOut_execCmdWra {q p bg bank col bo s} (h : Kept q s) : KeptOut q (execCmdWra p bg bank col bo s) := by
  simp (maxDischargeDepth := 60) +contextual only [execCmdWra, keptOut_next, kept_receiveWrite, h]

theorem keptOut_execCmdPre {q p kind bg bank s} (h : Kept q s) : KeptOut q (execCmdPre p kind bg bank s) := by
  simp (maxDischargeDepth := 60) +contextual only [execCmdPre, keptOut_next, kept_preEffect, kept_receive, h, implies_true]

theorem keptOut_execCmdRefab {q p hostFree dramFree rankFree s} (h : Kept q s) : KeptOut q (execCmdRefab p hostFree dramFree rankFree s) := by
  simp (maxDischargeDepth := 60) +contextual only [execCmdRefab, keptOut_next, kept_receive, kept_refEffect, h, implies_true]

theorem keptOut_execCmdSre {q p s} (h : Kept q s) : KeptOut q (execCmdSre p s) := by
  simp (maxDischargeDepth := 60) +contextual only [execCmdSre, keptOut_next, kept_receive, kept_sreEffect, h, implies_true]

theorem keptOut_execCmdMrw {q p mr data sets s} (h : Kept q s) : KeptOut q (execCmdMrw p mr data sets s) := by
  simp (maxDischargeDepth := 60) +contextual only [execCmdMrw, keptOut_next, kept_ite, kept_hostBcwWrite, kept_mrwEffect, kept_receive, h, implies_true]

theorem keptOut_execCmdMrr {q p mr s} (h : Kept q s) : KeptOut q (execCmdMrr p mr s) := by
  simp (maxDischargeDepth := 60) +contextual only [execCmdMrr, keptOut_next, kept_ite, kept_hostBcwRead, kept_mrrEffect, kept_receive, h, implies_true]

theorem keptOut_execCmdMpcTraining {q p step s} (h : Kept q s) : KeptOut q (execCmdMpcTraining p step s) := by
  simp (maxDischargeDepth := 60) +contextual only [execCmdMpcTraining, keptOut_next, kept_mpcEffect, kept_receive, h, implies_true]

theorem keptOut_execCmdOtherForwarded {q p reserved srx s} (h : Kept q s) : KeptOut q (execCmdOtherForwarded p reserved srx s) := by
  simp (maxDischargeDepth := 60) +contextual only [execCmdOtherForwarded, keptOut_next, kept_otherEffect, kept_receive, h, implies_true]

theorem keptOut_execBcwPageSelect {q p data s} (h : Kept q s) : KeptOut q (execBcwPageSelect p data s) := by
  simp (maxDischargeDepth := 60) +contextual only [execBcwPageSelect, keptOut_next, kept_hostBcwWrite, h]

theorem keptOut_execBcwMrr {q p word s} (h : Kept q s) : KeptOut q (execBcwMrr p word s) := by
  simp (maxDischargeDepth := 60) +contextual only [execBcwMrr, keptOut_next, kept_hostBcwRead, h]

theorem keptOut_execSaveArm {q p data s} (h : Kept q s) : KeptOut q (execSaveArm p data s) := by
  simp (maxDischargeDepth := 60) +contextual only [execSaveArm, keptOut_next, kept_hostBcwWrite, h]

theorem keptOut_execSaveGo {q p data s} (h : Kept q s) : KeptOut q (execSaveGo p data s) := by
  simp (maxDischargeDepth := 60) +contextual only [execSaveGo, keptOut_next, kept_hostBcwWrite, h]

theorem keptOut_execSaveArmLapse {q s} (h : Kept q s) : KeptOut q (execSaveArmLapse s) := by
  simp (maxDischargeDepth := 60) +contextual only [execSaveArmLapse, keptOut_next, kept_mk, kept_fold, kept_ite, kept_raise, h]

theorem keptOut_execGrantRank {q p data s} (h : Kept q s) : KeptOut q (execGrantRank p data s) := by
  simp (maxDischargeDepth := 60) +contextual only [execGrantRank, keptOut_next, kept_hostBcwWrite, h]

theorem keptOut_execGrantLen {q p data s} (h : Kept q s) : KeptOut q (execGrantLen p data s) := by
  simp (maxDischargeDepth := 60) +contextual only [execGrantLen, keptOut_next, kept_hostBcwWrite, h]

theorem keptOut_execGrantStart {q s} (h : Kept q s) : KeptOut q (execGrantStart s) := by
  unfold execGrantStart
  (try dsimp only)
  (repeat' split) <;> simp (maxDischargeDepth := 60) +contextual only [keptOut_next, keptOut_ite, kept_mk, kept_fold, kept_ite, kept_ite1, kept_ite2, kept_ite22, kept_foldl, kept_foldl2, kept_foldl1, kept_grantBegin, h, implies_true, and_self]

theorem keptOut_execGrantEnd {q work s} (h : Kept q s) : KeptOut q (execGrantEnd work s) := by
  simp (maxDischargeDepth := 60) +contextual only [execGrantEnd, keptOut_next, kept_ite, kept_grantFinish, h]

theorem keptOut_execAplock {q p data s} (h : Kept q s) : KeptOut q (execAplock p data s) := by
  simp (maxDischargeDepth := 60) +contextual only [execAplock, keptOut_next, kept_hostBcwWrite, h]

theorem keptOut_execParClear {q p data s} (h : Kept q s) : KeptOut q (execParClear p data s) := by
  simp (maxDischargeDepth := 60) +contextual only [execParClear, keptOut_next, kept_hostBcwWrite, h]

theorem keptOut_execParityBlockEnd {q s} (h : Kept q s) : KeptOut q (execParityBlockEnd s) := by
  simp (maxDischargeDepth := 60) +contextual only [execParityBlockEnd, keptOut_next, kept_mk, kept_fold, kept_ite, kept_setF, h]

theorem keptOut_execParityBlockRefresh {q s} (h : Kept q s) : KeptOut q (execParityBlockRefresh s) := by
  simp (maxDischargeDepth := 60) +contextual only [execParityBlockRefresh, keptOut_next, kept_ite, kept_blockRefresh, h]

theorem keptOut_execTrSel {q p data s} (h : Kept q s) : KeptOut q (execTrSel p data s) := by
  simp (maxDischargeDepth := 60) +contextual only [execTrSel, keptOut_next, kept_hostBcwWrite, h]

theorem keptOut_execTrCtrlHold {q p data s} (h : Kept q s) : KeptOut q (execTrCtrlHold p data s) := by
  simp (maxDischargeDepth := 60) +contextual only [execTrCtrlHold, keptOut_next, kept_hostBcwWrite, h]

theorem keptOut_execReservationProbe {q rank data mon s} (h : Kept q s) : KeptOut q (execReservationProbe rank data mon s) := by
  simp (maxDischargeDepth := 60) +contextual only [execReservationProbe, keptOut_next, kept_ite, kept_ite1, kept_ite2, kept_probeSlot, h]

theorem keptOut_execIdleBoundary {q s} (h : Kept q s) : KeptOut q (execIdleBoundary s) := by
  simp (maxDischargeDepth := 60) +contextual only [execIdleBoundary, keptOut_next, kept_ite, kept_boundaryAll, h]

theorem keptOut_execBcwAccessError {q p word data s} (h : Kept q s) : KeptOut q (execBcwAccessError p word data s) := by
  simp (maxDischargeDepth := 60) +contextual only [execBcwAccessError, keptOut_next, kept_hostBcwWrite, h]

end Sys2Proof.Machine
end

