-- ==== Sys2Proof/Laws/KeptClocks.lean ====
section
/-! SUPPORT. Every function of Machine/Clocks.lean that changes the state keeps `Kept`. -/

set_option linter.unusedSimpArgs false
set_option Elab.async false

namespace Sys2Proof.Machine

theorem kept_mclkLocked {q tick s} (h : Kept q s) : Kept q (mclkLocked tick s) := by
  simp (maxDischargeDepth := 60) +contextual only [mclkLocked, kept_setB, kept_setF, h]

theorem kept_mclkTimeout {q retryOk s} (h : Kept q s) : Kept q (mclkTimeout retryOk s) := by
  simp (maxDischargeDepth := 60) +contextual only [mclkTimeout, kept_mk, kept_fold, kept_ite, kept_mclkLocked, kept_raise, kept_setF, h]

theorem kept_mclkStart {q w s} (h : Kept q s) : Kept q (mclkStart w s) := by
  simp (maxDischargeDepth := 60) +contextual only [mclkStart, kept_ite, kept_mclkLocked, kept_mclkTimeout, h]

theorem kept_discRestart {q s} (h : Kept q s) : Kept q (discRestart s) := by
  simp (maxDischargeDepth := 60) +contextual only [discRestart, kept_mk, kept_fold, kept_setF, h]

theorem kept_discEnable {q s} (h : Kept q s) : Kept q (discEnable s) := by
  simp (maxDischargeDepth := 60) +contextual only [discEnable, kept_mk, kept_fold, kept_ite, kept_setF, h]

theorem kept_discStop {q atEnd s} (h : Kept q s) : Kept q (discStop atEnd s) := by
  simp (maxDischargeDepth := 60) +contextual only [discStop, kept_mk, kept_fold, kept_raise, kept_setF, h]

theorem kept_discCounts {q err s} (h : Kept q s) : Kept q (discCounts err s) := by
  simp (maxDischargeDepth := 60) +contextual only [discCounts, kept_mk, kept_fold, h]

theorem kept_discFlag {q s} (h : Kept q s) : Kept q (discFlag s) := by
  simp (maxDischargeDepth := 60) +contextual only [discFlag, kept_mk, kept_fold, kept_setB, h]

theorem kept_discWindow {q err s} (h : Kept q s) : Kept q (discWindow err s) := by
  simp (maxDischargeDepth := 60) +contextual only [discWindow, kept_ite, kept_discCounts, kept_discFlag, kept_discStop, kept_setF, h]

theorem kept_xoscFailed {q syn s} (h : Kept q s) : Kept q (xoscFailed syn s) := by
  simp (maxDischargeDepth := 60) +contextual only [xoscFailed, kept_ite, kept_ite1, kept_ite2, kept_discRestart, kept_hpllOff, kept_linkNoXosc, kept_mclkLocked, kept_raise, kept_setF, h]

theorem kept_xoscStart {q ok s} (h : Kept q s) : Kept q (xoscStart ok s) := by
  simp (maxDischargeDepth := 60) +contextual only [xoscStart, kept_ite, kept_setF, kept_xoscFailed, h]

theorem kept_xoscBack {q s} (h : Kept q s) : Kept q (xoscBack s) := by
  simp (maxDischargeDepth := 60) +contextual only [xoscBack, kept_ite, kept_ite1, kept_ite2, kept_hpllToXosc, kept_mclkLocked, kept_setF, kept_trainLink, h]

theorem kept_noteCount {q count s} (h : Kept q s) : Kept q (noteCount count s) := by
  simp (maxDischargeDepth := 60) +contextual only [noteCount, kept_mk, kept_fold, kept_ite, kept_setB, kept_setF, kept_trace, h]

theorem kept_confirmSet {q n count s} (h : Kept q s) : Kept q (confirmSet n count s).2 := by
  simp (maxDischargeDepth := 60) +contextual only [confirmSet, kept_mk, kept_fold, kept_ite2, kept_setF, h]

theorem kept_ratesInForce {q s} (h : Kept q s) : Kept q (ratesInForce s) := by
  simp (maxDischargeDepth := 60) +contextual only [ratesInForce, kept_applyCommitted, h]

theorem kept_rateInForce {q n s} (h : Kept q s) : Kept q (rateInForce n s) := by
  simp (maxDischargeDepth := 60) +contextual only [rateInForce, kept_setF, h]

theorem kept_parkEngines {q s} (h : Kept q s) : Kept q (parkEngines s) := by
  simp (maxDischargeDepth := 60) +contextual only [parkEngines, kept_foldl, kept_dropGap, kept_dropSweep, kept_pauseHostAll, h, implies_true]

theorem kept_parkDram {q s} (h : Kept q s) : Kept q (parkDram s) := by
  simp (maxDischargeDepth := 60) +contextual only [parkDram, kept_apstat, kept_issue, kept_setF, kept_trackClosed, h]

theorem kept_parkEnter {q cause s} (h : Kept q s) : Kept q (parkEnter cause s) := by
  simp (maxDischargeDepth := 60) +contextual only [parkEnter, kept_mk, kept_fold, kept_ite, kept_ite1, kept_ite2, kept_boundaryAll, kept_hpllToXosc, kept_parkDram, kept_parkEngines, kept_raise, kept_setF, kept_slotDeselect, h]

theorem kept_parkLeave {q s} (h : Kept q s) : Kept q (parkLeave s) := by
  simp (maxDischargeDepth := 60) +contextual only [parkLeave, kept_mk, kept_fold, kept_issue, kept_ratesInForce, kept_setF, h]

theorem kept_handBackLost {q s} (h : Kept q s) : Kept q (handBackLost s) := by
  unfold handBackLost
  (try dsimp only)
  (repeat' split) <;> simp (maxDischargeDepth := 60) +contextual only [kept_mk, kept_fold, kept_clearLedger, kept_coreDown, kept_hpllToXosc, kept_parkDram, kept_setF, kept_wipeGarnet, kept_ite, kept_ite1, kept_ite2, kept_ite22, h, implies_true, and_self]

theorem kept_clockLost {q cause s0} (h : Kept q s0) : Kept q (clockLost cause s0) := by
  simp (maxDischargeDepth := 60) +contextual only [clockLost, kept_mk, kept_fold, kept_ite, kept_ite1, kept_ite2, kept_handBackLost, kept_hpllToXosc, kept_parkEnter, kept_raise, kept_setF, h]

theorem kept_coldResume {q n s} (h : Kept q s) : Kept q (coldResume n s) := by
  simp (maxDischargeDepth := 60) +contextual only [coldResume, kept_mk, kept_fold, kept_ite, kept_issue, kept_setF, h]

theorem kept_countServed {q count s} (h : Kept q s) : Kept q (countServed count s) := by
  simp (maxDischargeDepth := 60) +contextual only [countServed, kept_mk, kept_fold, kept_ite, kept_clockLost, h]

theorem kept_countParked {q s} (h : Kept q s) : Kept q (countParked s) := by
  simp (maxDischargeDepth := 60) +contextual only [countParked, kept_ite, kept_raise, kept_setB, h]

theorem kept_countEffect {q count s} (h : Kept q s) : Kept q (countEffect count s) := by
  unfold countEffect
  (try dsimp only)
  (repeat' split) <;> simp (maxDischargeDepth := 60) +contextual only [kept_mk, kept_fold, kept_ite, kept_ite1, kept_ite2, kept_ite22, kept_foldl, kept_foldl2, kept_foldl1, kept_coldResume, kept_countParked, kept_countServed, kept_handBackLost, h, implies_true, and_self]

theorem keptOut_execTickDiscWindow {q err s} (h : Kept q s) : KeptOut q (execTickDiscWindow err s) := by
  simp (maxDischargeDepth := 60) +contextual only [execTickDiscWindow, keptOut_next, kept_ite, kept_discWindow, h]

theorem keptOut_execXoscFail {q noEdge cycles s} (h : Kept q s) : KeptOut q (execXoscFail noEdge cycles s) := by
  simp (maxDischargeDepth := 60) +contextual only [execXoscFail, keptOut_next, kept_ite, kept_xoscFailed, h]

theorem keptOut_execXoscRestartAttempt {q started s} (h : Kept q s) : KeptOut q (execXoscRestartAttempt started s) := by
  simp (maxDischargeDepth := 60) +contextual only [execXoscRestartAttempt, keptOut_next, kept_ite, kept_setB, h]

theorem keptOut_execXoscRecovered {q s} (h : Kept q s) : KeptOut q (execXoscRecovered s) := by
  simp (maxDischargeDepth := 60) +contextual only [execXoscRecovered, keptOut_next, kept_ite, kept_xoscBack, h]

theorem keptOut_execMpllLockTimeout {q retryOk s} (h : Kept q s) : KeptOut q (execMpllLockTimeout retryOk s) := by
  simp (maxDischargeDepth := 60) +contextual only [execMpllLockTimeout, keptOut_next, kept_ite, kept_mclkTimeout, h]

theorem keptOut_execAonWrap {q s} (h : Kept q s) : KeptOut q (execAonWrap s) := by
  simp (maxDischargeDepth := 60) +contextual only [execAonWrap, keptOut_next, kept_mk, kept_fold, kept_ite, kept_trace, h]

theorem keptOut_execWatchdogExpiry {q pc s} (h : Kept q s) : KeptOut q (execWatchdogExpiry pc s) := by
  simp (maxDischargeDepth := 60) +contextual only [execWatchdogExpiry, keptOut_next, kept_mk, kept_fold, kept_ite, kept_raise, h]

theorem keptOut_execHckCount {q count s} (h : Kept q s) : KeptOut q (execHckCount count s) := by
  simp (maxDischargeDepth := 60) +contextual only [execHckCount, keptOut_next, kept_ite, kept_countEffect, kept_noteCount, h]

theorem keptOut_execHckEdgesMissing {q s} (h : Kept q s) : KeptOut q (execHckEdgesMissing s) := by
  simp (maxDischargeDepth := 60) +contextual only [execHckEdgesMissing, keptOut_next, kept_ite, kept_clockLost, h]

theorem keptOut_execHpllLockLost {q s} (h : Kept q s) : KeptOut q (execHpllLockLost s) := by
  simp (maxDischargeDepth := 60) +contextual only [execHpllLockLost, keptOut_next, kept_ite, kept_clockLost, kept_raise, h]

theorem keptOut_execParkExit {q s} (h : Kept q s) : KeptOut q (execParkExit s) := by
  simp (maxDischargeDepth := 60) +contextual only [execParkExit, keptOut_next, kept_ite, kept_parkLeave, h]

theorem keptOut_execHrstNLow {q s} (h : Kept q s) : KeptOut q (execHrstNLow s) := by
  simp (maxDischargeDepth := 60) +contextual only [execHrstNLow, keptOut_next, kept_ite, kept_parkEnter, kept_setF, h]

theorem keptOut_execHrstNHigh {q s} (h : Kept q s) : KeptOut q (execHrstNHigh s) := by
  simp (maxDischargeDepth := 60) +contextual only [execHrstNHigh, keptOut_next, kept_ite, kept_setF, h]

theorem keptOut_execDiscEnWrite {q s} (h : Kept q s) : KeptOut q (execDiscEnWrite s) := by
  simp (maxDischargeDepth := 60) +contextual only [execDiscEnWrite, keptOut_next, kept_ite, kept_discEnable, h]

end Sys2Proof.Machine
end

