-- ==== Sys2Proof/Laws/KeptBlockReset.lean ====
section
/-! SUPPORT. Every function of Machine/BlockReset.lean that changes the state keeps `Kept`. -/

set_option linter.unusedSimpArgs false
set_option Elab.async false

namespace Sys2Proof.Machine

theorem kept_patchStart {q s} (h : Kept q s) : Kept q (patchStart s) := by
  simp (maxDischargeDepth := 60) +contextual only [patchStart, kept_mk, kept_fold, kept_ite, kept_readCopy, kept_setF, h]

theorem kept_configStart {q s} (h : Kept q s) : Kept q (configStart s) := by
  unfold configStart
  (try dsimp only)
  (repeat' split) <;> simp (maxDischargeDepth := 60) +contextual only [kept_mk, kept_fold, kept_ite, kept_ite1, kept_ite2, kept_ite22, kept_foldl, kept_foldl2, kept_foldl1, kept_readCfg, kept_setF, h, implies_true, and_self]

theorem kept_calValidStart {q s} (h : Kept q s) : Kept q (calValidStart s) := by
  simp (maxDischargeDepth := 60) +contextual only [calValidStart, kept_foldl, kept_foldl2, kept_foldl1, kept_setB, h, implies_true]

theorem kept_stewardRestart {q s} (h : Kept q s) : Kept q (stewardRestart s) := by
  simp (maxDischargeDepth := 60) +contextual only [stewardRestart, kept_mk, kept_fold, kept_cfgLoad, kept_patchStart, kept_sessionEnd, h]

theorem kept_hctReload {q s} (h : Kept q s) : Kept q (hctReload s) := by
  unfold hctReload
  dsimp only
  split
  · exact h
  · exact kept_hctStart (kept_hct h (smWf_foldl (fun _ _ ha => smWf_smSet ha) smWf_nil))

theorem kept_liftExclusions {q s} (h : Kept q s) : Kept q (liftExclusions s) := by
  simp (maxDischargeDepth := 60) +contextual only [liftExclusions, kept_foldl, kept_setF, h, implies_true]

theorem kept_storeAbandon {q s} (h : Kept q s) : Kept q (storeAbandon s) := by
  simp (maxDischargeDepth := 60) +contextual only [storeAbandon, kept_mk, kept_fold, kept_setF, h]

theorem kept_resetCoreBlock {q src s} (h : Kept q s) : Kept q (resetCoreBlock src s) := by
  simp (maxDischargeDepth := 60) +contextual only [resetCoreBlock, kept_mk, kept_fold, kept_ite, kept_ite1, kept_ite2, kept_foldl, kept_foldl2, kept_foldl1, kept_dropGap, kept_dropSweep, kept_hctReload, kept_liftExclusions, kept_marchStop, kept_pauseHostAll, kept_setF, kept_unblock, h, implies_true]

theorem kept_resetMgtBlock {q src s} (h : Kept q s) : Kept q (resetMgtBlock src s) := by
  simp (maxDischargeDepth := 60) +contextual only [resetMgtBlock, kept_ite, kept_discEnable, kept_mclkLocked, kept_retrain, kept_sessionEnd, kept_setF, kept_stewardRestart, kept_storeAbandon, h]

theorem kept_blockReset {q src s} (h : Kept q s) : Kept q (blockReset src s) := by
  simp (maxDischargeDepth := 60) +contextual only [blockReset, kept_ite, kept_resetCoreBlock, kept_resetMgtBlock, h]

end Sys2Proof.Machine
end

