-- ==== Sys2Proof/Laws/KeptBringup.lean ====
section
/-! SUPPORT. Every function of Machine/Bringup.lean that changes the state keeps `Kept`. -/

set_option linter.unusedSimpArgs false
set_option Elab.async false

namespace Sys2Proof.Machine

theorem kept_strapEntry {q s} (h : Kept q s) : Kept q (strapEntry s) := by
  simp (maxDischargeDepth := 60) +contextual only [strapEntry, kept_mk, kept_fold, kept_ite, kept_trace, h]

theorem kept_ringSwap {q l s} (h : Kept q s) (hl : l.length ≤ 1024) :
    Kept q { s with tr := { s.tr with ring := l, fifo := [] } } := by
  have h1 := kept_fifo (kept_ring h hl) (l := []) (Nat.zero_le _)
  simpa only [kept_mk, kept_fold] using h1

theorem kept_ringStart {q origin old after s} (h : Kept q s) : Kept q (ringStart origin old after s) := by
  have hl : (old.drop (old.length - 1024)).length ≤ 1024 := by rw [List.length_drop]; omega
  unfold ringStart
  dsimp only
  generalize old.drop (old.length - 1024) = l at *
  split
  · exact h
  · exact kept_strapEntry (kept_foldl (fun _ _ ht => kept_ringPush ht) (kept_trace (kept_setF (kept_ringSwap h hl))))

theorem kept_ringFresh {q origin s} (h : Kept q s) : Kept q (ringFresh origin s) := by
  simp (maxDischargeDepth := 60) +contextual only [ringFresh, kept_ringStart, h]

theorem kept_readSpills {q s} (h : Kept q s) : Kept q (readSpills s).2 := by
  simp (maxDischargeDepth := 60) +contextual only [readSpills, kept_foldl2, kept_readCopy, h, implies_true]

theorem kept_mergeTrace {q s} (h : Kept q s) : Kept q (mergeTrace s) := by
  unfold mergeTrace
  (try dsimp only)
  (repeat' split) <;> simp (maxDischargeDepth := 60) +contextual only [kept_mk, kept_fold, kept_ite, kept_ite1, kept_ite2, kept_ite22, kept_foldl, kept_foldl2, kept_foldl1, kept_readSpills, kept_ringStart, kept_setF, h, implies_true, and_self]

theorem kept_codesNow {q fs v s} (h : Kept q s) : Kept q (codesNow fs v s) := by
  simp (maxDischargeDepth := 60) +contextual only [codesNow, kept_foldl, kept_setF, h, implies_true]

theorem kept_codesDefault {q fs s} (h : Kept q s) : Kept q (codesDefault fs s) := by
  simp (maxDischargeDepth := 60) +contextual only [codesDefault, kept_foldl, kept_setF, h, implies_true]

theorem kept_zqCalibrate {q m s} (h : Kept q s) : Kept q (zqCalibrate m s) := by
  simp (maxDischargeDepth := 60) +contextual only [zqCalibrate, kept_ite, kept_codesDefault, kept_codesNow, kept_rejectWith, h]

theorem kept_snoopLoad {q s} (h : Kept q s) : Kept q (snoopLoad s) := by
  simp (maxDischargeDepth := 60) +contextual only [snoopLoad, kept_mk, kept_fold, kept_clShort, kept_setF, h]

theorem kept_dramUp {q cmds s} (h : Kept q s) : Kept q (dramUp cmds s) := by
  simp (maxDischargeDepth := 60) +contextual only [dramUp, kept_foldl, kept_apstat, kept_giveIsland, kept_issue, kept_markRefresh, kept_setF, kept_snoopLoad, kept_trackClosed, h, implies_true]

theorem kept_trainCa {q r t s'} (h : Kept q s') : Kept q (trainCa r t s') := by
  simp (maxDischargeDepth := 60) +contextual only [trainCa, kept_ite, kept_ite1, kept_ite2, kept_foldl, kept_foldl2, kept_foldl1, kept_issue, kept_rejectWith, kept_setF, h, implies_true]

theorem kept_trainLanes {q r t lanes s} (h : Kept q s) : Kept q (trainLanes r t lanes s).1 := by
  simp (maxDischargeDepth := 60) +contextual only [trainLanes, kept_foldl1, kept_trainLane, h, implies_true]

theorem kept_trainPass {q first p todo s} (h : Kept q s) : Kept q (trainPass first p todo s).1 := by
  simp (maxDischargeDepth := 60) +contextual only [trainPass, kept_ite, kept_foldl1, kept_trainCa, kept_trainLanes, h, implies_true]

theorem kept_trainPasses {q n first ps todo s} (h : Kept q s) : Kept q (trainPasses n first ps todo s).1 := by
  induction n generalizing first ps todo s with
  | zero => exact h
  | succ n ih =>
    unfold trainPasses
    split
    · exact h
    · exact ih (kept_trainPass h)

theorem kept_eraseLeft {q todo s} (h : Kept q s) : Kept q (eraseLeft todo s) := by
  simp (maxDischargeDepth := 60) +contextual only [eraseLeft, kept_foldl, kept_eraseLane, h, implies_true]

theorem kept_handBackRank {q r s} (h : Kept q s) : Kept q (handBackRank r s) := by
  unfold handBackRank
  (try dsimp only)
  (repeat' split) <;> simp (maxDischargeDepth := 60) +contextual only [kept_mk, kept_fold, kept_ite, kept_ite1, kept_ite2, kept_ite22, kept_foldl, kept_foldl2, kept_foldl1, kept_eraseNow, kept_secondNow, h, implies_true, and_self]

theorem kept_handBackClear {q s} (h : Kept q s) : Kept q (handBackClear s) := by
  simp (maxDischargeDepth := 60) +contextual only [handBackClear, kept_mk, kept_fold, kept_foldl, kept_foldl2, kept_foldl1, kept_clearSlots, kept_guardStatus, kept_handBackRank, kept_hostPauses, kept_injClear, kept_liftExclusions, kept_setF, h, implies_true]

theorem kept_handBackDeferred {q s} (h : Kept q s) : Kept q (handBackDeferred s) := by
  simp (maxDischargeDepth := 60) +contextual only [handBackDeferred, kept_mk, kept_fold, kept_foldl, kept_blockReset, h, implies_true]

theorem kept_handBackRun {q s} (h : Kept q s) : Kept q (handBackRun s) := by
  simp (maxDischargeDepth := 60) +contextual only [handBackRun, kept_mk, kept_fold, kept_setF, kept_tamperAtHandBack, kept_transition, h]

theorem kept_bootTime {q s} (h : Kept q s) : Kept q (bootTime s) := by
  simp (maxDischargeDepth := 60) +contextual only [bootTime, kept_setF, h]

end Sys2Proof.Machine
end

