-- ==== Sys2Proof/Laws/KeptRestore.lean ====
section
/-! SUPPORT. Every function of Machine/Restore.lean that changes the state keeps `Kept`. -/

set_option linter.unusedSimpArgs false
set_option Elab.async false

namespace Sys2Proof.Machine

theorem kept_outageEnds {q s} (h : Kept q s) : Kept q (outageEnds s) := by
  simp (maxDischargeDepth := 60) +contextual only [outageEnds, kept_mk, kept_fold, h]

theorem kept_restoreBegin {q s} (h : Kept q s) : Kept q (restoreBegin s) := by
  simp (maxDischargeDepth := 60) +contextual only [restoreBegin, kept_mk, kept_fold, kept_ite, kept_outageEnds, kept_setF, kept_transition, h]

theorem kept_mgtWake {q w s} (h : Kept q s) : Kept q (mgtWake w s) := by
  simp (maxDischargeDepth := 60) +contextual only [mgtWake, kept_ite, kept_ite1, kept_ite2, kept_calValidStart, kept_configStart, kept_loadClass, kept_mclkStart, kept_patchStart, kept_setF, kept_trainLink, kept_xoscStart, h]

theorem kept_trainWait {q p s} (h : Kept q s) : Kept q (trainWait p s) :=
  kept_setF (kept_setF (kept_tags (kept_setF (f := Fld.PM_DOMAIN_LDG) (v := 0) (kept_wipeGarnet (kept_clearLedger
    (kept_coreDown h)))) (m := []) rfl))

theorem kept_confirmRate {q count s} (h : Kept q s) : Kept q (confirmRate count s).2 := by
  unfold confirmRate
  (try dsimp only)
  (repeat' split) <;> simp (maxDischargeDepth := 60) +contextual only [kept_mk, kept_fold, kept_ite, kept_ite1, kept_ite2, kept_ite22, kept_foldl, kept_foldl2, kept_foldl1, kept_confirmSet, kept_rateInForce, h, implies_true, and_self]

theorem kept_restorePower {q damage garnetDamage s} (h : Kept q s) : Kept q (restorePower damage garnetDamage s) := by
  simp (maxDischargeDepth := 60) +contextual only [restorePower, kept_mk, kept_fold, kept_ite, kept_coreUp, kept_damageGarnet, kept_damageLedger, kept_retentionCheck, kept_setDomains, kept_setF, h]

theorem kept_sealMaps {q key slot bs s} (h : Kept q s) : Kept q (sealMaps key slot bs s).2 := by
  simp (maxDischargeDepth := 60) +contextual only [sealMaps, kept_keepRead, h]

theorem kept_checkSeal {q slot named key s} (h : Kept q s) : Kept q (checkSeal slot named key s).2 := by
  unfold checkSeal
  (try dsimp only)
  (repeat' split) <;> simp (maxDischargeDepth := 60) +contextual only [kept_mk, kept_fold, kept_ite, kept_ite1, kept_ite2, kept_ite22, kept_foldl, kept_foldl2, kept_foldl1, kept_readCopy, kept_sealMaps, h, implies_true, and_self]

theorem kept_raiseSeals {q l s} (h : Kept q s) : Kept q (raiseSeals l s) := by
  simp (maxDischargeDepth := 60) +contextual only [raiseSeals, kept_foldl, kept_raise, h, implies_true]

theorem kept_sealOutcome {q source checks s} (h : Kept q s) : Kept q (sealOutcome source checks s).2 := by
  unfold sealOutcome
  (try dsimp only)
  (repeat' split) <;> simp (maxDischargeDepth := 60) +contextual only [kept_mk, kept_fold, kept_ite, kept_ite1, kept_ite2, kept_ite22, kept_foldl, kept_foldl2, kept_foldl1, kept_raiseSeals, h, implies_true, and_self]

theorem kept_checkBoth {q e key s} (h : Kept q s) : Kept q (checkBoth e key s).2 := by
  simp (maxDischargeDepth := 60) +contextual only [checkBoth, kept_checkSeal, kept_sealOutcome, h]

theorem kept_sealCheck {q e key s} (h : Kept q s) : Kept q (sealCheck e key s).2 := by
  unfold sealCheck
  (try dsimp only)
  (repeat' split) <;> simp (maxDischargeDepth := 60) +contextual only [kept_mk, kept_fold, kept_ite, kept_ite1, kept_ite2, kept_ite22, kept_foldl, kept_foldl2, kept_foldl1, kept_checkBoth, kept_checkSeal, kept_raise, kept_sealOutcome, h, implies_true, and_self]

theorem kept_keyReport {q k s} (h : Kept q s) : Kept q (keyReport k s) := by
  simp (maxDischargeDepth := 60) +contextual only [keyReport, kept_ite, kept_setF, h]

theorem kept_restoreKeys {q s} (h : Kept q s) : Kept q (restoreKeys s) := by
  simp (maxDischargeDepth := 60) +contextual only [restoreKeys, kept_ite, kept_checkKeys, kept_eraseKeys, kept_keyReport, kept_unwrapKeys, h]

theorem kept_restoreSeal {q s} (h : Kept q s) : Kept q (restoreSeal s).2.2 := by
  unfold restoreSeal
  (try dsimp only)
  (repeat' split) <;> simp (maxDischargeDepth := 60) +contextual only [kept_mk, kept_fold, kept_ite, kept_ite1, kept_ite2, kept_ite22, kept_foldl, kept_foldl2, kept_foldl1, kept_addRetain, kept_garnetKey, kept_loadEntry, kept_mergeTrace, kept_readPersist, kept_restoreKeys, kept_sealCheck, h, implies_true, and_self]

theorem kept_sealRank {q bs s r} (h : Kept q s) : Kept q (sealRank bs s r) := by
  simp (maxDischargeDepth := 60) +contextual only [sealRank, kept_mk, kept_fold, kept_ite, kept_setB, kept_setF, h]

theorem kept_sealValues {q bs s} (h : Kept q s) : Kept q (sealValues bs s) := by
  simp (maxDischargeDepth := 60) +contextual only [sealValues, kept_mk, kept_fold, kept_foldl, kept_guardStatus, kept_sealRank, kept_setB, kept_setF, kept_setReg, h, implies_true]

theorem kept_configSource {q s} (h : Kept q s) : Kept q (configSource s) := by
  simp (maxDischargeDepth := 60) +contextual only [configSource, kept_setB, kept_setF, h]

theorem kept_calibrationLoad {q b s} (h : Kept q s) : Kept q (calibrationLoad b s) := by
  simp (maxDischargeDepth := 60) +contextual only [calibrationLoad, kept_mk, kept_fold, kept_calLoad, kept_cfgLoadHct, kept_zqCalibrate, h]

theorem kept_selfRefreshExit {q run s} (h : Kept q s) : Kept q (selfRefreshExit run s) := by
  simp (maxDischargeDepth := 60) +contextual only [selfRefreshExit, kept_dramUp, h]

theorem kept_canaryCheck {q proof mask nonce cs s} (h : Kept q s) : Kept q (canaryCheck proof mask nonce cs s) := by
  simp (maxDischargeDepth := 60) +contextual only [canaryCheck, kept_mk, kept_fold, kept_ite, kept_ite1, kept_ite2, kept_foldl, kept_foldl2, kept_foldl1, kept_raise, h, implies_true]

theorem kept_quickCheck {q cs b s} (h : Kept q s) : Kept q (quickCheck cs b s) := by
  simp (maxDischargeDepth := 60) +contextual only [quickCheck, kept_mk, kept_fold, kept_ite, kept_eraseLeft, kept_issue, kept_raise, kept_setF, kept_trainPass, h]

theorem kept_reloadLine {q slot poison s l} (h : Kept q s) : Kept q (reloadLine slot poison s l) := by
  simp (maxDischargeDepth := 60) +contextual only [reloadLine, kept_ite, kept_foldl, kept_keepRead, kept_putWord, kept_setStored, h, implies_true]

theorem kept_reloadMaps {q slot banks s} (h : Kept q s) : Kept q (reloadMaps slot banks s) := by
  simp (maxDischargeDepth := 60) +contextual only [reloadMaps, kept_ite, kept_foldl, kept_setMap, h, implies_true]

theorem kept_reloadBanks {q slot banks s} (h : Kept q s) : Kept q (reloadBanks slot banks s) := by
  simp (maxDischargeDepth := 60) +contextual only [reloadBanks, kept_foldl, kept_keepRead, kept_reloadLine, kept_reloadMaps, kept_setF, h, implies_true]

theorem kept_ledgerReload {q s} (h : Kept q s) : Kept q (ledgerReload s) := by
  unfold ledgerReload
  (try dsimp only)
  (repeat' split) <;> simp (maxDischargeDepth := 60) +contextual only [kept_mk, kept_fold, kept_ite, kept_ite1, kept_ite2, kept_ite22, kept_foldl, kept_foldl2, kept_foldl1, kept_clearLedger, kept_reloadBanks, kept_setF, h, implies_true, and_self]

theorem kept_restoreRest {q b cs src s} (h : Kept q s) : Kept q (restoreRest b cs src s) := by
  unfold restoreRest
  (try dsimp only)
  (repeat' split) <;> simp (maxDischargeDepth := 60) +contextual only [kept_mk, kept_fold, kept_calibrationLoad, kept_canaryCheck, kept_configSource, kept_ledgerReload, kept_quickCheck, kept_sealValues, kept_selfRefreshExit, kept_ite, kept_ite1, kept_ite2, kept_ite22, h, implies_true, and_self]

theorem kept_restoreRun {q w b damage garnetDamage cs s} (h : Kept q s) : Kept q (restoreRun w b damage garnetDamage cs s) := by
  simp (maxDischargeDepth := 60) +contextual only [restoreRun, kept_ite, kept_ite1, kept_ite2, kept_confirmRate, kept_mgtWake, kept_ratesInForce, kept_restorePower, kept_restoreRest, kept_restoreSeal, kept_trainWait, h]

theorem kept_restoreStart {q w b damage garnetDamage cs s} (h : Kept q s) : Kept q (restoreStart w b damage garnetDamage cs s) := by
  simp (maxDischargeDepth := 60) +contextual only [restoreStart, kept_mk, kept_fold, kept_ite, kept_faultReset, kept_outageEnds, kept_restoreBegin, kept_restoreRun, kept_setF, h]

theorem kept_restoreResults {q s} (h : Kept q s) : Kept q (restoreResults s) := by
  simp (maxDischargeDepth := 60) +contextual only [restoreResults, kept_setF, kept_setReg, h]

theorem kept_restoreReport {q s} (h : Kept q s) : Kept q (restoreReport s) := by
  simp (maxDischargeDepth := 60) +contextual only [restoreReport, kept_mk, kept_fold, kept_ite, kept_ite1, kept_ite2, kept_conEvent, kept_ibi, h]

theorem kept_consume {q flips s} (h : Kept q s) : Kept q (consume flips s) := by
  simp (maxDischargeDepth := 60) +contextual only [consume, kept_writeEntry, h]

theorem kept_restoreHandBack {q run flips s} (h : Kept q s) : Kept q (restoreHandBack run flips s) := by
  simp (maxDischargeDepth := 60) +contextual only [restoreHandBack, kept_mk, kept_fold, kept_ite, kept_bootTime, kept_boundaryAll, kept_calStoreStart, kept_completeTokens, kept_consume, kept_handBackClear, kept_handBackDeferred, kept_handBackRun, kept_restoreReport, kept_restoreResults, kept_setF, kept_twinHandBack, h]

theorem kept_serviceRun {q b cs s} (h : Kept q s) : Kept q (serviceRun b cs s) := by
  simp (maxDischargeDepth := 60) +contextual only [serviceRun, kept_mk, kept_fold, kept_calibrationLoad, kept_canaryCheck, kept_quickCheck, kept_selfRefreshExit, kept_setF, kept_transition, h]

theorem keptOut_execRestoreStart {q w b damage garnetDamage checks s} (h : Kept q s) : KeptOut q (execRestoreStart w b damage garnetDamage checks s) := by
  simp (maxDischargeDepth := 60) +contextual only [execRestoreStart, keptOut_next, kept_restoreStart, h]

theorem keptOut_execRestoreRefresh {q s} (h : Kept q s) : KeptOut q (execRestoreRefresh s) := by
  simp (maxDischargeDepth := 60) +contextual only [execRestoreRefresh, keptOut_next, kept_ite, kept_foldl, kept_issue, kept_markRefresh, h, implies_true]

theorem keptOut_execRestoreHandBack {q flips s} (h : Kept q s) : KeptOut q (execRestoreHandBack flips s) := by
  simp (maxDischargeDepth := 60) +contextual only [execRestoreHandBack, keptOut_next, kept_ite, kept_restoreHandBack, h]

end Sys2Proof.Machine
end

