-- ==== Sys2Proof/Laws/KeptColdBringup.lean ====
section
/-! SUPPORT. Every function of Machine/ColdBringup.lean that changes the state keeps `Kept`. -/

set_option linter.unusedSimpArgs false
set_option Elab.async false

namespace Sys2Proof.Machine

theorem kept_coldPower {q s} (h : Kept q s) : Kept q (coldPower s) := by
  simp (maxDischargeDepth := 60) +contextual only [coldPower, kept_mk, kept_fold, kept_applyCommitted, kept_coreUp, kept_setB, kept_setDomains, kept_setReg, h]

theorem kept_coldMemories {q findings flips s} (h : Kept q s) : Kept q (coldMemories findings flips s) :=
  kept_ringFresh (kept_setF (kept_clearSlots (kept_generateSeal (kept_unwrapKeys
    (kept_tags (kept_wipeGarnet (kept_clearLedger (kept_startupMarch h))) (m := []) rfl)))))

theorem kept_coldTrain {q b s} (h : Kept q s) : Kept q (coldTrain b s) := by
  simp (maxDischargeDepth := 60) +contextual only [coldTrain, kept_dramUp, kept_eraseLeft, kept_issue, kept_setF, kept_trainPasses, h]

theorem kept_coldRun {q b findings flips s} (h : Kept q s) : Kept q (coldRun b findings flips s) := by
  simp (maxDischargeDepth := 60) +contextual only [coldRun, kept_mk, kept_fold, kept_ite, kept_calStoreRun, kept_calibrationLoad, kept_coldMemories, kept_coldPower, kept_coldTrain, kept_confirmRate, kept_ratesInForce, kept_setF, kept_trainWait, h]

theorem kept_coldBegin {q s} (h : Kept q s) : Kept q (coldBegin s) := by
  simp (maxDischargeDepth := 60) +contextual only [coldBegin, kept_mk, kept_fold, kept_setF, kept_transition, h]

theorem kept_coldHandBack {q s} (h : Kept q s) : Kept q (coldHandBack s) := by
  simp (maxDischargeDepth := 60) +contextual only [coldHandBack, kept_mk, kept_fold, kept_bootTime, kept_boundaryAll, kept_handBackClear, kept_handBackDeferred, kept_handBackRun, kept_setF, kept_twinHandBack, h]

theorem keptOut_execColdBringup {q b findings flips s} (h : Kept q s) : KeptOut q (execColdBringup b findings flips s) := by
  simp (maxDischargeDepth := 60) +contextual only [execColdBringup, keptOut_next, kept_ite, kept_coldBegin, kept_coldRun, h]

theorem keptOut_execColdHandBack {q s} (h : Kept q s) : KeptOut q (execColdHandBack s) := by
  simp (maxDischargeDepth := 60) +contextual only [execColdHandBack, keptOut_next, kept_ite, kept_coldHandBack, h]

end Sys2Proof.Machine
end

