-- ==== Sys2Proof/Laws/KeptPower.lean ====
section
/-! SUPPORT. Every function of Machine/Power.lean that changes the state keeps `Kept`. -/

set_option linter.unusedSimpArgs false
set_option Elab.async false

namespace Sys2Proof.Machine

theorem kept_fuseStart {q s} (h : Kept q s) : Kept q (fuseStart s) := by
  simp (maxDischargeDepth := 60) +contextual only [fuseStart, kept_gradeValues, kept_loadSteering, kept_readLc, kept_setF, h]

theorem kept_strapSample {q pos en s} (h : Kept q s) : Kept q (strapSample pos en s) := by
  unfold strapSample
  dsimp only
  simp only [kept_mk]
  exact kept_setReg h

theorem kept_persistStart {q chip s} (h : Kept q s) : Kept q (persistStart chip s).1 := by
  unfold persistStart
  (try dsimp only)
  (repeat' split) <;> simp (maxDischargeDepth := 60) +contextual only [kept_mk, kept_fold, kept_ite, kept_ite1, kept_ite2, kept_ite22, kept_foldl, kept_foldl2, kept_foldl1, kept_addRetain, kept_loadEntry, kept_readPersist, kept_setF, h, implies_true, and_self]

theorem kept_keyStart {q s} (h : Kept q s) : Kept q (keyStart s) := by
  simp (maxDischargeDepth := 60) +contextual only [keyStart, kept_ite, kept_eraseKeys, kept_readKey, kept_setF, h]

theorem kept_configLoad {q s} (h : Kept q s) : Kept q (configLoad s) := by
  simp (maxDischargeDepth := 60) +contextual only [configLoad, kept_calValidStart, kept_cfgLoad, kept_configStart, kept_loadClass, kept_resetRegs, h]

theorem kept_resetReport {q s} (h : Kept q s) : Kept q (resetReport s) := by
  unfold resetReport
  (try dsimp only)
  (repeat' split) <;> simp (maxDischargeDepth := 60) +contextual only [kept_mk, kept_fold, kept_ite, kept_ite1, kept_ite2, kept_ite22, kept_foldl, kept_foldl2, kept_foldl1, kept_conEvent, kept_ibi, h, implies_true, and_self]

theorem kept_waitDormant {q s} (h : Kept q s) : Kept q (waitDormant s) :=
  kept_tags (kept_powerDown (kept_setF (f := Fld.PM_MODE_WAITING) (v := 0)
    (kept_transition (m := modeDormant) (b := 0) (cause := 0x10) h))) (m := []) rfl

theorem kept_recordsStart {q chip s} (h : Kept q s) : Kept q (recordsStart chip s) := by
  simp (maxDischargeDepth := 60) +contextual only [recordsStart, kept_mk, kept_fold, kept_ite, kept_configLoad, kept_keyStart, kept_persistStart, kept_resetReport, kept_setF, kept_trainLink, kept_waitDormant, h]

theorem kept_startUp {q pos en w s} (h : Kept q s) : Kept q (startUp pos en w s) := by
  simp (maxDischargeDepth := 60) +contextual only [startUp, kept_mk, kept_fold, kept_ite, kept_fuseStart, kept_mclkStart, kept_patchStart, kept_recordsStart, kept_strapSample, kept_xoscStart, h]

theorem kept_serviceUp {q s} (h : Kept q s) : Kept q (serviceUp s) := by
  simp (maxDischargeDepth := 60) +contextual only [serviceUp, kept_coreUp, kept_ringFresh, kept_setB, kept_setDomains, kept_setF, h]

theorem kept_sequenceStop {q s} (h : Kept q s) : Kept q (sequenceStop s) := by
  unfold sequenceStop
  (try dsimp only)
  (repeat' split) <;> simp (maxDischargeDepth := 60) +contextual only [kept_mk, kept_fold, kept_ite, kept_ite1, kept_ite2, kept_ite22, kept_foldl, kept_foldl2, kept_foldl1, kept_completeTokens, kept_trainWait, h, implies_true, and_self]

theorem kept_pgoodLow {q s} (h : Kept q s) : Kept q (pgoodLow s) := by
  simp (maxDischargeDepth := 60) +contextual only [pgoodLow, kept_mk, kept_fold, kept_ite, kept_sequenceStop, kept_serviceDown, kept_trace, h]

theorem kept_pgoodHigh {q s} (h : Kept q s) : Kept q (pgoodHigh s) := by
  simp (maxDischargeDepth := 60) +contextual only [pgoodHigh, kept_mk, kept_fold, kept_ite, kept_serviceUp, kept_trace, h]

theorem keptOut_execAonrstNFall {q s} (h : Kept q s) : KeptOut q (execAonrstNFall s) := by
  simp (maxDischargeDepth := 60) +contextual only [execAonrstNFall, keptOut_next, kept_aonReset, h]

theorem keptOut_execStartUpPhase {q pos en w s} (h : Kept q s) : KeptOut q (execStartUpPhase pos en w s) := by
  unfold execStartUpPhase
  (try dsimp only)
  (repeat' split) <;> simp (maxDischargeDepth := 60) +contextual only [keptOut_next, keptOut_ite, kept_mk, kept_fold, kept_ite, kept_ite1, kept_ite2, kept_ite22, kept_foldl, kept_foldl2, kept_foldl1, kept_aonRelease, kept_startUp, h, implies_true, and_self]

theorem keptOut_execPgoodRise {q s} (h : Kept q s) : KeptOut q (execPgoodRise s) := by
  simp (maxDischargeDepth := 60) +contextual only [execPgoodRise, keptOut_next, kept_ite, kept_pgoodHigh, h]

theorem keptOut_execPgoodFall {q s} (h : Kept q s) : KeptOut q (execPgoodFall s) := by
  simp (maxDischargeDepth := 60) +contextual only [execPgoodFall, keptOut_next, kept_ite, kept_pgoodLow, h]

theorem keptOut_execVauxRise {q s} (h : Kept q s) : KeptOut q (execVauxRise s) := by
  simp (maxDischargeDepth := 60) +contextual only [execVauxRise, keptOut_next, kept_aonReset, kept_setF, kept_setReg, h]

theorem keptOut_execVddqdRise {q s} (h : Kept q s) : KeptOut q (execVddqdRise s) := by
  simp (maxDischargeDepth := 60) +contextual only [execVddqdRise, keptOut_next, kept_mk, kept_fold, kept_ite, h]

theorem keptOut_execVddqdLoss {q s} (h : Kept q s) : KeptOut q (execVddqdLoss s) := by
  simp (maxDischargeDepth := 60) +contextual only [execVddqdLoss, keptOut_next, kept_mk, kept_fold, h]

end Sys2Proof.Machine
end

