-- ==== Sys2Proof/Laws/KeptTwin.lean ====
section
/-! SUPPORT. Every function of Machine/Twin.lean that changes the state keeps `Kept`. -/

set_option linter.unusedSimpArgs false
set_option Elab.async false

namespace Sys2Proof.Machine

theorem kept_versionCheck {q v s} (h : Kept q s) : Kept q (versionCheck v s) := by
  simp (maxDischargeDepth := 60) +contextual only [versionCheck, kept_mk, kept_fold, kept_ite, kept_raise, kept_setF, h]

theorem kept_generationCheck {q gen s} (h : Kept q s) : Kept q (generationCheck gen s) := by
  simp (maxDischargeDepth := 60) +contextual only [generationCheck, kept_mk, kept_fold, kept_ite, kept_raise, kept_setF, h]

theorem kept_contagion {q s} (h : Kept q s) : Kept q (contagion s) := by
  simp (maxDischargeDepth := 60) +contextual only [contagion, kept_ite, kept_raise, kept_saveTrigger, h]

theorem kept_ackFlits {q a s} (h : Kept q s) : Kept q (ackFlits a s) := by
  simp (maxDischargeDepth := 60) +contextual only [ackFlits, kept_mk, kept_fold, kept_pumpFlits, h]

theorem kept_flitError {q s} (h : Kept q s) : Kept q (flitError s) := by
  simp (maxDischargeDepth := 60) +contextual only [flitError, kept_incF, kept_sendFlit, h]

theorem kept_crcTaken {q crc s} (h : Kept q s) : Kept q (crcTaken crc s).2 := by
  simp (maxDischargeDepth := 60) +contextual only [crcTaken, kept_ite, kept_ite1, kept_ite2, kept_setF, h]

theorem kept_receiveOne {q x seq s} (h : Kept q s) : Kept q (receiveOne x seq s).2 := by
  unfold receiveOne
  (try dsimp only)
  (repeat' split) <;> simp (maxDischargeDepth := 60) +contextual only [kept_mk, kept_fold, kept_ite, kept_ite1, kept_ite2, kept_ackFlits, kept_crcTaken, kept_flitError, kept_ite22, h, implies_true, and_self]

theorem kept_receiveFlit {q type fields seq ack w f s} (h : Kept q s) (hf : ∀ a, Kept q a → Kept q (f a)) : Kept q (receiveFlit type fields seq ack w f s) := by
  simp (maxDischargeDepth := 60) +contextual only [receiveFlit, kept_ite, kept_ite1, kept_ite2, kept_receiveOne, h, hf]

theorem kept_receiveTail {q seq bytes ws r} (h : Kept q r.2) : Kept q (receiveTail seq bytes ws r).2 := by
  induction ws generalizing seq bytes r with
  | nil => exact h
  | cons w ws ih => exact ih (kept_receiveOne h)

theorem kept_nakReceived {q expected s} (h : Kept q s) : Kept q (nakReceived expected s) := by
  unfold nakReceived
  (try dsimp only)
  (repeat' split) <;> simp (maxDischargeDepth := 60) +contextual only [kept_mk, kept_fold, kept_ite, kept_ite1, kept_ite2, kept_ite22, kept_foldl, kept_foldl2, kept_foldl1, kept_ackFlits, kept_incF, kept_raise, kept_retrain, h, implies_true, and_self]

theorem kept_linkComesUp {q inv s} (h : Kept q s) : Kept q (linkComesUp inv s) := by
  simp (maxDischargeDepth := 60) +contextual only [linkComesUp, kept_mk, kept_fold, kept_replUpdate, kept_sendFlit, kept_setF, h]

theorem kept_linkEnable {q on s} (h : Kept q s) : Kept q (linkEnable on s) := by
  unfold linkEnable
  (try dsimp only)
  (repeat' split) <;> simp (maxDischargeDepth := 60) +contextual only [kept_mk, kept_fold, kept_ite, kept_ite1, kept_ite2, kept_ite22, kept_foldl, kept_foldl2, kept_foldl1, kept_emitFlit, kept_linkLost, kept_setF, kept_trainLink, h, implies_true, and_self]

theorem kept_identReceived {q pos version hb s} (h : Kept q s) : Kept q (identReceived pos version hb s) := by
  simp (maxDischargeDepth := 60) +contextual only [identReceived, kept_mk, kept_fold, kept_ite, kept_raise, kept_replUpdate, kept_setF, kept_versionCheck, h]

theorem kept_statusRegs {q b2 b3 b4 b5 b6 gen s} (h : Kept q s) : Kept q (statusRegs b2 b3 b4 b5 b6 gen s) := by
  simp (maxDischargeDepth := 60) +contextual only [statusRegs, kept_setF, kept_setReg, h]

theorem kept_hbToggled {q b5 s} (h : Kept q s) : Kept q (hbToggled b5 s) := by
  simp (maxDischargeDepth := 60) +contextual only [hbToggled, kept_mk, kept_fold, kept_ite, kept_setModule, h]

theorem kept_statusReceived {q b2 b3 b4 b5 b6 version gen s} (h : Kept q s) : Kept q (statusReceived b2 b3 b4 b5 b6 version gen s) := by
  simp (maxDischargeDepth := 60) +contextual only [statusReceived, kept_mk, kept_fold, kept_ite, kept_contagion, kept_generationCheck, kept_hbToggled, kept_replUpdate, kept_statusRegs, kept_syncUpdate, kept_versionCheck, h]

theorem kept_timeRequest {q s} (h : Kept q s) : Kept q (timeRequest s) := by
  simp (maxDischargeDepth := 60) +contextual only [timeRequest, kept_mk, kept_fold, kept_ite, kept_sendFlit, h]

theorem kept_timeCompare {q off old s} (h : Kept q s) : Kept q (timeCompare off old s) := by
  simp (maxDischargeDepth := 60) +contextual only [timeCompare, kept_mk, kept_fold, kept_ite, kept_raise, kept_setF, kept_timeRequest, h]

theorem kept_timeResponse {q t2 t3 s} (h : Kept q s) : Kept q (timeResponse t2 t3 s) := by
  unfold timeResponse
  (try dsimp only)
  (repeat' split) <;> simp (maxDischargeDepth := 60) +contextual only [kept_mk, kept_fold, kept_ite, kept_ite1, kept_ite2, kept_ite22, kept_foldl, kept_foldl2, kept_foldl1, kept_setF, kept_timeCompare, h, implies_true, and_self]

theorem kept_lineReceived {q l poison data held s} (h : Kept q s) : Kept q (lineReceived l poison data held s) := by
  simp (maxDischargeDepth := 60) +contextual only [lineReceived, kept_mk, kept_fold, kept_ite, kept_ite1, kept_ite2, kept_countHeld, kept_incF, kept_markDirty, kept_putLine, kept_staleRegs, kept_syncUpdate, kept_wakeFor, h]

theorem kept_resyncRequested {q first count s} (h : Kept q s) : Kept q (resyncRequested first count s) := by
  simp (maxDischargeDepth := 60) +contextual only [resyncRequested, kept_mk, kept_fold, kept_staleRegs, h]

theorem kept_sendLine {q l resync s} (h : Kept q s) : Kept q (sendLine l resync s) := by
  simp (maxDischargeDepth := 60) +contextual only [sendLine, kept_readLine, kept_sendFlit, kept_wakeFor, h]

theorem kept_replicaSend {q s} (h : Kept q s) : Kept q (replicaSend s) := by
  unfold replicaSend
  (try dsimp only)
  (repeat' split) <;> simp (maxDischargeDepth := 60) +contextual only [kept_mk, kept_fold, kept_ite, kept_ite1, kept_ite2, kept_ite22, kept_foldl, kept_foldl2, kept_foldl1, kept_sendLine, kept_staleRegs, kept_trace, h, implies_true, and_self]

theorem keptOut_execLinkUp {q inv s} (h : Kept q s) : KeptOut q (execLinkUp inv s) := by
  simp (maxDischargeDepth := 60) +contextual only [execLinkUp, keptOut_next, kept_ite, kept_linkComesUp, h]

theorem keptOut_execLinkTrainRetry {q s} (h : Kept q s) : KeptOut q (execLinkTrainRetry s) := by
  simp (maxDischargeDepth := 60) +contextual only [execLinkTrainRetry, keptOut_next, kept_trainLink, h]

theorem keptOut_execLinkDown {q s} (h : Kept q s) : KeptOut q (execLinkDown s) := by
  simp (maxDischargeDepth := 60) +contextual only [execLinkDown, keptOut_next, kept_ite, kept_linkLost, h]

theorem keptOut_execRetrainTimeout {q s} (h : Kept q s) : KeptOut q (execRetrainTimeout s) := by
  simp (maxDischargeDepth := 60) +contextual only [execRetrainTimeout, keptOut_next, kept_ite, kept_linkLost, h]

theorem keptOut_execUpWaitExpiry {q s} (h : Kept q s) : KeptOut q (execUpWaitExpiry s) := by
  simp (maxDischargeDepth := 60) +contextual only [execUpWaitExpiry, keptOut_next, kept_mk, kept_fold, kept_ite, kept_raise, h]

theorem keptOut_execFlitIdle {q seq ack bad s} (h : Kept q s) : KeptOut q (execFlitIdle seq ack bad s) :=
  keptOut_next.mpr (kept_receiveFlit h (fun _ ht => ht))

theorem keptOut_execFlitNak {q seq ack w expected s} (h : Kept q s) : KeptOut q (execFlitNak seq ack w expected s) := by
  unfold execFlitNak
  (try dsimp only)
  (repeat' split) <;> simp (maxDischargeDepth := 60) +contextual only [keptOut_next, kept_nakReceived, kept_receiveFlit, kept_ite, kept_ite1, kept_ite2, kept_ite22, h, implies_true, and_self]

theorem keptOut_execFlitIdent {q seq ack w pos version hbTime s} (h : Kept q s) : KeptOut q (execFlitIdent seq ack w pos version hbTime s) := by
  unfold execFlitIdent
  (try dsimp only)
  (repeat' split) <;> simp (maxDischargeDepth := 60) +contextual only [keptOut_next, kept_identReceived, kept_receiveFlit, kept_ite, kept_ite1, kept_ite2, kept_ite22, h, implies_true, and_self]

theorem keptOut_execFlitStatus {q seq ack w b2 b3 b4 b5 b6 version gen s} (h : Kept q s) : KeptOut q (execFlitStatus seq ack w b2 b3 b4 b5 b6 version gen s) := by
  unfold execFlitStatus
  (try dsimp only)
  (repeat' split) <;> simp (maxDischargeDepth := 60) +contextual only [keptOut_next, kept_receiveFlit, kept_statusReceived, kept_ite, kept_ite1, kept_ite2, kept_ite22, h, implies_true, and_self]

theorem keptOut_execStatusSend {q s} (h : Kept q s) : KeptOut q (execStatusSend s) := by
  simp (maxDischargeDepth := 60) +contextual only [execStatusSend, keptOut_next, kept_sendFlit, h]

theorem keptOut_execTimeReqSend {q s} (h : Kept q s) : KeptOut q (execTimeReqSend s) := by
  simp (maxDischargeDepth := 60) +contextual only [execTimeReqSend, keptOut_next, kept_timeRequest, h]

theorem keptOut_execFlitTimeReq {q seq ack w s} (h : Kept q s) : KeptOut q (execFlitTimeReq seq ack w s) := by
  simp (maxDischargeDepth := 60) +contextual only [execFlitTimeReq, keptOut_next, kept_receiveFlit, kept_sendFlit, h, implies_true]

theorem keptOut_execFlitTimeRsp {q seq ack w t2 t3 s} (h : Kept q s) : KeptOut q (execFlitTimeRsp seq ack w t2 t3 s) := by
  unfold execFlitTimeRsp
  (try dsimp only)
  (repeat' split) <;> simp (maxDischargeDepth := 60) +contextual only [keptOut_next, kept_receiveFlit, kept_timeResponse, kept_ite, kept_ite1, kept_ite2, kept_ite22, h, implies_true, and_self]

theorem keptOut_execFlitSave {q seq ack w cause aonS0 s} (h : Kept q s) : KeptOut q (execFlitSave seq ack w cause aonS0 s) := by
  simp (maxDischargeDepth := 60) +contextual only [execFlitSave, keptOut_next, kept_mk, kept_fold, kept_ite, kept_ite1, kept_ite2, kept_receiveFlit, kept_saveTrigger, kept_trace, h, implies_true]

theorem keptOut_execFlitLagEnd {q seq ack w s} (h : Kept q s) : KeptOut q (execFlitLagEnd seq ack w s) := by
  unfold execFlitLagEnd
  (try dsimp only)
  (repeat' split) <;> simp (maxDischargeDepth := 60) +contextual only [keptOut_next, kept_receiveFlit, kept_setF, kept_ite, kept_ite1, kept_ite2, kept_ite22, h, implies_true, and_self]

theorem keptOut_execLagEndSend {q s} (h : Kept q s) : KeptOut q (execLagEndSend s) := by
  simp (maxDischargeDepth := 60) +contextual only [execLagEndSend, keptOut_next, kept_mk, kept_fold, kept_ite, kept_sendFlit, h]

theorem keptOut_execFlitBye {q seq ack w s} (h : Kept q s) : KeptOut q (execFlitBye seq ack w s) := by
  simp (maxDischargeDepth := 60) +contextual only [execFlitBye, keptOut_next, kept_mk, kept_fold, kept_contagion, kept_receiveFlit, h, implies_true]

theorem keptOut_execFlitResyncReq {q seq ack w first count s} (h : Kept q s) : KeptOut q (execFlitResyncReq seq ack w first count s) := by
  unfold execFlitResyncReq
  (try dsimp only)
  (repeat' split) <;> simp (maxDischargeDepth := 60) +contextual only [keptOut_next, kept_receiveFlit, kept_resyncRequested, kept_ite, kept_ite1, kept_ite2, kept_ite22, h, implies_true, and_self]

theorem keptOut_execFlitLine {q seq ack w l resync poison data tails held s} (h : Kept q s) : KeptOut q (execFlitLine seq ack w l resync poison data tails held s) := by
  simp (maxDischargeDepth := 60) +contextual only [execFlitLine, keptOut_next, kept_ite, kept_ite1, kept_ite2, kept_lineReceived, kept_receiveOne, kept_receiveTail, h]

theorem keptOut_execReplicaLineSend {q held s} (h : Kept q s) : KeptOut q (execReplicaLineSend held s) := by
  simp (maxDischargeDepth := 60) +contextual only [execReplicaLineSend, keptOut_next, kept_ite, kept_ite1, kept_ite2, kept_countHeld, kept_replicaSend, h]

theorem keptOut_execTwResume {q s} (h : Kept q s) : KeptOut q (execTwResume s) := by
  simp (maxDischargeDepth := 60) +contextual only [execTwResume, keptOut_next, kept_ite, kept_resumeResync, h]

theorem keptOut_execTwResync {q s} (h : Kept q s) : KeptOut q (execTwResync s) := by
  simp (maxDischargeDepth := 60) +contextual only [execTwResync, keptOut_next, kept_ite, kept_fullRequest, h]

theorem keptOut_execTwRetrain {q s} (h : Kept q s) : KeptOut q (execTwRetrain s) := by
  simp (maxDischargeDepth := 60) +contextual only [execTwRetrain, keptOut_next, kept_ite, kept_retrain, h]

end Sys2Proof.Machine
end

