-- ==== Sys2Proof/Laws/KeptSensorsTrace.lean ====
section
/-! SUPPORT. Every function of Machine/SensorsTrace.lean that changes the state keeps `Kept`. -/

set_option linter.unusedSimpArgs false
set_option Elab.async false

namespace Sys2Proof.Machine

theorem kept_sensorStore {q n t s} (h : Kept q s) : Kept q (sensorStore n t s) := by
  simp (maxDischargeDepth := 60) +contextual only [sensorStore, kept_ite, kept_raise, kept_setBitF, kept_setReg, h]

theorem kept_sensorSummary {q l s} (h : Kept q s) : Kept q (sensorSummary l s) := by
  unfold sensorSummary
  (try dsimp only)
  (repeat' split) <;> simp (maxDischargeDepth := 60) +contextual only [kept_mk, kept_fold, kept_ite, kept_ite1, kept_ite2, kept_ite22, kept_foldl, kept_foldl2, kept_foldl1, kept_setF, kept_setReg, h, implies_true, and_self]

theorem kept_thresholdStep {q on thr src codeOn x4 s} (h : Kept q s) : Kept q (thresholdStep on thr src codeOn x4 s) := by
  simp (maxDischargeDepth := 60) +contextual only [thresholdStep, kept_ite, kept_raise, kept_setF, kept_trace, h]

theorem kept_sensorEnd {q ts s} (h : Kept q s) : Kept q (sensorEnd ts s) := by
  unfold sensorEnd
  (try dsimp only)
  (repeat' split) <;> simp (maxDischargeDepth := 60) +contextual only [kept_mk, kept_fold, kept_ite, kept_ite1, kept_ite2, kept_ite22, kept_foldl, kept_foldl2, kept_foldl1, kept_sensorStore, kept_sensorSummary, kept_thresholdStep, h, implies_true, and_self]

theorem kept_ringClear {q s} (h : Kept q s) : Kept q (ringClear s) :=
  kept_ite (kept_trace (kept_ring h (l := []) (by simp))) (kept_ring h (l := []) (by simp))

theorem keptOut_execSensorConversion {q t0 t1 t2 t3 s} (h : Kept q s) : KeptOut q (execSensorConversion t0 t1 t2 t3 s) := by
  simp (maxDischargeDepth := 60) +contextual only [execSensorConversion, keptOut_next, kept_ite, kept_sensorEnd, h]

theorem keptOut_execTrClear {q s} (h : Kept q s) : KeptOut q (execTrClear s) := by
  simp (maxDischargeDepth := 60) +contextual only [execTrClear, keptOut_next, kept_ite, kept_ringClear, h]

end Sys2Proof.Machine
end

