-- ==== Sys2Proof/Laws/KeptRegRead.lean ====
section
/-! SUPPORT. Every function of Machine/RegRead.lean that changes the state keeps `Kept`. -/

set_option linter.unusedSimpArgs false
set_option Elab.async false

namespace Sys2Proof.Machine

theorem kept_latchGroup {q a s} (h : Kept q s) : Kept q (latchGroup a s) := by
  simp (maxDischargeDepth := 60) +contextual only [latchGroup, kept_mk, kept_fold, h]

theorem kept_readReg {q a s} (h : Kept q s) : Kept q (readReg a s).2 := by
  simp (maxDischargeDepth := 60) +contextual only [readReg, kept_ite2, kept_hctReadStep, kept_latchGroup, h]

theorem kept_readAddr {q a s} (h : Kept q s) : Kept q (readAddr a s).2.2 := by
  unfold readAddr
  (try dsimp only)
  (repeat' split) <;> simp (maxDischargeDepth := 60) +contextual only [kept_mk, kept_fold, kept_ite, kept_ite1, kept_ite2, kept_ite22, kept_foldl, kept_foldl2, kept_foldl1, kept_readReg, h, implies_true, and_self]

theorem keptOut_execLatchedPairRead {q addr s} (h : Kept q s) : KeptOut q (execLatchedPairRead addr s) := by
  simp (maxDischargeDepth := 60) +contextual only [execLatchedPairRead, keptOut_next, kept_readAddr, h]

end Sys2Proof.Machine
end

