-- ==== Sys2Proof/Laws/KeptRegWrite.lean ====
section
/-! SUPPORT. Every function of Machine/RegWrite.lean that changes the state keeps `Kept`. -/

set_option linter.unusedSimpArgs false
set_option Elab.async false

namespace Sys2Proof.Machine

theorem kept_commitReport {q block s} (h : Kept q s) : Kept q (commitReport block s) := by
  unfold commitReport
  (try dsimp only)
  (repeat' split) <;> simp (maxDischargeDepth := 60) +contextual only [kept_mk, kept_fold, kept_ite, kept_ite1, kept_ite2, kept_ite22, kept_foldl, kept_foldl2, kept_foldl1, kept_setF, h, implies_true, and_self]

theorem kept_commitAll {q s} (h : Kept q s) : Kept q (commitAll s) := by
  simp (maxDischargeDepth := 60) +contextual only [commitAll, kept_mk, kept_fold, kept_ite, kept_foldl, h, implies_true]

theorem kept_commitNow {q s} (h : Kept q s) : Kept q (commitNow s).2 := by
  unfold commitNow
  (try dsimp only)
  (repeat' split) <;> simp (maxDischargeDepth := 60) +contextual only [kept_mk, kept_fold, kept_ite, kept_ite1, kept_ite2, kept_ite22, kept_foldl, kept_foldl2, kept_foldl1, kept_boundaryAll, kept_commitAll, kept_commitReport, h, implies_true, and_self]

theorem kept_discardStaged {q s} (h : Kept q s) : Kept q (discardStaged s) := by
  simp (maxDischargeDepth := 60) +contextual only [discardStaged, kept_mk, kept_fold, h]

theorem kept_plainWrite {q x0 v s} (h : Kept q s) : Kept q (plainWrite x0 v s) := by
  unfold plainWrite
  (try dsimp only)
  (repeat' split) <;> simp (maxDischargeDepth := 60) +contextual only [kept_mk, kept_fold, kept_ite, kept_ite1, kept_ite2, kept_ite22, kept_foldl, kept_foldl2, kept_foldl1, kept_setReg, kept_stage, h, implies_true, and_self]

theorem kept_switchEffect {q s} (h : Kept q s) : Kept q (switchEffect s) := by
  simp (maxDischargeDepth := 60) +contextual only [switchEffect, kept_ite, kept_ite1, kept_ite2, kept_gapPause, kept_resumeLanes, h]

theorem kept_clearRsvhit {q s} (h : Kept q s) : Kept q (clearRsvhit s) := by
  simp (maxDischargeDepth := 60) +contextual only [clearRsvhit, kept_setReg, h]

theorem kept_clearAlert {q s} (h : Kept q s) : Kept q (clearAlert s) := by
  simp (maxDischargeDepth := 60) +contextual only [clearAlert, kept_setF, h]

theorem kept_askUnblock {q s} (h : Kept q s) : Kept q (askUnblock s) := by
  simp (maxDischargeDepth := 60) +contextual only [askUnblock, kept_mk, kept_fold, kept_ite, h]

theorem kept_caClr {q v s} (h : Kept q s) : Kept q (caClr v s) := by
  simp (maxDischargeDepth := 60) +contextual only [caClr, kept_ite, kept_askUnblock, kept_clearAlert, kept_clearRsvhit, h]

theorem kept_hctCommand {q v s} (h : Kept q s) : Kept q (hctCommand v s) := by
  simp (maxDischargeDepth := 60) +contextual only [hctCommand, kept_mk, kept_fold, kept_ite, kept_hctStart, kept_plainWrite, h]

theorem kept_ledgerConfig {q v s} (h : Kept q s) : Kept q (ledgerConfig v s) := by
  simp (maxDischargeDepth := 60) +contextual only [ledgerConfig, kept_plainWrite, kept_retainWrite, h]

theorem kept_keepControl {q v flips s} (h : Kept q s) : Kept q (keepControl v flips s) := by
  simp (maxDischargeDepth := 60) +contextual only [keepControl, kept_ite, kept_checkpointStart, kept_plainWrite, kept_refreshStart, h]

theorem kept_twinControl {q v s} (h : Kept q s) : Kept q (twinControl v s) := by
  simp (maxDischargeDepth := 60) +contextual only [twinControl, kept_ite, kept_fullRequest, kept_resumeResync, kept_retrain, h]

theorem kept_twinConfig {q v s} (h : Kept q s) : Kept q (twinConfig v s) := by
  simp (maxDischargeDepth := 60) +contextual only [twinConfig, kept_ite, kept_linkEnable, kept_plainWrite, h]

theorem kept_marchControl {q v findings s} (h : Kept q s) : Kept q (marchControl v findings s) := by
  simp (maxDischargeDepth := 60) +contextual only [marchControl, kept_ite, kept_marchEnd, kept_marchStart, kept_plainWrite, h]

theorem kept_writeLow {q a v env s} (h : Kept q s) : Kept q (writeLow a v env s) := by
  simp (maxDischargeDepth := 60) +contextual only [writeLow, kept_ite, kept_ite1, kept_ite2, kept_caClr, kept_calStoreStart, kept_commitNow, kept_discEnable, kept_discardStaged, kept_hctCommand, kept_hctWrite, kept_ledgerConfig, kept_plainWrite, kept_switchEffect, kept_windowRead, kept_windowWrite, h]

theorem kept_fcQueue {q w s} (h : Kept q s) : Kept q (fcQueue w s) := by
  simp (maxDischargeDepth := 60) +contextual only [fcQueue, kept_mk, kept_fold, h]

theorem kept_writeHigh {q a v env s} (h : Kept q s) : Kept q (writeHigh a v env s) := by
  unfold writeHigh
  (try dsimp only)
  (repeat' split) <;> simp (maxDischargeDepth := 60) +contextual only [kept_mk, kept_fold, kept_ite, kept_ite1, kept_ite2, kept_ite22, kept_foldl, kept_foldl2, kept_foldl1, kept_burnStart, kept_clearTamper, kept_fcQueue, kept_keepControl, kept_marchControl, kept_plainWrite, kept_ringClear, kept_saveTrigger, kept_setReg, kept_twinConfig, kept_twinControl, h, implies_true, and_self]

theorem kept_writeEffect {q a v env s} (h : Kept q s) : Kept q (writeEffect a v env s) := by
  simp (maxDischargeDepth := 60) +contextual only [writeEffect, kept_ite, kept_plainWrite, kept_setF, kept_writeHigh, kept_writeLow, h]

theorem kept_windowRefused {q s} (h : Kept q s) : Kept q (windowRefused s) := by
  simp (maxDischargeDepth := 60) +contextual only [windowRefused, kept_windowStatus, h]

theorem kept_refusedWrite {q e a v env s} (h : Kept q s) : Kept q (refusedWrite e a v env s) := by
  simp (maxDischargeDepth := 60) +contextual only [refusedWrite, kept_ite, kept_ite1, kept_ite2, kept_windowRefused, kept_writeEffect, h]

theorem kept_writeAddr {q a v env s} (h : Kept q s) : Kept q (writeAddr a v env s).2 := by
  unfold writeAddr
  (try dsimp only)
  (repeat' split) <;> simp (maxDischargeDepth := 60) +contextual only [kept_mk, kept_fold, kept_refusedWrite, kept_writeEffect, kept_ite, kept_ite1, kept_ite2, kept_ite22, h, implies_true, and_self]

theorem kept_writeReg {q a v env s} (h : Kept q s) : Kept q (writeReg a v env s) := by
  simp (maxDischargeDepth := 60) +contextual only [writeReg, kept_writeAddr, h]

theorem keptOut_execRegisterWrite {q addr value env s} (h : Kept q s) : KeptOut q (execRegisterWrite addr value env s) := by
  simp (maxDischargeDepth := 60) +contextual only [execRegisterWrite, keptOut_next, kept_ite, kept_writeReg, h]

theorem keptOut_execGlCommitWrite {q s} (h : Kept q s) : KeptOut q (execGlCommitWrite s) := by
  simp (maxDischargeDepth := 60) +contextual only [execGlCommitWrite, keptOut_next, kept_ite, kept_commitNow, h]

theorem keptOut_execGlDiscardWrite {q s} (h : Kept q s) : KeptOut q (execGlDiscardWrite s) := by
  simp (maxDischargeDepth := 60) +contextual only [execGlDiscardWrite, keptOut_next, kept_ite, kept_discardStaged, h]

theorem keptOut_execCaClrUnblock {q s} (h : Kept q s) : KeptOut q (execCaClrUnblock s) := by
  simp (maxDischargeDepth := 60) +contextual only [execCaClrUnblock, keptOut_next, kept_ite, kept_askUnblock, h]

theorem keptOut_execCaClrRsvhit {q s} (h : Kept q s) : KeptOut q (execCaClrRsvhit s) := by
  simp (maxDischargeDepth := 60) +contextual only [execCaClrRsvhit, keptOut_next, kept_ite, kept_clearRsvhit, h]

theorem keptOut_execCaClrAlert {q s} (h : Kept q s) : KeptOut q (execCaClrAlert s) := by
  simp (maxDischargeDepth := 60) +contextual only [execCaClrAlert, keptOut_next, kept_ite, kept_clearAlert, h]

end Sys2Proof.Machine
end

