-- ==== Sys2Proof/Laws/KeptFaultCollector.lean ====
section
/-! SUPPORT. Every function of Machine/FaultCollector.lean that changes the state keeps `Kept`. -/

set_option linter.unusedSimpArgs false
set_option Elab.async false

namespace Sys2Proof.Machine

theorem kept_histPush {q e s} (h : Kept q s) : Kept q (histPush e s) := by
  simp (maxDischargeDepth := 60) +contextual only [histPush, kept_mk, kept_fold, h]

theorem kept_histDue {q e s} (h : Kept q s) : Kept q (histDue e s) := by
  simp (maxDischargeDepth := 60) +contextual only [histDue, kept_ite, kept_histPush, kept_incF, h]

theorem kept_histPromo {q e s} (h : Kept q s) : Kept q (histPromo e s) := by
  simp (maxDischargeDepth := 60) +contextual only [histPromo, kept_ite, kept_histPush, kept_incF, h]

theorem kept_histComplete {q e s} (h : Kept q s) : Kept q (histComplete e s) := by
  simp (maxDischargeDepth := 60) +contextual only [histComplete, kept_mk, kept_fold, kept_ite, kept_histDue, h]

theorem kept_histWrite {q flips s} (h : Kept q s) : Kept q (histWrite flips s) := by
  unfold histWrite
  (try dsimp only)
  (repeat' split) <;> simp (maxDischargeDepth := 60) +contextual only [kept_mk, kept_fold, kept_ite, kept_ite1, kept_ite2, kept_ite22, kept_foldl, kept_foldl2, kept_foldl1, kept_crcFail, kept_keepRead, kept_keepWrite, kept_wearRing, h, implies_true, and_self]

theorem kept_recordClear {q s} (h : Kept q s) : Kept q (recordClear s) := by
  simp (maxDischargeDepth := 60) +contextual only [recordClear, kept_ite, kept_foldl, kept_histComplete, kept_setReg, h, implies_true]

theorem kept_stickyClear {q n s} (h : Kept q s) : Kept q (stickyClear n s) := by
  simp (maxDischargeDepth := 60) +contextual only [stickyClear, kept_mk, kept_fold, kept_ite, kept_setBitF, h]

theorem kept_recordAck {q s} (h : Kept q s) : Kept q (recordAck s) := by
  simp (maxDischargeDepth := 60) +contextual only [recordAck, kept_ite, kept_setF, h]

theorem kept_forceAll {q base v s} (h : Kept q s) : Kept q (forceAll base v s) := by
  simp (maxDischargeDepth := 60) +contextual only [forceAll, kept_mk, kept_fold, kept_ite, kept_foldl, h, implies_true]

theorem kept_applyFcWrite {q s w} (h : Kept q s) : Kept q (applyFcWrite s w) := by
  simp (maxDischargeDepth := 60) +contextual only [applyFcWrite, kept_ite, kept_foldl, kept_forceAll, kept_plainWrite, kept_recordAck, kept_recordClear, kept_stickyClear, h, implies_true]

theorem kept_applyFcWrites {q s} (h : Kept q s) : Kept q (applyFcWrites s) := by
  simp (maxDischargeDepth := 60) +contextual only [applyFcWrites, kept_mk, kept_fold, kept_foldl, kept_applyFcWrite, h, implies_true]

theorem kept_holdReactions {q src bits s} (h : Kept q s) : Kept q (holdReactions src bits s) := by
  simp (maxDischargeDepth := 60) +contextual only [holdReactions, kept_mk, kept_fold, kept_ite, kept_setF, h]

theorem kept_nmtPend {q n s} (h : Kept q s) : Kept q (nmtPend n s) := by
  simp (maxDischargeDepth := 60) +contextual only [nmtPend, kept_mk, kept_fold, kept_ite, h]

theorem kept_setGap {q g s} (h : Kept q s) : Kept q (setGap g s) := by
  simp (maxDischargeDepth := 60) +contextual only [setGap, kept_mk, kept_fold, h]

theorem kept_irqReact {q src cls n prom forced s} (h : Kept q s) : Kept q (irqReact src cls n prom forced s) := by
  simp (maxDischargeDepth := 60) +contextual only [irqReact, kept_ite, kept_conEvent, kept_ibi, kept_setGap, h]

theorem kept_countEvents {q src n s} (h : Kept q s) : Kept q (countEvents src n s).2 := by
  simp (maxDischargeDepth := 60) +contextual only [countEvents, kept_ite2, kept_addF, kept_incF, kept_setF, h]

theorem kept_performed {q src set prom s} (h : Kept q s) : Kept q (performed src set prom s).2 := by
  simp (maxDischargeDepth := 60) +contextual only [performed, kept_ite2, kept_setF, h]

theorem kept_judge {q c s} (h : Kept q s) : Kept q (judge c s).2.2 := by
  simp (maxDischargeDepth := 60) +contextual only [judge, kept_countEvents, kept_performed, h]

theorem kept_capture {q j s} (h : Kept q s) : Kept q (capture j s) := by
  simp (maxDischargeDepth := 60) +contextual only [capture, kept_histDue, kept_setReg, h]

theorem kept_record {q j s} (h : Kept q s) : Kept q (record j s) := by
  simp (maxDischargeDepth := 60) +contextual only [record, kept_ite, kept_addF, kept_capture, kept_histPromo, kept_setBitF, kept_setF, h]

theorem kept_traceCollection {q j captured s} (h : Kept q s) : Kept q (traceCollection j captured s) := by
  simp (maxDischargeDepth := 60) +contextual only [traceCollection, kept_ite, kept_trace, h]

theorem kept_markSticky {q j s} (h : Kept q s) : Kept q (markSticky j s) := by
  simp (maxDischargeDepth := 60) +contextual only [markSticky, kept_mk, kept_fold, kept_ite, kept_setBitF, h]

theorem kept_react {q j set s} (h : Kept q s) : Kept q (react j set s) := by
  simp (maxDischargeDepth := 60) +contextual only [react, kept_ite, kept_blockReset, kept_holdReactions, kept_irqReact, kept_nmtPend, kept_stewardStopped, h]

theorem kept_wakePolicy {q j s} (h : Kept q s) : Kept q (wakePolicy j s) := by
  simp (maxDischargeDepth := 60) +contextual only [wakePolicy, kept_mk, kept_fold, kept_ite, kept_ite1, kept_ite2, h]

theorem kept_collectOne {q a c} (h : Kept q a.2) : Kept q (collectOne a c).2 := by
  simp (maxDischargeDepth := 60) +contextual only [collectOne, kept_ite, kept_ite1, kept_ite2, kept_judge, kept_markSticky, kept_react, kept_record, kept_traceCollection, kept_wakePolicy, h]

theorem kept_performHeld {q a d} (h : Kept q a.2) : Kept q (performHeld a d).2 := by
  unfold performHeld
  dsimp only
  have h1 : Kept q (if d.2.testBit rxNmt then nmtPend d.1 a.2 else a.2) := kept_ite (kept_nmtPend h) h
  generalize (if d.2.testBit rxNmt = true then nmtPend d.1 a.2 else a.2) = s1 at *
  have h2 : Kept q (if d.2.testBit rxBlk then blockReset d.1 s1 else s1) := kept_ite (kept_blockReset h1) h1
  generalize (if d.2.testBit rxBlk = true then blockReset d.1 s1 else s1) = s2 at *
  split
  · split
    · exact kept_setF h2
    · exact h2
  · exact h2

theorem kept_releaseHeld {q s} (h : Kept q s) : Kept q (releaseHeld s).2 := by
  simp (maxDischargeDepth := 60) +contextual only [releaseHeld, kept_mk, kept_fold, kept_ite2, kept_foldl2, kept_performHeld, h, implies_true]

theorem kept_chipReact {q l s} (h : Kept q s) : Kept q (chipReact l s) := by
  unfold chipReact
  (try dsimp only)
  (repeat' split) <;> simp (maxDischargeDepth := 60) +contextual only [kept_mk, kept_fold, kept_ite, kept_ite1, kept_ite2, kept_ite22, kept_foldl, kept_foldl2, kept_foldl1, kept_faultReset, kept_selfRefresh, h, implies_true, and_self]

theorem kept_collect {q s} (h : Kept q s) : Kept q (collect s) := by
  simp (maxDischargeDepth := 60) +contextual only [collect, kept_mk, kept_fold, kept_foldl2, kept_applyFcWrites, kept_chipReact, kept_collectOne, kept_releaseHeld, h, implies_true]

theorem kept_nmtHandle {q e s} (h : Kept q s) : Kept q (nmtHandle e s) := by
  unfold nmtHandle
  (try dsimp only)
  (repeat' split) <;> simp (maxDischargeDepth := 60) +contextual only [kept_mk, kept_fold, kept_ite, kept_ite1, kept_ite2, kept_ite22, kept_foldl, kept_foldl2, kept_foldl1, kept_raise, h, implies_true, and_self]

theorem keptOut_execFaultCollect {q s} (h : Kept q s) : KeptOut q (execFaultCollect s) := by
  simp (maxDischargeDepth := 60) +contextual only [execFaultCollect, keptOut_next, kept_ite, kept_collect, h]

theorem keptOut_execFcWindowClose {q src s} (h : Kept q s) : KeptOut q (execFcWindowClose src s) := by
  simp (maxDischargeDepth := 60) +contextual only [execFcWindowClose, keptOut_next, kept_ite, kept_setF, h]

theorem keptOut_execNmtHandler {q ends s} (h : Kept q s) : KeptOut q (execNmtHandler ends s) := by
  simp (maxDischargeDepth := 60) +contextual only [execNmtHandler, keptOut_next, kept_nmtHandle, h]

theorem keptOut_execChiprstWindowExpiry {q s} (h : Kept q s) : KeptOut q (execChiprstWindowExpiry s) := by
  simp (maxDischargeDepth := 60) +contextual only [execChiprstWindowExpiry, keptOut_next, kept_ite, kept_setF, h]

theorem keptOut_execHistoryWrite {q flips s} (h : Kept q s) : KeptOut q (execHistoryWrite flips s) := by
  simp (maxDischargeDepth := 60) +contextual only [execHistoryWrite, keptOut_next, kept_histWrite, h]

theorem kept_fcWrite {q a v s} (h : Kept q s) : Kept q (fcWrite a v s) := by
  simp (maxDischargeDepth := 60) +contextual only [fcWrite, kept_ite, kept_writeReg, h]

theorem keptOut_execFcAck {q s} (h : Kept q s) : KeptOut q (execFcAck s) := by
  simp (maxDischargeDepth := 60) +contextual only [execFcAck, keptOut_next, kept_fcWrite, h]

theorem keptOut_execFcClrSticky {q s} (h : Kept q s) : KeptOut q (execFcClrSticky s) := by
  simp (maxDischargeDepth := 60) +contextual only [execFcClrSticky, keptOut_next, kept_fcWrite, h]

theorem keptOut_execFcRecordClear {q s} (h : Kept q s) : KeptOut q (execFcRecordClear s) := by
  simp (maxDischargeDepth := 60) +contextual only [execFcRecordClear, keptOut_next, kept_fcWrite, h]

theorem keptOut_execFcStickyClear {q high value s} (h : Kept q s) : KeptOut q (execFcStickyClear high value s) := by
  simp (maxDischargeDepth := 60) +contextual only [execFcStickyClear, keptOut_next, kept_fcWrite, h]

theorem keptOut_execFcForce {q high value s} (h : Kept q s) : KeptOut q (execFcForce high value s) := by
  simp (maxDischargeDepth := 60) +contextual only [execFcForce, keptOut_next, kept_fcWrite, h]

theorem keptOut_execFcInj {q value s} (h : Kept q s) : KeptOut q (execFcInj value s) := by
  simp (maxDischargeDepth := 60) +contextual only [execFcInj, keptOut_next, kept_fcWrite, h]

end Sys2Proof.Machine
end

