-- ==== Sys2Proof/Laws/KeptConsoleOut.lean ====
section
/-! SUPPORT. Every function of Machine/ConsoleOut.lean that changes the state keeps `Kept`. -/

set_option linter.unusedSimpArgs false
set_option Elab.async false

namespace Sys2Proof.Machine

theorem kept_uartSend {q b s} (h : Kept q s) : Kept q (uartSend b s) := by
  simp (maxDischargeDepth := 60) +contextual only [uartSend, kept_mk, kept_fold, h]

theorem kept_hear {q s} (h : Kept q s) : Kept q (hear s) := by
  simp (maxDischargeDepth := 60) +contextual only [hear, kept_mk, kept_fold, h]

theorem kept_takeLease {q v s} (h : Kept q s) : Kept q (takeLease v s) := by
  unfold takeLease
  (try dsimp only)
  (repeat' split) <;> simp (maxDischargeDepth := 60) +contextual only [kept_mk, kept_fold, kept_ite, kept_ite1, kept_ite2, kept_ite22, kept_foldl, kept_foldl2, kept_foldl1, kept_setReg, kept_uartSend, h, implies_true, and_self]

theorem kept_refuseInput {q n s} (h : Kept q s) : Kept q (refuseInput n s) := by
  simp (maxDischargeDepth := 60) +contextual only [refuseInput, kept_addF, h]

theorem kept_pumpReply {q l s} (h : Kept q s) : Kept q (pumpReply l s).2 := by
  induction l generalizing s with
  | nil => exact h
  | cons a l ih =>
    unfold pumpReply
    split
    · exact ih (kept_outAppend h)
    · exact h

theorem kept_pumpEvents {q l s} (h : Kept q s) : Kept q (pumpEvents l s).2 := by
  induction l generalizing s with
  | nil => exact h
  | cons a l ih =>
    unfold pumpEvents
    split
    · exact ih (kept_uartEvent h)
    · split
      · exact ih (kept_outAppend h)
      · exact h

theorem pumpEvents_length {l s} : (pumpEvents l s).1.length ≤ l.length := by
  induction l generalizing s with
  | nil => exact Nat.le_refl _
  | cons a l ih =>
    unfold pumpEvents
    split
    · exact Nat.le_succ_of_le ih
    · split
      · exact Nat.le_succ_of_le ih
      · exact Nat.le_refl _

theorem kept_flushEvents {q s} (h : Kept q s) : Kept q (flushEvents s) := by
  have h1 := kept_pumpEvents (l := s.con.events) (kept_events h (l := []) (by simp))
  have h2 := kept_events h1 (l := (pumpEvents s.con.events { s with con := { s.con with events := [] } }).1) (Nat.le_trans pumpEvents_length h.eventsLen)
  unfold flushEvents
  dsimp only
  split
  · exact kept_conEvent h2
  · exact h2

theorem kept_pump {q s} (h : Kept q s) : Kept q (pump s) := by
  simp (maxDischargeDepth := 60) +contextual only [pump, kept_mk, kept_fold, kept_ite, kept_flushEvents, kept_pumpReply, h]

theorem kept_endAfterReply {q s} (h : Kept q s) : Kept q (endAfterReply s) := by
  simp (maxDischargeDepth := 60) +contextual only [endAfterReply, kept_mk, kept_fold, kept_ite, kept_sessionEnd, h]

theorem kept_promptAfter {q s} (h : Kept q s) : Kept q (promptAfter s) := by
  simp (maxDischargeDepth := 60) +contextual only [promptAfter, kept_ite, kept_uartSend, h]

theorem kept_answer {q lines after s} (h : Kept q s) : Kept q (answer lines after s) := by
  unfold answer
  (try dsimp only)
  (repeat' split) <;> simp (maxDischargeDepth := 60) +contextual only [kept_mk, kept_fold, kept_ite, kept_ite1, kept_ite2, kept_ite22, kept_foldl, kept_foldl2, kept_foldl1, kept_chipReset, kept_endAfterReply, kept_promptAfter, kept_pump, kept_setF, kept_uartSend, h, implies_true, and_self]

end Sys2Proof.Machine
end

