-- ==== Sys2Proof/Laws/KeptConsoleRun.lean ====
section
/-! SUPPORT. Every function of Machine/ConsoleRun.lean that changes the state keeps `Kept`. -/

set_option linter.unusedSimpArgs false
set_option Elab.async false

namespace Sys2Proof.Machine

theorem kept_marchKeys {q k s} (h : Kept q s) : Kept q (marchKeys k s) := by
  unfold marchKeys
  (try dsimp only)
  (repeat' split) <;> simp (maxDischargeDepth := 60) +contextual only [kept_mk, kept_fold, kept_ite, kept_ite1, kept_ite2, kept_ite22, kept_foldl, kept_foldl2, kept_foldl1, kept_setF, h, implies_true, and_self]

theorem kept_okay {q s} (h : Kept q s) : Kept q (okay s).st := by
  simp (maxDischargeDepth := 60) +contextual only [okay, h]

theorem kept_replies {q l s} (h : Kept q s) : Kept q (replies l s).st := by
  simp (maxDischargeDepth := 60) +contextual only [replies, h]

theorem kept_fails {q e s} (h : Kept q s) : Kept q (fails e s).st := by
  simp (maxDischargeDepth := 60) +contextual only [fails, h]

theorem kept_defers {q what run s} (h : Kept q s) (hfrun : ∀ t, Kept q t → Kept q (run t)) : Kept q (defers what run s).st := by
  unfold defers
  (try dsimp only)
  (repeat' split) <;> simp (maxDischargeDepth := 60) +contextual only [kept_mk, kept_fold, kept_ite, kept_ite1, kept_ite2, kept_ite22, kept_foldl, kept_foldl2, kept_foldl1, kept_fails, h, hfrun, implies_true, and_self]

theorem kept_defersDone {q run s} (h : Kept q s) (hfrun : ∀ t, Kept q t → Kept q (run t).2) :
    Kept q (defersDone run s).st :=
  kept_defers h (fun t ht => kept_completeTokens (hfrun t ht))

theorem kept_okOrDefers {q what inForce run s} (h : Kept q s) (hfrun : ∀ t, Kept q t → Kept q (run t)) : Kept q (okOrDefers what inForce run s).st := by
  unfold okOrDefers
  (try dsimp only)
  (repeat' split) <;> simp (maxDischargeDepth := 60) +contextual only [kept_mk, kept_fold, kept_ite, kept_ite1, kept_ite2, kept_ite22, kept_foldl, kept_foldl2, kept_foldl1, kept_defers, kept_okay, h, hfrun, implies_true, and_self]

theorem kept_policyEffect {q a was s} (h : Kept q s) : Kept q (policyEffect a was s) := by
  simp (maxDischargeDepth := 60) +contextual only [policyEffect, kept_ite, kept_ite1, kept_ite2, kept_linkEnable, kept_switchEffect, h]

theorem kept_setPolicy {q p v s} (h : Kept q s) : Kept q (setPolicy p v s) := by
  simp (maxDischargeDepth := 60) +contextual only [setPolicy, kept_ite, kept_ite1, kept_ite2, kept_policyEffect, kept_retainWrite, kept_setF, h]

theorem kept_changes {q a run s} (h : Kept q s) (hrun : ∀ a, Kept q a → Kept q (run a)) : Kept q (changes a run s).st := by
  unfold changes
  (try dsimp only)
  (repeat' split) <;> simp (maxDischargeDepth := 60) +contextual only [kept_ite, kept_ite1, kept_ite2, kept_defers, kept_okay, kept_ite22, h, hrun, implies_true, and_self]

theorem kept_runSet {q name text s} (h : Kept q s) : Kept q (runSet name text s).st := by
  unfold runSet
  (try dsimp only)
  (repeat' split) <;> simp (maxDischargeDepth := 60) +contextual only [kept_mk, kept_fold, kept_changes, kept_fails, kept_setPolicy, kept_ite, kept_ite1, kept_ite2, kept_ite22, h, implies_true, and_self]

theorem kept_runCommit {q s} (h : Kept q s) : Kept q (runCommit s).st := by
  unfold runCommit
  (try dsimp only)
  (repeat' split) <;> simp (maxDischargeDepth := 60) +contextual only [kept_mk, kept_fold, kept_ite, kept_ite1, kept_ite2, kept_ite22, kept_foldl, kept_foldl2, kept_foldl1, kept_commitNow, kept_okOrDefers, h, implies_true, and_self]

theorem kept_trainOne {q r t flips s} (h : Kept q s) : Kept q (trainOne r t flips s).2 := by
  simp (maxDischargeDepth := 60) +contextual only [trainOne, kept_ite2, kept_calStoreRun, kept_issue, kept_markRefresh, kept_setBitF, kept_trainCa, kept_trainLanes, h]

theorem kept_runCalStore {q flips s} (h : Kept q s) : Kept q (runCalStore flips s).st := by
  unfold runCalStore
  (try dsimp only)
  (repeat' split) <;> simp (maxDischargeDepth := 60) +contextual only [kept_mk, kept_fold, kept_ite, kept_ite1, kept_ite2, kept_ite22, kept_foldl, kept_foldl2, kept_foldl1, kept_calStoreEnd, kept_calStoreStart, kept_defers, kept_fails, kept_okay, h, implies_true, and_self]

theorem kept_runSwitch {q f v s} (h : Kept q s) : Kept q (runSwitch f v s).st := by
  simp (maxDischargeDepth := 60) +contextual only [runSwitch, kept_changes, kept_setB, kept_switchEffect, h, implies_true]

theorem kept_eraseAsk {q r d s} (h : Kept q s) : Kept q (eraseAsk r d s) := by
  simp (maxDischargeDepth := 60) +contextual only [eraseAsk, kept_ite, kept_eraseLane, kept_erasureEffect, kept_secondEffect, h]

theorem kept_runErase {q r d s} (h : Kept q s) : Kept q (runErase r d s).st := by
  simp (maxDischargeDepth := 60) +contextual only [runErase, kept_eraseAsk, kept_okOrDefers, h, implies_true]

theorem kept_readmitAsk {q r s} (h : Kept q s) : Kept q (readmitAsk r s) := by
  simp (maxDischargeDepth := 60) +contextual only [readmitAsk, kept_mk, kept_fold, kept_ite, kept_readmitEffect, h]

theorem kept_setWindow {q l w s} (h : Kept q s) : Kept q (setWindow l w s) := by
  simp (maxDischargeDepth := 60) +contextual only [setWindow, kept_setF, h]

theorem kept_runWordRead {q l w held s} (h : Kept q s) : Kept q (runWordRead l w held s).st := by
  simp (maxDischargeDepth := 60) +contextual only [runWordRead, kept_replies, kept_setWindow, kept_windowRead, h]

theorem kept_lineRead {q l held ws s} (h : Kept q s) : Kept q (lineRead l held ws s).2 := by
  induction ws generalizing held s with
  | nil => exact h
  | cons w ws ih => exact ih (kept_windowRead (kept_setWindow h))

theorem kept_runLineRead {q l held s} (h : Kept q s) : Kept q (runLineRead l held s).st := by
  simp (maxDischargeDepth := 60) +contextual only [runLineRead, kept_lineRead, kept_replies, h]

theorem kept_runWordWrite {q l w hi lo held collide s} (h : Kept q s) : Kept q (runWordWrite l w hi lo held collide s).st := by
  simp (maxDischargeDepth := 60) +contextual only [runWordWrite, kept_replies, kept_setF, kept_setWindow, kept_windowWrite, h]

theorem kept_cfgStoreBegin {q gen s} (h : Kept q s) : Kept q (cfgStoreBegin gen s) := by
  simp (maxDischargeDepth := 60) +contextual only [cfgStoreBegin, kept_mk, kept_fold, h]

theorem kept_cfgStoreEnd {q flips s} (h : Kept q s) : Kept q (cfgStoreEnd flips s) := by
  unfold cfgStoreEnd
  (try dsimp only)
  (repeat' split) <;> simp (maxDischargeDepth := 60) +contextual only [kept_mk, kept_fold, kept_ite, kept_ite1, kept_ite2, kept_ite22, kept_foldl, kept_foldl2, kept_foldl1, kept_cfgStoreRun, kept_completeTokens, kept_generationCheck, kept_replUpdate, h, implies_true, and_self]

theorem kept_loadPolicy {q s e} (h : Kept q s) : Kept q (loadPolicy s e) := by
  simp (maxDischargeDepth := 60) +contextual only [loadPolicy, kept_ite, kept_ite1, kept_ite2, kept_fcQueue, kept_ledgerConfig, kept_policyEffect, kept_setReg, h]

theorem kept_loadStaged {q s e} (h : Kept q s) : Kept q (loadStaged s e) := by
  unfold loadStaged
  (try dsimp only)
  (repeat' split) <;> simp (maxDischargeDepth := 60) +contextual only [kept_mk, kept_fold, kept_ite, kept_ite1, kept_ite2, kept_ite22, kept_foldl, kept_foldl2, kept_foldl1, kept_stage, h, implies_true, and_self]

theorem kept_hctFromRecord {q payload s} (h : Kept q s) : Kept q (hctFromRecord payload s) := by
  have h1 : Kept q { s with lg := { s.lg with unloadDue := true, pend := .none } } := h
  unfold hctFromRecord
  dsimp only
  split
  · exact kept_setF h1
  · exact kept_hctStart (kept_hct h1 (smWf_foldl (fun _ _ ha => smWf_smSet ha) smWf_nil))

theorem kept_runCfgLoad {q hct s} (h : Kept q s) : Kept q (runCfgLoad hct s).st := by
  unfold runCfgLoad
  (try dsimp only)
  (repeat' split) <;> simp (maxDischargeDepth := 60) +contextual only [kept_mk, kept_fold, kept_ite, kept_ite1, kept_ite2, kept_ite22, kept_foldl, kept_foldl2, kept_foldl1, kept_defers, kept_defersDone, kept_hctFromRecord, kept_loadPolicy, kept_loadStaged, kept_readCfg, h, implies_true, and_self]

theorem kept_fcPut {q a v m bank s} (h : Kept q s) : Kept q (fcPut a v m bank s) := by
  simp (maxDischargeDepth := 60) +contextual only [fcPut, kept_fcQueue, h]

theorem kept_runClear {q w s} (h : Kept q s) : Kept q (runClear w s).st := by
  unfold runClear
  (try dsimp only)
  (repeat' split) <;> simp (maxDischargeDepth := 60) +contextual only [kept_mk, kept_fold, kept_ite, kept_ite1, kept_ite2, kept_ite22, kept_foldl, kept_foldl2, kept_foldl1, kept_fcPut, kept_okay, kept_replies, h, implies_true, and_self]

theorem kept_runForce {q n x1 l s} (h : Kept q s) : Kept q (runForce n x1 l s).st := by
  simp (maxDischargeDepth := 60) +contextual only [runForce, kept_fcPut, kept_okay, h]

theorem kept_runConfig {q n f s} (h : Kept q s) : Kept q (runConfig n f s).st := by
  unfold runConfig
  (try dsimp only)
  (repeat' split) <;> simp (maxDischargeDepth := 60) +contextual only [kept_mk, kept_fold, kept_ite, kept_ite1, kept_ite2, kept_ite22, kept_foldl, kept_foldl2, kept_foldl1, kept_fcPut, kept_okay, h, implies_true, and_self]

theorem kept_runProve {q v proof s} (h : Kept q s) : Kept q (runProve v proof s).st := by
  unfold runProve
  (try dsimp only)
  (repeat' split) <;> simp (maxDischargeDepth := 60) +contextual only [kept_mk, kept_fold, kept_ite, kept_ite1, kept_ite2, kept_ite22, kept_foldl, kept_foldl2, kept_foldl1, kept_authJudge, kept_fails, kept_replies, h, implies_true, and_self]

theorem kept_runInstall {q key flips s} (h : Kept q s) : Kept q (runInstall key flips s).st := by
  unfold runInstall
  (try dsimp only)
  (repeat' split) <;> simp (maxDischargeDepth := 60) +contextual only [kept_mk, kept_fold, kept_ite, kept_ite1, kept_ite2, kept_ite22, kept_foldl, kept_foldl2, kept_foldl1, kept_fails, kept_installKey, kept_okay, h, implies_true, and_self]

theorem kept_runLifecycle {q target stuck s} (h : Kept q s) : Kept q (runLifecycle target stuck s).st := by
  unfold runLifecycle
  (try dsimp only)
  (repeat' split) <;> simp (maxDischargeDepth := 60) +contextual only [kept_mk, kept_fold, kept_ite, kept_ite1, kept_ite2, kept_ite22, kept_foldl, kept_foldl2, kept_foldl1, kept_fails, kept_lcTransition, kept_okay, h, implies_true, and_self]

theorem kept_runRepair {q b k c stuck s} (h : Kept q s) : Kept q (runRepair b k c stuck s).st := by
  unfold runRepair
  (try dsimp only)
  (repeat' split) <;> simp (maxDischargeDepth := 60) +contextual only [kept_mk, kept_fold, kept_ite, kept_ite1, kept_ite2, kept_ite22, kept_foldl, kept_foldl2, kept_foldl1, kept_burnEnd, kept_burnStart, kept_fails, kept_okay, h, implies_true, and_self]

theorem kept_effectCmd {q v c env s} (h : Kept q s) : Kept q (effectCmd v c env s).st := by
  unfold effectCmd
  (try dsimp only)
  (repeat' split) <;> simp (maxDischargeDepth := 60) +contextual only [kept_mk, kept_fold, kept_ite, kept_ite1, kept_ite2, kept_askUnblock, kept_authDraw, kept_cfgStoreBegin, kept_changes, kept_checkpointStart, kept_defers, kept_defersDone, kept_discardStaged, kept_fails, kept_fcPut, kept_fullRequest, kept_marchEnd, kept_marchKeys, kept_marchStart, kept_okOrDefers, kept_okay, kept_readReg, kept_readmitAsk, kept_refreshStart, kept_replies, kept_resumeResync, kept_retrain, kept_runCalStore, kept_runCfgLoad, kept_runClear, kept_runCommit, kept_runConfig, kept_runErase, kept_runForce, kept_runInstall, kept_runLifecycle, kept_runLineRead, kept_runProve, kept_runRepair, kept_runSet, kept_runSwitch, kept_runWordRead, kept_runWordWrite, kept_saveTrigger, kept_serviceBegin, kept_serviceRun, kept_trainOne, kept_writeEffect, kept_ite22, h, implies_true, and_self]

theorem kept_refusedCmd {q e c env s} (h : Kept q s) : Kept q (refusedCmd e c env s) := by
  unfold refusedCmd
  (try dsimp only)
  (repeat' split) <;> simp (maxDischargeDepth := 60) +contextual only [kept_mk, kept_fold, kept_ite, kept_ite1, kept_ite2, kept_refusedWrite, kept_trace, kept_windowRefused, kept_ite22, h, implies_true, and_self]

theorem kept_runCmd {q v c env s} (h : Kept q s) : Kept q (runCmd v c env s).st := by
  unfold runCmd
  (try dsimp only)
  (repeat' split) <;> simp (maxDischargeDepth := 60) +contextual only [kept_mk, kept_fold, kept_effectCmd, kept_fails, kept_refusedCmd, kept_ite, kept_ite1, kept_ite2, kept_ite22, h, implies_true, and_self]

theorem kept_reply {q n text r} (h : Kept q r.st) : Kept q (reply n text r) := by
  unfold reply
  dsimp only
  split
  · exact h
  · split
    · exact kept_answer h
    · exact kept_answer h

theorem kept_conLine {q v c env s} (h : Kept q s) : Kept q (conLine v c env s) := by
  simp (maxDischargeDepth := 60) +contextual only [conLine, kept_ite, kept_ite1, kept_ite2, kept_hear, kept_refuseInput, kept_reply, kept_runCmd, kept_takeLease, h]

end Sys2Proof.Machine
end

