-- ==== Sys2Proof/Laws/KeptConsoleParse.lean ====
section
/-! SUPPORT. Every function of Machine/ConsoleParse.lean that changes the state keeps `Kept`. -/

set_option linter.unusedSimpArgs false
set_option Elab.async false

namespace Sys2Proof.Machine

theorem kept_runText {q v t env s} (h : Kept q s) : Kept q (runText v t env s).st := by
  unfold runText
  (try dsimp only)
  (repeat' split) <;> simp (maxDischargeDepth := 60) +contextual only [kept_mk, kept_fold, kept_ite, kept_ite1, kept_ite2, kept_ite22, kept_foldl, kept_foldl2, kept_foldl1, kept_fails, kept_runCmd, h, implies_true, and_self]

theorem kept_scriptBad {q detail s} (h : Kept q s) : Kept q (scriptBad detail s) := by
  simp (maxDischargeDepth := 60) +contextual only [scriptBad, kept_answer, h]

theorem kept_scriptLine {q v t env s} (h : Kept q s) : Kept q (scriptLine v t env s) := by
  unfold scriptLine
  (try dsimp only)
  (repeat' split) <;> simp (maxDischargeDepth := 60) +contextual only [kept_mk, kept_fold, kept_ite, kept_ite1, kept_ite2, kept_ite22, kept_foldl, kept_foldl2, kept_foldl1, kept_answer, kept_incF, kept_reply, kept_runText, kept_scriptBad, h, implies_true, and_self]

theorem kept_humanLine {q v t env s} (h : Kept q s) : Kept q (humanLine v t env s) := by
  simp (maxDischargeDepth := 60) +contextual only [humanLine, kept_ite, kept_promptAfter, kept_pump, kept_reply, kept_runText, h]

theorem kept_clearLine {q s} (h : Kept q s) : Kept q (clearLine s) := by
  simp (maxDischargeDepth := 60) +contextual only [clearLine, kept_mk, kept_fold, h]

theorem kept_lineEnd {q v env s} (h : Kept q s) : Kept q (lineEnd v env s) := by
  simp (maxDischargeDepth := 60) +contextual only [lineEnd, kept_ite, kept_answer, kept_clearLine, kept_humanLine, kept_incF, kept_scriptBad, kept_scriptLine, kept_uartSend, h]

theorem kept_echo {q b s} (h : Kept q s) : Kept q (echo b s) := by
  simp (maxDischargeDepth := 60) +contextual only [echo, kept_ite, kept_uartSend, h]

theorem kept_lineByteIn {q b s} (h : Kept q s) : Kept q (lineByteIn b s) := by
  simp (maxDischargeDepth := 60) +contextual only [lineByteIn, kept_mk, kept_fold, kept_ite, kept_echo, h]

theorem kept_lineLost {q s} (h : Kept q s) : Kept q (lineLost s) := by
  simp (maxDischargeDepth := 60) +contextual only [lineLost, kept_mk, kept_fold, h]

end Sys2Proof.Machine
end

