-- ==== Sys2Proof/Laws/KeptConsoleRows.lean ====
section
/-! SUPPORT. Every function of Machine/ConsoleRows.lean that changes the state keeps `Kept`. -/

set_option linter.unusedSimpArgs false
set_option Elab.async false

namespace Sys2Proof.Machine

theorem kept_rxByte {q s} (h : Kept q s) : Kept q (rxByte s) := by
  simp (maxDischargeDepth := 60) +contextual only [rxByte, kept_mk, kept_fold, h]

theorem keptOut_execUartFrame {q byte full s} (h : Kept q s) : KeptOut q (execUartFrame byte full s) := by
  simp (maxDischargeDepth := 60) +contextual only [execUartFrame, keptOut_next, kept_ite, kept_lineByteIn, kept_lineLost, kept_refuseInput, kept_rxByte, h]

theorem keptOut_execUartLine {q env s} (h : Kept q s) : KeptOut q (execUartLine env s) := by
  simp (maxDischargeDepth := 60) +contextual only [execUartLine, keptOut_next, kept_ite, kept_lineEnd, kept_refuseInput, kept_rxByte, kept_takeLease, h]

theorem keptOut_execUartAutobaud {q baud s} (h : Kept q s) : KeptOut q (execUartAutobaud baud s) := by
  simp (maxDischargeDepth := 60) +contextual only [execUartAutobaud, keptOut_next, kept_ite, kept_setF, h]

theorem keptOut_execConRxWake {q s} (h : Kept q s) : KeptOut q (execConRxWake s) := by
  simp (maxDischargeDepth := 60) +contextual only [execConRxWake, keptOut_next, kept_ite, kept_incF, h]

theorem keptOut_execLeaseLapse {q s} (h : Kept q s) : KeptOut q (execLeaseLapse s) := by
  simp (maxDischargeDepth := 60) +contextual only [execLeaseLapse, keptOut_next, kept_ite, kept_ite1, kept_ite2, kept_sessionEnd, h]

theorem kept_inputByte {q env b s} (h : Kept q s) : Kept q (inputByte env b s) := by
  unfold inputByte
  (try dsimp only)
  (repeat' split) <;> simp (maxDischargeDepth := 60) +contextual only [kept_mk, kept_fold, kept_ite, kept_ite1, kept_ite2, kept_ite22, kept_foldl, kept_foldl2, kept_foldl1, kept_lineByteIn, kept_lineEnd, kept_lineLost, h, implies_true, and_self]

theorem kept_drainInput {q env l s} (h : Kept q s) : Kept q (drainInput env l s) := by
  induction l generalizing s with
  | nil => exact h
  | cons b l ih =>
    unfold drainInput
    split
    · exact h
    · split
      · exact h
      · exact ih (kept_inputByte h)

theorem kept_goOn {q env s} (h : Kept q s) : Kept q (goOn env s) := by
  simp (maxDischargeDepth := 60) +contextual only [goOn, kept_mk, kept_fold, kept_ite, kept_drainInput, kept_sessionEnd, h]

theorem kept_bufferInput {q bytes s} (h : Kept q s) : Kept q (bufferInput bytes s) := by
  simp (maxDischargeDepth := 60) +contextual only [bufferInput, kept_mk, kept_fold, h]

theorem kept_busAnswer {q a s} (h : Kept q s) : Kept q (busAnswer a s) := by
  simp (maxDischargeDepth := 60) +contextual only [busAnswer, kept_mk, kept_fold, h]

theorem keptOut_execI3cPrivateWrite {q bytes env s} (h : Kept q s) : KeptOut q (execI3cPrivateWrite bytes env s) := by
  simp (maxDischargeDepth := 60) +contextual only [execI3cPrivateWrite, keptOut_next, kept_ite, kept_ite1, kept_ite2, kept_bufferInput, kept_busAnswer, kept_goOn, kept_hear, kept_refuseInput, kept_takeLease, h]

theorem keptOut_execI3cPrivateRead {q len env s} (h : Kept q s) : KeptOut q (execI3cPrivateRead len env s) := by
  simp (maxDischargeDepth := 60) +contextual only [execI3cPrivateRead, keptOut_next, kept_mk, kept_fold, kept_ite, kept_busAnswer, kept_goOn, kept_pump, h]

theorem keptOut_execIbiRetry {q nacked s} (h : Kept q s) : KeptOut q (execIbiRetry nacked s) := by
  have hl := h.ibisLen
  unfold execIbiRetry
  rw [keptOut_next]
  split
  · exact h
  · rename_i i t e
    rw [e] at hl
    have ht : t.length ≤ 8 := Nat.le_of_succ_le hl
    exact kept_ite h (kept_ite (kept_ibis h ht) (kept_ite (kept_ibis h hl) (kept_incF (kept_ibis h ht))))

theorem kept_ccc {q f s} (h : Kept q s) (hff : ∀ t, Kept q t → Kept q (f t)) : Kept q (ccc f s) := by
  simp (maxDischargeDepth := 60) +contextual only [ccc, kept_ite, h, hff]

theorem kept_cccDo {q f s} (h : Kept q s) (hff : ∀ t, Kept q t → Kept q (f t)) : Kept q (cccDo f s) := by
  simp (maxDischargeDepth := 60) +contextual only [cccDo, kept_busAnswer, kept_ccc, h, hff, implies_true]

theorem keptOut_execEnec {q s} (h : Kept q s) : KeptOut q (execEnec s) := by
  simp (maxDischargeDepth := 60) +contextual only [execEnec, keptOut_next, kept_cccDo, kept_setF, h, implies_true]

theorem keptOut_execDisec {q s} (h : Kept q s) : KeptOut q (execDisec s) := by
  simp (maxDischargeDepth := 60) +contextual only [execDisec, keptOut_next, kept_cccDo, kept_setF, h, implies_true]

theorem keptOut_execRstdaa {q s} (h : Kept q s) : KeptOut q (execRstdaa s) := by
  simp (maxDischargeDepth := 60) +contextual only [execRstdaa, keptOut_next, kept_cccDo, kept_setF, h, implies_true]

theorem kept_assign {q ok addr s} (h : Kept q s) : Kept q (assign ok addr s) := by
  simp (maxDischargeDepth := 60) +contextual only [assign, kept_ite, kept_busAnswer, kept_setF, h]

theorem keptOut_execEntdaa {q addr s} (h : Kept q s) : KeptOut q (execEntdaa addr s) := by
  simp (maxDischargeDepth := 60) +contextual only [execEntdaa, keptOut_next, kept_assign, kept_ccc, h, implies_true]

theorem keptOut_execSetdasa {q static addr s} (h : Kept q s) : KeptOut q (execSetdasa static addr s) := by
  simp (maxDischargeDepth := 60) +contextual only [execSetdasa, keptOut_next, kept_ite, kept_ite1, kept_ite2, kept_assign, kept_ccc, h, implies_true]

theorem keptOut_execSetnewda {q addr s} (h : Kept q s) : KeptOut q (execSetnewda addr s) := by
  simp (maxDischargeDepth := 60) +contextual only [execSetnewda, keptOut_next, kept_assign, kept_ccc, h, implies_true]

theorem keptOut_execSetmrl {q len s} (h : Kept q s) : KeptOut q (execSetmrl len s) := by
  simp (maxDischargeDepth := 60) +contextual only [execSetmrl, keptOut_next, kept_ite, kept_busAnswer, kept_ccc, kept_setF, h, implies_true]

theorem keptOut_execSetmwl {q len s} (h : Kept q s) : KeptOut q (execSetmwl len s) := by
  simp (maxDischargeDepth := 60) +contextual only [execSetmwl, keptOut_next, kept_mk, kept_fold, kept_ite, kept_busAnswer, kept_ccc, h, implies_true]

theorem keptOut_execGetpid {q s} (h : Kept q s) : KeptOut q (execGetpid s) := by
  simp (maxDischargeDepth := 60) +contextual only [execGetpid, keptOut_next, kept_busAnswer, kept_ccc, h, implies_true]

theorem keptOut_execGetbcr {q s} (h : Kept q s) : KeptOut q (execGetbcr s) := by
  simp (maxDischargeDepth := 60) +contextual only [execGetbcr, keptOut_next, kept_busAnswer, kept_ccc, h, implies_true]

theorem keptOut_execGetdcr {q s} (h : Kept q s) : KeptOut q (execGetdcr s) := by
  simp (maxDischargeDepth := 60) +contextual only [execGetdcr, keptOut_next, kept_busAnswer, kept_ccc, h, implies_true]

theorem keptOut_execGetmrl {q s} (h : Kept q s) : KeptOut q (execGetmrl s) := by
  simp (maxDischargeDepth := 60) +contextual only [execGetmrl, keptOut_next, kept_busAnswer, kept_ccc, h, implies_true]

theorem keptOut_execGetmwl {q s} (h : Kept q s) : KeptOut q (execGetmwl s) := by
  simp (maxDischargeDepth := 60) +contextual only [execGetmwl, keptOut_next, kept_busAnswer, kept_ccc, h, implies_true]

theorem keptOut_execGetstatus {q s} (h : Kept q s) : KeptOut q (execGetstatus s) := by
  simp (maxDischargeDepth := 60) +contextual only [execGetstatus, keptOut_next, kept_busAnswer, kept_ccc, kept_drew, h, implies_true]

theorem keptOut_execOtherCcc {q s} (h : Kept q s) : KeptOut q (execOtherCcc s) := by
  simp (maxDischargeDepth := 60) +contextual only [execOtherCcc, keptOut_next, kept_busAnswer, kept_ccc, h, implies_true]

theorem keptOut_execConHelp {q via verb s} (h : Kept q s) : KeptOut q (execConHelp via verb s) := by
  simp (maxDischargeDepth := 60) +contextual only [execConHelp, keptOut_next, kept_conLine, h]

theorem keptOut_execConShow {q via object arg s} (h : Kept q s) : KeptOut q (execConShow via object arg s) := by
  simp (maxDischargeDepth := 60) +contextual only [execConShow, keptOut_next, kept_conLine, h]

theorem keptOut_execConGet {q via policy s} (h : Kept q s) : KeptOut q (execConGet via policy s) := by
  simp (maxDischargeDepth := 60) +contextual only [execConGet, keptOut_next, kept_conLine, h]

theorem keptOut_execConSet {q via policy value s} (h : Kept q s) : KeptOut q (execConSet via policy value s) := by
  simp (maxDischargeDepth := 60) +contextual only [execConSet, keptOut_next, kept_conLine, h]

theorem keptOut_execConRd {q via addr s} (h : Kept q s) : KeptOut q (execConRd via addr s) := by
  simp (maxDischargeDepth := 60) +contextual only [execConRd, keptOut_next, kept_conLine, h]

theorem keptOut_execConWr {q via addr value env s} (h : Kept q s) : KeptOut q (execConWr via addr value env s) := by
  simp (maxDischargeDepth := 60) +contextual only [execConWr, keptOut_next, kept_conLine, h]

theorem keptOut_execConCommit {q via s} (h : Kept q s) : KeptOut q (execConCommit via s) := by
  simp (maxDischargeDepth := 60) +contextual only [execConCommit, keptOut_next, kept_conLine, h]

theorem keptOut_execConCommitDiscard {q via s} (h : Kept q s) : KeptOut q (execConCommitDiscard via s) := by
  simp (maxDischargeDepth := 60) +contextual only [execConCommitDiscard, keptOut_next, kept_conLine, h]

theorem keptOut_execSaveNowCmd {q via s} (h : Kept q s) : KeptOut q (execSaveNowCmd via s) := by
  simp (maxDischargeDepth := 60) +contextual only [execSaveNowCmd, keptOut_next, kept_conLine, h]

theorem keptOut_execTrainDram {q via rank train flips s} (h : Kept q s) : KeptOut q (execTrainDram via rank train flips s) := by
  simp (maxDischargeDepth := 60) +contextual only [execTrainDram, keptOut_next, kept_conLine, h]

theorem keptOut_execCalStore {q via flips s} (h : Kept q s) : KeptOut q (execCalStore via flips s) := by
  simp (maxDischargeDepth := 60) +contextual only [execCalStore, keptOut_next, kept_conLine, h]

theorem keptOut_execCalHold {q via dram lane on s} (h : Kept q s) : KeptOut q (execCalHold via dram lane on s) := by
  simp (maxDischargeDepth := 60) +contextual only [execCalHold, keptOut_next, kept_conLine, h]

theorem keptOut_execCalEnable {q via engine on s} (h : Kept q s) : KeptOut q (execCalEnable via engine on s) := by
  simp (maxDischargeDepth := 60) +contextual only [execCalEnable, keptOut_next, kept_conLine, h]

theorem keptOut_execLaneErase {q via rank lane confirm s} (h : Kept q s) : KeptOut q (execLaneErase via rank lane confirm s) := by
  simp (maxDischargeDepth := 60) +contextual only [execLaneErase, keptOut_next, kept_conLine, h]

theorem keptOut_execLaneReadmit {q via rank lane rewritten s} (h : Kept q s) : KeptOut q (execLaneReadmit via rank lane rewritten s) := by
  simp (maxDischargeDepth := 60) +contextual only [execLaneReadmit, keptOut_next, kept_conLine, h]

theorem keptOut_execLedgerRd {q via line word held s} (h : Kept q s) : KeptOut q (execLedgerRd via line word held s) := by
  simp (maxDischargeDepth := 60) +contextual only [execLedgerRd, keptOut_next, kept_conLine, h]

theorem keptOut_execLedgerWr {q via line word hi lo held collide s} (h : Kept q s) : KeptOut q (execLedgerWr via line word hi lo held collide s) := by
  simp (maxDischargeDepth := 60) +contextual only [execLedgerWr, keptOut_next, kept_conLine, h]

theorem keptOut_execKeepCheckpointCmd {q via flips s} (h : Kept q s) : KeptOut q (execKeepCheckpointCmd via flips s) := by
  simp (maxDischargeDepth := 60) +contextual only [execKeepCheckpointCmd, keptOut_next, kept_conLine, h]

theorem keptOut_execKeepRefreshCmd {q via flips s} (h : Kept q s) : KeptOut q (execKeepRefreshCmd via flips s) := by
  simp (maxDischargeDepth := 60) +contextual only [execKeepRefreshCmd, keptOut_next, kept_conLine, h]

theorem keptOut_execKeepConfigStore {q via gen s} (h : Kept q s) : KeptOut q (execKeepConfigStore via gen s) := by
  simp (maxDischargeDepth := 60) +contextual only [execKeepConfigStore, keptOut_next, kept_conLine, h]

theorem keptOut_execKeepConfigStoreDone {q flips s} (h : Kept q s) : KeptOut q (execKeepConfigStoreDone flips s) := by
  simp (maxDischargeDepth := 60) +contextual only [execKeepConfigStoreDone, keptOut_next, kept_ite, kept_cfgStoreEnd, h]

theorem keptOut_execKeepConfigLoad {q via hct s} (h : Kept q s) : KeptOut q (execKeepConfigLoad via hct s) := by
  simp (maxDischargeDepth := 60) +contextual only [execKeepConfigLoad, keptOut_next, kept_conLine, h]

theorem keptOut_execFaultAck {q via s} (h : Kept q s) : KeptOut q (execFaultAck via s) := by
  simp (maxDischargeDepth := 60) +contextual only [execFaultAck, keptOut_next, kept_conLine, h]

theorem keptOut_execFaultClear {q via what s} (h : Kept q s) : KeptOut q (execFaultClear via what s) := by
  simp (maxDischargeDepth := 60) +contextual only [execFaultClear, keptOut_next, kept_conLine, h]

theorem keptOut_execFaultForce {q via fs synh synl s} (h : Kept q s) : KeptOut q (execFaultForce via fs synh synl s) := by
  simp (maxDischargeDepth := 60) +contextual only [execFaultForce, keptOut_next, kept_conLine, h]

theorem keptOut_execFaultInject {q via what s} (h : Kept q s) : KeptOut q (execFaultInject via what s) := by
  simp (maxDischargeDepth := 60) +contextual only [execFaultInject, keptOut_next, kept_conLine, h]

theorem keptOut_execFaultConfig {q via fs fields s} (h : Kept q s) : KeptOut q (execFaultConfig via fs fields s) := by
  simp (maxDischargeDepth := 60) +contextual only [execFaultConfig, keptOut_next, kept_conLine, h]

theorem keptOut_execTwinResume {q via s} (h : Kept q s) : KeptOut q (execTwinResume via s) := by
  simp (maxDischargeDepth := 60) +contextual only [execTwinResume, keptOut_next, kept_conLine, h]

theorem keptOut_execTwinResync {q via s} (h : Kept q s) : KeptOut q (execTwinResync via s) := by
  simp (maxDischargeDepth := 60) +contextual only [execTwinResync, keptOut_next, kept_conLine, h]

theorem keptOut_execTwinRetrain {q via s} (h : Kept q s) : KeptOut q (execTwinRetrain via s) := by
  simp (maxDischargeDepth := 60) +contextual only [execTwinRetrain, keptOut_next, kept_conLine, h]

theorem keptOut_execTraceShow {q via aon last s} (h : Kept q s) : KeptOut q (execTraceShow via aon last s) := by
  simp (maxDischargeDepth := 60) +contextual only [execTraceShow, keptOut_next, kept_conLine, h]

theorem keptOut_execAuthBegin {q via s} (h : Kept q s) : KeptOut q (execAuthBegin via s) := by
  simp (maxDischargeDepth := 60) +contextual only [execAuthBegin, keptOut_next, kept_conLine, h]

theorem keptOut_execAuthProve {q via proof s} (h : Kept q s) : KeptOut q (execAuthProve via proof s) := by
  simp (maxDischargeDepth := 60) +contextual only [execAuthProve, keptOut_next, kept_conLine, h]

theorem keptOut_execAuthEnd {q via s} (h : Kept q s) : KeptOut q (execAuthEnd via s) := by
  simp (maxDischargeDepth := 60) +contextual only [execAuthEnd, keptOut_next, kept_conLine, h]

theorem keptOut_execAuthInstall {q via key flips s} (h : Kept q s) : KeptOut q (execAuthInstall via key flips s) := by
  simp (maxDischargeDepth := 60) +contextual only [execAuthInstall, keptOut_next, kept_conLine, h]

theorem keptOut_execLifecycleAdvance {q via target confirm stuck s} (h : Kept q s) : KeptOut q (execLifecycleAdvance via target confirm stuck s) := by
  simp (maxDischargeDepth := 60) +contextual only [execLifecycleAdvance, keptOut_next, kept_conLine, h]

theorem keptOut_execTestMarch {q via keys s} (h : Kept q s) : KeptOut q (execTestMarch via keys s) := by
  simp (maxDischargeDepth := 60) +contextual only [execTestMarch, keptOut_next, kept_conLine, h]

theorem keptOut_execTestAbort {q via findings s} (h : Kept q s) : KeptOut q (execTestAbort via findings s) := by
  simp (maxDischargeDepth := 60) +contextual only [execTestAbort, keptOut_next, kept_conLine, h]

theorem keptOut_execTestRepair {q via bank spare col stuck s} (h : Kept q s) : KeptOut q (execTestRepair via bank spare col stuck s) := by
  simp (maxDischargeDepth := 60) +contextual only [execTestRepair, keptOut_next, kept_conLine, h]

theorem keptOut_execResetChip {q via confirm s} (h : Kept q s) : KeptOut q (execResetChip via confirm s) := by
  simp (maxDischargeDepth := 60) +contextual only [execResetChip, keptOut_next, kept_conLine, h]

theorem keptOut_execModeScript {q via s} (h : Kept q s) : KeptOut q (execModeScript via s) := by
  simp (maxDischargeDepth := 60) +contextual only [execModeScript, keptOut_next, kept_conLine, h]

theorem keptOut_execModeHuman {q via s} (h : Kept q s) : KeptOut q (execModeHuman via s) := by
  simp (maxDischargeDepth := 60) +contextual only [execModeHuman, keptOut_next, kept_conLine, h]

theorem keptOut_execModeService {q via s} (h : Kept q s) : KeptOut q (execModeService via s) := by
  simp (maxDischargeDepth := 60) +contextual only [execModeService, keptOut_next, kept_conLine, h]

theorem keptOut_execModeRun {q via b checks s} (h : Kept q s) : KeptOut q (execModeRun via b checks s) := by
  simp (maxDischargeDepth := 60) +contextual only [execModeRun, keptOut_next, kept_conLine, h]

theorem keptOut_execCaUnblock {q via s} (h : Kept q s) : KeptOut q (execCaUnblock via s) := by
  simp (maxDischargeDepth := 60) +contextual only [execCaUnblock, keptOut_next, kept_conLine, h]

end Sys2Proof.Machine
end

