-- ==== Sys2Proof/Laws/KeptTap.lean ====
section
/-! SUPPORT. Every function of Machine/Tap.lean that changes the state keeps `Kept`. -/

set_option linter.unusedSimpArgs false
set_option Elab.async false

namespace Sys2Proof.Machine

theorem kept_loadIr {q ir s} (h : Kept q s) : Kept q (loadIr ir s) := by
  simp (maxDischargeDepth := 60) +contextual only [loadIr, kept_mk, kept_fold, h]

theorem keptOut_execTapIdcode {q s} (h : Kept q s) : KeptOut q (execTapIdcode s) := by
  simp (maxDischargeDepth := 60) +contextual only [execTapIdcode, keptOut_next, kept_ite, kept_loadIr, h]

theorem keptOut_execTapBypass {q opcode s} (h : Kept q s) : KeptOut q (execTapBypass opcode s) := by
  simp (maxDischargeDepth := 60) +contextual only [execTapBypass, keptOut_next, kept_ite, kept_ite1, kept_ite2, kept_loadIr, h]

theorem keptOut_execTapExtest {q cells s} (h : Kept q s) : KeptOut q (execTapExtest cells s) := by
  simp (maxDischargeDepth := 60) +contextual only [execTapExtest, keptOut_next, kept_mk, kept_fold, kept_ite, kept_loadIr, h]

theorem keptOut_execTapSamplePreload {q preload captured s} (h : Kept q s) : KeptOut q (execTapSamplePreload preload captured s) := by
  simp (maxDischargeDepth := 60) +contextual only [execTapSamplePreload, keptOut_next, kept_mk, kept_fold, kept_ite, kept_loadIr, h]

theorem keptOut_execTrstNLow {q s} (h : Kept q s) : KeptOut q (execTrstNLow s) := by
  simp (maxDischargeDepth := 60) +contextual only [execTrstNLow, keptOut_next, kept_ite, kept_loadIr, h]

end Sys2Proof.Machine
end

