-- ==== Sys2Proof/Laws/KeptDispatch.lean ====
section
/-! SUPPORT. Every function of Machine/Dispatch.lean that changes the state keeps `Kept`. -/

set_option linter.unusedSimpArgs false
set_option Elab.async false

namespace Sys2Proof.Machine

theorem keptOut_exec {q i s} (h : Kept q s) : KeptOut q (exec i s) := by
  unfold exec
  (try dsimp only)
  (repeat' split) <;> simp (maxDischargeDepth := 60) +contextual only [keptOut_next, kept_mk, kept_fold, keptOut_execAonWrap, keptOut_execAonrstNFall, keptOut_execAplock, keptOut_execAuthBegin, keptOut_execAuthEnd, keptOut_execAuthInstall, keptOut_execAuthProve, keptOut_execBankPark, keptOut_execBankScanDone, keptOut_execBankWake, keptOut_execBcwAccessError, keptOut_execBcwMrr, keptOut_execBcwPageSelect, keptOut_execBurnDone, keptOut_execBurnGo, keptOut_execCaClrAlert, keptOut_execCaClrRsvhit, keptOut_execCaClrUnblock, keptOut_execCaTrialDone, keptOut_execCaUnblock, keptOut_execCalEnable, keptOut_execCalHold, keptOut_execCalStore, keptOut_execCalStoreAuto, keptOut_execCalStoreDone, keptOut_execCalStoreNow, keptOut_execChiprstWindowExpiry, keptOut_execCmdAct, keptOut_execCmdMpcTraining, keptOut_execCmdMrr, keptOut_execCmdMrw, keptOut_execCmdOtherForwarded, keptOut_execCmdPre, keptOut_execCmdRd, keptOut_execCmdRda, keptOut_execCmdRefab, keptOut_execCmdSre, keptOut_execCmdWr, keptOut_execCmdWra, keptOut_execColdBringup, keptOut_execColdHandBack, keptOut_execCommitLinesDone, keptOut_execConCommit, keptOut_execConCommitDiscard, keptOut_execConGet, keptOut_execConHelp, keptOut_execConRd, keptOut_execConRxWake, keptOut_execConSet, keptOut_execConShow, keptOut_execConWr, keptOut_execDalertEvent, keptOut_execDccStep, keptOut_execDiscEnWrite, keptOut_execDiscrepancyExpiry, keptOut_execDisec, keptOut_execDormantEntry, keptOut_execDrainDone, keptOut_execEnec, keptOut_execEntdaa, keptOut_execEraseDecision, keptOut_execErasureTakesEffect, keptOut_execFaultAck, keptOut_execFaultClear, keptOut_execFaultCollect, keptOut_execFaultConfig, keptOut_execFaultForce, keptOut_execFaultInject, keptOut_execFcAck, keptOut_execFcClrSticky, keptOut_execFcForce, keptOut_execFcInj, keptOut_execFcRecordClear, keptOut_execFcStickyClear, keptOut_execFcWindowClose, keptOut_execFlitBye, keptOut_execFlitIdent, keptOut_execFlitIdle, keptOut_execFlitLagEnd, keptOut_execFlitLine, keptOut_execFlitNak, keptOut_execFlitResyncReq, keptOut_execFlitSave, keptOut_execFlitStatus, keptOut_execFlitTimeReq, keptOut_execFlitTimeRsp, keptOut_execGapTrialAbandon, keptOut_execGapTrialDone, keptOut_execGapTrialStart, keptOut_execGetbcr, keptOut_execGetdcr, keptOut_execGetmrl, keptOut_execGetmwl, keptOut_execGetpid, keptOut_execGetstatus, keptOut_execGlCommitWrite, keptOut_execGlDiscardWrite, keptOut_execGrantEnd, keptOut_execGrantLen, keptOut_execGrantRank, keptOut_execGrantStart, keptOut_execHckCount, keptOut_execHckEdgesMissing, keptOut_execHctInForce, keptOut_execHctLoad, keptOut_execHctUnload, keptOut_execHctVerifyDone, keptOut_execHctWindowRead, keptOut_execHctWindowWrite, keptOut_execHistoryWrite, keptOut_execHostEvalStart, keptOut_execHostTrialDone, keptOut_execHpllLockLost, keptOut_execHrstNHigh, keptOut_execHrstNLow, keptOut_execI3cPrivateRead, keptOut_execI3cPrivateWrite, keptOut_execIbiRetry, keptOut_execIdleBoundary, keptOut_execKeepCheckpoint, keptOut_execKeepCheckpointCmd, keptOut_execKeepCheckpointDone, keptOut_execKeepConfigLoad, keptOut_execKeepConfigStore, keptOut_execKeepConfigStoreDone, keptOut_execKeepRecordRewrite, keptOut_execKeepRefresh, keptOut_execKeepRefreshCmd, keptOut_execKeepRefreshDone, keptOut_execKeepRetainAccrue, keptOut_execKeyRecordErase, keptOut_execLagEndSend, keptOut_execLaneErase, keptOut_execLaneReadmit, keptOut_execLatchedPairRead, keptOut_execLdWindowRead, keptOut_execLdWindowWrite, keptOut_execLeaseLapse, keptOut_execLedgerRd, keptOut_execLedgerScrubWriteBack, keptOut_execLedgerWr, keptOut_execLifecycleAdvance, keptOut_execLinkDown, keptOut_execLinkTrainRetry, keptOut_execLinkUp, keptOut_execMarchAbort, keptOut_execMarchDone, keptOut_execMarchStart, keptOut_execModeHuman, keptOut_execModeRun, keptOut_execModeScript, keptOut_execModeService, keptOut_execMpllLockTimeout, keptOut_execNmtHandler, keptOut_execNonceLapse, keptOut_execOpAdd, keptOut_execOpCas, keptOut_execOpClear, keptOut_execOpRead, keptOut_execOpSwap, keptOut_execOtherCcc, keptOut_execParClear, keptOut_execParityBlockEnd, keptOut_execParityBlockRefresh, keptOut_execParkExit, keptOut_execPendingStarved, keptOut_execPgoodFall, keptOut_execPgoodRise, keptOut_execQuiesceEnd, keptOut_execReadBurstCheck, keptOut_execReadmitTakesEffect, keptOut_execRecordStoreRetry, keptOut_execRegisterWrite, keptOut_execReplicaLineSend, keptOut_execReservationProbe, keptOut_execResetChip, keptOut_execRestoreHandBack, keptOut_execRestoreRefresh, keptOut_execRestoreStart, keptOut_execRetrainTimeout, keptOut_execRfailWindowClear, keptOut_execRstdaa, keptOut_execSaveArm, keptOut_execSaveArmLapse, keptOut_execSaveCommitStart, keptOut_execSaveDeadlineOverrun, keptOut_execSaveGo, keptOut_execSaveNow, keptOut_execSaveNowCmd, keptOut_execSavePairSample, keptOut_execSaveRecognised, keptOut_execSealDone, keptOut_execSealKeyGenerate, keptOut_execSecondFailureTakesEffect, keptOut_execSensorConversion, keptOut_execSetdasa, keptOut_execSetmrl, keptOut_execSetmwl, keptOut_execSetnewda, keptOut_execStaleTimeout, keptOut_execStartUpPhase, keptOut_execStatusSend, keptOut_execStewardTakeoverTimeout, keptOut_execSweepAbandon, keptOut_execSweepStart, keptOut_execSweepTrialDone, keptOut_execTamperClr, keptOut_execTamperNRelease, keptOut_execTamperRecognised, keptOut_execTapBypass, keptOut_execTapExtest, keptOut_execTapIdcode, keptOut_execTapSamplePreload, keptOut_execTestAbort, keptOut_execTestMarch, keptOut_execTestRepair, keptOut_execTickDiscWindow, keptOut_execTimeReqSend, keptOut_execTrClear, keptOut_execTrCtrlHold, keptOut_execTrHoldLapse, keptOut_execTrSel, keptOut_execTraceShow, keptOut_execTrainDram, keptOut_execTrstNLow, keptOut_execTwResume, keptOut_execTwResync, keptOut_execTwRetrain, keptOut_execTwinResume, keptOut_execTwinResync, keptOut_execTwinRetrain, keptOut_execUartAutobaud, keptOut_execUartFrame, keptOut_execUartLine, keptOut_execUpWaitExpiry, keptOut_execVauxRise, keptOut_execVddqdLoss, keptOut_execVddqdRise, keptOut_execWatchdogExpiry, keptOut_execWriteBurst, keptOut_execXoscFail, keptOut_execXoscRecovered, keptOut_execXoscRestartAttempt, keptOut_execZqMeasure, kept_dramUp, kept_ite, kept_ite1, kept_ite2, kept_ite22, h, implies_true, and_self]

end Sys2Proof.Machine
end

