-- ==== Sys2Proof/Laws/KeptIdle.lean ====
section
/-! SUPPORT. Every function of Machine/Idle.lean that changes the state keeps `Kept`. -/

set_option linter.unusedSimpArgs false
set_option Elab.async false

namespace Sys2Proof.Machine

theorem kept_idleTick {q s} (h : Kept q s) : Kept q (idleTick s) := by
  simp (maxDischargeDepth := 60) +contextual only [idleTick, kept_mk, kept_fold, kept_ite, kept_ite1, kept_ite2, kept_discRestart, kept_probesOver, kept_trace, h]

end Sys2Proof.Machine
end

