-- ==== Sys2Proof/Laws/State.lean ====
section
/-! SUPPORT. One lemma per field per update, so that no proof unfolds a record update: what the shared operations leave alone,
and what a read gives after them. -/

namespace Sys2Proof.Machine

/-! ### What the shared operations leave alone -/

@[simp] theorem setReg_aon {a v s} : (setReg a v s).aon = s.aon := rfl
@[simp] theorem setReg_boot {a v s} : (setReg a v s).boot = s.boot := rfl
@[simp] theorem setReg_staged {a v s} : (setReg a v s).staged = s.staged := rfl
@[simp] theorem setReg_committed {a v s} : (setReg a v s).committed = s.committed := rfl
@[simp] theorem setReg_latch {a v s} : (setReg a v s).latch = s.latch := rfl
@[simp] theorem setReg_draws {a v s} : (setReg a v s).draws = s.draws := rfl
@[simp] theorem setReg_fuses {a v s} : (setReg a v s).fuses = s.fuses := rfl
@[simp] theorem setReg_pins {a v s} : (setReg a v s).pins = s.pins := rfl
@[simp] theorem setReg_clk {a v s} : (setReg a v s).clk = s.clk := rfl
@[simp] theorem setReg_tr {a v s} : (setReg a v s).tr = s.tr := rfl
@[simp] theorem setReg_fc {a v s} : (setReg a v s).fc = s.fc := rfl
@[simp] theorem setReg_ca {a v s} : (setReg a v s).ca = s.ca := rfl
@[simp] theorem setReg_dl {a v s} : (setReg a v s).dl = s.dl := rfl
@[simp] theorem setReg_lg {a v s} : (setReg a v s).lg = s.lg := rfl
@[simp] theorem setReg_cb {a v s} : (setReg a v s).cb = s.cb := rfl
@[simp] theorem setReg_ld {a v s} : (setReg a v s).ld = s.ld := rfl
@[simp] theorem setReg_kp {a v s} : (setReg a v s).kp = s.kp := rfl
@[simp] theorem setReg_gn {a v s} : (setReg a v s).gn = s.gn := rfl
@[simp] theorem setReg_mt {a v s} : (setReg a v s).mt = s.mt := rfl
@[simp] theorem setReg_sw {a v s} : (setReg a v s).sw = s.sw := rfl
@[simp] theorem setReg_ps {a v s} : (setReg a v s).ps = s.ps := rfl
@[simp] theorem setReg_rs {a v s} : (setReg a v s).rs = s.rs := rfl
@[simp] theorem setReg_tw {a v s} : (setReg a v s).tw = s.tw := rfl
@[simp] theorem setReg_con {a v s} : (setReg a v s).con = s.con := rfl
@[simp] theorem setReg_tap {a v s} : (setReg a v s).tap = s.tap := rfl
@[simp] theorem setReg_pending {a v s} : (setReg a v s).pending = s.pending := rfl
@[simp] theorem setF_aon {f v s} : (setF f v s).aon = s.aon := rfl
@[simp] theorem setF_boot {f v s} : (setF f v s).boot = s.boot := rfl
@[simp] theorem setF_staged {f v s} : (setF f v s).staged = s.staged := rfl
@[simp] theorem setF_committed {f v s} : (setF f v s).committed = s.committed := rfl
@[simp] theorem setF_latch {f v s} : (setF f v s).latch = s.latch := rfl
@[simp] theorem setF_draws {f v s} : (setF f v s).draws = s.draws := rfl
@[simp] theorem setF_fuses {f v s} : (setF f v s).fuses = s.fuses := rfl
@[simp] theorem setF_pins {f v s} : (setF f v s).pins = s.pins := rfl
@[simp] theorem setF_clk {f v s} : (setF f v s).clk = s.clk := rfl
@[simp] theorem setF_tr {f v s} : (setF f v s).tr = s.tr := rfl
@[simp] theorem setF_fc {f v s} : (setF f v s).fc = s.fc := rfl
@[simp] theorem setF_ca {f v s} : (setF f v s).ca = s.ca := rfl
@[simp] theorem setF_dl {f v s} : (setF f v s).dl = s.dl := rfl
@[simp] theorem setF_lg {f v s} : (setF f v s).lg = s.lg := rfl
@[simp] theorem setF_cb {f v s} : (setF f v s).cb = s.cb := rfl
@[simp] theorem setF_ld {f v s} : (setF f v s).ld = s.ld := rfl
@[simp] theorem setF_kp {f v s} : (setF f v s).kp = s.kp := rfl
@[simp] theorem setF_gn {f v s} : (setF f v s).gn = s.gn := rfl
@[simp] theorem setF_mt {f v s} : (setF f v s).mt = s.mt := rfl
@[simp] theorem setF_sw {f v s} : (setF f v s).sw = s.sw := rfl
@[simp] theorem setF_ps {f v s} : (setF f v s).ps = s.ps := rfl
@[simp] theorem setF_rs {f v s} : (setF f v s).rs = s.rs := rfl
@[simp] theorem setF_tw {f v s} : (setF f v s).tw = s.tw := rfl
@[simp] theorem setF_con {f v s} : (setF f v s).con = s.con := rfl
@[simp] theorem setF_tap {f v s} : (setF f v s).tap = s.tap := rfl
@[simp] theorem setF_pending {f v s} : (setF f v s).pending = s.pending := rfl
@[simp] theorem setB_aon {f b s} : (setB f b s).aon = s.aon := by simp only [setB, setF_aon]
@[simp] theorem setB_boot {f b s} : (setB f b s).boot = s.boot := by simp only [setB, setF_boot]
@[simp] theorem setB_staged {f b s} : (setB f b s).staged = s.staged := by simp only [setB, setF_staged]
@[simp] theorem setB_committed {f b s} : (setB f b s).committed = s.committed := by simp only [setB, setF_committed]
@[simp] theorem setB_latch {f b s} : (setB f b s).latch = s.latch := by simp only [setB, setF_latch]
@[simp] theorem setB_draws {f b s} : (setB f b s).draws = s.draws := by simp only [setB, setF_draws]
@[simp] theorem setB_fuses {f b s} : (setB f b s).fuses = s.fuses := by simp only [setB, setF_fuses]
@[simp] theorem setB_pins {f b s} : (setB f b s).pins = s.pins := by simp only [setB, setF_pins]
@[simp] theorem setB_clk {f b s} : (setB f b s).clk = s.clk := by simp only [setB, setF_clk]
@[simp] theorem setB_tr {f b s} : (setB f b s).tr = s.tr := by simp only [setB, setF_tr]
@[simp] theorem setB_fc {f b s} : (setB f b s).fc = s.fc := by simp only [setB, setF_fc]
@[simp] theorem setB_ca {f b s} : (setB f b s).ca = s.ca := by simp only [setB, setF_ca]
@[simp] theorem setB_dl {f b s} : (setB f b s).dl = s.dl := by simp only [setB, setF_dl]
@[simp] theorem setB_lg {f b s} : (setB f b s).lg = s.lg := by simp only [setB, setF_lg]
@[simp] theorem setB_cb {f b s} : (setB f b s).cb = s.cb := by simp only [setB, setF_cb]
@[simp] theorem setB_ld {f b s} : (setB f b s).ld = s.ld := by simp only [setB, setF_ld]
@[simp] theorem setB_kp {f b s} : (setB f b s).kp = s.kp := by simp only [setB, setF_kp]
@[simp] theorem setB_gn {f b s} : (setB f b s).gn = s.gn := by simp only [setB, setF_gn]
@[simp] theorem setB_mt {f b s} : (setB f b s).mt = s.mt := by simp only [setB, setF_mt]
@[simp] theorem setB_sw {f b s} : (setB f b s).sw = s.sw := by simp only [setB, setF_sw]
@[simp] theorem setB_ps {f b s} : (setB f b s).ps = s.ps := by simp only [setB, setF_ps]
@[simp] theorem setB_rs {f b s} : (setB f b s).rs = s.rs := by simp only [setB, setF_rs]
@[simp] theorem setB_tw {f b s} : (setB f b s).tw = s.tw := by simp only [setB, setF_tw]
@[simp] theorem setB_con {f b s} : (setB f b s).con = s.con := by simp only [setB, setF_con]
@[simp] theorem setB_tap {f b s} : (setB f b s).tap = s.tap := by simp only [setB, setF_tap]
@[simp] theorem setB_pending {f b s} : (setB f b s).pending = s.pending := by simp only [setB, setF_pending]
@[simp] theorem addF_aon {f n s} : (addF f n s).aon = s.aon := by simp only [addF, setF_aon]
@[simp] theorem addF_boot {f n s} : (addF f n s).boot = s.boot := by simp only [addF, setF_boot]
@[simp] theorem addF_staged {f n s} : (addF f n s).staged = s.staged := by simp only [addF, setF_staged]
@[simp] theorem addF_committed {f n s} : (addF f n s).committed = s.committed := by simp only [addF, setF_committed]
@[simp] theorem addF_latch {f n s} : (addF f n s).latch = s.latch := by simp only [addF, setF_latch]
@[simp] theorem addF_draws {f n s} : (addF f n s).draws = s.draws := by simp only [addF, setF_draws]
@[simp] theorem addF_fuses {f n s} : (addF f n s).fuses = s.fuses := by simp only [addF, setF_fuses]
@[simp] theorem addF_pins {f n s} : (addF f n s).pins = s.pins := by simp only [addF, setF_pins]
@[simp] theorem addF_clk {f n s} : (addF f n s).clk = s.clk := by simp only [addF, setF_clk]
@[simp] theorem addF_tr {f n s} : (addF f n s).tr = s.tr := by simp only [addF, setF_tr]
@[simp] theorem addF_fc {f n s} : (addF f n s).fc = s.fc := by simp only [addF, setF_fc]
@[simp] theorem addF_ca {f n s} : (addF f n s).ca = s.ca := by simp only [addF, setF_ca]
@[simp] theorem addF_dl {f n s} : (addF f n s).dl = s.dl := by simp only [addF, setF_dl]
@[simp] theorem addF_lg {f n s} : (addF f n s).lg = s.lg := by simp only [addF, setF_lg]
@[simp] theorem addF_cb {f n s} : (addF f n s).cb = s.cb := by simp only [addF, setF_cb]
@[simp] theorem addF_ld {f n s} : (addF f n s).ld = s.ld := by simp only [addF, setF_ld]
@[simp] theorem addF_kp {f n s} : (addF f n s).kp = s.kp := by simp only [addF, setF_kp]
@[simp] theorem addF_gn {f n s} : (addF f n s).gn = s.gn := by simp only [addF, setF_gn]
@[simp] theorem addF_mt {f n s} : (addF f n s).mt = s.mt := by simp only [addF, setF_mt]
@[simp] theorem addF_sw {f n s} : (addF f n s).sw = s.sw := by simp only [addF, setF_sw]
@[simp] theorem addF_ps {f n s} : (addF f n s).ps = s.ps := by simp only [addF, setF_ps]
@[simp] theorem addF_rs {f n s} : (addF f n s).rs = s.rs := by simp only [addF, setF_rs]
@[simp] theorem addF_tw {f n s} : (addF f n s).tw = s.tw := by simp only [addF, setF_tw]
@[simp] theorem addF_con {f n s} : (addF f n s).con = s.con := by simp only [addF, setF_con]
@[simp] theorem addF_tap {f n s} : (addF f n s).tap = s.tap := by simp only [addF, setF_tap]
@[simp] theorem addF_pending {f n s} : (addF f n s).pending = s.pending := by simp only [addF, setF_pending]
@[simp] theorem incF_aon {f s} : (incF f s).aon = s.aon := by simp only [incF, addF_aon]
@[simp] theorem incF_boot {f s} : (incF f s).boot = s.boot := by simp only [incF, addF_boot]
@[simp] theorem incF_staged {f s} : (incF f s).staged = s.staged := by simp only [incF, addF_staged]
@[simp] theorem incF_committed {f s} : (incF f s).committed = s.committed := by simp only [incF, addF_committed]
@[simp] theorem incF_latch {f s} : (incF f s).latch = s.latch := by simp only [incF, addF_latch]
@[simp] theorem incF_draws {f s} : (incF f s).draws = s.draws := by simp only [incF, addF_draws]
@[simp] theorem incF_fuses {f s} : (incF f s).fuses = s.fuses := by simp only [incF, addF_fuses]
@[simp] theorem incF_pins {f s} : (incF f s).pins = s.pins := by simp only [incF, addF_pins]
@[simp] theorem incF_clk {f s} : (incF f s).clk = s.clk := by simp only [incF, addF_clk]
@[simp] theorem incF_tr {f s} : (incF f s).tr = s.tr := by simp only [incF, addF_tr]
@[simp] theorem incF_fc {f s} : (incF f s).fc = s.fc := by simp only [incF, addF_fc]
@[simp] theorem incF_ca {f s} : (incF f s).ca = s.ca := by simp only [incF, addF_ca]
@[simp] theorem incF_dl {f s} : (incF f s).dl = s.dl := by simp only [incF, addF_dl]
@[simp] theorem incF_lg {f s} : (incF f s).lg = s.lg := by simp only [incF, addF_lg]
@[simp] theorem incF_cb {f s} : (incF f s).cb = s.cb := by simp only [incF, addF_cb]
@[simp] theorem incF_ld {f s} : (incF f s).ld = s.ld := by simp only [incF, addF_ld]
@[simp] theorem incF_kp {f s} : (incF f s).kp = s.kp := by simp only [incF, addF_kp]
@[simp] theorem incF_gn {f s} : (incF f s).gn = s.gn := by simp only [incF, addF_gn]
@[simp] theorem incF_mt {f s} : (incF f s).mt = s.mt := by simp only [incF, addF_mt]
@[simp] theorem incF_sw {f s} : (incF f s).sw = s.sw := by simp only [incF, addF_sw]
@[simp] theorem incF_ps {f s} : (incF f s).ps = s.ps := by simp only [incF, addF_ps]
@[simp] theorem incF_rs {f s} : (incF f s).rs = s.rs := by simp only [incF, addF_rs]
@[simp] theorem incF_tw {f s} : (incF f s).tw = s.tw := by simp only [incF, addF_tw]
@[simp] theorem incF_con {f s} : (incF f s).con = s.con := by simp only [incF, addF_con]
@[simp] theorem incF_tap {f s} : (incF f s).tap = s.tap := by simp only [incF, addF_tap]
@[simp] theorem incF_pending {f s} : (incF f s).pending = s.pending := by simp only [incF, addF_pending]
@[simp] theorem setBitF_aon {f i b s} : (setBitF f i b s).aon = s.aon := by simp only [setBitF, setF_aon]
@[simp] theorem setBitF_boot {f i b s} : (setBitF f i b s).boot = s.boot := by simp only [setBitF, setF_boot]
@[simp] theorem setBitF_staged {f i b s} : (setBitF f i b s).staged = s.staged := by simp only [setBitF, setF_staged]
@[simp] theorem setBitF_committed {f i b s} : (setBitF f i b s).committed = s.committed := by simp only [setBitF, setF_committed]
@[simp] theorem setBitF_latch {f i b s} : (setBitF f i b s).latch = s.latch := by simp only [setBitF, setF_latch]
@[simp] theorem setBitF_draws {f i b s} : (setBitF f i b s).draws = s.draws := by simp only [setBitF, setF_draws]
@[simp] theorem setBitF_fuses {f i b s} : (setBitF f i b s).fuses = s.fuses := by simp only [setBitF, setF_fuses]
@[simp] theorem setBitF_pins {f i b s} : (setBitF f i b s).pins = s.pins := by simp only [setBitF, setF_pins]
@[simp] theorem setBitF_clk {f i b s} : (setBitF f i b s).clk = s.clk := by simp only [setBitF, setF_clk]
@[simp] theorem setBitF_tr {f i b s} : (setBitF f i b s).tr = s.tr := by simp only [setBitF, setF_tr]
@[simp] theorem setBitF_fc {f i b s} : (setBitF f i b s).fc = s.fc := by simp only [setBitF, setF_fc]
@[simp] theorem setBitF_ca {f i b s} : (setBitF f i b s).ca = s.ca := by simp only [setBitF, setF_ca]
@[simp] theorem setBitF_dl {f i b s} : (setBitF f i b s).dl = s.dl := by simp only [setBitF, setF_dl]
@[simp] theorem setBitF_lg {f i b s} : (setBitF f i b s).lg = s.lg := by simp only [setBitF, setF_lg]
@[simp] theorem setBitF_cb {f i b s} : (setBitF f i b s).cb = s.cb := by simp only [setBitF, setF_cb]
@[simp] theorem setBitF_ld {f i b s} : (setBitF f i b s).ld = s.ld := by simp only [setBitF, setF_ld]
@[simp] theorem setBitF_kp {f i b s} : (setBitF f i b s).kp = s.kp := by simp only [setBitF, setF_kp]
@[simp] theorem setBitF_gn {f i b s} : (setBitF f i b s).gn = s.gn := by simp only [setBitF, setF_gn]
@[simp] theorem setBitF_mt {f i b s} : (setBitF f i b s).mt = s.mt := by simp only [setBitF, setF_mt]
@[simp] theorem setBitF_sw {f i b s} : (setBitF f i b s).sw = s.sw := by simp only [setBitF, setF_sw]
@[simp] theorem setBitF_ps {f i b s} : (setBitF f i b s).ps = s.ps := by simp only [setBitF, setF_ps]
@[simp] theorem setBitF_rs {f i b s} : (setBitF f i b s).rs = s.rs := by simp only [setBitF, setF_rs]
@[simp] theorem setBitF_tw {f i b s} : (setBitF f i b s).tw = s.tw := by simp only [setBitF, setF_tw]
@[simp] theorem setBitF_con {f i b s} : (setBitF f i b s).con = s.con := by simp only [setBitF, setF_con]
@[simp] theorem setBitF_tap {f i b s} : (setBitF f i b s).tap = s.tap := by simp only [setBitF, setF_tap]
@[simp] theorem setBitF_pending {f i b s} : (setBitF f i b s).pending = s.pending := by simp only [setBitF, setF_pending]
@[simp] theorem stage_aon {a m v s} : (stage a m v s).aon = s.aon := by unfold stage; rfl
@[simp] theorem stage_boot {a m v s} : (stage a m v s).boot = s.boot := by unfold stage; rfl
@[simp] theorem stage_regs {a m v s} : (stage a m v s).regs = s.regs := by unfold stage; rfl
@[simp] theorem stage_committed {a m v s} : (stage a m v s).committed = s.committed := by unfold stage; rfl
@[simp] theorem stage_latch {a m v s} : (stage a m v s).latch = s.latch := by unfold stage; rfl
@[simp] theorem stage_draws {a m v s} : (stage a m v s).draws = s.draws := by unfold stage; rfl
@[simp] theorem stage_fuses {a m v s} : (stage a m v s).fuses = s.fuses := by unfold stage; rfl
@[simp] theorem stage_pins {a m v s} : (stage a m v s).pins = s.pins := by unfold stage; rfl
@[simp] theorem stage_clk {a m v s} : (stage a m v s).clk = s.clk := by unfold stage; rfl
@[simp] theorem stage_tr {a m v s} : (stage a m v s).tr = s.tr := by unfold stage; rfl
@[simp] theorem stage_fc {a m v s} : (stage a m v s).fc = s.fc := by unfold stage; rfl
@[simp] theorem stage_ca {a m v s} : (stage a m v s).ca = s.ca := by unfold stage; rfl
@[simp] theorem stage_dl {a m v s} : (stage a m v s).dl = s.dl := by unfold stage; rfl
@[simp] theorem stage_lg {a m v s} : (stage a m v s).lg = s.lg := by unfold stage; rfl
@[simp] theorem stage_cb {a m v s} : (stage a m v s).cb = s.cb := by unfold stage; rfl
@[simp] theorem stage_ld {a m v s} : (stage a m v s).ld = s.ld := by unfold stage; rfl
@[simp] theorem stage_kp {a m v s} : (stage a m v s).kp = s.kp := by unfold stage; rfl
@[simp] theorem stage_gn {a m v s} : (stage a m v s).gn = s.gn := by unfold stage; rfl
@[simp] theorem stage_mt {a m v s} : (stage a m v s).mt = s.mt := by unfold stage; rfl
@[simp] theorem stage_sw {a m v s} : (stage a m v s).sw = s.sw := by unfold stage; rfl
@[simp] theorem stage_ps {a m v s} : (stage a m v s).ps = s.ps := by unfold stage; rfl
@[simp] theorem stage_rs {a m v s} : (stage a m v s).rs = s.rs := by unfold stage; rfl
@[simp] theorem stage_tw {a m v s} : (stage a m v s).tw = s.tw := by unfold stage; rfl
@[simp] theorem stage_con {a m v s} : (stage a m v s).con = s.con := by unfold stage; rfl
@[simp] theorem stage_tap {a m v s} : (stage a m v s).tap = s.tap := by unfold stage; rfl
@[simp] theorem stage_pending {a m v s} : (stage a m v s).pending = s.pending := by unfold stage; rfl
@[simp] theorem raise_aon {src syn s} : (raise src syn s).aon = s.aon := rfl
@[simp] theorem raise_boot {src syn s} : (raise src syn s).boot = s.boot := rfl
@[simp] theorem raise_regs {src syn s} : (raise src syn s).regs = s.regs := rfl
@[simp] theorem raise_staged {src syn s} : (raise src syn s).staged = s.staged := rfl
@[simp] theorem raise_committed {src syn s} : (raise src syn s).committed = s.committed := rfl
@[simp] theorem raise_latch {src syn s} : (raise src syn s).latch = s.latch := rfl
@[simp] theorem raise_draws {src syn s} : (raise src syn s).draws = s.draws := rfl
@[simp] theorem raise_fuses {src syn s} : (raise src syn s).fuses = s.fuses := rfl
@[simp] theorem raise_pins {src syn s} : (raise src syn s).pins = s.pins := rfl
@[simp] theorem raise_clk {src syn s} : (raise src syn s).clk = s.clk := rfl
@[simp] theorem raise_tr {src syn s} : (raise src syn s).tr = s.tr := rfl
@[simp] theorem raise_ca {src syn s} : (raise src syn s).ca = s.ca := rfl
@[simp] theorem raise_dl {src syn s} : (raise src syn s).dl = s.dl := rfl
@[simp] theorem raise_lg {src syn s} : (raise src syn s).lg = s.lg := rfl
@[simp] theorem raise_cb {src syn s} : (raise src syn s).cb = s.cb := rfl
@[simp] theorem raise_ld {src syn s} : (raise src syn s).ld = s.ld := rfl
@[simp] theorem raise_kp {src syn s} : (raise src syn s).kp = s.kp := rfl
@[simp] theorem raise_gn {src syn s} : (raise src syn s).gn = s.gn := rfl
@[simp] theorem raise_mt {src syn s} : (raise src syn s).mt = s.mt := rfl
@[simp] theorem raise_sw {src syn s} : (raise src syn s).sw = s.sw := rfl
@[simp] theorem raise_ps {src syn s} : (raise src syn s).ps = s.ps := rfl
@[simp] theorem raise_rs {src syn s} : (raise src syn s).rs = s.rs := rfl
@[simp] theorem raise_tw {src syn s} : (raise src syn s).tw = s.tw := rfl
@[simp] theorem raise_con {src syn s} : (raise src syn s).con = s.con := rfl
@[simp] theorem raise_tap {src syn s} : (raise src syn s).tap = s.tap := rfl
@[simp] theorem raise_pending {src syn s} : (raise src syn s).pending = s.pending := rfl
@[simp] theorem drew_aon {s} : (drew s).aon = s.aon := rfl
@[simp] theorem drew_boot {s} : (drew s).boot = s.boot := rfl
@[simp] theorem drew_regs {s} : (drew s).regs = s.regs := rfl
@[simp] theorem drew_staged {s} : (drew s).staged = s.staged := rfl
@[simp] theorem drew_committed {s} : (drew s).committed = s.committed := rfl
@[simp] theorem drew_latch {s} : (drew s).latch = s.latch := rfl
@[simp] theorem drew_fuses {s} : (drew s).fuses = s.fuses := rfl
@[simp] theorem drew_pins {s} : (drew s).pins = s.pins := rfl
@[simp] theorem drew_clk {s} : (drew s).clk = s.clk := rfl
@[simp] theorem drew_tr {s} : (drew s).tr = s.tr := rfl
@[simp] theorem drew_fc {s} : (drew s).fc = s.fc := rfl
@[simp] theorem drew_ca {s} : (drew s).ca = s.ca := rfl
@[simp] theorem drew_dl {s} : (drew s).dl = s.dl := rfl
@[simp] theorem drew_lg {s} : (drew s).lg = s.lg := rfl
@[simp] theorem drew_cb {s} : (drew s).cb = s.cb := rfl
@[simp] theorem drew_ld {s} : (drew s).ld = s.ld := rfl
@[simp] theorem drew_kp {s} : (drew s).kp = s.kp := rfl
@[simp] theorem drew_gn {s} : (drew s).gn = s.gn := rfl
@[simp] theorem drew_mt {s} : (drew s).mt = s.mt := rfl
@[simp] theorem drew_sw {s} : (drew s).sw = s.sw := rfl
@[simp] theorem drew_ps {s} : (drew s).ps = s.ps := rfl
@[simp] theorem drew_rs {s} : (drew s).rs = s.rs := rfl
@[simp] theorem drew_tw {s} : (drew s).tw = s.tw := rfl
@[simp] theorem drew_con {s} : (drew s).con = s.con := rfl
@[simp] theorem drew_tap {s} : (drew s).tap = s.tap := rfl
@[simp] theorem drew_pending {s} : (drew s).pending = s.pending := rfl
@[simp] theorem ringPush_aon {e s} : (ringPush e s).aon = s.aon := by simp only [ringPush]
@[simp] theorem ringPush_boot {e s} : (ringPush e s).boot = s.boot := by simp only [ringPush]
@[simp] theorem ringPush_regs {e s} : (ringPush e s).regs = s.regs := by simp only [ringPush]
@[simp] theorem ringPush_staged {e s} : (ringPush e s).staged = s.staged := by simp only [ringPush]
@[simp] theorem ringPush_committed {e s} : (ringPush e s).committed = s.committed := by simp only [ringPush]
@[simp] theorem ringPush_latch {e s} : (ringPush e s).latch = s.latch := by simp only [ringPush]
@[simp] theorem ringPush_draws {e s} : (ringPush e s).draws = s.draws := by simp only [ringPush]
@[simp] theorem ringPush_fuses {e s} : (ringPush e s).fuses = s.fuses := by simp only [ringPush]
@[simp] theorem ringPush_pins {e s} : (ringPush e s).pins = s.pins := by simp only [ringPush]
@[simp] theorem ringPush_clk {e s} : (ringPush e s).clk = s.clk := by simp only [ringPush]
@[simp] theorem ringPush_fc {e s} : (ringPush e s).fc = s.fc := by simp only [ringPush]
@[simp] theorem ringPush_ca {e s} : (ringPush e s).ca = s.ca := by simp only [ringPush]
@[simp] theorem ringPush_dl {e s} : (ringPush e s).dl = s.dl := by simp only [ringPush]
@[simp] theorem ringPush_lg {e s} : (ringPush e s).lg = s.lg := by simp only [ringPush]
@[simp] theorem ringPush_cb {e s} : (ringPush e s).cb = s.cb := by simp only [ringPush]
@[simp] theorem ringPush_ld {e s} : (ringPush e s).ld = s.ld := by simp only [ringPush]
@[simp] theorem ringPush_kp {e s} : (ringPush e s).kp = s.kp := by simp only [ringPush]
@[simp] theorem ringPush_gn {e s} : (ringPush e s).gn = s.gn := by simp only [ringPush]
@[simp] theorem ringPush_mt {e s} : (ringPush e s).mt = s.mt := by simp only [ringPush]
@[simp] theorem ringPush_sw {e s} : (ringPush e s).sw = s.sw := by simp only [ringPush]
@[simp] theorem ringPush_ps {e s} : (ringPush e s).ps = s.ps := by simp only [ringPush]
@[simp] theorem ringPush_rs {e s} : (ringPush e s).rs = s.rs := by simp only [ringPush]
@[simp] theorem ringPush_tw {e s} : (ringPush e s).tw = s.tw := by simp only [ringPush]
@[simp] theorem ringPush_con {e s} : (ringPush e s).con = s.con := by simp only [ringPush]
@[simp] theorem ringPush_tap {e s} : (ringPush e s).tap = s.tap := by simp only [ringPush]
@[simp] theorem ringPush_pending {e s} : (ringPush e s).pending = s.pending := by simp only [ringPush]
@[simp] theorem fifoPush_aon {e s} : (fifoPush e s).aon = s.aon := by
  simp only [fifoPush, apply_ite State.aon, incF_aon, ite_self]
@[simp] theorem fifoPush_boot {e s} : (fifoPush e s).boot = s.boot := by
  simp only [fifoPush, apply_ite State.boot, incF_boot, ite_self]
@[simp] theorem fifoPush_staged {e s} : (fifoPush e s).staged = s.staged := by
  simp only [fifoPush, apply_ite State.staged, incF_staged, ite_self]
@[simp] theorem fifoPush_committed {e s} : (fifoPush e s).committed = s.committed := by
  simp only [fifoPush, apply_ite State.committed, incF_committed, ite_self]
@[simp] theorem fifoPush_latch {e s} : (fifoPush e s).latch = s.latch := by
  simp only [fifoPush, apply_ite State.latch, incF_latch, ite_self]
@[simp] theorem fifoPush_draws {e s} : (fifoPush e s).draws = s.draws := by
  simp only [fifoPush, apply_ite State.draws, incF_draws, ite_self]
@[simp] theorem fifoPush_fuses {e s} : (fifoPush e s).fuses = s.fuses := by
  simp only [fifoPush, apply_ite State.fuses, incF_fuses, ite_self]
@[simp] theorem fifoPush_pins {e s} : (fifoPush e s).pins = s.pins := by
  simp only [fifoPush, apply_ite State.pins, incF_pins, ite_self]
@[simp] theorem fifoPush_clk {e s} : (fifoPush e s).clk = s.clk := by
  simp only [fifoPush, apply_ite State.clk, incF_clk, ite_self]
@[simp] theorem fifoPush_fc {e s} : (fifoPush e s).fc = s.fc := by
  simp only [fifoPush, apply_ite State.fc, incF_fc, ite_self]
@[simp] theorem fifoPush_ca {e s} : (fifoPush e s).ca = s.ca := by
  simp only [fifoPush, apply_ite State.ca, incF_ca, ite_self]
@[simp] theorem fifoPush_dl {e s} : (fifoPush e s).dl = s.dl := by
  simp only [fifoPush, apply_ite State.dl, incF_dl, ite_self]
@[simp] theorem fifoPush_lg {e s} : (fifoPush e s).lg = s.lg := by
  simp only [fifoPush, apply_ite State.lg, incF_lg, ite_self]
@[simp] theorem fifoPush_cb {e s} : (fifoPush e s).cb = s.cb := by
  simp only [fifoPush, apply_ite State.cb, incF_cb, ite_self]
@[simp] theorem fifoPush_ld {e s} : (fifoPush e s).ld = s.ld := by
  simp only [fifoPush, apply_ite State.ld, incF_ld, ite_self]
@[simp] theorem fifoPush_kp {e s} : (fifoPush e s).kp = s.kp := by
  simp only [fifoPush, apply_ite State.kp, incF_kp, ite_self]
@[simp] theorem fifoPush_gn {e s} : (fifoPush e s).gn = s.gn := by
  simp only [fifoPush, apply_ite State.gn, incF_gn, ite_self]
@[simp] theorem fifoPush_mt {e s} : (fifoPush e s).mt = s.mt := by
  simp only [fifoPush, apply_ite State.mt, incF_mt, ite_self]
@[simp] theorem fifoPush_sw {e s} : (fifoPush e s).sw = s.sw := by
  simp only [fifoPush, apply_ite State.sw, incF_sw, ite_self]
@[simp] theorem fifoPush_ps {e s} : (fifoPush e s).ps = s.ps := by
  simp only [fifoPush, apply_ite State.ps, incF_ps, ite_self]
@[simp] theorem fifoPush_rs {e s} : (fifoPush e s).rs = s.rs := by
  simp only [fifoPush, apply_ite State.rs, incF_rs, ite_self]
@[simp] theorem fifoPush_tw {e s} : (fifoPush e s).tw = s.tw := by
  simp only [fifoPush, apply_ite State.tw, incF_tw, ite_self]
@[simp] theorem fifoPush_con {e s} : (fifoPush e s).con = s.con := by
  simp only [fifoPush, apply_ite State.con, incF_con, ite_self]
@[simp] theorem fifoPush_tap {e s} : (fifoPush e s).tap = s.tap := by
  simp only [fifoPush, apply_ite State.tap, incF_tap, ite_self]
@[simp] theorem fifoPush_pending {e s} : (fifoPush e s).pending = s.pending := by
  simp only [fifoPush, apply_ite State.pending, incF_pending, ite_self]
@[simp] theorem trace_aon {code args s} : (trace code args s).aon = s.aon := by
  simp only [trace, apply_ite State.aon, incF_aon, ringPush_aon, fifoPush_aon, ite_self]
@[simp] theorem trace_boot {code args s} : (trace code args s).boot = s.boot := by
  simp only [trace, apply_ite State.boot, incF_boot, ringPush_boot, fifoPush_boot, ite_self]
@[simp] theorem trace_staged {code args s} : (trace code args s).staged = s.staged := by
  simp only [trace, apply_ite State.staged, incF_staged, ringPush_staged, fifoPush_staged, ite_self]
@[simp] theorem trace_committed {code args s} : (trace code args s).committed = s.committed := by
  simp only [trace, apply_ite State.committed, incF_committed, ringPush_committed, fifoPush_committed, ite_self]
@[simp] theorem trace_latch {code args s} : (trace code args s).latch = s.latch := by
  simp only [trace, apply_ite State.latch, incF_latch, ringPush_latch, fifoPush_latch, ite_self]
@[simp] theorem trace_draws {code args s} : (trace code args s).draws = s.draws := by
  simp only [trace, apply_ite State.draws, incF_draws, ringPush_draws, fifoPush_draws, ite_self]
@[simp] theorem trace_fuses {code args s} : (trace code args s).fuses = s.fuses := by
  simp only [trace, apply_ite State.fuses, incF_fuses, ringPush_fuses, fifoPush_fuses, ite_self]
@[simp] theorem trace_pins {code args s} : (trace code args s).pins = s.pins := by
  simp only [trace, apply_ite State.pins, incF_pins, ringPush_pins, fifoPush_pins, ite_self]
@[simp] theorem trace_clk {code args s} : (trace code args s).clk = s.clk := by
  simp only [trace, apply_ite State.clk, incF_clk, ringPush_clk, fifoPush_clk, ite_self]
@[simp] theorem trace_fc {code args s} : (trace code args s).fc = s.fc := by
  simp only [trace, apply_ite State.fc, incF_fc, ringPush_fc, fifoPush_fc, ite_self]
@[simp] theorem trace_ca {code args s} : (trace code args s).ca = s.ca := by
  simp only [trace, apply_ite State.ca, incF_ca, ringPush_ca, fifoPush_ca, ite_self]
@[simp] theorem trace_dl {code args s} : (trace code args s).dl = s.dl := by
  simp only [trace, apply_ite State.dl, incF_dl, ringPush_dl, fifoPush_dl, ite_self]
@[simp] theorem trace_lg {code args s} : (trace code args s).lg = s.lg := by
  simp only [trace, apply_ite State.lg, incF_lg, ringPush_lg, fifoPush_lg, ite_self]
@[simp] theorem trace_cb {code args s} : (trace code args s).cb = s.cb := by
  simp only [trace, apply_ite State.cb, incF_cb, ringPush_cb, fifoPush_cb, ite_self]
@[simp] theorem trace_ld {code args s} : (trace code args s).ld = s.ld := by
  simp only [trace, apply_ite State.ld, incF_ld, ringPush_ld, fifoPush_ld, ite_self]
@[simp] theorem trace_kp {code args s} : (trace code args s).kp = s.kp := by
  simp only [trace, apply_ite State.kp, incF_kp, ringPush_kp, fifoPush_kp, ite_self]
@[simp] theorem trace_gn {code args s} : (trace code args s).gn = s.gn := by
  simp only [trace, apply_ite State.gn, incF_gn, ringPush_gn, fifoPush_gn, ite_self]
@[simp] theorem trace_mt {code args s} : (trace code args s).mt = s.mt := by
  simp only [trace, apply_ite State.mt, incF_mt, ringPush_mt, fifoPush_mt, ite_self]
@[simp] theorem trace_sw {code args s} : (trace code args s).sw = s.sw := by
  simp only [trace, apply_ite State.sw, incF_sw, ringPush_sw, fifoPush_sw, ite_self]
@[simp] theorem trace_ps {code args s} : (trace code args s).ps = s.ps := by
  simp only [trace, apply_ite State.ps, incF_ps, ringPush_ps, fifoPush_ps, ite_self]
@[simp] theorem trace_rs {code args s} : (trace code args s).rs = s.rs := by
  simp only [trace, apply_ite State.rs, incF_rs, ringPush_rs, fifoPush_rs, ite_self]
@[simp] theorem trace_tw {code args s} : (trace code args s).tw = s.tw := by
  simp only [trace, apply_ite State.tw, incF_tw, ringPush_tw, fifoPush_tw, ite_self]
@[simp] theorem trace_con {code args s} : (trace code args s).con = s.con := by
  simp only [trace, apply_ite State.con, incF_con, ringPush_con, fifoPush_con, ite_self]
@[simp] theorem trace_tap {code args s} : (trace code args s).tap = s.tap := by
  simp only [trace, apply_ite State.tap, incF_tap, ringPush_tap, fifoPush_tap, ite_self]
@[simp] theorem trace_pending {code args s} : (trace code args s).pending = s.pending := by
  simp only [trace, apply_ite State.pending, incF_pending, ringPush_pending, fifoPush_pending, ite_self]

theorem recordTransition_eq (m b cause : Nat) (s : State) : recordTransition m b cause s
    = trace 0x0201 (cause * 0x10000 + b * 0x1000 + m * 0x100 + sub s * 0x10 + mode s)
      (setReg Fld.PM_LAST_TH_TIME_HI.addr (BitVec.ofNat 32 (s.aon.toNat >>> 32))
        (setReg Fld.PM_LAST_TL_TIME_LO.addr (BitVec.ofNat 32 s.aon.toNat)
          (setReg Fld.PM_LAST_CAUSE.addr
            (BitVec.ofNat 32 (cause * 0x10000 + b * 0x1000 + m * 0x100 + sub s * 0x10 + mode s)) s))) := rfl

@[simp] theorem recordTransition_aon {m b cause s} : (recordTransition m b cause s).aon = s.aon := by rw [recordTransition_eq, trace_aon, setReg_aon, setReg_aon, setReg_aon]
@[simp] theorem recordTransition_boot {m b cause s} : (recordTransition m b cause s).boot = s.boot := by rw [recordTransition_eq, trace_boot, setReg_boot, setReg_boot, setReg_boot]
@[simp] theorem recordTransition_staged {m b cause s} : (recordTransition m b cause s).staged = s.staged := by rw [recordTransition_eq, trace_staged, setReg_staged, setReg_staged, setReg_staged]
@[simp] theorem recordTransition_committed {m b cause s} : (recordTransition m b cause s).committed = s.committed := by rw [recordTransition_eq, trace_committed, setReg_committed, setReg_committed, setReg_committed]
@[simp] theorem recordTransition_latch {m b cause s} : (recordTransition m b cause s).latch = s.latch := by rw [recordTransition_eq, trace_latch, setReg_latch, setReg_latch, setReg_latch]
@[simp] theorem recordTransition_draws {m b cause s} : (recordTransition m b cause s).draws = s.draws := by rw [recordTransition_eq, trace_draws, setReg_draws, setReg_draws, setReg_draws]
@[simp] theorem recordTransition_fuses {m b cause s} : (recordTransition m b cause s).fuses = s.fuses := by rw [recordTransition_eq, trace_fuses, setReg_fuses, setReg_fuses, setReg_fuses]
@[simp] theorem recordTransition_pins {m b cause s} : (recordTransition m b cause s).pins = s.pins := by rw [recordTransition_eq, trace_pins, setReg_pins, setReg_pins, setReg_pins]
@[simp] theorem recordTransition_clk {m b cause s} : (recordTransition m b cause s).clk = s.clk := by rw [recordTransition_eq, trace_clk, setReg_clk, setReg_clk, setReg_clk]
@[simp] theorem recordTransition_fc {m b cause s} : (recordTransition m b cause s).fc = s.fc := by rw [recordTransition_eq, trace_fc, setReg_fc, setReg_fc, setReg_fc]
@[simp] theorem recordTransition_ca {m b cause s} : (recordTransition m b cause s).ca = s.ca := by rw [recordTransition_eq, trace_ca, setReg_ca, setReg_ca, setReg_ca]
@[simp] theorem recordTransition_dl {m b cause s} : (recordTransition m b cause s).dl = s.dl := by rw [recordTransition_eq, trace_dl, setReg_dl, setReg_dl, setReg_dl]
@[simp] theorem recordTransition_lg {m b cause s} : (recordTransition m b cause s).lg = s.lg := by rw [recordTransition_eq, trace_lg, setReg_lg, setReg_lg, setReg_lg]
@[simp] theorem recordTransition_cb {m b cause s} : (recordTransition m b cause s).cb = s.cb := by rw [recordTransition_eq, trace_cb, setReg_cb, setReg_cb, setReg_cb]
@[simp] theorem recordTransition_ld {m b cause s} : (recordTransition m b cause s).ld = s.ld := by rw [recordTransition_eq, trace_ld, setReg_ld, setReg_ld, setReg_ld]
@[simp] theorem recordTransition_kp {m b cause s} : (recordTransition m b cause s).kp = s.kp := by rw [recordTransition_eq, trace_kp, setReg_kp, setReg_kp, setReg_kp]
@[simp] theorem recordTransition_gn {m b cause s} : (recordTransition m b cause s).gn = s.gn := by rw [recordTransition_eq, trace_gn, setReg_gn, setReg_gn, setReg_gn]
@[simp] theorem recordTransition_mt {m b cause s} : (recordTransition m b cause s).mt = s.mt := by rw [recordTransition_eq, trace_mt, setReg_mt, setReg_mt, setReg_mt]
@[simp] theorem recordTransition_sw {m b cause s} : (recordTransition m b cause s).sw = s.sw := by rw [recordTransition_eq, trace_sw, setReg_sw, setReg_sw, setReg_sw]
@[simp] theorem recordTransition_ps {m b cause s} : (recordTransition m b cause s).ps = s.ps := by rw [recordTransition_eq, trace_ps, setReg_ps, setReg_ps, setReg_ps]
@[simp] theorem recordTransition_rs {m b cause s} : (recordTransition m b cause s).rs = s.rs := by rw [recordTransition_eq, trace_rs, setReg_rs, setReg_rs, setReg_rs]
@[simp] theorem recordTransition_tw {m b cause s} : (recordTransition m b cause s).tw = s.tw := by rw [recordTransition_eq, trace_tw, setReg_tw, setReg_tw, setReg_tw]
@[simp] theorem recordTransition_con {m b cause s} : (recordTransition m b cause s).con = s.con := by rw [recordTransition_eq, trace_con, setReg_con, setReg_con, setReg_con]
@[simp] theorem recordTransition_tap {m b cause s} : (recordTransition m b cause s).tap = s.tap := by rw [recordTransition_eq, trace_tap, setReg_tap, setReg_tap, setReg_tap]
@[simp] theorem recordTransition_pending {m b cause s} : (recordTransition m b cause s).pending = s.pending := by rw [recordTransition_eq, trace_pending, setReg_pending, setReg_pending, setReg_pending]
@[simp] theorem transition_aon {m b cause s} : (transition m b cause s).aon = s.aon := by simp only [transition, setF_aon, recordTransition_aon]
@[simp] theorem transition_boot {m b cause s} : (transition m b cause s).boot = s.boot := by simp only [transition, setF_boot, recordTransition_boot]
@[simp] theorem transition_staged {m b cause s} : (transition m b cause s).staged = s.staged := by simp only [transition, setF_staged, recordTransition_staged]
@[simp] theorem transition_committed {m b cause s} : (transition m b cause s).committed = s.committed := by simp only [transition, setF_committed, recordTransition_committed]
@[simp] theorem transition_latch {m b cause s} : (transition m b cause s).latch = s.latch := by simp only [transition, setF_latch, recordTransition_latch]
@[simp] theorem transition_draws {m b cause s} : (transition m b cause s).draws = s.draws := by simp only [transition, setF_draws, recordTransition_draws]
@[simp] theorem transition_fuses {m b cause s} : (transition m b cause s).fuses = s.fuses := by simp only [transition, setF_fuses, recordTransition_fuses]
@[simp] theorem transition_pins {m b cause s} : (transition m b cause s).pins = s.pins := by simp only [transition, setF_pins, recordTransition_pins]
@[simp] theorem transition_clk {m b cause s} : (transition m b cause s).clk = s.clk := by simp only [transition, setF_clk, recordTransition_clk]
@[simp] theorem transition_fc {m b cause s} : (transition m b cause s).fc = s.fc := by simp only [transition, setF_fc, recordTransition_fc]
@[simp] theorem transition_ca {m b cause s} : (transition m b cause s).ca = s.ca := by simp only [transition, setF_ca, recordTransition_ca]
@[simp] theorem transition_dl {m b cause s} : (transition m b cause s).dl = s.dl := by simp only [transition, setF_dl, recordTransition_dl]
@[simp] theorem transition_lg {m b cause s} : (transition m b cause s).lg = s.lg := by simp only [transition, setF_lg, recordTransition_lg]
@[simp] theorem transition_cb {m b cause s} : (transition m b cause s).cb = s.cb := by simp only [transition, setF_cb, recordTransition_cb]
@[simp] theorem transition_ld {m b cause s} : (transition m b cause s).ld = s.ld := by simp only [transition, setF_ld, recordTransition_ld]
@[simp] theorem transition_kp {m b cause s} : (transition m b cause s).kp = s.kp := by simp only [transition, setF_kp, recordTransition_kp]
@[simp] theorem transition_gn {m b cause s} : (transition m b cause s).gn = s.gn := by simp only [transition, setF_gn, recordTransition_gn]
@[simp] theorem transition_mt {m b cause s} : (transition m b cause s).mt = s.mt := by simp only [transition, setF_mt, recordTransition_mt]
@[simp] theorem transition_sw {m b cause s} : (transition m b cause s).sw = s.sw := by simp only [transition, setF_sw, recordTransition_sw]
@[simp] theorem transition_ps {m b cause s} : (transition m b cause s).ps = s.ps := by simp only [transition, setF_ps, recordTransition_ps]
@[simp] theorem transition_rs {m b cause s} : (transition m b cause s).rs = s.rs := by simp only [transition, setF_rs, recordTransition_rs]
@[simp] theorem transition_tw {m b cause s} : (transition m b cause s).tw = s.tw := by simp only [transition, setF_tw, recordTransition_tw]
@[simp] theorem transition_con {m b cause s} : (transition m b cause s).con = s.con := by simp only [transition, setF_con, recordTransition_con]
@[simp] theorem transition_pending {m b cause s} : (transition m b cause s).pending = s.pending := by simp only [transition, setF_pending, recordTransition_pending]

/-! ### What a read gives after a write -/

@[simp] theorem reg_setReg_same {a v s} : reg (setReg a v s) a = v &&& regMask a := smGet_smSet_same _ _ _

theorem reg_setReg_other {a b v s} (h : b ≠ a) : reg (setReg a v s) b = reg s b := smGet_smSet_other _ _ h

theorem reg_of_regs {s t : State} (h : t.regs = s.regs) (a : Nat) : reg t a = reg s a := by simp only [reg, h]

@[simp] theorem reg_raise {src syn s} (a : Nat) : reg (raise src syn s) a = reg s a := reg_of_regs raise_regs a
@[simp] theorem reg_stage {b m v s} (a : Nat) : reg (stage b m v s) a = reg s a := reg_of_regs stage_regs a
@[simp] theorem reg_drew {s} (a : Nat) : reg (drew s) a = reg s a := reg_of_regs drew_regs a
@[simp] theorem reg_ringPush {e s} (a : Nat) : reg (ringPush e s) a = reg s a := reg_of_regs ringPush_regs a

theorem reg_setF_other {f v s} {b : Nat} (h : b ≠ f.addr) : reg (setF f v s) b = reg s b := reg_setReg_other h

/-- A field of another register reads as before. -/
theorem getF_setF_addr {f g : Field} {v s} (h : f.addr ≠ g.addr) : getF (setF g v s) f = getF s f := by
  simp only [getF, reg_setF_other h]

theorem reg_incF_other {f s} {b : Nat} (h : b ≠ f.addr) : reg (incF f s) b = reg s b := reg_setReg_other h

theorem reg_fifoPush {e s} {a : Nat} (h : a ≠ Fld.TR_LOST_RING.addr) : reg (fifoPush e s) a = reg s a := by
  have hf : a ≠ Fld.TR_LOST_FIFO.addr := h
  simp only [fifoPush]
  split
  · rfl
  · rw [reg_incF_other hf]; rfl

/-- Writing the trace changes no register but TR_LOST. -/
theorem reg_trace {code args s} {a : Nat} (h : a ≠ Fld.TR_LOST_RING.addr) : reg (trace code args s) a = reg s a := by
  simp only [trace]
  split
  · rfl
  · split
    · split
      · exact reg_incF_other h
      · exact reg_ringPush a
    · split
      · exact reg_incF_other h
      · exact reg_fifoPush h

end Sys2Proof.Machine
end

