-- ==== Sys2Proof/WellFormed.lean ====
section
/-! DEFINITION. Which commands are well formed: what a partner or the environment can present at all. The meanings are
total and need none of it. -/

namespace Sys2Proof

/-- The pins of a command: a one-cycle command has no second cycle, and some rank is selected (R99). -/
def pinsFit (p : CaPins) : Bool := p.hcsN ≠ 0xF && (p.two || (p.hca2 = 0 && !p.hpar2))

/-- The dwells of a bit: at most one for each offset of its sides (R187). -/
def scanFits (b : BitScan) : Bool := b.l.length ≤ 64 && b.r.length ≤ 63 && b.b.length ≤ 129 && b.t.length ≤ 127

/-- The dwells of the eight bits of a lane. -/
def scansFit (l : List BitScan) : Bool := l.length = 8 && l.all scanFits

/-- A lane's training has whole runs, and F6 has 4,096 bursts. -/
def laneTrainFits (t : LaneTrain) : Bool :=
  scansFit t.readA && scansFit t.readB && t.tries.all (fun v => scansFit v.runA && scansFit v.runB)
    && t.verify.all (fun e => e.1 < 4096)

/-- A rank's training names C/A trims of Table CA-4 and has at most six lanes. -/
def rankTrainFits (t : RankTrain) : Bool :=
  t.ca.all (fun e => e.index < 34) && t.caReason < 16 && t.lanes.length ≤ 6 && t.lanes.all laneTrainFits

/-- What a march reads lies in one of its 20 arrays (Table MT-1). -/
def readsFit (l : List MarchRead) : Bool := l.all (fun x => x.array < 20)

/-- What steps U3 to U7 and B3 to B10 meet. -/
def bringUpFits (b : BringUp) : Bool := b.passes.all (fun p => p.length ≤ 4 && p.all rankTrainFits)

/-- What the checks of a restore meet for up to four ranks of 128 canary bursts and six lanes. -/
def checksFit (l : List RankCheck) : Bool :=
  l.length ≤ 4 && l.all (fun c => c.canary.all (fun x => x.burst < 128) && c.scans.length ≤ 6 && c.scans.all scansFit)

/-- A keep word whose cells misbehave is one of the 1,048,576 of 8 MiB (R305). -/
def flipsFit (l : List (Nat × BitVec 72)) : Bool := l.all (fun e => e.1 < 0x100000)

def envFits (e : ConEnv) : Bool :=
  flipsFit e.flips && readsFit e.reads && rankTrainFits e.train && bringUpFits e.bringUp && checksFit e.checks

/-- A mode register other than a buffer control word (R106). -/
def dramMode (mr : Byte) : Bool := mr.toNat < 240

/-- The bytes that end a line (R456): they come as UART_LINE. -/
def lineEndByte (b : Byte) : Bool := b = 0x0D#8 || b = 0x0A#8

/-- The first registers of the latched groups (Table RX-11). -/
def firstOfGroup (a : Nat) : Bool := [0x0628, 0x0410, 0x341C, 0x3C0C, 0x3C14, 0x3820, 0x4818].contains a

/-- The TYPE of a received flit is its row's, or one that Table TW-2 does not define. -/
def typeFits (type : Nat) (w : FlitWire) : Bool :=
  w.type.toNat = type || !(w.type.toNat = 0x10 || (1 ≤ w.type.toNat && w.type.toNat ≤ 0x0A))

/-- Is a command well formed? -/
def wellFormed (i : Instr) : Bool :=
  match i with
  | .cmdAct p _ _ _ => pinsFit p
  | .cmdRd p _ _ _ _ _ => pinsFit p
  | .cmdWr p _ _ _ _ => pinsFit p
  | .cmdRda p _ _ _ _ _ => pinsFit p
  | .cmdWra p _ _ _ _ => pinsFit p
  | .cmdPre p _ _ _ => pinsFit p
  | .cmdRefab p _ _ _ => pinsFit p
  | .cmdSre p => pinsFit p
  | .cmdMrw p mr _ _ => pinsFit p && dramMode mr
  | .cmdMrr p mr => pinsFit p && dramMode mr
  | .cmdMpcTraining p _ => pinsFit p
  | .cmdOtherForwarded p _ _ => pinsFit p
  | .bcwPageSelect p _ => pinsFit p
  | .bcwMrr p _ => pinsFit p
  | .saveArm p _ => pinsFit p
  | .saveGo p _ => pinsFit p
  | .grantRank p _ => pinsFit p
  | .grantLen p _ => pinsFit p
  | .aplock p _ => pinsFit p
  | .parClear p _ => pinsFit p
  | .trSel p _ => pinsFit p
  | .trCtrlHold p _ => pinsFit p
  | .bcwAccessError p _ _ => pinsFit p
  | .coldBringup b f l => bringUpFits b && readsFit f && flipsFit l
  | .dccStep dram lane _ => dram || lane.val < 5
  | .marchAbort f => readsFit f
  | .marchDone f => readsFit f
  | .quiesceEnd f => readsFit f
  | .testAbort _ f => readsFit f
  | .keepCheckpoint l => flipsFit l
  | .keepRefresh l => flipsFit l
  | .recordStoreRetry l => flipsFit l
  | .keepRecordRewrite l => flipsFit l
  | .saveCommitStart l => flipsFit l
  | .commitLinesDone l => flipsFit l
  | .restoreHandBack l => flipsFit l
  | .historyWrite l => flipsFit l
  | .sealKeyGenerate l => flipsFit l
  | .keepCheckpointDone l _ => flipsFit l
  | .keepRefreshDone l _ => flipsFit l
  | .calStoreDone l => flipsFit l
  | .keepConfigStoreDone l => flipsFit l
  | .calStore _ l => flipsFit l
  | .keepCheckpointCmd _ l => flipsFit l
  | .keepRefreshCmd _ l => flipsFit l
  | .authInstall _ _ l => flipsFit l
  | .restoreStart _ b _ _ c => bringUpFits b && checksFit c
  | .trainDram _ _ t l => rankTrainFits t && flipsFit l
  | .modeRun _ b c => bringUpFits b && checksFit c
  | .uartLine e => envFits e
  | .i3cPrivateWrite _ e => envFits e
  | .i3cPrivateRead _ e => envFits e
  | .conWr _ _ _ e => envFits e
  | .registerWrite _ _ e => envFits e
  | .latchedPairRead a => firstOfGroup a
  | .uartFrame b _ => !lineEndByte b
  | .flitIdle _ _ w => typeFits 0x01 w
  | .flitNak _ _ w _ => typeFits 0x02 w
  | .flitIdent _ _ w _ _ _ => typeFits 0x03 w
  | .flitStatus _ _ w _ _ _ _ _ _ _ => typeFits 0x04 w
  | .flitTimeReq _ _ w => typeFits 0x05 w
  | .flitTimeRsp _ _ w _ _ => typeFits 0x06 w
  | .flitSave _ _ w _ _ => typeFits 0x07 w
  | .flitLagEnd _ _ w => typeFits 0x08 w
  | .flitBye _ _ w => typeFits 0x09 w
  | .flitResyncReq _ _ w _ _ => typeFits 0x0A w
  | .flitLine _ _ w _ _ _ _ tails _ => typeFits 0x10 w && tails.length = 5
  | .tapBypass opcode => 3 ≤ opcode.toNat
  | .aonrstNFall | .startUpPhase _ _ _ | .coldHandBack | .tamperRecognised | .keyRecordErase | .pgoodRise | .pgoodFall
  | .savePairSample _ _ | .discrepancyExpiry | .hrstNLow | .hrstNHigh | .hckCount _ | .hckEdgesMissing | .hpllLockLost
  | .parkExit | .tickDiscWindow _ | .xoscFail _ _ | .xoscRestartAttempt _ | .xoscRecovered | .mpllLockTimeout _
  | .aonWrap | .watchdogExpiry _ | .saveArmLapse | .grantStart | .parityBlockEnd | .parityBlockRefresh | .trHoldLapse
  | .reservationProbe _ _ _ | .grantEnd _ | .hostTrialDone _ | .caTrialDone | .sweepTrialDone | .gapTrialDone _ | .idleBoundary | .writeBurst _ _ _ _ | .readBurstCheck _ _ | .dalertEvent _ | .opClear | .opRead
  | .opAdd | .opSwap | .opCas | .ledgerScrubWriteBack | .bankPark _ | .bankWake _ _ | .bankScanDone _ | .hostEvalStart
  | .staleTimeout _ | .zqMeasure _ _ _ _ _ _ | .pendingStarved | .sweepStart | .sweepAbandon | .gapTrialStart _
  | .gapTrialAbandon _ | .calStoreAuto | .calStoreNow | .rfailWindowClear | .eraseDecision | .erasureTakesEffect _
  | .secondFailureTakesEffect _ | .readmitTakesEffect _ | .hctLoad _ | .hctUnload | .hctVerifyDone | .hctInForce
  | .hctWindowWrite _ | .hctWindowRead | .ldWindowRead _ | .ldWindowWrite _ _ | .marchStart | .burnGo _ _ _
  | .burnDone _ | .keepRetainAccrue | .saveNow | .saveRecognised | .drainDone | .stewardTakeoverTimeout | .sealDone
  | .saveDeadlineOverrun | .dormantEntry | .restoreRefresh | .linkUp _ | .linkTrainRetry | .linkDown | .retrainTimeout
  | .upWaitExpiry | .statusSend | .timeReqSend | .lagEndSend | .replicaLineSend _ | .twResume
  | .twResync | .twRetrain | .faultCollect | .fcWindowClose _ | .nmtHandler _ | .chiprstWindowExpiry | .fcAck
  | .fcClrSticky | .fcRecordClear | .fcStickyClear _ _ | .fcForce _ _ | .fcInj _ | .tamperClr | .nonceLapse
  | .leaseLapse | .uartAutobaud _ | .conRxWake | .ibiRetry _ | .enec | .disec | .rstdaa | .entdaa _ | .setdasa _ _
  | .setnewda _ | .setmrl _ | .setmwl _ | .getpid | .getbcr | .getdcr | .getstatus | .getmrl | .getmwl | .otherCcc
  | .conHelp _ _ | .conShow _ _ _ | .conGet _ _ | .conSet _ _ _ | .conRd _ _ | .conCommit _ | .conCommitDiscard _
  | .glCommitWrite | .glDiscardWrite | .saveNowCmd _ | .calHold _ _ _ _ | .calEnable _ _ _ | .laneErase _ _ _ _
  | .laneReadmit _ _ _ _ | .ledgerRd _ _ _ _ | .ledgerWr _ _ _ _ _ _ _ | .keepConfigStore _ _ | .keepConfigLoad _ _
  | .faultAck _ | .faultClear _ _ | .faultForce _ _ _ _ | .faultInject _ _ | .faultConfig _ _ _ | .twinResume _
  | .twinResync _ | .twinRetrain _ | .traceShow _ _ _ | .authBegin _ | .authProve _ _ | .authEnd _
  | .lifecycleAdvance _ _ _ _ | .testMarch _ _ | .testRepair _ _ _ _ _ | .resetChip _ _ | .modeScript _ | .modeHuman _
  | .modeService _ | .caUnblock _ | .caClrUnblock | .caClrRsvhit | .caClrAlert | .discEnWrite | .trClear
  | .sensorConversion _ _ _ _ | .tapIdcode | .tapExtest _ | .tapSamplePreload _ _ | .trstNLow | .vauxRise
  | .vddqdRise | .vddqdLoss | .tamperNRelease => true

end Sys2Proof
end

