-- ==== Sys2Proof/Tests/Slice0.lean ====
section
/-! SUPPORT. Tests: ill-formed commands that `wellFormed` refuses, single steps whose expected results are worked from the
spec's own tables, and for every obligation a theorem that shows concrete states and operands which meet the hypotheses
of its clauses, each at a value of their range. -/

set_option Elab.async false

namespace Sys2Proof.Machine

/-! ### States -/

/-- A state with some fields set. -/
def withF (l : List (Field × Nat)) (s : State) : State := l.foldl (fun t e => setF e.1 e.2 t) s

/-- RUN.LIVE with every domain on, four ranks, clocks running, RDY high. -/
def tLive : State :=
  withF [(Fld.PM_MODE_SUB, subLive), (Fld.PM_MODE_WAITING, 0), (Fld.PM_DOMAIN_CORE, 1), (Fld.PM_DOMAIN_MGT, 1),
    (Fld.PM_DOMAIN_LDG, 1), (Fld.PM_DOMAIN_HIO, 1), (Fld.PM_DOMAIN_DIO, 1), (Fld.CK_STATUS_MCLK_LOCK, 1),
    (Fld.CK_STATUS_XOSC_RUN, 1), (Fld.CK_STATUS_HPLL_LOCK, 1), (Fld.CK_STATUS_HCK_PRESENT, 1),
    (Fld.CK_STATUS_RS_VALID, 1), (Fld.LD_STATUS_READY, 1)]
    { State.reset with boot := .up, pins := { State.reset.pins with rdy := true, pgood := true, vddqd := true } }

/-- SERVICE, RUN.TRAIN and HOLD of the same device; the same held by AONRST_N. -/
def tService : State := withF [(Fld.PM_MODE_MODE, modeService), (Fld.PM_MODE_SUB, 0)] tLive
def tTrain : State := withF [(Fld.PM_MODE_SUB, subTrain)] tLive
def tHold : State := withF [(Fld.PM_MODE_MODE, modeHold), (Fld.PM_MODE_SUB, 0)] tLive
def tHeld : State := { State.reset with boot := .held }
/-- A save at a step. -/
def tSave (n : Nat) : State := withF [(Fld.PM_MODE_SAVING, 1), (Fld.PS_STATUS_SAVING, 1), (Fld.PS_STATUS_STEP, n)] tLive
/-- The UART holds the console of the same device. -/
def tUart : State := setReg Fld.CN_SESS_HOLDER.addr 1 tLive
def tI3c : State := setReg Fld.CN_SESS_HOLDER.addr 2 tLive
/-- The twin link is up. -/
def tLink : State := withF [(Fld.TW_STATUS_LINK, 2), (Fld.GL_STRAP_TWIN_EN, 1), (Fld.TW_CFG_LINK_EN, 1)] tLive
/-- The park. -/
def tPark : State := withF [(Fld.CK_STATUS_PARKED, 1)] { tLive with clk := { tLive.clk with fits := true } }

/-- Command pins: one rank, two ranks, none, odd parity. -/
def pOne : CaPins := ⟨0xE, 0, 0, false, false, true, 0⟩
def pTwo : CaPins := ⟨0xC, 0, 0, false, false, true, 0⟩
def pNone : CaPins := ⟨0xF, 0, 0, false, false, true, 0⟩
def pOdd : CaPins := ⟨0xE, 1, 0, false, false, true, 0⟩

/-! ### Witnesses: the step, the state, registers and trace -/

theorem witness_EmptyQueueLetsOneTickPass :
    let run := { tLive with ca := { tLive.ca with probing := 1 } }
    let off := withF [(Fld.CB_CTRL_GAP_EN, 0)] run
    (tLive.pending = [] ∧ tLive.boot ≠ .held ∧ tLive.ca.probing = 0 ∧ xoscStopped tLive = false) ∧
    xoscStopped (withF [(Fld.CK_CTRL_KEEP_OSC, 0)] tLive) = true ∧ tHeld.pending = [] ∧
    (run.ca.probing ≠ 0 ∧ flag run Fld.CB_CTRL_GAP_EN = true) ∧
    (off.boot ≠ .held ∧ off.ca.probing ≠ 0 ∧ flag off Fld.CB_CTRL_GAP_EN = false ∧ off.cb.gaps = []) := by decide +kernel

theorem witness_Sound : Sound State.reset := by
  simp only [Sound, RegsOk, Bounded]; decide +kernel

theorem witness_EveryStepKeepsTheStateSound : Sound State.reset ∧ ∃ t, step State.reset = .next t :=
  ⟨witness_Sound, _, rfl⟩

theorem witness_CommandsLeaveTheQueueAlone : Sound State.reset ∧ ∃ t, exec .aonWrap State.reset = .next t :=
  ⟨witness_Sound, _, rfl⟩

theorem witness_ResetStateIsSound : ∃ r, regRow 0x0400 = some r ∧ 0x0400 ≠ Fld.GN_STATUS_ERASE_DONE.addr ∧
    r.addr ≠ Fld.FC_SRC_CLASS.addr ∧ r.addr ≠ Fld.FC_WIN_MS.addr :=
  ⟨_, rfl, by decide +kernel, by decide +kernel, by decide +kernel⟩

theorem witness_FieldWriteChangesOneField :
    let f := Fld.PM_MODE_MODE
    let g := Fld.PM_MODE_SUB
    f.lo ≤ f.hi ∧ f.hi < 32 ∧ BitVec.ofNat 32 (fieldMask f) &&& regMask f.addr = BitVec.ofNat 32 (fieldMask f) ∧
    g.addr = f.addr ∧ g.lo ≤ g.hi ∧ g.hi < 32 ∧ (g.hi < f.lo ∨ f.hi < g.lo) ∧
    reg tLive f.addr &&& regMask f.addr = reg tLive f.addr := by decide +kernel

theorem witness_TraceEntriesGoToRingOrFifo :
    traceMasked (withF [(Fld.TR_CTRL_MASK, 1)] tLive) 0x0201 = true ∧
    (let s := withF [(Fld.TR_STATUS_RUNNING, 1)] tLive
     traceMasked s 0x0201 = false ∧ flag s Fld.TR_STATUS_RUNNING = true ∧ flag s Fld.TR_CTRL_FREEZE = false) ∧
    (let s := withF [(Fld.TR_STATUS_RUNNING, 1), (Fld.TR_CTRL_FREEZE, 1)] tLive
     traceMasked s 0x0201 = false ∧ flag s Fld.TR_STATUS_RUNNING = true ∧ flag s Fld.TR_CTRL_FREEZE = true) ∧
    (traceMasked tLive 0x0201 = false ∧ flag tLive Fld.TR_STATUS_RUNNING = false ∧
      flag tLive Fld.MT_STATUS_TRACE_OUT = false ∧ tLive.tr.fifo.length < 63) := by decide +kernel

theorem witness_TransitionsAreRecorded : modeDormant < 8 ∧ 3 < 4 ∧ 0x10 < 256 := by decide

/-! ### Witnesses: power, reset and clocks -/

theorem witness_ResetPinClearsTheDevice : (0x0400 ≠ Fld.GN_STATUS_TAMPER_LATCH.addr ∧ 0x0400 ≠ Fld.GN_TAMPT_TIME.addr ∧
    0x0400 ≠ Fld.MT_STATUS_HCT_OUT.addr) ∧ tLive.mt.burn = none := by decide +kernel

theorem witness_SupplyPinsAreFollowed :
    let dark := fun (s : State) => { s with pins := { s.pins with pgood := false } }
    ((dark tLive).boot ≠ .held ∧ (dark tLive).pins.pgood = false ∧ inService (dark tLive) = false) ∧
    (let s := dark (withF [(Fld.PM_DOMAIN_CORE, 0)] tService)
     s.boot ≠ .held ∧ s.pins.pgood = false ∧ inService s = true ∧ coreOn s = false ∧ inSave s = false) ∧
    (tHold.boot ≠ .held ∧ tHold.pins.pgood = true ∧ inRun tHold = false ∧ inService tHold = false) ∧
    (tLive.boot ≠ .held ∧ tLive.pins.pgood = true ∧ served tLive = true) ∧
    (tService.boot ≠ .held ∧ tService.pins.pgood = true ∧ inService tService = true ∧ coreOn tService = true) ∧
    (tTrain.boot ≠ .held ∧ tTrain.pins.pgood = true ∧ inTrain tTrain = true ∧ inSave tTrain = false) ∧
    (dark tLive).pins.pgood = false ∧ tLive.pins.vddqd = true ∧
    ({ tLive with pins := { tLive.pins with vddqd := false } } : State).pins.vddqd = false ∧
    (State.reset.pins.given = false ∧ State.reset.pins.island = .reset) ∧
    (let s := { tLive with pins := { tLive.pins with island := .selfRefresh } }
     s.pins.given = false ∧ s.pins.island = .selfRefresh) := by decide +kernel

/-- A state at a place of the boot path. -/
def atPath (p : Path) (s : State) : State := { s with rs := { s.rs with path := p } }

theorem witness_StartUpAndColdBringUp :
    let ok : WakeUp := ⟨true, true, true⟩
    let bad : WakeUp := ⟨true, false, false⟩
    let chip := withF [(Fld.PM_LAST_CAUSE, 0x0E)] State.reset
    let cold := fun (p : Path) => atPath p tTrain
    tLive.boot = .up ∧ tHeld.boot = .held ∧
    (State.reset.boot = .starting ∧ afterChip State.reset = false ∧ ok.lockOk = true ∧ State.reset.sw.halted = false) ∧
    (chip.boot = .starting ∧ afterChip chip = true ∧ ok.lockOk = true ∧ chip.sw.halted = false) ∧
    (State.reset.boot = .starting ∧ bad.lockOk = false ∧ bad.retryOk = false) ∧
    (restoreConditions (cold .coldWait) = true ∧ (cold .coldWait).boot = .up ∧ (cold .coldWait).sw.halted = false ∧
      inTrain (cold .coldWait) = true ∧ (cold .coldWait).rs.path = .coldWait) ∧
    inTrain tLive = false ∧
    (inTrain (cold .coldReady) = true ∧ (cold .coldReady).rs.path = .coldReady ∧ hrstLow (cold .coldReady) = false) ∧
    rankList.all (rankProtected tTrain) = true ∧
    rankList.all (rankProtected (withF [(Fld.LG_RANK_ERASED.at 3, 1)] tTrain)) = false := by decide +kernel

theorem witness_HostClockEvents :
    let down := withF [(Fld.CK_CTRL_HRST_MODE, 0)] tLive
    let low := setF Fld.CK_STATUS_HRST_LOW 1
    (hostPins down = true ∧ hrstLow (low down) = true ∧ mayPark (low down) = true) ∧
    (let s := withF [(Fld.CK_CTRL_HRST_MODE, 1)] tLive
     hostPins s = true ∧ flag s Fld.CK_CTRL_HRST_MODE = true) ∧
    (hostPins tService = true ∧ mayPark (low tService) = false) ∧ hostPins tHold = false ∧
    hckPins tLive = true ∧ hckPins tHeld = false ∧
    (mayPark tLive = true ∧ within 4 (activeRate tLive + 192) (activeRate tLive) = true ∧
      within 4 (activeRate tLive + 193) (activeRate tLive) = false) ∧
    (coreOn tLive = true ∧ tLive.boot = .up ∧ saving tLive = false) ∧ coreOn State.reset = false ∧
    (flag tLive Fld.CK_STATUS_HPLL_LOCK = true ∧ flag tLive Fld.CK_STATUS_HPLL_REF_XOSC = false) ∧
    (parked tPark = true ∧ served tPark = true ∧ saving tPark = false ∧ hrstLow tPark = false ∧ tPark.clk.fits = true) ∧
    parked tLive = false ∧ (populated tLive 3 = true ∧ 3 < 4) := by decide +kernel

theorem witness_TickAndOscillatorEvents :
    let fail := withF [(Fld.CK_STATUS_XOSC_FAIL, 1)] tLive
    let stop := { tLive with clk := { tLive.clk with discStopped := true } }
    let last := { tLive with aon := BitVec.allOnes 48 }
    (mgtOn tLive = true ∧ tLive.boot ≠ .held ∧ flag tLive Fld.CK_STATUS_XOSC_RUN = true ∧
      flag tLive Fld.CK_STATUS_XOSC_FAIL = false ∧ flag tLive Fld.CK_TICK_DISC_EN = true ∧ tLive.clk.discStopped = false ∧ xoscStopped tLive = false) ∧
    xoscStopped (withF [(Fld.CK_CTRL_KEEP_OSC, 0)] tLive) = true ∧
    (stop.clk.discStopped = true ∧ mgtOn stop = true ∧ stop.boot ≠ .held) ∧
    (mgtOn fail = true ∧ flag fail Fld.CK_STATUS_XOSC_FAIL = true ∧ flag fail Fld.CK_STATUS_XOSC_RUN = true) ∧
    (last.boot ≠ .held ∧ last.aon = BitVec.allOnes 48) ∧ tLive.aon ≠ BitVec.allOnes 48 ∧
    stewardRuns tLive = true ∧ stewardRuns { tLive with sw := { tLive.sw with halted := true } } = false := by
  decide +kernel

/-! ### Witnesses: the command path -/

theorem witness_HostCommandsAreJudgedInOrder :
    let block := withF [(Fld.CA_STATUS_PAR_BLOCKED, 1)] tLive
    let two := withF [(Fld.CA_CFG_RANK_EN, 1)] tLive
    let grant := withF [(Fld.CA_STATUS_GRANT, 1), (Fld.CA_GRANT_RANKS, 1)] tLive
    let probing := { tLive with ca := { tLive.ca with probing := 1 } }
    hostLive tHold = false ∧ (hostLive tLive = true ∧ selected pNone = []) ∧
    (hostLive tLive = true ∧ selected pOdd ≠ [] ∧ getF tLive Fld.FC_INJ_CA_N = 0 ∧ flag tLive Fld.CA_PAR_MODE_EN = true ∧
      parityOdd pOdd = true) ∧
    (let inj := withF [(Fld.FC_INJ_CA_N, 1)] tLive
     hostLive inj = true ∧ selected pOne ≠ [] ∧ getF inj Fld.FC_INJ_CA_N ≠ 0) ∧
    (Clean pOne block ∧ flag block Fld.CA_STATUS_PAR_BLOCKED = true) ∧
    (Clean pTwo two ∧ flag two Fld.CA_STATUS_PAR_BLOCKED = false ∧ ∃ r ∈ selected pTwo, populated two r = false) ∧
    (Clean pOne grant ∧ (∀ r ∈ selected pOne, populated grant r = true) ∧
      ∃ r ∈ selected pOne, (grantedRanks grant).testBit r = true) ∧
    (Clean pOne probing ∧ (∀ r ∈ selected pOne, populated probing r = true) ∧
      (∀ r ∈ selected pOne, (grantedRanks probing).testBit r = false) ∧
      ∃ r ∈ selected pOne, probing.ca.probing.testBit r = true) ∧
    (Received pTwo tLive ∧ 1 < (selected pTwo).length) ∧
    flag (withF [(Fld.CA_PLOG0_VALID, 1)] tLive) Fld.CA_PLOG0_VALID = true ∧
    flag tLive Fld.CA_PLOG0_VALID = false ∧ flag tLive Fld.CA_PAR_MODE_MODE = true ∧
    flag (withF [(Fld.CA_PAR_MODE_MODE, 0)] tLive) Fld.CA_PAR_MODE_MODE = false := by
  simp only [Received, Clean, Whole, FreeRanks]; and_intros <;> decide +kernel

theorem witness_RowCommandsAreForwardedAndTracked :
    let lone := withF [(Fld.CA_CFG_RANK_EN, 1), (Fld.CA_CFG_QUIET, 1)] tLive
    Received pOne tLive ∧ (selected pOne).length = 1 ∧ Received pTwo tLive ∧ PreKind.ab ≠ .pb ∧
    (halfUsed tLive 0 = true ∧ onHalf pOne 0 = true) ∧ (halfUsed tLive 1 = true ∧ onHalf { pOne with hcsN := 0xB } 1 = true) ∧
    (halfUsed lone 1 = false ∧ onHalf pOne 1 = false ∧ flag lone Fld.CA_CFG_QUIET = true) ∧
    onHalf { pOne with hcsN := 0xB } 0 = false ∧ halfUsed (withF [(Fld.CA_CFG_RANK_EN, 8)] tLive) 0 = false := by
  simp only [Received, Clean, Whole, FreeRanks]; and_intros <;> decide +kernel

theorem witness_TrackedRowsFollowTheHost :
    Received pOne tLive ∧ (selected pOne).length = 1 ∧ 0 ∈ selected pOne ∧ rankOf pOne = 0 ∧ Received pTwo tLive ∧
    1 ∈ selected pTwo ∧ (3 < 4 ∧ 7 < 8 ∧ (3, 7, 3) ≠ (0, 7, 3)) ∧
    (fun (k : Nat) => decide (k = bankKey 3 7 3)) (bankKey 0 0 0) = false := by
  simp only [Received, Clean, Whole, FreeRanks]; and_intros <;> decide +kernel

/-- Row 0 of bank 0 in rank 0 is open, and lies under an aperture in force. -/
def tAper : State := trackOpen 0 0 0 5 (withF [(Fld.CA_APER_EN, 1)] tLive)

theorem witness_ReadsAndWritesGoToDramOrLedger :
    (Received pTwo tLive ∧ 1 < (selected pTwo).length) ∧
    (Received pOne (trackOpen 0 0 0 5 tLive) ∧ (selected pOne).length = 1 ∧
      openRow (trackOpen 0 0 0 5 tLive) (rankOf pOne) 0 0 = some 5 ∧
      aperOffset (trackOpen 0 0 0 5 tLive) (rankOf pOne) 0 0 5 = none) ∧
    (Received pOne tAper ∧ (selected pOne).length = 1 ∧ openRow tAper (rankOf pOne) 0 0 = some 5 ∧
      aperOffset tAper (rankOf pOne) 0 0 5 = some 5) := by
  simp only [Received, Clean, Whole, FreeRanks]; and_intros <;> decide +kernel

theorem witness_ModeRegisterCommands :
    (Received pOne tLive ∧ (239 : Byte).toNat < 240 ∧ mrwBad [.cl 40] = false) ∧ mrwBad [.burst false] = true ∧
    (240 : Byte).toNat = 240 ∧ (241 : Byte).toNat = 241 ∧ (255 : Byte).toNat = 255 ∧
    (246 : Byte).toNat = 240 + (6 : BitVec 4).toNat ∧ (tLive.dl.step ≠ 1 ∧ tLive.dl.step ≠ 2) ∧
    ({ tLive with dl := { tLive.dl with step := 2 } } : State).dl.step = 2 ∧
    ({ tLive with dl := { tLive.dl with step := 1 } } : State).dl.step = 1 := by
  simp only [Received, Clean, Whole, FreeRanks]; and_intros <;> decide +kernel

/-- tLive with a page of the buffer control words in force. -/
def tPage (n : Nat) : State := { tLive with ca := { tLive.ca with page := n } }
/-- The same with SAVE_ARM accepted. -/
def tArmed : State := { tPage 1 with ca := { (tPage 1).ca with arm := .armed } }

theorem witness_BufferControlWordWrites :
    BcwReceived pOne 1 (tPage 1) ∧ (0x54 : Byte) ≠ 0x53 ∧
    (BcwReceived pOne 1 (withF [(Fld.PS_CTRL_BCW_EN, 1)] tArmed) ∧ tArmed.ca.arm = .armed ∧
      flag (withF [(Fld.PS_CTRL_BCW_EN, 1)] tArmed) Fld.PS_CTRL_BCW_EN = true) ∧
    (BcwReceived pOne 1 (withF [(Fld.PS_CTRL_BCW_EN, 0)] tArmed) ∧
      flag (withF [(Fld.PS_CTRL_BCW_EN, 0)] tArmed) Fld.PS_CTRL_BCW_EN = false) ∧
    (tPage 1).ca.arm ≠ .armed ∧ (4 : Byte).toNat ≤ 4 ∧ 4 < (5 : Byte).toNat ∧ BcwReceived pOne 2 (tPage 2) ∧
    BcwReceived pOne 3 (tPage 3) ∧
    (BcwReceived pOne 3 (withF [(Fld.CA_STATUS_PAR_BLOCKED, 1)] (tPage 3)) ∧
      flag (withF [(Fld.CA_STATUS_PAR_BLOCKED, 1)] (tPage 3)) Fld.CA_STATUS_PAR_BLOCKED = true) ∧
    flag (tPage 3) Fld.CA_STATUS_PAR_BLOCKED = false ∧ (2 : Byte) ≠ 1 ∧
    BcwReceived pOne 4 (tPage 4) ∧ (0xC : Byte).toNat % 8 ≤ 4 ∧ 4 < (0xD : Byte).toNat % 8 := by
  simp only [BcwReceived, Whole, FreeRanks]; and_intros <;> decide +kernel

theorem witness_BufferControlWordReadsAndErrors :
    (BcwReceived pOne 0 (tPage 0) ∧ (selected pOne).length = 1 ∧ ¬ ((0 : Nat) = 0 ∧ (5 : BitVec 4) = 6) ∧
      bcwValue (breakArm (slotDeselect (heard pOne (tPage 0)))) 1 = some 0x68) ∧
    (BcwReceived pTwo 0 (tPage 0) ∧ 1 < (selected pTwo).length) ∧
    bcwValue (breakArm (slotDeselect (heard pOne (tPage 0)))) 7 = none ∧
    BcwReceived pOne 1 (tPage 1) ∧ BcwReceived pOne 2 (tPage 2) ∧ BcwReceived pOne 3 (tPage 3) ∧
    BcwReceived pOne 4 (tPage 4) ∧ 2 ≤ (2 : BitVec 4).toNat ∧ (14 : BitVec 4) ≠ 15 ∧ (0 : BitVec 4) ≠ 1 ∧
    (0 : BitVec 4) ≠ 5 := by
  simp only [BcwReceived, Whole, FreeRanks]; and_intros <;> decide +kernel

theorem witness_TimedHostPathEvents :
    let grant := withF [(Fld.CA_STATUS_GRANT, 1)] tLive
    let block := withF [(Fld.CA_STATUS_PAR_BLOCKED, 1)] tLive
    let due := { tLive with ca := { tLive.ca with probeDue := 8, grantPend := some 5, clearing := true },
                            dl := { tLive.dl with hold := true } }
    let shut := { withF [(Fld.CA_STATUS_PAR_BLOCKED, 1)] due with aon := 1 }
    (tArmed.ca.arm ≠ .none ∧ hostHeard tArmed = true) ∧ tLive.ca.arm = .none ∧
    (due.ca.grantPend = some 5 ∧ coreOn due = true) ∧ tLive.ca.grantPend = none ∧
    flag grant Fld.CA_STATUS_GRANT = true ∧ flag tLive Fld.CA_STATUS_GRANT = false ∧ due.ca.clearing = true ∧
    tLive.ca.clearing = false ∧ (hostLive block = true ∧ flag block Fld.CA_STATUS_PAR_BLOCKED = true) ∧
    flag tLive Fld.CA_STATUS_PAR_BLOCKED = false ∧ due.dl.hold = true ∧ tLive.dl.hold = false ∧
    (coreOn due = true ∧ due.ca.probeDue.testBit 3 = true ∧ probeOpen due 3 = true) ∧
    (coreOn shut = true ∧ shut.ca.probeDue.testBit 3 = true ∧ probeOpen shut 3 = false) ∧
    tLive.ca.probeDue.testBit 3 = false ∧ coreOn State.reset = false ∧
    (let s := { tLive with ca := { tLive.ca with timings := some ⟨32000, 14160, 7500, 14160, 30000, 38⟩ } }
     (∀ g ∈ s.cb.gaps, g.rank ≠ 3) ∧ fitRead s = true) ∧ fitRead tLive = false ∧
    (coreOn tLive = true ∧ flag tLive Fld.CA_STATUS_SAVE_BLOCK = false) := by
  and_intros <;> decide +kernel

theorem witness_GrantBelongsToItsRanks :
    let s := { tLive with ca := { tLive.ca with grantRank := 9 } }
    (flag s Fld.CA_STATUS_GRANT = false ∧ s.ca.grantPend = none ∧ s.ca.grantRank &&& rankEn s ≠ 0 ∧ 13 % 8 ≤ 5 ∧
      ∀ r ∈ rankList, (s.ca.grantRank &&& rankEn s).testBit r = true → rankOpen s r = false) ∧
    tLive.ca.grantRank &&& rankEn tLive = 0 ∧ 5 < 6 % 8 ∧
    3 ∈ bitsOf 4 (grantedRanks (withF [(Fld.CA_STATUS_GRANT, 1), (Fld.CA_GRANT_RANKS, 8)] tLive)) := by decide +kernel

/-! ### Witnesses: data and Lane Guard -/

/-- An open burst of a kind, opened with the settings of a state. -/
def tBurst (k : BurstKind) (s : State) : OpenBurst := openBurst 0 0 0 5 0 0 k s
/-- A state with one open write, or one open read. -/
def tWrite (k : BurstKind) (s : State) : State := { s with dl := { s.dl with writes := [tBurst k s] } }
def tRead (k : BurstKind) (s : State) : State := { s with dl := { s.dl with reads := [tBurst k s] } }

theorem witness_DataWithoutACommandIsIgnored :
    tLive.dl.writes = [] ∧
    (coreOn (tWrite .dropped tLive) = true ∧ (tWrite .dropped tLive).dl.writes = [tBurst .dropped tLive] ∧
      (tBurst .dropped tLive).kind = .dropped) ∧
    (hostLive tLive = true ∧ selected pOdd ≠ [] ∧ getF tLive Fld.FC_INJ_CA_N = 0 ∧ flag tLive Fld.CA_PAR_MODE_EN = true ∧
      parityOdd pOdd = true) ∧
    (let h := probeEnds pTwo (heard pTwo tLive)
     selected pTwo ≠ [] ∧ getF h Fld.FC_INJ_CA_N = 0 ∧ parityOdd pTwo = false ∧
      flag h Fld.CA_STATUS_PAR_BLOCKED = false ∧ illCode false true false pTwo h = some 1) ∧
    (Received pTwo tLive ∧ 1 < (selected pTwo).length) := by
  simp only [Received, Clean, Whole, FreeRanks]; and_intros <;> decide +kernel

theorem witness_WriteBurstsReachDramOrLedger :
    let crc := withF [(Fld.HL_SNOOP_WRCRC_ON, 1), (Fld.HL_CFG_CRC_CHECK, 1)] tLive
    coreOn State.reset = false ∧ (coreOn tLive = true ∧ (tBurst .dram tLive).kind = .dram) ∧
    (tWrite .dram tLive).dl.writes = [tBurst .dram tLive] ∧
    (tWrite (.aperture 0 false) tLive).dl.writes = [tBurst (.aperture 0 false) tLive] ∧
    (tWrite (.aperture 31743 true) tLive).dl.writes = [tBurst (.aperture 31743 true) tLive] ∧
    snooped (tBurst .dram tLive) Fld.HL_SNOOP_WRCRC_ON = 0 ∧
    (snooped (tBurst .dram crc) Fld.HL_SNOOP_WRCRC_ON = 1 ∧ flag crc Fld.HL_CFG_CRC_CHECK = true ∧ 4 < 5) ∧
    flag (withF [(Fld.HL_CFG_CRC_CHECK, 0)] tLive) Fld.HL_CFG_CRC_CHECK = false ∧
    inDrain tLive = false ∧ inDrain { withF [(Fld.CA_STATUS_SAVE_BLOCK, 1)] (tSave 3) with
      ps := { tLive.ps with s1Ended := true } } = true ∧ (8 : BitVec 4) ≠ 0 := by decide +kernel

/-- A sweep of lane 5 of rank 0 that has begun. -/
def tSwp (k8 ending : Bool) : Sweep := ⟨0, 5, 0, 0, noScans 8, 0, none, k8, ending⟩
/-- A table of one row in force: words 0 and 1 of the row, and word 0 of C. -/
def tCode (w0 w1 c : Word) : State :=
  { withF [(Fld.LG_STATUS_HCT_LOADED, 1)] tLive with
    lg := { tLive.lg with table := ⟨smSet (zeroDefault 32) (smSet (zeroDefault 32)
      (smSet (zeroDefault 32) [] 0 w0) 1 w1) 2560 c, 1⟩ } }

theorem witness_ReadBurstsAreJudgedByRankState :
    let pat := withF [(Fld.HL_SNOOP_PATTERN, 1)] tLive
    let check := withF [(Fld.LG_STATUS_CHECK_IN_FORCE, 1)] tLive
    let erased := withF [(Fld.LG_RANK_ERASED.at 0, 1)] tLive
    let sweep := { tLive with cb := { tLive.cb with sweep := some (tSwp false false) } }
    let tail := { tBurst .dram tLive with swept := some 5 }
    tLive.dl.reads = [] ∧ (tRead (.aperture 3 true) tLive).dl.reads = [tBurst (.aperture 3 true) tLive] ∧
    (tRead .mrr tLive).dl.reads = [tBurst .mrr tLive] ∧
    ((tRead .dram pat).dl.reads = [tBurst .dram pat] ∧ served (tRead .dram pat) = true ∧ patternOn (tBurst .dram pat) = true) ∧
    (served (tRead .dram erased) = true ∧ patternOn (tBurst .dram erased) = false ∧
      rankProtected (tRead .dram erased) (tBurst .dram erased).rank = false) ∧
    (served tLive = true ∧ rankProtected tLive tail.rank = true ∧ tail.swept = some 5 ∧ patternOn tail = false) ∧
    (served (tRead .dram sweep) = true ∧ rankProtected (tRead .dram sweep) 0 = true ∧
      (tBurst .dram sweep).swept = none ∧ (tRead .dram sweep).cb.sweep = some (tSwp false false) ∧ (tSwp false false).rank = 0) ∧
    (served (tRead .dram check) = true ∧ rankProtected (tRead .dram check) 0 = true ∧ (tBurst .dram check).swept = none ∧
      (tRead .dram check).cb.sweep = none ∧ flag (tRead .dram check) Fld.LG_STATUS_CHECK_IN_FORCE = true) ∧
    flag (withF [(Fld.LG_STATUS_CHECK_IN_FORCE, 0)] tLive) Fld.LG_STATUS_CHECK_IN_FORCE = false ∧
    (hctPasses tLive (ofHostLanes (sweptLine tLive [0, 0, 0, 0, 0, 0] 5)) = true ∧ (tSwp false false).kind8 = false ∧
      (tSwp false false).ending = false) ∧
    (let never := { tCode 0 0 1 with cb := { tLive.cb with sweep := some (tSwp false false) } }
     hctPasses never (ofHostLanes (sweptLine never [0, 0, 0, 0, 0, 0] 5)) = false ∧
      never.cb.sweep = some (tSwp false false)) := by
  and_intros <;> decide +kernel

theorem witness_ParityRebuildsOneLane : [7, 1, 2, 3, 4, 3].length = 6 ∧ 5 < 6 ∧ xorAll [7, 1, 2, 3, 4, 3] = 0 := by decide

theorem witness_ProtectedReadsFollowTableLG1 :
    let open' := withF [(Fld.LG_STATUS_HCT_LOADED, 1)] tLive
    let never := tCode 0 0 1
    let par := tCode 0x01010101 1 0
    let one := tCode 1 0 0
    (xorAll [0, 0, 0, 0, 0, 0] = 0 ∧ flag tLive Fld.LG_STATUS_HCT_LOADED = false) ∧
    (flag never Fld.LG_STATUS_HCT_LOADED = true ∧ hctPasses never (ofHostLanes (rawLine never [0, 0, 0, 0, 0, 0])) = false) ∧
    xorAll [1, 0, 0, 0, 0, 0] ≠ 0 ∧
    (flag par Fld.LG_STATUS_HCT_LOADED = true ∧ xorAll [0, 0, 0, 0, 0, 1] ≠ 0 ∧ trials par [0, 0, 0, 0, 0, 1] = [] ∧
      hctPasses par (ofHostLanes (rawLine par [0, 0, 0, 0, 0, 1])) = true) ∧
    (trials one [1, 0, 0, 0, 0, 0] = [(0, [0, 0, 0, 0, 0])] ∧
      hctPasses one (ofHostLanes (rawLine one [1, 0, 0, 0, 0, 0])) = false) ∧
    (trials never [1, 0, 0, 0, 0, 0] = [] ∧
      hctPasses never (ofHostLanes (rawLine never [1, 0, 0, 0, 0, 0])) = false) ∧
    ((0, [0, 0, 0, 0, 0]) ∈ trials open' [1, 0, 0, 0, 0, 0] ∧
      hctPasses open' (ofHostLanes (rawLine open' [1, 0, 0, 0, 0, 0])) = true) := by
  and_intros <;> decide +kernel

/-- tLive with the state of a table load. -/
def tPend (p : HctPend) (rows : Nat) (unload : Bool) : State :=
  { tLive with lg := { tLive.lg with pend := p, hctRows := rows, unloadDue := unload,
                                     hct := smSet (zeroDefault 32) [] 1 1 } }

theorem witness_HostCodeTableCommands :
    (coreOn tLive = true ∧ flag tLive Fld.LG_HCTC_LOADED = false ∧ flag tLive Fld.LG_HCTC_PENDING = false ∧
      flag tLive Fld.MT_STATUS_HCT_OUT = false) ∧
    coreOn State.reset = false ∧ flag (withF [(Fld.LG_HCTC_PENDING, 1)] tLive) Fld.LG_HCTC_PENDING = true ∧
    flag (withF [(Fld.LG_HCTC_LOADED, 1)] tLive) Fld.LG_HCTC_LOADED = true ∧
    flag (withF [(Fld.MT_STATUS_HCT_OUT, 1)] tLive) Fld.MT_STATUS_HCT_OUT = true ∧
    tLive.lg.pend ≠ .verifying ∧
    ((tPend .verifying 1 false).lg.pend = .verifying ∧ hctReject (windowTable (tPend .verifying 1 false)) = 0) ∧
    ((tPend .verifying 0 false).lg.pend = .verifying ∧ hctReject (windowTable (tPend .verifying 0 false)) ≠ 0) ∧
    ((tPend (.load true) 1 false).lg.pend = .load true ∧ (tPend (.load true) 1 false).lg.unloadDue = false ∧
      (tPend (.load true) 1 false).cb.sweep = none) ∧
    ((tPend .none 0 true).lg.pend = .none ∧ (tPend .none 0 true).lg.unloadDue = true ∧
      (tPend .none 0 true).cb.sweep = none) := by and_intros <;> decide +kernel

/-- tLive with a failure of a lane that waits. -/
def tFail (second : Bool) : State := { tLive with lg := { tLive.lg with fails := [⟨3, 5, 1, second⟩], readmit := [3] } }

theorem witness_RankStatesChangeAtBoundaries :
    let inc := { withF [(Fld.LG_CTRL_AUTO_ERASE, 1)] tLive with
      lg := { tLive.lg with decide := true, inc := smSet (zeroDefault 32) [] 23 1 } }
    flag (withF [(Fld.LG_CTRL_AUTO_ERASE, 0)] tLive) Fld.LG_CTRL_AUTO_ERASE = false ∧ tLive.lg.decide = false ∧
    (23 < 24 ∧ inc.lg.decide = true ∧ inc.sw.halted = false ∧ flag inc Fld.LG_CTRL_AUTO_ERASE = true ∧
      rankProtected inc (23 / 6) = true ∧ (smGet (zeroDefault 32) inc.lg.inc 23).toNat ≠ 0 ∧
      (∀ j, j < 24 → j ≠ 23 → smGet (zeroDefault 32) inc.lg.inc j = 0) ∧ getF inc Fld.LG_POLICY_ERASE_SHARE ≤ 100) ∧
    (tFail false).lg.fails.find? (fun f => f.rank = 3 && !f.second) = some ⟨3, 5, 1, false⟩ ∧
    (∀ f ∈ (tFail true).lg.fails, f.rank = 3 → f.second = true) ∧
    ((tFail true).lg.fails.find? (fun f => f.rank = 3 && f.second) = some ⟨3, 5, 1, true⟩ ∧
      rankErased (withF [(Fld.LG_RANK_ERASED.at 3, 1)] (tFail true)) 3 = true) ∧
    (∀ f ∈ (tFail false).lg.fails, f.rank = 3 → f.second = false) ∧
    3 ∉ tLive.lg.readmit ∧ 3 ∈ (tFail false).lg.readmit ∧ flag tLive Fld.LG_POLICY_SECOND_WIN = true ∧
    flag (withF [(Fld.LG_POLICY_SECOND_WIN, 0)] tLive) Fld.LG_POLICY_SECOND_WIN = false ∧
    (3 < 4 ∧ 5 < 6) ∧ 5 = parLane tLive ∧ 4 ≠ parLane tLive := by and_intros <;> decide +kernel

/-! ### Witnesses: calibration -/

/-- The limits as tLive has them, and the dwells of one bit: offsets clean but for one wrong bit of 4096, which tilts the
weighted samples to either side, and the first offset outside. -/
def dwellOk : Tally := ⟨2048, 0, 2048, 0⟩
def dwellUp : Tally := ⟨2048, 0, 2048, 1⟩
def dwellDown : Tally := ⟨2048, 1, 2048, 0⟩
def outUp : Tally := ⟨2048, 0, 2048, 4⟩
def outDown : Tally := ⟨2048, 4, 2048, 0⟩
/-- A side of `n` offsets of one kind and the first offset outside. -/
def side (n : Nat) (x : Tally) : List Tally := List.replicate n x ++ [outDown]
/-- A bit from −20 to +20 taps and -50 to +50 steps, with the median at voltage dwell `m` of the bottom side. -/
def tScan (m : Nat) : BitScan := ⟨side 20 dwellOk, side 19 dwellOk,
  List.replicate m dwellDown ++ [dwellOk] ++ List.replicate (49 - m) dwellUp ++ [outUp], side 49 dwellDown⟩
/-- A bit whose left edge is nowhere in the range. -/
def tWide : BitScan := ⟨List.replicate 64 dwellOk, side 19 dwellOk, [], []⟩
/-- A host-side trial of such bits. -/
def tHost (n : Nat) (b : BitScan) : Scan := ⟨limNow tLive, repNow tLive, false, List.replicate n b⟩
/-- tLive with that trial running on a lane. -/
def tEval (lane : Nat) (x : Scan) : State := { tLive with cb := { tLive.cb with hosts := [(lane, x)] } }

/-- tLive, which Lane Guard serves for a sweep of every lane-rank. -/
def tServe : State := withF [(Fld.LG_STATUS_HCT_LOADED, 1), (Fld.LG_STATUS_CHECK_IN_FORCE, 1)] tLive
/-- A sweep of lane 5 of rank 3: its trial under way, and trial A when it has passed. -/
def tSweepOf (b : BitScan) (first : Option TrialResult) : Sweep :=
  ⟨3, 5, limNow tLive, repNow tLive, List.replicate 8 b, 65536, first, false, false⟩
/-- tServe in that sweep, with the codes of the lane-rank in force. -/
def tSweep (w : Sweep) : State := setKnown (scopeRead 3 5) true { tServe with cb := { tServe.cb with sweep := some w } }
/-- The figures of the sweep's trial. -/
def tFigures (w : Sweep) : TrialResult := trialResult (trialOf .double (edgeThr w.rep) w.bits)
/-- A gap trial of rank 3 on lane 5, with both runs of such bits, or a run still to come. -/
def tGap (write hit : Bool) (lanes : Nat) (b : BitScan) : GapTrial :=
  ⟨3, write, limNow tLive, repNow tLive, lanes, List.replicate 6 (List.replicate 8 b), List.replicate 6 (List.replicate 8 b),
    0, 0, none, true, hit⟩
def tGaps (g : GapTrial) : State := { tLive with cb := { tLive.cb with gaps := [g] } }

theorem witness_HostSideCalibration :
    let good := tHost 8 (tScan 0)
    let wide := tHost 8 tWide
    let new := tHost 8 noScan
    let why := fun (x : Scan) => acceptReason x.lim ⟨true, false, false⟩ (hostTrialOf x) (trialResult (hostTrialOf x))
      (codesInRange (hostCodes tLive 4 (trialResult (hostTrialOf x))))
    (hostLaneFree tLive 0 = true ∧ hostLaneFree tLive 5 = true ∧ hostLaneFree tHold 4 = false) ∧
    (hostScan tLive 4 = none ∧ hostScan tLive 5 = none) ∧
    (hostScan (tEval 4 new) 4 = some new ∧ hostDone new = false) ∧
    (hostScan (tEval 4 wide) 4 = some wide ∧ hostDone wide = true ∧ why wide = 7) ∧
    (hostScan (tEval 4 good) 4 = some good ∧ hostDone good = true ∧ why good = 0 ∧
      knownScope (tEval 4 good) (scopeHost 4) = false) ∧
    (hostScan (tEval 5 (tHost 19 noScan)) 5 = some (tHost 19 noScan) ∧ hostDone (tHost 19 noScan) = false) ∧
    (hostScan (tEval 5 (tHost 19 (tScan 0))) 5 = some (tHost 19 (tScan 0)) ∧ (tHost 19 (tScan 0)).bits.length = 19 ∧
      hostDone (tHost 19 (tScan 0)) = true) ∧
    (hostLaneFree tLive 4 = true ∧ flag tLive Fld.CB_HPOL_STALE_AFTER = true ∧ 4 ≠ 5) ∧ hostLaneFree tHold 5 = false ∧
    flag (withF [(Fld.CB_HPOL_STALE_AFTER, 0)] tLive) Fld.CB_HPOL_STALE_AFTER = false := by and_intros <;> decide +kernel

theorem witness_DramSideCalibration :
    let a := tFigures (tSweepOf (tScan 0) none)
    let one := tSweepOf (tScan 0) none
    let two := tSweepOf (tScan 0) (some a)
    let far := tSweepOf (tScan 0) (some (tFigures (tSweepOf (tScan 8) none)))
    let bad := tSweepOf tWide none
    let why := fun (w : Sweep) => acceptReason w.lim ⟨true, true, true⟩ (trialOf .double (edgeThr w.rep) w.bits) (tFigures w)
      (codesInRange (readCodes (tSweep w) w.rank w.lane (tFigures w)))
    let runs := fun (w : Sweep) => decide ((tSweep w).cb.sweep = some w) && !w.kind8 && !w.ending && sweepDone w
    (dramEngines tServe = true ∧ flag tServe Fld.CB_CTRL_SWEEP_EN = true ∧ tServe.cb.sweep = none ∧ nextSweep tServe = some 0) ∧
    (nextSweep tLive = none ∧ dramEngines tHold = false) ∧
    (runs one = true ∧ knownScope (tSweep one) (scopeRead 3 5) = true ∧ why one = 0 ∧ one.first = none) ∧
    (runs bad = true ∧ why bad ≠ 0) ∧
    (runs far = true ∧ why far = 0 ∧ far.first = some (tFigures (tSweepOf (tScan 8) none)) ∧
      agree far.rep true (tFigures (tSweepOf (tScan 8) none)) (tFigures far) = false) ∧
    (runs two = true ∧ two.first = some a ∧ agree two.rep true a (tFigures two) = true ∧
      codesInRange (readCodes (tSweep two) 3 5 (meanResult a (tFigures two))) = true) ∧
    sweepDone { one with beats := 65535 } = false ∧
    ({ one with ending := true } : Sweep).ending = true ∧ ({ one with kind8 := true } : Sweep).kind8 = true := by
  and_intros <;> decide +kernel

theorem witness_DramSideCalibration_gap :
    let held := withF ((List.range 6).map (fun d => (Fld.DL_CTRL_CAL_HOLD.lane d, 1))) tLive
    let whole := tGap true false 32 (tScan 0)
    let hit := tGap false true 32 (tScan 0)
    (dramEngines tLive = true ∧ flag tLive Fld.CB_CTRL_GAP_EN = true ∧ populated tLive 3 = true ∧
      (∀ h ∈ tLive.cb.gaps, h.rank ≠ 3) ∧ gapLanes tLive 3 true ≠ 0) ∧
    (dramEngines held = true ∧ flag held Fld.CB_CTRL_GAP_EN = true ∧ populated held 3 = true ∧
      (∀ h ∈ held.cb.gaps, h.rank ≠ 3) ∧ gapLanes held 3 true = 0) ∧
    (∃ h ∈ (tGaps whole).cb.gaps, h.rank = 3) ∧ tLive.cb.gaps.find? (fun h => h.rank = 3) = none ∧
    ((tGaps whole).cb.gaps.find? (fun h => h.rank = 3) = some whole ∧ gapComplete whole = true ∧ whole.hit = false ∧
      whole.write = true) ∧
    ((tGaps hit).cb.gaps.find? (fun h => h.rank = 3) = some hit ∧ gapComplete hit = true ∧ hit.hit = true) ∧
    (gapComplete { hit with hit := false } = true ∧ hit.write = false) ∧
    gapComplete (tGap true false 32 noScan) = false := by and_intros <;> decide +kernel

theorem witness_ImpedanceDutyAndStarvation :
    let top := withF [(Fld.DL_DRV_DCC.lane 5, 31)] tLive
    let low := setF (Fld.HL_DRV_DCC.lane 0) 32 tLive
    let held := withF [(Fld.DL_CTRL_CAL_HOLD.lane 5, 1)] { tLive with cb := { tLive.cb with heldDram := 32 } }
    (coreOn tLive = true ∧ inRun tLive = true ∧ flag tLive Fld.CB_CTRL_ZQ_EN = true) ∧
    flag (withF [(Fld.CB_CTRL_ZQ_EN, 0)] tLive) Fld.CB_CTRL_ZQ_EN = false ∧ inRun tHold = false ∧
    (calHeld held true 5 = true ∧ 5 ∉ freeLanes held true) ∧ 5 ∈ freeLanes tLive true ∧ 0 ∈ freeLanes tLive false ∧
    (flag tLive Fld.CB_CTRL_DCC_EN = true ∧ -32 < getS tLive (Fld.DL_DRV_DCC.lane 5) ∧ getS tLive (Fld.DL_DRV_DCC.lane 5) < 31) ∧
    (coreOn top = true ∧ inRun top = true ∧ flag top Fld.CB_CTRL_DCC_EN = true ∧ getS top (Fld.DL_DRV_DCC.lane 5) = 31) ∧
    getS low (Fld.HL_DRV_DCC.lane 0) = -32 ∧
    flag (withF [(Fld.CB_CTRL_DCC_EN, 0)] tLive) Fld.CB_CTRL_DCC_EN = false ∧
    (pendF (Fld.DL_DRV_DCC.lane 5) 1 tLive).cb.pend ≠ [] ∧ tLive.cb.pend = [] ∧ tLive.committed = [] := by
  and_intros <;> decide +kernel

theorem witness_PendingCodesWaitForTheirBoundary :
    let s := pendF (Fld.DL_DRV_DCC.lane 5) 1 (pendF (Fld.HL_DRV_DCC.lane 4) 1 tLive)
    let p := fun (a : Nat) => decide (a = (Fld.DL_DRV_DCC.lane 5).addr)
    p (Fld.HL_DRV_DCC.lane 4).addr = false ∧ (applyPend p s).cb.pend ≠ [] ∧
    ∃ e ∈ s.cb.pend, p e.1 = false := by decide +kernel

theorem witness_EyeEdgesAreFoundBySearch :
    tallyValid 10 ⟨2048, 0, 2048, 0⟩ = true ∧ tallyValid 10 ⟨2048, 0, 2047, 0⟩ = false ∧
    tallyOutside 10 ⟨2048, 2, 2048, 2⟩ = true ∧ tallyOutside 10 ⟨2048, 2, 2048, 1⟩ = false ∧
    search 10 64 (side 63 dwellOk) 0 = .found 63 ∧ search 10 64 (List.replicate 64 dwellOk) 0 = .missing ∧
    search 10 64 (List.replicate 63 dwellOk) 0 = .dwell 63 ∧ search 10 64 [dwellOk, ⟨1, 1, 0, 0⟩] 0 = .dwell 1 ∧
    bitDone .single 10 (tScan 0) = true ∧ bitDone .write 10 tWide = true ∧ bitDone .acquire 10 noScan = false ∧
    (noScan.l.length ≤ 64 ∧ noScan.r.length ≤ 63 ∧ noScan.b.length ≤ bottomMax .double ∧ noScan.t.length ≤ 127) ∧
    (bitEye .single 10 { tScan 0 with l := side 63 dwellOk }).l = some (-63) ∧ (bitEye .single 10 (tScan 0)).r = some 20 ∧
    (bitEye .single 10 (tScan 0)).t = some 50 ∧ (bitEye .double 10 (tScan 0)).b = some (-51) := by decide +kernel

theorem witness_AcceptanceTestsInOrder :
    let eye := fun (l r : Int) (h : Int) => (⟨some l, some r, some h, some (-h)⟩ : BitEye)
    let r := fun (t : Trial) (ok : Bool) => acceptReason (limNow tLive) ⟨true, true, true⟩ t (trialResult t) ok
    r ⟨[⟨none, some 60, some 100, some (-100)⟩], 0⟩ true = 7 ∧ r ⟨[eye 0 1 0], 0⟩ true = 2 ∧
    r ⟨[eye (-60) 60 0], 0⟩ true = 3 ∧ r ⟨[eye (-20) 200 100], 0⟩ true = 1 ∧
    r ⟨[eye (-60) 60 100], 215700⟩ true = 4 ∧ r ⟨[eye (-60) 60 100], 0⟩ true = 0 ∧
    r ⟨[eye (-60) 60 100], 0⟩ false ≠ 0 := by decide +kernel

/-! ### Witnesses: the ledger and the memory test -/

theorem witness_LedgerWordsAreProtected : 71 < 72 ∧ 0 < 72 ∧ 71 ≠ 0 := by decide

theorem witness_LedgerLinesReadBack : wordKey 16383 9 ≠ wordKey 0 0 := by decide

/-- tLive with a line chosen for the window, one word waiting to be written back, and a bank scanned. -/
def tWin (l : Nat) : State :=
  withF [(Fld.LD_EA_LINE, l)] { tLive with ld := { tLive.ld with scrub := [5], scanning := [14] } }

theorem witness_LedgerPortCommands :
    let busy := withF [(Fld.LD_ECMD_BUSY, 1)] tLive
    let slow := withF [(Fld.LD_STATUS_READY, 0)] tLive
    let load := withF [(Fld.LD_STATUS_RELOADING, 1)] tLive
    let mirror := withF [(Fld.LD_CFG_AUTO_RETAIN, 1), (Fld.LD_CFG_REPL_HOST, 0), (Fld.LD_STATUS_MIRROR_IN_FORCE, 1)] tLive
    let parked := setBitF Fld.LD_STATUS_PARKED 6 true tLive
    flag busy Fld.LD_ECMD_BUSY = true ∧ coreOn State.reset = false ∧
    (coreOn slow = true ∧ flag slow Fld.LD_ECMD_BUSY = false ∧ portERefused slow false (getF slow Fld.LD_EA_LINE) = true) ∧
    (flag (tWin slotFirst) Fld.LD_ECMD_BUSY = false ∧
      portERefused (tWin slotFirst) true (getF (tWin slotFirst) Fld.LD_EA_LINE) = true) ∧
    (coreOn (tWin 7) = true ∧ flag (tWin 7) Fld.LD_ECMD_BUSY = false ∧ flag (tWin 7) Fld.LD_STATUS_READY = true ∧
      portEBusy (tWin 7) = false ∧ portERefused (tWin 7) true (getF (tWin 7) Fld.LD_EA_LINE) = false) ∧
    (coreOn load = true ∧ flag load Fld.LD_ECMD_BUSY = false ∧ portEBusy load = true ∧ portERefused load false 0 = false ∧
      portERefused load true 0 = false) ∧
    tLive.ld.scrub = [] ∧ ((tWin 7).ld.scrub = [5] ∧ (judgeStored (ledgerStored (tWin 7) 5) 0).1.ue = false) ∧
    (flag mirror Fld.LD_STATUS_READY = true ∧ served mirror = true ∧ flag mirror Fld.LD_CFG_AUTO_RETAIN = true ∧
      flag mirror Fld.LD_CFG_REPL_HOST = false ∧ flag mirror Fld.LD_STATUS_MIRROR_IN_FORCE = true ∧
      mirror.ld.cfgNext = none ∧ 14 ∉ mirror.ld.scanning) ∧
    flag tLive Fld.LD_CFG_AUTO_RETAIN = false ∧
    (bankParked parked 14 = true ∧ tagAgrees (writeTag 14 parked) 14 = true ∧ bankParked (writeTag 14 parked) 14 = true ∧
      parked.ld.cfgNext = none) ∧ bankParked tLive 14 = false ∧ 14 ∉ tLive.ld.scanning ∧
    (portEBusy (tWin 7) = false ∧ 14 ∈ (tWin 7).ld.scanning ∧ (scanCounts (tWin 7).ld.words (inBank 14)).1 = 0 ∧
      (scanCounts (tWin 7).ld.words (inBank 14)).2 ≤ getF (tWin 7) Fld.LD_RETAIN_CORR_MAX ∧
      (scanCounts (tWin 7).ld.words (inBank 14)).2 = 0) := by and_intros <;> decide +kernel

/-- A descriptor of an opcode, of width 1 and with the given flags, on line 0. -/
def dLine (o fl : Nat) : BitVec 640 := BitVec.ofNat 640 (o + 1 * 2 ^ 16 + fl * 2 ^ 24)
/-- That descriptor waiting in slot 511, with the status of its checks and the verdict of the replay guard. -/
def tOp (o fl status : Nat) (replay : Bool) : State :=
  { tLive with ld := { tLive.ld with ops := [⟨511, dLine o fl, tLive.lg.table, status, replay⟩] } }

theorem witness_OpSlotsExecuteInOrder :
    let o := fun (s : State) => s.ld.ops.head?
    tLive.ld.ops = [] ∧
    (∀ k ∈ [opcClear, opcRead, opcAdd, opcSwap, opcCas],
      (o (tOp k 0 0 false)).map (fun d => (descOpcode d.line.toNat, d.status, d.replay)) = some (k, 0, false) ∧
      (o (tOp k 8 0 true)).map (fun d => (descOpcode d.line.toNat, d.status, d.replay)) = some (k, 0, true) ∧
      (o (tOp k 16 0x12 false)).map (fun d => (descOpcode d.line.toNat, d.status)) = some (k, 0x12)) ∧
    ((o (tOp 0xFF 0 0x11 false)).map (fun d => opcKnown (descOpcode d.line.toNat)) = some false) ∧
    descOnce (dLine opcAdd 0).toNat = false ∧ descOnce (dLine opcAdd 8).toNat = true := by and_intros <;> decide +kernel

theorem witness_AtomicResultsAreRight :
    255 < 2 ^ (8 * 1) ∧ 2 ^ 64 - 1 < 2 ^ (8 * 8) ∧ descOpcode (dLine opcSwap 0).toNat = opcSwap ∧
    (descOpcode (dLine opcCas 0).toNat = opcCas ∧ 0 = descOperand (dLine opcCas 0).toNat 8 ∧
      1 ≠ descOperand (dLine opcCas 0).toNat 8) ∧ descOpcode (dLine opcRead 0).toNat = opcRead := by decide +kernel

/-- The first read of March C− of word 0 of ledger bank 15, background 0, which expects 0, and what it returned. -/
def mRead (d : BitVec 72) : MarchRead := ⟨15, false, 0, 1, 0, 0, d⟩
/-- A run of every target in SERVICE, with the spare pass. -/
def tMarch : State :=
  let s := withF [(Fld.MT_STATUS_BUSY, 1)] tService
  { s with mt := { s.mt with ctrl := 0x001F02F0, banks := 0x0000FFFF } }

theorem witness_MarchAndBurnCommands :
    let run := withF [(Fld.MT_STATUS_BUSY, 1)] tService
    let burn := { withF [(Fld.MT_STATUS_BUSY, 1), (Fld.MT_STATUS_BURNING, 1)] tService with
      mt := { tService.mt with burn := some (15, 3, 71) } }
    (flag tService Fld.MT_STATUS_BUSY = false ∧ saving tService = false ∧ marchAllowed tService = true) ∧
    marchAllowed tLive = false ∧ saving (tSave 3) = true ∧ marchBusy tLive = false ∧ marchBusy run = true ∧
    (inService tService = true ∧ coreOn tService = true ∧ lcState tService ≠ 4 ∧ flag tService Fld.MT_STATUS_BUSY = false ∧
      burnBad tService 15 3 71 = false) ∧
    inService tLive = false ∧ lcState (withF [(Fld.GN_LC_STATE, 4)] tService) = 4 ∧ burnBad tService 15 3 72 = true ∧
    tService.mt.burn = none ∧ burn.mt.burn = some (15, 3, 71) ∧ fuseEntry 71 &&& ~~~1#9 ≠ fuseEntry 71 ∧
    fuseEntry 71 &&& ~~~0#9 = fuseEntry 71 ∧ 71 < 72 := by and_intros <;> decide +kernel

theorem witness_MarchRunsFollowTheirTables :
    let r := runOf tMarch.mt.ctrl tMarch.mt.banks
    let one := runOf 0x00010010 0x0001
    (marchParts r).length = 10 ∧ arrayTested r 15 = true ∧ mRead 1 ∈ [mRead 1, mRead 0] ∧
    failBits r (mRead 1) ≠ 0 ∧ (readAt r (mRead 1) 0 (marchParts r)).isSome = true ∧
    (marchFails r [mRead 1, mRead 0]).length = 1 ∧ (marchFails r [⟨15, true, 0, 1, 0, 0, 1⟩]).length = 1 ∧
    (3 ∉ one.bgs ∧ arrayTested one 15 = false ∧ arrayTested one 0 = true) := by and_intros <;> decide +kernel

/-! ### Witnesses: keep, save, restore -/

/-- A field of the keep's state replaced. -/
def tKeep (f : Keep → Keep) (s : State) : State := { s with kp := f s.kp }
/-- A commit that has begun. -/
def tCommit : State := tKeep (fun k => { k with commit := some ⟨1, 0, 0, 1, [], []⟩ }) tLive
/-- tLive a month after start-up, with the receive DQS of lane 0 far from the stored record. -/
def tMoved : State := withF [(hostRxDqs 0, 200)] { tLive with aon := BitVec.ofNat 48 (2 ^ 45) }

theorem witness_KeepBytesReadBack : 8 % 8 = 0 ∧ 0 < 8 / 8 ∧ 8 / 8 + (([1, 2, 3] : List Byte).length + 7) / 8 ≤ 2 := by decide

theorem witness_KeepRecordsAreStoredAndKept :
    let run := withF [(Fld.CB_STATUS_STORING, 1)] tLive
    let busy := withF [(Fld.CB_STATUS_STORING, 1)] tCommit
    let cut := withF [(Fld.CB_STATUS_STORING, 1), (Fld.CA_STATUS_SAVE_BLOCK, 1)] (tSave 3)
    let again := tKeep (fun k => { k with retry := [.config 1], rewrite := [(1, 0)], genNext := some 2 }) tLive
    let used := tKeep (fun k => { k with retain := getF tLive Fld.KP_RETAIN_LIMIT * retainMille }) tLive
    (coreOn tLive = true ∧ storeOpen tLive = true ∧ flag tLive Fld.CB_STATUS_STORING = false ∧
      flag tLive Fld.CK_STATUS_RS_VALID = true) ∧
    (coreOn tMoved = true ∧ storeOpen tMoved = true ∧ flag tMoved Fld.CB_STATUS_STORING = false ∧
      flag tMoved Fld.CK_STATUS_RS_VALID = true ∧ served tMoved = true ∧ flag tMoved Fld.CB_CTRL_AUTO_STORE = true ∧
      storeDue tMoved = true ∧ getF tMoved Fld.CB_STORE_INTERVAL * ticksPerS ≤ ticksSince tMoved.aon tMoved.cb.lastStore) ∧
    flag (withF [(Fld.CB_CTRL_AUTO_STORE, 0)] tLive) Fld.CB_CTRL_AUTO_STORE = false ∧
    (flag run Fld.CB_STATUS_STORING = true ∧ saving run = false ∧ run.kp.commit.isSome = false) ∧
    (flag busy Fld.CB_STATUS_STORING = true ∧ saving busy = false ∧ busy.kp.commit.isSome = true) ∧
    (flag cut Fld.CB_STATUS_STORING = true ∧ saving cut = true ∧ flag cut Fld.CA_STATUS_SAVE_BLOCK = true) ∧
    tLive.kp.retry = [] ∧ storeAllowed tCommit = false ∧
    (again.kp.retry = [.config 1] ∧ storeAllowed again = true ∧ again.kp.rewrite = [(1, 0)] ∧ served again = true) ∧
    tLive.kp.rewrite = [] ∧
    (mgtOn tLive = true ∧ inRun tLive = true ∧
      tLive.kp.retain + retainMinute (hottest tLive) < getF tLive Fld.KP_RETAIN_LIMIT * retainMille) ∧
    (mgtOn used = true ∧ getF used Fld.KP_RETAIN_LIMIT * retainMille ≤ used.kp.retain + retainMinute (hottest used)) ∧
    (inRun tHold = false ∧ inService tHold = false) ∧ tLive.kp.genNext = none ∧ again.kp.genNext = some 2 := by
  and_intros <;> decide +kernel

theorem witness_CheckpointsAndRefreshes :
    let check := withF [(Fld.KP_STATUS_CHECKPOINT, 1)] tLive
    let fresh := withF [(Fld.KP_STATUS_REFRESHING, 1)] tLive
    let stop := withF [(Fld.KP_STATUS_REFRESHING, 1)] (tSave 3)
    checkpointAllowed tLive = true ∧ checkpointAllowed tHold = false ∧
    (flag check Fld.KP_STATUS_CHECKPOINT = true ∧ saving check = false) ∧ flag tLive Fld.KP_STATUS_CHECKPOINT = false ∧
    saving (tSave 3) = true ∧ flag tLive Fld.KP_STATUS_REFRESHING = false ∧
    (flag stop Fld.KP_STATUS_REFRESHING = true ∧ saving stop = true) ∧
    (flag fresh Fld.KP_STATUS_REFRESHING = true ∧ saving fresh = false) := by decide +kernel

theorem witness_SaveTriggersAreJudged :
    let timed := fun (n : Nat) => withF [(Fld.PS_IN_DISC_RUN, 1), (Fld.PS_IN_DISC_CH, 0), (Fld.PS_IN_DISC_TICKS, n)] tLive
    (mgtOn tLive = true ∧ saveable tLive = true) ∧
    (mgtOn (tSave 3) = true ∧ saveable (tSave 3) = false ∧ inSave (tSave 3) = true) ∧
    (saveable tHold = false ∧ inSave tHold = false) ∧ tHeld.boot = .held ∧ tLive.boot ≠ .held ∧
    flag tLive Fld.PS_IN_DISC_RUN = false ∧
    (flag (timed 79) Fld.PS_IN_DISC_RUN = true ∧ getF (timed 79) Fld.PS_IN_DISC_CH = 0 ∧
      getF (timed 79) Fld.PS_TDSC_TICKS ≤ getF (timed 79) Fld.PS_IN_DISC_TICKS + 1 ∧ saveable (timed 79) = true) ∧
    (flag (timed 78) Fld.PS_IN_DISC_RUN = true ∧
      getF (timed 78) Fld.PS_IN_DISC_TICKS + 1 < getF (timed 78) Fld.PS_TDSC_TICKS) := by decide +kernel

theorem witness_SaveStepsFollowTheirOrder :
    let halted := { tSave 5 with sw := { tLive.sw with halted := true } }
    let lag := withF [(Fld.TW_STATUS_REPL_RUN, 1), (Fld.TW_STATUS_LAG_DRAINED, 0)] (tSave 6)
    let entry := fun (n : Nat) => { tLive with ps := { tLive.ps with entry := n } }
    let kept := withF [(Fld.PM_DORM_DORMANT_AFTER, 0xFFFF)] tHold
    let due := withF [(Fld.PM_DORM_DORMANT_AFTER, 1)]
      { tHold with aon := BitVec.ofNat 48 ticksPerS, ps := { tHold.ps with holdAt := some 0 } }
    let early := { due with aon := BitVec.ofNat 48 (ticksPerS - 1) }
    (inSave (tSave 1) = true ∧ getF (tSave 1) Fld.PS_STATUS_STEP = 1 ∧ (tSave 1).ps.entry ≠ 3 ∧ noHost (tSave 1) = false) ∧
    (noHost tService = true ∧ inSave (withF [(Fld.PM_MODE_SAVING, 1), (Fld.PS_STATUS_SAVING, 1), (Fld.PS_STATUS_STEP, 1)]
      tService) = true) ∧
    (inSave (tSave 2) = true ∧ getF (tSave 2) Fld.PS_STATUS_STEP = 2) ∧
    (inSave (tSave 3) = true ∧ getF (tSave 3) Fld.PS_STATUS_STEP = 3 ∧ drained (tSave 3) = true ∧ (tSave 3).ps.entry ≠ 3) ∧
    (inSave (tSave 5) = true ∧ getF (tSave 5) Fld.PS_STATUS_STEP = 5 ∧ (tSave 5).sw.halted = false ∧
      flag (tSave 5) Fld.CK_STATUS_MCLK_LOCK = true ∧ (tSave 5).mt.clearDue = none) ∧
    (inSave halted = true ∧ halted.sw.halted = true) ∧
    (inSave (tSave 6) = true ∧ getF (tSave 6) Fld.PS_STATUS_STEP = 6 ∧ flag (tSave 6) Fld.TW_STATUS_REPL_RUN = false) ∧
    (inSave lag = true ∧ flag lag Fld.TW_STATUS_REPL_RUN = true ∧ flag lag Fld.TW_STATUS_RESYNC_HELD = false ∧
      flag lag Fld.TW_STATUS_LAG_DRAINED = false) ∧
    (inSave (tSave 8) = true ∧ getF (tSave 8) Fld.PS_STATUS_STEP = 8 ∧ flag (tSave 8) Fld.PS_STATUS_OVERRUN = false) ∧
    flag (withF [(Fld.PS_STATUS_OVERRUN, 1)] (tSave 8)) Fld.PS_STATUS_OVERRUN = true ∧
    (inSave (entry 2) = false ∧ (entry 2).ps.entry = 2) ∧ ((entry 3).ps.entry = 3 ∧ drained (entry 3) = true) ∧
    (inSave tLive = false ∧ tLive.ps.entry ≠ 2 ∧ tLive.ps.entry ≠ 3) ∧ drained (tWrite .dram tLive) = false ∧
    ({ tService with pins := { tService.pins with pgood := false } } : State).pins.pgood = false ∧
    (mode due = modeHold ∧ getF due Fld.PM_DORM_DORMANT_AFTER ≠ 0xFFFF ∧ due.ps.holdAt = some 0 ∧
      getF due Fld.PM_DORM_DORMANT_AFTER * ticksPerS ≤ ticksSince due.aon 0) ∧
    ticksSince early.aon 0 < getF early Fld.PM_DORM_DORMANT_AFTER * ticksPerS ∧ mode tLive ≠ modeHold ∧
    tHold.ps.holdAt = none ∧ getF kept Fld.PM_DORM_DORMANT_AFTER = 0xFFFF := by and_intros <;> decide +kernel

/-- RUN.TRAIN, at a place of the boot path. -/
def tPath (p : Path) : State := { tTrain with rs := { tTrain.rs with path := p } }

theorem witness_RestoreStartsAndHandsBack :
    let chip := withF [(Fld.PS_STATUS_DEFER_CHIPRST, 1)] tHold
    let limited := withF [(Fld.FC_CFG_CHIPRST_MAX, 3), (Fld.FC_STATUS_RST_COUNT, 3)] chip
    (mayRestore tHold = true ∧ flag tHold Fld.PS_STATUS_DEFER_CHIPRST = false) ∧ mayRestore tLive = false ∧
    mayRestore (tPath .restoreWait) = true ∧
    (mayRestore chip = true ∧ flag chip Fld.PS_STATUS_DEFER_CHIPRST = true ∧ chipLimited chip = false) ∧
    (mayRestore limited = true ∧ flag limited Fld.PS_STATUS_DEFER_CHIPRST = true ∧ chipLimited limited = true) ∧
    (inTrain (tPath .restoreReady) = true ∧ hrstLow (tPath .restoreReady) = false ∧ 3 ∈ popRanks (tPath .restoreReady)) ∧
    (inTrain (tPath .serviceReady) = true ∧ hrstLow (tPath .serviceReady) = false) ∧
    inTrain tLive = false ∧ (tPath .coldReady).rs.path ≠ .restoreReady ∧
    hrstLow (withF [(Fld.CK_CTRL_HRST_MODE, 0), (Fld.CK_STATUS_HRST_LOW, 1)] tLive) = true ∧
    (tLive.rs.ledger < 8 ∧ tLive.rs.warm < 16 ∧ tLive.rs.cold < 16 ∧ tLive.rs.origin < 4 ∧ tLive.rs.source.getD 0 < 2) := by
  decide +kernel

/-! ### Witnesses: the twin link -/

/-- A control flit of a type, intact. -/
def tWire (type : Nat) (fields : List Byte) : FlitWire :=
  ⟨1, BitVec.ofNat 8 type, crc16 (BitVec.ofNat 8 type :: 0xFF :: fieldBytes fields)⟩
/-- The data flits of an empty line. -/
def tTails : List DataWire := (List.range 5).map (fun i => ⟨2, crc16 (dataBytes 0 i)⟩)

theorem witness_FlitsAreTakenInOrder :
    let good := fun (w : FlitWire) (type : Nat) (fields : List Byte) =>
      w.sync = 1 ∧ w.type.toNat = type ∧ w.crc = crc16 (w.type :: 0xFF :: fieldBytes fields)
    let inject := withF [(Fld.FC_INJ_TW_N, 255)] tLink
    (linkUp tLink = true ∧ flag tLink Fld.FC_INJ_TW_N = false ∧ (0 : Byte) = tLink.tw.rxSeq ∧ (0xFF : Byte) ≠ tLink.tw.rxSeq) ∧
    good (tWire 0x01 []) 0x01 [] ∧ good (tWire 0x02 [0xFF]) 0x02 [0xFF] ∧
    good (tWire 0x03 (leBytes 1 1 ++ leBytes 3 0xFFFFFF ++ leBytes 4 5)) 0x03 (leBytes 1 1 ++ leBytes 3 0xFFFFFF ++ leBytes 4 5) ∧
    good (tWire 0x04 ([1, 2, 3, 4, 5] ++ leBytes 3 1 ++ leBytes 4 1)) 0x04 ([1, 2, 3, 4, 5] ++ leBytes 3 1 ++ leBytes 4 1) ∧
    good (tWire 0x05 []) 0x05 [] ∧ good (tWire 0x06 (leBytes 6 1 ++ leBytes 6 2)) 0x06 (leBytes 6 1 ++ leBytes 6 2) ∧
    good (tWire 0x07 (0x04 :: leBytes 6 0)) 0x07 (0x04 :: leBytes 6 0) ∧ good (tWire 0x08 []) 0x08 [] ∧
    good (tWire 0x09 []) 0x09 [] ∧ good (tWire 0x0A (leBytes 2 0 ++ leBytes 2 15872)) 0x0A (leBytes 2 0 ++ leBytes 2 15872) ∧
    (let f := leBytes 2 15871 ++ (leBytes 80 0).take 10
     good (tWire 0x10 f) 0x10 f) ∧
    (tTails.length = 5 ∧ ∀ i, i < 5 → tTails[i]? = some ⟨2, crc16 (dataBytes 0 i)⟩) ∧
    ¬ ((⟨2, 0⟩ : DataWire).sync = 2 ∧ (⟨2, 0⟩ : DataWire).crc = crc16 (dataBytes 0 0)) ∧
    ¬ good (tWire 0x02 []) 0x01 [] ∧ (linkUp inject = true ∧ flag inject Fld.FC_INJ_TW_N = true) ∧ linkUp tLive = false := by
  and_intros <;> decide +kernel

theorem witness_WhatFlitsDo :
    let takes := withF [(Fld.TW_STATUS_REPL_RUN, 1), (Fld.TW_STATUS_RESYNC_HELD, 0)] tLink
    let asked := { tLink with tw := { tLink.tw with t1 := some 5, sample := none } }
    linkUp tLive = false ∧ (linkUp tLink = true ∧ tLink.tw.waiting = [] ∧ heldFlits tLink + flitLen .idle ≤ 64 ∧
      heldFlits tLink + flitLen (.line 0 false false 0) ≤ 64) ∧
    ((flitsOf 0xFF .idle).length = 1 ∧ ∀ f ∈ flitsOf 0xFF .idle, f.data = false) ∧
    (∃ f ∈ flitsOf 0xFF (.line 15871 true true 1), f.data = true) ∧
    (saveable tLink = true ∧ tLink.tw.saveSeen = false) ∧ saveable tHold = false ∧
    acceptsLines tLink = false ∧ (acceptsLines takes = true ∧ 15871 < 15872 ∧ bankParked takes (lineBank (15872 + 511)) = false) ∧
    tLink.tw.t1 = none ∧ (asked.tw.t1 = some 5 ∧ asked.tw.sample = none) := by and_intros <;> decide +kernel

theorem witness_LinkAndReplicaCommands :
    let train := fun (n : Nat) => withF [(Fld.TW_STATUS_LINK, n)] tLink
    let again := { train 1 with tw := { tLink.tw with retraining := true } }
    let repl := withF [(Fld.TW_STATUS_REPL_RUN, 1), (Fld.TW_STATUS_RESYNC_HELD, 1)] tLink
    let save := { withF [(Fld.PM_MODE_SAVING, 1), (Fld.PS_STATUS_SAVING, 1), (Fld.PS_STATUS_STEP, 3)] tLink with
      ps := { tLink.ps with s1Ended := true } }
    let sent := { tLink with tw := { tLink.tw with lagEndSent := true } }
    let line := { repl with tw := { tLink.tw with queue := [15871] } }
    let stale := { repl with tw := { tLink.tw with sendStale := smSet (zeroDefault 64) [] 0 1 } }
    let late := fun (n : Nat) => { train 1 with aon := BitVec.ofNat 48 n, tw := { tLink.tw with upSeen := false, hbAt := 0 } }
    (mayTrain (train 1) = true ∧ getF (train 1) Fld.TW_STATUS_LINK = 1) ∧
    (mayTrain (train 0) = true ∧ getF (train 0) Fld.TW_STATUS_LINK = 0) ∧
    (mayTrain (train 3) = true ∧ getF (train 3) Fld.TW_STATUS_LINK = 3) ∧
    mayTrain (withF [(Fld.TW_CFG_LINK_EN, 0)] tLive) = false ∧ linkUp tLink = true ∧ linkUp tLive = false ∧
    (again.tw.retraining = true ∧ linkUp again = false) ∧ tLink.tw.retraining = false ∧
    (let n := getF tLink Fld.TW_CFG_UP_WAIT * ticksPerS
     let s := late n
     (mgtOn s = true ∧ twinEn s = true ∧ flag s Fld.TW_CFG_LINK_EN = true ∧ handedBack s = true ∧ s.tw.upSeen = false ∧
      linkUp s = false ∧ getF s Fld.TW_CFG_UP_WAIT * ticksPerS ≤ ticksSince s.aon s.tw.hbAt) ∧
      ticksSince (late (n - 1)).aon (late (n - 1)).tw.hbAt < getF (late (n - 1)) Fld.TW_CFG_UP_WAIT * ticksPerS) ∧
    ({ tLink with tw := { tLink.tw with upSeen := true } } : State).tw.upSeen = true ∧
    (linkUp save = true ∧ inSave save = true ∧ ownWritesOver save = true ∧ save.tw.queue = [] ∧
      save.tw.lagEndSent = false) ∧ sent.tw.lagEndSent = true ∧ line.tw.queue ≠ [] ∧ tLink.ps.s1Ended = false ∧
    (linkUp line = true ∧ mayQueue line = true ∧ lineRoom line = true ∧ portETwin line = true ∧ line.tw.queue = [15871]) ∧
    (repl.tw.queue = [] ∧ firstStale repl = none) ∧ (stale.tw.queue = [] ∧ firstStale stale = some 0 ∧ mayQueue stale = true) ∧
    mayQueue tLink = false ∧ portETwin (withF [(Fld.LD_STATUS_RELOADING, 1)] repl) = false ∧
    (mgtOn repl = true ∧ flag repl Fld.TW_STATUS_RESYNC_HELD = true ∧ flag repl Fld.TW_STATUS_REPL_RUN = true) ∧
    flag tLink Fld.TW_STATUS_RESYNC_HELD = false ∧ flag tLink Fld.TW_STATUS_REPL_RUN = false ∧ mgtOn tLink = true := by
  and_intros <;> decide +kernel

/-! ### Witnesses: faults and keys -/

/-- tLive with a collector's work waiting. -/
def tFc : State := { tLive with fc := { tLive.fc with nmt := [34, 35], hist := [⟨59, 3, 0, 31, 0, 0, 0, 0, false⟩] } }
/-- A life-cycle state. -/
def tLc (n : Nat) (s : State) : State := withF [(Fld.GN_LC_STATE, n)] s
def tDeployed : State := tLc 2 tLive
/-- PD_MGT is off. -/
def tDark : State := withF [(Fld.PM_DOMAIN_MGT, 0)] tLive

theorem witness_FaultCollectorCommands :
    let full := withF [(Fld.FC_FIRST_VALID, 1)] tLive
    mgtOn tLive = true ∧ (tLive.fc.writes = [] ∧ tLive.fc.deferred = [] ∧ tLive.fc.events = []) ∧
    mgtOn tDark = false ∧ tLive.fc.nmt = [] ∧
    (tFc.fc.nmt = [34, 35] ∧ stewardRuns tFc = true ∧ tFc.fc.nmtRun = none) ∧
    tLive.boot ≠ .held ∧ tHeld.boot = .held ∧ tLive.fc.hist = [] ∧
    (tFc.fc.hist = [⟨59, 3, 0, 31, 0, 0, 0, 0, false⟩] ∧ histAllowed tFc = true) ∧
    (mgtOn tDeployed = true ∧ 2 ≤ lcState tDeployed ∧ flag tDeployed Fld.GN_STATUS_SESS_AUTH = false) ∧
    (lcState tLive < 2 ∧ namesReserved 32 (BitVec.ofNat 32 (2 ^ 24)) = false ∧
      (0x00FF0000 : Word).toNat / 2 ^ 16 % 2 ^ 8 ≠ 0) ∧
    flag full Fld.FC_FIRST_VALID = true ∧ flag tLive Fld.FC_FIRST_VALID = false := by decide +kernel

theorem witness_MergedCollections :
    let full := withF [(Fld.FC_FIRST_VALID, 1)] tLive
    63 < 64 ∧ 0 < 64 ∧ flag full Fld.FC_FIRST_VALID = true ∧ flag full Fld.FC_FIRST_ACKED = false := by decide +kernel

theorem witness_RecordsCountsAndStickyBits :
    let acked := withF [(Fld.FC_FIRST_VALID, 1), (Fld.FC_FIRST_ACKED, 1)] tLive
    let zero := withF [(Fld.FC_SRC_THR.bank 5, 0)] tLive
    let one := withF [(Fld.FC_SRC_THR.bank 5, 1)] tLive
    (63 < 64 ∧ 3 < 4 ∧ 31 < 32) ∧ flag tLive Fld.FC_FIRST_VALID = false ∧
    (flag acked Fld.FC_FIRST_VALID = true ∧ flag acked Fld.FC_FIRST_ACKED = true) ∧
    getF zero (Fld.FC_SRC_THR.bank 5) = 0 ∧
    (getF one (Fld.FC_SRC_THR.bank 5) ≠ 0 ∧ getF one (Fld.FC_SRC_THR.bank 5) < getF one (Fld.FC_SCNT_WCOUNT.bank 5) + 2 ∧
      ¬ getF one (Fld.FC_SRC_THR.bank 5) < getF one (Fld.FC_SCNT_WCOUNT.bank 5) + 1) ∧
    liveBit (withF [(Fld.CA_STATUS_PAR_BLOCKED, 1)] tLive) 0 = true ∧ liveBit tLive 63 = false := by decide +kernel

theorem witness_KeysAndTamper :
    let due := { tLive with gn := { tLive.gn with eraseDue := true } }
    let keyed := withF [(Fld.GN_STATUS_CON_KEY, 1), (Fld.GN_STATUS_TAMPER_LATCH, 1)] tDeployed
    let out := fun (n : Nat) => { tLive with
      aon := BitVec.ofNat 48 n, gn := { tLive.gn with words := smSet (zeroDefault 72) [] 10 (secdedEncode 2) } }
    (due.gn.eraseDue = true ∧ due.boot ≠ .held ∧ keepRegion (8 * 0) ≠ 7 ∧ keepRegion (keyAt 1 0) = 7) ∧
    tLive.gn.eraseDue = false ∧
    (mgtOn tLive = true ∧ flag tLive Fld.GN_STATUS_TAMPER_NOW = false ∧ flag tLive Fld.GN_STATUS_ERASE_DONE = true ∧
      flag tLive Fld.GN_STATUS_CON_KEY = false) ∧
    (flag keyed Fld.GN_STATUS_CON_KEY = true ∧ 2 ≤ lcState keyed ∧ flag keyed Fld.GN_STATUS_SESS_AUTH = false) ∧
    flag (withF [(Fld.GN_STATUS_TAMPER_NOW, 1)] tLive) Fld.GN_STATUS_TAMPER_NOW = true ∧
    mayGenerate false State.reset = false ∧ (mgtOn tLive = true ∧ mayGenerate false tLive = true) ∧
    nonceOut tLive = false ∧ (nonceOut (out (30 * ticksPerS)) = true ∧ nonceOld (out (30 * ticksPerS)) = true) ∧
    (nonceOut (out (30 * ticksPerS - 1)) = true ∧ nonceOld (out (30 * ticksPerS - 1)) = false) := by
  and_intros <;> decide +kernel

/-! ### Witnesses: console, registers, TAP -/

theorem witness_ConsoleJudgesCommands :
    let eight := { tUart with con := { tUart.con with tokens := (List.range 8).map (fun k => (k, 0)) } }
    consoleUp tHold = false ∧ (consoleUp tI3c = true ∧ holder tI3c ≠ 0 ∧ holder tI3c ≠ holderCode .uart) ∧
    (consoleUp tLive = true ∧ holder tLive = 0) ∧
    (consoleUp tUart = true ∧ holder tUart = holderCode .uart ∧ judgeCmd .uart (.rd (some 1)) (hear tUart) = some .e20 ∧
      judgeCmd .uart .faultAck (hear tUart) = none) ∧
    (objectError (.rd (some 1)) = some .e20 ∧ (∀ a x, ConCmd.rd (some 1) ≠ .wr a x) ∧ ConCmd.rd (some 1) ≠ .saveNow) ∧
    (objectError .faultAck = none ∧ noAuth .uart .faultAck tDeployed = true) ∧
    (objectError .modeRun = none ∧ noAuth .uart .modeRun tUart = false ∧ wrongMode .modeRun tUart = true) ∧
    (objectError (.resetChip false) = none ∧ noAuth .uart (.resetChip false) tUart = false ∧
      wrongMode (.resetChip false) tUart = false ∧ argsBad (.resetChip false) tUart = true) ∧
    (let c := ConCmd.faultClear (some (.source 0))
     let s := withF [(Fld.CA_STATUS_PAR_BLOCKED, 1)] tUart
     objectError c = none ∧ noAuth .uart c s = false ∧ wrongMode c s = false ∧ argsBad c s = false ∧ locked c s = true) ∧
    (objectError .faultAck = none ∧ noAuth .uart .faultAck tUart = false ∧ wrongMode .faultAck tUart = false ∧
      argsBad .faultAck tUart = false ∧ locked .faultAck tUart = false) ∧
    8 ≤ eight.con.tokens.length ∧
    (tUart.con.tokens.length < 8 ∧ tUart.con.nextToken < 256 ∧ ∀ t ∈ tUart.con.tokens, t.1 < 256) := by
  and_intros <;> first | decide +kernel | simp

/-- The UART holds the console in SERVICE; with lane 5 of rank 3 erased; with a console key; with the twin strapped. -/
def tServUart : State := setReg Fld.CN_SESS_HOLDER.addr 1 tService
def tErased : State := withF [(Fld.LG_RANK_ERASED.at 3, 1), (Fld.LG_RANK_LANE.at 3, 5)] tUart
def tKeyed : State := withF [(Fld.GN_STATUS_CON_KEY, 1)] (tLc 1 tUart)
def tTwin : State := withF [(Fld.GL_STRAP_TWIN_EN, 1), (Fld.TW_STATUS_RESYNC_HELD, 1), (Fld.TW_STATUS_REPL_RUN, 1)] tUart

theorem witness_ConsoleRowsThatReadAndSet :
    let waits := { tUart with committed := [(Fld.CA_APER_EN.addr, 1)] }
    Accepted .uart (.help none) tUart ∧
    (Accepted .uart (.shows (some "mode") none) tUart ∧ (objectOf "mode").isSome = true) ∧
    (Accepted .uart (.get (some "clock.keep-osc")) tUart ∧ (policyOf "clock.keep-osc").isSome = true) ∧
    Accepted .uart (.set (some "clock.keep-osc") (some "on")) tUart ∧
    changeWaits 0x0400 tUart tUart = 0 ∧
    Accepted .uart (.rd (some 0x4818)) tUart ∧ Accepted .uart (.wr (some 0x3C40) (some 1)) tUart ∧
    (Accepted .uart .commit tUart ∧ commitFails tUart = none) ∧ Accepted .uart .discard tUart ∧ mgtOn tUart = true ∧
    commitPending waits = true ∧ changeWaits 0x000C tUart waits ≠ 0 ∧
    Accepted .uart .saveNow tUart ∧ Accepted .uart (.trainDram (some 3)) tServUart ∧
    (Accepted .uart .calStore tUart ∧ tUart.kp.commit = none) ∧
    Accepted .uart (.calHold (some (true, 5)) (some false)) tUart ∧
    (Accepted .uart (.calEnable (some "zq") (some true)) tUart ∧ (engineOf "zq").isSome = true) ∧
    Accepted .uart (.laneErase (some 3) (some 5) true) tUart ∧
    Accepted .uart (.laneReadmit (some 3) (some 5) true) tErased ∧
    Accepted .uart (.ledgerRd (some 16383) none) tUart ∧ Accepted .uart (.ledgerRd (some 16383) (some (some 9))) tUart ∧
    Accepted .uart (.ledgerWr (some 0) (some 9) (some 1) (some 0)) tUart ∧ Accepted .uart .keepCheckpoint tUart ∧
    Accepted .uart .keepRefresh tUart ∧ Accepted .uart (.cfgStore (some (some 7))) tUart ∧
    Accepted .uart (.cfgLoad (some true)) tServUart := by
  simp only [Accepted]; and_intros <;> decide +kernel

theorem witness_ConsoleRowsThatOperate :
    Accepted .uart .faultAck tUart ∧ Accepted .uart (.faultClear (some (.source 59))) tUart ∧
    Accepted .uart (.faultClear (some .record)) tUart ∧ Accepted .uart (.faultForce (some 59) (some (some 1)) none) tUart ∧
    Accepted .uart (.faultInject (some (.twin 255))) tUart ∧
    Accepted .uart (.faultConfig (some 59) (some ⟨some 3, none, some 31, none, some 255, some 3600000⟩)) tUart ∧
    Accepted .uart (.twin .resume) tTwin ∧ Accepted .uart (.twin .resync) tTwin ∧ Accepted .uart (.twin .retrain) tTwin ∧
    Accepted .uart (.traceShow false (some (some 1024))) tUart ∧ Accepted .uart .authBegin tKeyed ∧
    Accepted .uart (.authProve 0) tUart ∧ Accepted .uart .authEnd tUart ∧
    Accepted .uart (.authInstall 1) (tLc 1 tUart) ∧ Accepted .uart (.lifecycle (some 4) true) tServUart ∧
    Accepted .uart (.testMarch (some ⟨some 31, none, none, none, some 15, none⟩)) tServUart ∧
    Accepted .uart .testAbort (withF [(Fld.MT_STATUS_BUSY, 1)] tServUart) ∧
    Accepted .uart (.testRepair (some 15) (some 3) (some 71)) tServUart ∧ Accepted .uart (.resetChip true) tUart ∧
    Accepted .uart .modeScript tUart ∧ Accepted .uart .modeHuman tUart ∧ Accepted .uart .modeService tUart ∧
    Accepted .uart .modeRun tServUart ∧ Accepted .uart .caUnblock tUart ∧ consoleUp tHold = false := by
  simp only [Accepted]; and_intros <;> decide +kernel

/-- The edges of a CR whose bit takes `u` units of time. -/
def crOf (u : Nat) : CrEdges := ⟨u, u, u, 2 * u, 4 * u⟩

theorem witness_ConsoleTransports :
    let ibi := fun (n : Nat) => { withF [(Fld.CN_I3C_DA_VALID, 1), (Fld.CN_I3C_IBI_EN, 1)] tI3c with
      con := { tI3c.con with ibis := [⟨1, none, n⟩], out := [1, 2] } }
    let rate := fun (u : Nat) => 9 * 3200000000 / (u + u + u + 2 * u + 4 * u)
    let held := fun (n : Nat) => { tUart with aon := BitVec.ofNat 48 n }
    let lease := getF tUart Fld.CN_CFG_LEASE * ticksPerS
    consoleUp tHold = false ∧ (consoleUp tUart = true ∧ holder tUart = 1) ∧ (consoleUp tLive = true ∧ holder tLive = 0) ∧
    (consoleUp tI3c = true ∧ holder tI3c = 2 ∧ tI3c.con.out = []) ∧ (0xFF : Byte) ≠ 0x0D#8 ∧ (0xFF : Byte) ≠ 0x0A#8 ∧
    (flag tUart Fld.CN_CFG_AUTOBAUD = true ∧ isCr (crOf 1067) = true ∧ 9600 ≤ rate 1067 ∧ rate 1067 ≤ 3000000 ∧
      isCr (crOf 333333) = true ∧ 9600 ≤ rate 333333) ∧
    (rate 333334 < 9600 ∧ 3000000 < rate 1066 ∧ isCr ⟨1067, 1067, 1067, 1067, 1067⟩ = false) ∧
    flag (withF [(Fld.CN_CFG_AUTOBAUD, 0)] tUart) Fld.CN_CFG_AUTOBAUD = false ∧
    (mclkStopped tI3c = true ∧ mclkStopped tUart = false ∧ asleep tUart = true) ∧
    (consoleUp (ibi 3) = true ∧ holder (ibi 3) = 2 ∧ (ibi 3).con.out ≠ [] ∧ (ibi 3).con.ibis = [⟨1, none, 3⟩] ∧
      flag (ibi 3) Fld.CN_I3C_DA_VALID = true ∧ flag (ibi 3) Fld.CN_I3C_IBI_EN = true ∧ 3 ≤ 3 ∧
      (ibi 2).con.ibis = [⟨1, none, 2⟩] ∧ 2 < 3) ∧
    (flag tLive Fld.GL_STRAP_TWIN_POS = false ∧ (0x5B : BitVec 7) ≠ 0x5A) ∧ (16 ≤ 16 ∧ 256 ≤ 256 ∧ 15 < 16 ∧ 256 < 257) ∧
    (holder (held lease) ≠ 0 ∧ lease ≤ ticksSince (held lease).aon (held lease).con.heard) ∧
    ticksSince (held (lease - 1)).aon (held (lease - 1)).con.heard < lease ∧
    flag tI3c Fld.CN_I3C_DA_VALID = false ∧ tI3c.con.ibis = [] := by and_intros <;> decide +kernel

theorem witness_RegistersSensorsAndTap :
    let hot := withF [(Fld.SN_STATUS_WARN_ON, 1)] tLive
    let run := withF [(Fld.TR_STATUS_RUNNING, 1)] tLive
    let shut := withF [(Fld.GN_CFG_TAP_EN, 0)] (tLc 2 tService)
    let tap := fun (n : BitVec 4) => { tService with tap := { tService.tap with ir := n } }
    (0x5000 ≤ 0x5000 ∧ 2 % 4 ≠ 0) ∧ (0x4818 < 0x5000 ∧ 0x4818 % 4 = 0 ∧ (regRow 0x4818).isSome = true) ∧
    regRow 0x4FFC = none ∧
    (mgtOn tLive = true ∧ writeError tLive 0x3C40 1 = none) ∧ (writeError tLive 2 0 = some .e20 ∧ ErrCode.e20 ≠ .e21) ∧
    (let s := withF [(Fld.LD_STATUS_READY, 0)] tLive
     mgtOn s = true ∧ coreOn s = true ∧ writeError s 0x283C 1 = some .e50) ∧
    mgtOn tDark = false ∧ ((regRow 0x0400).isSome = true ∧ ∀ r, regRow 0x0400 = some r → r.rws = 0) ∧
    (0x4818 < 0x5000 ∧ 0x4818 % 4 = 0 ∧ (regRow 0x4818).isSome = true ∧ regPowered tLive 0x4818 = true ∧
      isLatched 0x4818 = false ∧ 0x4818 ≠ 0x2108 ∧ 0x4824 ∈ latchesOf 0x4818) ∧ isLatched 0x4824 = true ∧
    coreOn tLive = true ∧ flag tLive Fld.TR_STATUS_RUNNING = false ∧
    (coreOn run = true ∧ flag run Fld.TR_STATUS_RUNNING = true ∧ flag run Fld.TR_CTRL_FREEZE = false) ∧
    coreOn State.reset = false ∧ 3 < 4 ∧ (600 : Int) < 601 ∧
    (flag tLive Fld.SN_STATUS_WARN_ON = false ∧ (getF tLive Fld.SN_THR_WARN : Int) * 4 ≤ 600) ∧
    (flag hot Fld.SN_STATUS_WARN_ON = true ∧
      ((getF hot Fld.SN_THR_WARN : Int) - getF hot Fld.SN_THR_HYST) * 4 ≤ (getF hot Fld.SN_THR_WARN : Int) * 4 - 1) ∧
    (tapUp tService = true ∧ inService tService = true ∧ tapOpen tService = true) ∧ inService tLive = false ∧
    (tapUp shut = true ∧ tapOpen shut = false) ∧ tapUp tHold = false ∧ 2 < (3 : BitVec 4).toNat ∧
    ((tap 1).tap.ir = 0x1 ∧ (tap 0).tap.ir = 0x0 ∧ 2 < (tap 15).tap.ir.toNat) ∧
    ((⟨.dcsN, 3⟩ : Ball).sig.kind ≠ .input ∧ (⟨.tamperN, 0⟩ : Ball).sig.kind = .input) := by and_intros <;> decide +kernel

/-! ### Ill-formed commands are refused -/

def tLane : LaneTrain := ⟨⟨none, 0⟩, ⟨none, 0⟩, ⟨none, 0⟩, ⟨none, 0⟩, noScans 8, noScans 8, [], []⟩
def noTrain : RankTrain := ⟨[], 0, []⟩
def noBringUp : BringUp := ⟨0, ⟨0, 0, 0, 0, false, false⟩, ⟨0, 0, 0, 0, 0, 0⟩, []⟩
def noEnv : ConEnv := ⟨[], false, false, [], noTrain, 0, 0, noBringUp, []⟩

theorem test_wellFormed_pins :
    wellFormed (.cmdSre pOne) = true ∧ wellFormed (.cmdSre pNone) = false ∧
    wellFormed (.cmdSre { pOne with two := false, hca2 := 1 }) = false ∧
    wellFormed (.cmdSre { pOne with two := false, hpar2 := true }) = false := by decide +kernel

theorem test_wellFormed_mode_register :
    wellFormed (.cmdMrw pOne 239 0 []) = true ∧ wellFormed (.cmdMrw pOne 240 0 []) = false ∧
    wellFormed (.cmdMrr pOne 255) = false := by decide +kernel

theorem test_wellFormed_console_bytes :
    wellFormed (.uartFrame 0x0D false) = false ∧ wellFormed (.uartFrame 0x0A false) = false ∧
    wellFormed (.uartFrame 0x7F false) = true ∧ wellFormed (.latchedPairRead 0x062C) = false ∧
    wellFormed (.latchedPairRead 0x0628) = true := by decide +kernel

theorem test_wellFormed_training :
    rankTrainFits ⟨[], 0, [tLane]⟩ = true ∧ rankTrainFits ⟨[⟨34, 0, 0, 0⟩], 0, []⟩ = false ∧
    rankTrainFits ⟨[], 16, []⟩ = false ∧ rankTrainFits ⟨[], 0, List.replicate 7 tLane⟩ = false ∧
    rankTrainFits ⟨[], 0, [{ tLane with readA := [] }]⟩ = false ∧
    rankTrainFits ⟨[], 0, [{ tLane with readB := noScans 9 }]⟩ = false ∧
    rankTrainFits ⟨[], 0, [{ tLane with tries := [⟨0, noScans 8, []⟩] }]⟩ = false ∧
    rankTrainFits ⟨[], 0, [{ tLane with verify := [(4096, 0)] }]⟩ = false := by decide +kernel

theorem test_wellFormed_scans :
    scanFits noScan = true ∧ scanFits { noScan with l := List.replicate 65 dwellOk } = false ∧
    scanFits { noScan with r := List.replicate 64 dwellOk } = false ∧
    scanFits { noScan with b := List.replicate 130 dwellOk } = false ∧
    scanFits { noScan with t := List.replicate 128 dwellOk } = false := by decide +kernel

theorem test_wellFormed_environment :
    wellFormed (.uartLine noEnv) = true ∧ wellFormed (.uartLine { noEnv with flips := [(0x100000, 1)] }) = false ∧
    wellFormed (.uartLine { noEnv with reads := [{ mRead 0 with array := 20 }] }) = false ∧
    wellFormed (.uartLine { noEnv with train := ⟨[⟨34, 0, 0, 0⟩], 0, []⟩ }) = false ∧
    wellFormed (.uartLine { noEnv with bringUp := { noBringUp with passes := [List.replicate 5 noTrain] } }) = false ∧
    wellFormed (.uartLine { noEnv with checks := List.replicate 5 ⟨[], []⟩ }) = false ∧
    wellFormed (.uartLine { noEnv with checks := [⟨[⟨128, 0, 0⟩], []⟩] }) = false ∧
    wellFormed (.uartLine { noEnv with checks := [⟨[], List.replicate 7 (noScans 8)⟩] }) = false := by decide +kernel

theorem test_wellFormed_memories :
    wellFormed (.marchDone [{ mRead 0 with array := 20 }]) = false ∧
    wellFormed (.keepCheckpoint [(0x100000, 1)]) = false ∧ wellFormed (.keepCheckpoint [(0xFFFFF, 1)]) = true ∧
    wellFormed (.dccStep false 5 true) = false ∧ wellFormed (.dccStep true 5 true) = true := by decide +kernel

theorem test_wellFormed_flits_and_tap :
    wellFormed (.flitIdle 0 0 (tWire 0x01 [])) = true ∧ wellFormed (.flitIdle 0 0 (tWire 0x02 [])) = false ∧
    wellFormed (.flitIdle 0 0 (tWire 0x0B [])) = true ∧
    wellFormed (.flitLine 0 0 (tWire 0x10 []) 0 false false 0 tTails false) = true ∧
    wellFormed (.flitLine 0 0 (tWire 0x10 []) 0 false false 0 [] false) = false ∧
    wellFormed (.tapBypass 2) = false ∧ wellFormed (.tapBypass 3) = true := by decide +kernel

/-- Is the outcome a next state with a property? -/
def after (o : Host.Outcome State Fault Refusal) (p : State → Bool) : Bool :=
  match o with
  | .next t => p t
  | _ => false

/-! ### Figures of the spec's tables and worked cases -/

/-- Table SC-6: the check values over "123456789". -/
def nineDigits : List Byte := [0x31, 0x32, 0x33, 0x34, 0x35, 0x36, 0x37, 0x38, 0x39]

theorem test_check_values :
    crc32 nineDigits = 0xCBF43926 ∧ crc16 nineDigits = 0x29B1 ∧ crc8 nineDigits = 0xF4 := by decide +kernel

/-- FIPS 180-4: the digest of "abc" (R11 names the standard). -/
theorem test_sha256 :
    sha256 [0x61, 0x62, 0x63] =
      beBytes 32 0xba7816bf8f01cfea414140de5dae2223b00361a396177a9cb410ff61f20015ad := by decide +kernel

/-- The worked case of the console protocol: `#01 rd 0x0008` has cc = 39, `#01 ok 0x0000_0002` cc = e1. -/
theorem test_script_check_codes :
    withCheck "#01 rd 0x0008" = "#01 rd 0x0008*39" ∧ withCheck "#01 ok 0x0000_0002" = "#01 ok 0x0000_0002*e1" := by
  decide +kernel

/-- The worked case of the shadow sweep: bit 6 takes 13 and 11 dwells in timing, 14 and 15 in voltage, and gives W = 23,
H = 54 and a move of 0 in trial A; the Vref moves are +1 and +2 codes, and the means of +1 and +2 are +1. -/
theorem test_shadow_sweep_figures :
    bitEye .double 10 ⟨side 12 dwellOk, side 10 dwellOk, side 13 dwellOk, side 14 dwellOk⟩ =
      ⟨some (-12), some 11, some 15, some (-14)⟩ ∧
    (let e : BitEye := ⟨some (-12), some 11, some 15, some (-14)⟩
     eyeW e = 23 ∧ eyeH e = 54 ∧ eyeMove e = 0 ∧ eyeMove ⟨some (-12), some 12, some 15, some (-15)⟩ = 0 ∧
      eyeH ⟨some (-12), some 12, some 15, some (-15)⟩ = 56) ∧
    trialVmove ⟨[], 2500⟩ = 1 ∧ trialVmove ⟨[], 4400⟩ = 2 ∧
    (let m := meanResult ⟨[1, 0], 1, [], [23], [54]⟩ ⟨[2, 0], 2, [], [24], [56]⟩
     m.moves = [1, 0] ∧ m.vmove = 1 ∧ m.ws = [23] ∧ m.hs = [54]) := by decide +kernel

/-- The worked case of the host side: median +3.1 mV gives one Vref code, W = 30 taps, H = 69 mV, a move of +1. -/
theorem test_host_evaluation_figures :
    (let e : BitEye := ⟨some (-14), some 16, some 20, some (-17)⟩
     eyeMove e = 1 ∧ eyeW e = 30 ∧ eyeH e = 69) ∧ trialVmove ⟨[], 3100⟩ = 1 := by decide +kernel

/-- The worked case of the commit counter: 100,000 and 1 give 100,001, DONE, no RFLAGS; byte 60 of line 100 with WIDTH 8
is refused with the status of subcode 4, byte 52 passes. -/
theorem test_commit_counter :
    opAddResult 0 8 100000 1 = ⟨some 100001, 100001, 1, false⟩ ∧
    (let line := fun (target : Nat) => opcAdd + 8 * 2 ^ 16 + 8 * 2 ^ 24 + target * 2 ^ 40
     opStatus (withF [(Fld.LD_OPCFG_CHECK_DESC, 0)] tLive) (line 6460) % 16 = 4 ∧
      opStatus (withF [(Fld.LD_OPCFG_CHECK_DESC, 0)] tLive) (line 6452) = 0) := by decide +kernel

/-- The worked case of Lane Guard: increments of 31 and 2 give a share of 93.9 %, and the erasure of (2, D3) waits. -/
theorem test_erasure_of_a_weak_lane :
    let inc := smSet (zeroDefault 32) (smSet (zeroDefault 32) [] (2 * 6 + 3) 31) 1 2
    after (exec .eraseDecision { tLive with lg := { tLive.lg with inc := inc, decide := true } })
      (fun t => t.lg.fails.map (fun f => (f.rank, f.lane)) = [(2, 3)]) = true := by decide +kernel

/-- Table RX-5: CN_CFG and CN_UART after reset. -/
theorem test_reset_values :
    reg State.reset 0x4000 = 0x0001001E ∧ reg State.reset 0x4004 = 0x04800480 := by decide +kernel

/-- R45: IDCODE; the port loads it, and EXTEST outside SERVICE acts as BYPASS. R47: 449 cells. -/
theorem test_tap :
    idcode = 0x1680074F ∧ after (exec (.tapExtest 5) tLive) (fun t => t.tap.ir = 0xF && tapData t = (1, 0)) = true ∧
    after (exec .tapIdcode tLive) (fun t => tapData t = (32, 0x1680074F)) = true := by decide +kernel

/-- R11, R32: SETDASA to the other position's static address is not this device's. -/
theorem test_setdasa :
    after (exec (.setdasa 0x5A 9) tI3c) (fun t => getF t Fld.CN_I3C_DA = 9) = true ∧
    after (exec (.setdasa 0x5B 9) tI3c) (fun t => getF t Fld.CN_I3C_DA = 0) = true := by decide +kernel

/-- A step takes the command at the front of the queue and leaves the rest in its order. -/
theorem test_step_takes_the_front :
    after (step { tLive with pending := [.trstNLow, .enec, .aonWrap] })
      (fun t => t.pending = [.enec, .aonWrap] && t.tap.ir = 0x1) = true := by decide +kernel

end Sys2Proof.Machine
end

namespace Sys2Proof.Machine

/-! ### Fields, bit by bit (R9) -/

/-- A field of bits that Chapter 24 names: every bit of it is one of its register. -/
abbrev Field.Named (f : Field) : Prop :=
  f.hi < 32 ∧ BitVec.ofNat 32 (fieldMask f) &&& regMask f.addr = BitVec.ofNat 32 (fieldMask f)

theorem testBit_natBits (v hi lo i : Nat) :
    (natBits v hi lo).testBit i = (decide (lo + i ≤ hi) && v.testBit (lo + i)) := by
  have hw : i < hi + 1 - lo ↔ lo + i ≤ hi := by omega
  simp only [natBits, Nat.testBit_mod_two_pow, Nat.testBit_shiftRight, hw]

theorem testBit_fieldMask (f : Field) (i : Nat) :
    (fieldMask f).testBit i = (decide (f.lo ≤ i) && decide (i ≤ f.hi)) := by
  have hw : f.lo ≤ i → (i - f.lo < f.width ↔ i ≤ f.hi) := by unfold Field.width; omega
  by_cases h : f.lo ≤ i
  · simp [fieldMask, Nat.testBit_shiftLeft, h, hw h]
  · simp [fieldMask, Nat.testBit_shiftLeft, h]

/-- Within the field the new value's bits, elsewhere those of before. -/
theorem getLsbD_putBits (w : Word) (f : Field) (v i : Nat) (hi : i < 32) :
    (putBits w f v).getLsbD i =
      if f.lo ≤ i ∧ i ≤ f.hi then v.testBit (i - f.lo) else w.getLsbD i := by
  simp only [putBits, BitVec.getLsbD_or, BitVec.getLsbD_and, BitVec.getLsbD_not, BitVec.getLsbD_ofNat, testBit_fieldMask,
    Nat.testBit_shiftLeft]
  by_cases hin : f.lo ≤ i ∧ i ≤ f.hi
  · simp [hi, hin]
  · have hmask : (decide (f.lo ≤ i) && decide (i ≤ f.hi)) = false := by simpa using hin
    simp [hi, hin, hmask]

/-- The bits of a named field are bits of its register's mask. -/
theorem Field.Named.getLsbD_regMask {f : Field} (hf : f.Named) {i : Nat} (hlo : f.lo ≤ i) (hhi : i ≤ f.hi) :
    (regMask f.addr).getLsbD i = true := by
  have h32 : i < 32 := Nat.lt_of_le_of_lt hhi hf.1
  have h := congrArg (fun w => w.getLsbD i) hf.2
  simpa only [BitVec.getLsbD_and, BitVec.getLsbD_ofNat, testBit_fieldMask, hlo, hhi, h32, decide_true, Bool.true_and] using h

/-- A named field reads what is written to its register: the mask takes none of its bits. -/
theorem getF_setReg_same {f : Field} (hf : f.Named) (w : Word) (s : State) :
    getF (setReg f.addr w s) f = natBits w.toNat f.hi f.lo := by
  apply Nat.eq_of_testBit_eq
  intro i
  rw [getF, reg_setReg_same, testBit_natBits, testBit_natBits]
  by_cases h : f.lo + i ≤ f.hi
  · simp only [BitVec.testBit_toNat, BitVec.getLsbD_and, hf.getLsbD_regMask (Nat.le_add_right _ i) h, Bool.and_true]
  · simp [h]

theorem natBits_putBits_same {f : Field} (hf : f.hi < 32) (w : Word) (v : Nat) :
    natBits (putBits w f v).toNat f.hi f.lo = v % 2 ^ f.width := by
  apply Nat.eq_of_testBit_eq
  intro i
  have hw : i < f.width ↔ f.lo + i ≤ f.hi := by unfold Field.width; omega
  rw [testBit_natBits, Nat.testBit_mod_two_pow, BitVec.testBit_toNat]
  by_cases h : f.lo + i ≤ f.hi
  · simp [getLsbD_putBits w f v (f.lo + i) (by omega), h, hw]
  · simp [h, hw]

/-- A field written reads the value, as far as it fits. -/
theorem getF_setF_same {f : Field} (hf : f.Named) (v : Nat) (s : State) :
    getF (setF f v s) f = v % 2 ^ f.width := by
  rw [setF, getF_setReg_same hf, natBits_putBits_same hf.1]

/-- A field of the same register with no bit in common reads as before, where the register holds named bits only. -/
theorem getF_setF_apart {f g : Field} (v : Nat) (s : State) (haddr : g.addr = f.addr) (hg : g.hi < 32)
    (hapart : g.hi < f.lo ∨ f.hi < g.lo) (hreg : reg s f.addr &&& regMask f.addr = reg s f.addr) :
    getF (setF f v s) g = getF s g := by
  apply Nat.eq_of_testBit_eq
  intro i
  simp only [getF, haddr, setF, reg_setReg_same, testBit_natBits, BitVec.testBit_toNat]
  by_cases h : g.lo + i ≤ g.hi
  · have hout : ¬(f.lo ≤ g.lo + i ∧ g.lo + i ≤ f.hi) := by omega
    have hold := congrArg (fun w => w.getLsbD (g.lo + i)) hreg
    rw [BitVec.getLsbD_and, getLsbD_putBits _ _ _ _ (by omega), if_neg hout]
    simpa [h] using hold
  · simp [h]

/-- The frame of a register write is that one home. -/
theorem frame_setReg (a : Nat) (w : Word) (s : State) : Frame [] [a] s (setReg a w s) :=
  ⟨fun p _ => by cases p <;> rfl, fun _ hb => reg_setReg_other (List.ne_of_not_mem_cons hb)⟩

/-- Settles O6: a field is read bit by bit, and the mask of its register has all its bits. -/
theorem fieldWriteChangesOneField : Obligations.FieldWriteChangesOneField := by
  intro f v s _ hhi hmask
  exact ⟨getF_setF_same ⟨hhi, hmask⟩ v s, frame_setReg _ _ s,
    fun _ haddr _ hg hapart hreg => getF_setF_apart v s haddr hg hapart hreg,
    fun w => ⟨reg_setReg_same, frame_setReg _ w s⟩⟩

end Sys2Proof.Machine

namespace Sys2Proof.Machine

/-! ### Addresses, reads and latched groups (R10, R482, R523) -/

theorem addrError_of_outside {a : Nat} (h : 0x5000 ≤ a ∨ a % 4 ≠ 0) : addrError a = some .e20 := by
  exact if_pos ((Bool.or_eq_true _ _).mpr (h.imp decide_eq_true decide_eq_true))

theorem addrError_of_inside {a : Nat} (hin : a < 0x5000) (halign : a % 4 = 0) :
    addrError a = if (regRow a).isNone then some .e11 else none := by
  refine if_neg ?_
  rw [Bool.or_eq_true, decide_eq_true_eq, decide_eq_true_eq]
  exact not_or.mpr ⟨Nat.not_le.mpr hin, fun hne => hne halign⟩

theorem addrError_of_unlisted {a : Nat} (hin : a < 0x5000) (halign : a % 4 = 0) (hrow : regRow a = none) :
    addrError a = some .e11 := by
  simp [addrError_of_inside hin halign, hrow]

theorem addrError_of_listed {a : Nat} (hin : a < 0x5000) (halign : a % 4 = 0) (hrow : (regRow a).isSome = true) :
    addrError a = none := by
  simp [addrError_of_inside hin halign, Option.isSome_iff_ne_none.mp hrow]

theorem readAddr_of_addrError {a : Nat} {e : ErrCode} (h : addrError a = some e) (s : State) :
    readAddr a s = (some e, 0, s) := by
  simp only [readAddr, h]

theorem readAddr_of_listed {a : Nat} {s : State} (h : addrError a = none) (hp : regPowered s a = true) :
    readAddr a s = (none, readReg a s) := by
  simp [readAddr, h, hp]

theorem readReg_of_latched {a : Nat} (h : isLatched a = true) (s : State) :
    readReg a s = (smGet (zeroDefault 32) s.latch a, s) := by
  simp [readReg, h]

/-- A read of a latched register does nothing, whatever it answers. -/
theorem readAddr_state_of_latched {a : Nat} (h : isLatched a = true) (s : State) : (readAddr a s).2.2 = s := by
  unfold readAddr
  split
  · rfl
  · split
    · rfl
    · simp [readReg_of_latched h]

/-- A read of a register that is not latched, beside LG_HCTD with its own effect, latches the companions. -/
theorem execLatchedPairRead_of_listed {a : Nat} {s : State} (hin : a < 0x5000) (halign : a % 4 = 0)
    (hrow : (regRow a).isSome = true) (hp : regPowered s a = true) (hl : isLatched a = false) (hne : a ≠ 0x2108) :
    exec (.latchedPairRead a) s = .next (latchGroup a s) := by
  change Host.Outcome.next (readAddr a s).2.2 = _
  rw [readAddr_of_listed (addrError_of_listed hin halign hrow) hp]
  simp [readReg, hl, hne]

/-- Writing `f k` at every key `k` of a list: the keys of the list read it, the others as before. -/
theorem smGet_foldl_smSet {w : Nat} (d : Nat → BitVec w) (f : Nat → BitVec w) (l : List Nat) (m : SMap w) (b : Nat) :
    smGet d (l.foldl (fun m k => smSet d m k (f k)) m) b = if b ∈ l then f b else smGet d m b := by
  induction l generalizing m with
  | nil => simp
  | cons a l ih =>
    rw [List.foldl_cons, ih]
    by_cases hb : b = a
    · subst hb; simp [smGet_smSet_same]
    · simp [hb, smGet_smSet_other m (f a) hb]

/-- The companions of Table RX-11 are read from their latches. -/
theorem isLatched_of_mem_latchesOf (a : Nat) : ∀ b ∈ latchesOf a, isLatched b = true := by
  unfold latchesOf
  repeat' split
  all_goals decide

/-- After the read of the first register a companion reads the value that it showed then. -/
theorem readReg_latchGroup {a b : Nat} (h : b ∈ latchesOf a) (s : State) :
    (readReg b (latchGroup a s)).1 = viewReg s b := by
  rw [readReg_of_latched (isLatched_of_mem_latchesOf a b h)]
  exact (smGet_foldl_smSet _ (viewReg s) _ _ _).trans (if_pos h)

theorem frame_latchGroup (a : Nat) (s : State) : Frame [.latch] [] s (latchGroup a s) :=
  ⟨fun p hp => by
    cases p with
    | latch => exact absurd (List.mem_singleton_self _) hp
    | _ => rfl, fun _ _ => rfl⟩

/-! ### Writes (R8, R253, R522) -/

theorem writeAddr_of_accepted {a : Nat} {v : Word} {s : State} (env : ConEnv) (h : writeError s a v = none) :
    writeAddr a v env s = (none, writeEffect a v env s) := by
  simp only [writeAddr, h]

theorem writeAddr_of_refused {a : Nat} {v : Word} {s : State} {e : ErrCode} (env : ConEnv)
    (h : writeError s a v = some e) : writeAddr a v env s = (some e, refusedWrite e a v env s) := by
  simp only [writeAddr, h]

/-- A refusal has no effect but that of the sticky bits (E21) and of the window (E50). -/
theorem refusedWrite_eq_self {e : ErrCode} {a : Nat} (h21 : e ≠ .e21) (h50 : e = .e50 → a ≠ 0x283C) (v : Word)
    (env : ConEnv) (s : State) : refusedWrite e a v env s = s := by
  have hwindow : ¬(e = .e50 ∧ a = 0x283C) := fun h => h50 h.1 h.2
  simp [refusedWrite, h21, hwindow]

theorem refusedWrite_window (v : Word) (env : ConEnv) {s : State} (hcore : coreOn s = true) :
    refusedWrite .e50 0x283C v env s = windowStatus false false false true false s := by
  simp [refusedWrite, windowRefused, hcore]

theorem writeError_of_addrError {a : Nat} {e : ErrCode} (h : addrError a = some e) (s : State) (v : Word) :
    writeError s a v = some e := by
  simp only [writeError, h]

/-- A write to an address that names no register is refused without effect. -/
theorem writeAddr_of_addrError {a : Nat} {e : ErrCode} (h : addrError a = some e) (h21 : e ≠ .e21) (h50 : e ≠ .e50)
    (v : Word) (env : ConEnv) (s : State) : writeAddr a v env s = (some e, s) := by
  rw [writeAddr_of_refused env (writeError_of_addrError h s v), refusedWrite_eq_self h21 (fun he => absurd he h50)]

theorem execRegisterWrite_of_mgtOff {s : State} (h : mgtOn s = false) (a : Nat) (v : Word) (env : ConEnv) :
    exec (.registerWrite a v env) s = .next s := by
  change Host.Outcome.next (if mgtOn s then _ else s) = _
  simp [h]

theorem execRegisterWrite_of_mgtOn {s : State} (h : mgtOn s = true) (a : Nat) (v : Word) (env : ConEnv) :
    exec (.registerWrite a v env) s = .next (writeAddr a v env s).2 := by
  change Host.Outcome.next (if mgtOn s then (writeAddr a v env s).2 else s) = _
  rw [if_pos h]

theorem execRegisterWrite_of_refused {s : State} {a : Nat} {v : Word} {e : ErrCode} (env : ConEnv)
    (he : writeError s a v = some e) (h21 : e ≠ .e21) (ha : a ≠ 0x283C) :
    exec (.registerWrite a v env) s = .next s := by
  cases hm : mgtOn s with
  | false => exact execRegisterWrite_of_mgtOff hm a v env
  | true => rw [execRegisterWrite_of_mgtOn hm, writeAddr_of_refused env he, refusedWrite_eq_self h21 (fun _ => ha)]

/-- RW and RWL bits take the value, W1C bits written as 1 clear (R8). -/
theorem reg_plainWrite {a : Nat} {r : RegRow} (hrow : regRow a = some r) (hrws : r.rws = 0) (v : Word) (s : State) :
    reg (plainWrite a v s) a =
      (((reg s a &&& ~~~BitVec.ofNat 32 (r.rw ||| r.rwl)) ||| (v &&& BitVec.ofNat 32 (r.rw ||| r.rwl)))
        &&& ~~~(v &&& BitVec.ofNat 32 r.w1c)) &&& regMask a := by
  simp only [plainWrite, hrow, hrws, if_true, reg_setReg_same, overlay]

/-! ### CA_CLR and TR_CTRL.CLEAR (R101, R121, R127, R510) -/

theorem exec_caClr {s : State} (hcore : coreOn s = true) (hmgt : mgtOn s = true) :
    exec .caClrUnblock s = .next (askUnblock s) ∧ exec .caClrRsvhit s = .next (clearRsvhit s) ∧
      exec .caClrAlert s = .next (clearAlert s) := by
  simp only [exec, execCaClrUnblock, execCaClrRsvhit, execCaClrAlert, hcore, hmgt, Bool.and_true, if_true, and_self]

theorem exec_caClr_of_coreOff {s : State} (hcore : coreOn s = false) :
    exec .caClrUnblock s = .next s ∧ exec .caClrRsvhit s = .next s ∧ exec .caClrAlert s = .next s := by
  simp [exec, execCaClrUnblock, execCaClrRsvhit, execCaClrAlert, hcore]

theorem exec_trClear {s : State} (hcore : coreOn s = true) : exec .trClear s = .next (ringClear s) := by
  simp only [exec, execTrClear, hcore, if_true]

theorem exec_trClear_of_coreOff {s : State} (hcore : coreOn s = false) : exec .trClear s = .next s := by
  simp [exec, execTrClear, hcore]

theorem ringClear_of_stopped {s : State} (h : flag s Fld.TR_STATUS_RUNNING = false) :
    ringClear s = { s with tr := { s.tr with ring := [] } } := by
  simp [ringClear, h]

/-- RING_START is of a group that no mask holds back: the cleared ring that runs begins with it. -/
theorem ring_ringClear_of_running {s : State} (hrun : flag s Fld.TR_STATUS_RUNNING = true)
    (hfree : flag s Fld.TR_CTRL_FREEZE = false) : (ringClear s).tr.ring = [⟨s.aon, 0x0001, 0⟩] := by
  let cleared : State := { s with tr := { s.tr with ring := [] } }
  have hmask : traceMasked cleared 0x0001 = false := by simp [traceMasked]
  have hrun' : flag cleared Fld.TR_STATUS_RUNNING = true := hrun
  have hfree' : flag cleared Fld.TR_CTRL_FREEZE = false := hfree
  have htrace : trace 0x0001 0 cleared = ringPush ⟨s.aon, 0x0001, 0⟩ cleared := by
    simp [trace, hmask, hrun', hfree', cleared]
  rw [ringClear, if_pos hrun]
  exact congrArg (·.tr.ring) htrace

end Sys2Proof.Machine

namespace Sys2Proof.Machine

/-! ### Sensors (R504 to R506) -/

theorem flag_setF_one {f : Field} (hf : f.Named) (hle : f.lo ≤ f.hi) (s : State) : flag (setF f 1 s) f = true := by
  have hw : f.width ≠ 0 := by unfold Field.width; omega
  simp [flag, getF_setF_same hf, Nat.mod_eq_of_lt (Nat.one_lt_two_pow hw)]

theorem flag_of_reg {s t : State} {f : Field} (h : reg t f.addr = reg s f.addr) : flag t f = flag s f := by
  have hget : getF t f = getF s f := by rw [getF, getF, h]
  rw [flag, flag, hget]

theorem sensorCode_eq_clamp (t : Int) : sensorCode t = max (-240) (min 600 t) := by
  unfold sensorCode
  split
  · omega
  · split <;> omega

theorem sensorOut_iff {t : Int} : sensorOut t = true ↔ t < -240 ∨ 600 < t := by
  simp [sensorOut]

theorem unsigned_lt (w : Nat) (i : Int) : unsigned w i < 2 ^ w := by
  have hpos : (0 : Int) < ((2 ^ w : Nat) : Int) := by exact_mod_cast Nat.two_pow_pos w
  have hlt := Int.emod_lt_of_pos i hpos
  have hnn := Int.emod_nonneg i (Int.ne_of_gt hpos)
  unfold unsigned
  omega

theorem b2n_le (b : Bool) : b2n b ≤ 1 := by cases b <;> decide

/-- The four SN_TEMP registers have VALID and CODE (Table RX-7). -/
theorem named_SN_TEMP : ∀ n < 4, (Fld.SN_TEMP_CODE.at n).Named ∧ (Fld.SN_TEMP_VALID.at n).Named := by
  decide

/-- The word of SN_TEMPn after a conversion. -/
def sensorWord (t : Int) : Nat :=
  2 ^ 31 + b2n (sensorOut t) * 2 ^ 30 + b2n (decide (600 < t)) * 2 ^ 29 + unsigned 16 (sensorCode t)

theorem natBits_sensorWord (t : Int) :
    natBits (BitVec.ofNat 32 (sensorWord t)).toNat 15 0 = unsigned 16 (sensorCode t) ∧
      natBits (BitVec.ofNat 32 (sensorWord t)).toNat 31 31 = 1 := by
  have hcode := unsigned_lt 16 (sensorCode t)
  have hout := b2n_le (sensorOut t)
  have hhigh := b2n_le (decide (600 < t))
  simp only [natBits, BitVec.toNat_ofNat, Nat.shiftRight_eq_div_pow, sensorWord]
  omega

/-- The register of a sensor after its conversion. -/
theorem getF_sensorStore {f : Field} (hf : f.Named) {n : Nat} (haddr : f.addr = (Fld.SN_TEMP_CODE.at n).addr)
    (t : Int) (s : State) :
    getF (sensorStore n t s) f = natBits (BitVec.ofNat 32 (sensorWord t)).toNat f.hi f.lo := by
  rw [← getF_setReg_same hf _ (setBitF Fld.SN_STATUS_RANGE n (sensorOut t) s), haddr]
  unfold sensorStore
  dsimp only
  split
  · simp only [getF, reg_raise, sensorWord]
  · rfl

theorem getF_sensorStore_code {n : Nat} (hn : n < 4) (t : Int) (s : State) :
    getF (sensorStore n t s) (Fld.SN_TEMP_CODE.at n) = unsigned 16 (max (-240) (min 600 t)) := by
  rw [getF_sensorStore (named_SN_TEMP n hn).1 rfl, ← sensorCode_eq_clamp]
  exact (natBits_sensorWord t).1

theorem flag_sensorStore_valid {n : Nat} (hn : n < 4) (t : Int) (s : State) :
    flag (sensorStore n t s) (Fld.SN_TEMP_VALID.at n) = true := by
  have hval : getF (sensorStore n t s) (Fld.SN_TEMP_VALID.at n) = 1 :=
    (getF_sensorStore (named_SN_TEMP n hn).2 rfl t s).trans (natBits_sensorWord t).2
  simp [flag, hval]

/-- A saturated conversion raises FS 58 once. -/
theorem events_sensorStore_of_saturated {t : Int} (h : t < -240 ∨ 600 < t) (n : Nat) (s : State) :
    (sensorStore n t s).fc.events = addEvents s.fc.events 58 1 (BitVec.ofNat 64 (synFs58 n t)) := by
  simp only [sensorStore, sensorOut_iff.mpr h, if_true, raise, setReg_fc, setBitF_fc]

theorem exec_sensorConversion (t0 t1 t2 t3 : Int) (s : State) :
    exec (.sensorConversion t0 t1 t2 t3) s = .next (if mgtOn s then sensorEnd [t0, t1, t2, t3] s else s) := rfl

/-- A threshold reached while its state is off. -/
theorem thresholdStep_of_reached {on : Field} {s : State} {thr : Nat} {h : Nat × Int} (hoff : flag s on = false)
    (hthr : (thr : Int) * 4 ≤ h.2) (src codeOn : Nat) :
    thresholdStep on thr src codeOn h s =
      trace 0x0D01 (codeOn + h.1 * 2 ^ 8 + unsigned 16 h.2 * 2 ^ 16)
        (raise src (synTemp h.1 (unsigned 16 h.2)) (setF on 1 s)) := by
  simp only [thresholdStep, hoff, hthr, if_true, Bool.false_eq_true, if_false]

/-- A state that is on stays on, and raises nothing, down to the hysteresis. -/
theorem thresholdStep_of_held {on : Field} {s : State} {thr : Nat} {h : Nat × Int} (hon : flag s on = true)
    (hheld : ((thr : Int) - getF s Fld.SN_THR_HYST) * 4 ≤ h.2) (src codeOn : Nat) :
    thresholdStep on thr src codeOn h s = s := by
  simp only [thresholdStep, hon, if_true, if_neg (Int.not_lt.mpr hheld)]

theorem named_SN_STATUS_WARN_ON : Fld.SN_STATUS_WARN_ON.Named := by decide

/-- A warning threshold that is reached sets its state and raises FS 56 once. -/
theorem warn_of_reached {s : State} {h : Nat × Int} (hoff : flag s Fld.SN_STATUS_WARN_ON = false)
    (hthr : (getF s Fld.SN_THR_WARN : Int) * 4 ≤ h.2) :
    let u := thresholdStep Fld.SN_STATUS_WARN_ON (getF s Fld.SN_THR_WARN) 56 1 h s
    flag u Fld.SN_STATUS_WARN_ON = true ∧
      u.fc.events = addEvents s.fc.events 56 1 (BitVec.ofNat 64 (synTemp h.1 (unsigned 16 h.2))) := by
  rw [thresholdStep_of_reached hoff hthr]
  refine ⟨?_, ?_⟩
  · rw [flag_of_reg (reg_trace (by decide)), flag_of_reg (reg_raise _)]
    exact flag_setF_one named_SN_STATUS_WARN_ON (by decide) s
  · rw [trace_fc]; rfl

/-! ### The TAP (R44 to R46) -/

theorem tapData_of_bypass {s : State} (h : tapRuns s = .bypass) : tapData s = (1, b2n s.tap.bypass) := by
  simp only [tapData, h]

theorem ballDrive_of_not_extest {s : State} (h : tapRuns s ≠ .extest) (b : Ball) : ballDrive s b = functionDrive s b := by
  simp [ballDrive, h]

theorem ballDrive_of_input {b : Ball} (h : b.sig.kind = .input) (s : State) : ballDrive s b = functionDrive s b := by
  simp [ballDrive, h]

/-- EXTEST: a ball that is no input carries its data cell's level while its enable cell is 1 (log entry 60). -/
theorem ballDrive_of_extest {s : State} {b : Ball} (h : tapRuns s = .extest) (hk : b.sig.kind ≠ .input) :
    ballDrive s b = if s.tap.boundary.getLsbD (cellAt b .enable)
      then .level (s.tap.boundary.getLsbD (cellAt b .data)) else .highZ := by
  simp [ballDrive, h, hk]

theorem tapRuns_of_idcode {s : State} (h : s.tap.ir = 0x1) : tapRuns s = .idcode := if_pos h

theorem tapRuns_of_extest {s : State} (hir : s.tap.ir = 0x0) (hsv : inService s = true) (hopen : tapOpen s = true)
    (hup : tapUp s = true) : tapRuns s = .extest := by
  simp [tapRuns, hir, hsv, hopen, hup, irExtest, irIdcode]

/-- Opcodes without an instruction, and EXTEST and SAMPLE/PRELOAD where they are closed, execute BYPASS. -/
theorem tapRuns_of_closed {s : State} (h : 2 < s.tap.ir.toNat ∨ (s.tap.ir ≠ 0x1 ∧ tapOpen s = false) ∨
    (s.tap.ir = 0x0 ∧ inService s = false)) : tapRuns s = .bypass := by
  rcases h with hop | ⟨hne, hclosed⟩ | ⟨hir, hsv⟩
  · have hne : ∀ op : BitVec 4, op.toNat ≤ 2 → s.tap.ir ≠ op := fun op hle he => by rw [he] at hop; omega
    simp [tapRuns, hne irIdcode (by decide), hne irExtest (by decide), hne irSample (by decide)]
  · simp [tapRuns, show s.tap.ir ≠ irIdcode from hne, hclosed]
  · simp [tapRuns, hir, hsv, irIdcode, irSample]

theorem exec_tap_of_down {s : State} (h : tapUp s = false) (op : BitVec 4) (cells captured : BitVec 449)
    (preload : Option (BitVec 449)) :
    exec .tapIdcode s = .next s ∧ exec .trstNLow s = .next s ∧ exec (.tapBypass op) s = .next s ∧
      exec (.tapExtest cells) s = .next s ∧ exec (.tapSamplePreload preload captured) s = .next s := by
  simp [exec, execTapIdcode, execTrstNLow, execTapBypass, execTapExtest, execTapSamplePreload, h]

theorem exec_tapIdcode {s : State} (h : tapUp s = true) : exec .tapIdcode s = .next (loadIr irIdcode s) := by
  simp only [exec, execTapIdcode, h, if_true]

theorem exec_trstNLow {s : State} (h : tapUp s = true) : exec .trstNLow s = .next (loadIr irIdcode s) := by
  simp only [exec, execTrstNLow, h, if_true]

theorem exec_tapBypass {s : State} (h : tapUp s = true) {op : BitVec 4} (hop : 2 < op.toNat) :
    exec (.tapBypass op) s = .next (loadIr op s) := by
  simp only [exec, execTapBypass, h, if_true, if_neg (Nat.not_le.mpr hop)]

theorem exec_tapExtest {s : State} (h : tapUp s = true) (cells : BitVec 449) :
    exec (.tapExtest cells) s = .next (if inService s && tapOpen s then { s with tap := ⟨irExtest, cells, false⟩ }
      else loadIr irBypass s) := by
  simp [exec, execTapExtest, h]

theorem exec_tapSamplePreload {s : State} (h : tapUp s = true) (preload : Option (BitVec 449)) (captured : BitVec 449) :
    exec (.tapSamplePreload preload captured) s = .next (if tapOpen s
      then { s with tap := ⟨irSample, preload.getD (boundaryCapture s captured), false⟩ } else loadIr irBypass s) := by
  simp [exec, execTapSamplePreload, h]

end Sys2Proof.Machine

namespace Sys2Proof.Machine

/-- Settles O60: register access, sensors and the TAP by the lemmas about each. -/
theorem registersSensorsAndTap : Obligations.RegistersSensorsAndTap := by
  intro s a b v env r t0 t1 t2 t3 n cells captured preload h op ball
  refine ⟨?outside, ?unlisted, ?accepted, ?refused, ?window, ?mgtOff, ?fields, ?latching, ?latched, ?caClr, ?ringStopped,
    ?ringRunning, ?coreOff, ?conversion, ?noConversion, ?stored, ?reached, ?held, rfl, rfl, rfl, ?tapLoads, ?idcode,
    ?closed, ?extest, ?input, ?tapDown⟩
  case outside =>
    intro ha
    have he := addrError_of_outside ha
    exact ⟨readAddr_of_addrError he s, writeAddr_of_addrError he nofun nofun v env s⟩
  case unlisted =>
    intro hin halign hrow
    have he := addrError_of_unlisted hin halign hrow
    exact ⟨readAddr_of_addrError he s, writeAddr_of_addrError he nofun nofun v env s⟩
  case accepted =>
    intro hmgt hok
    rw [execRegisterWrite_of_mgtOn hmgt, writeAddr_of_accepted env hok]
  case refused => exact fun _ he h21 ha => execRegisterWrite_of_refused env he h21 ha
  case window =>
    intro hmgt hcore he
    rw [execRegisterWrite_of_mgtOn hmgt, writeAddr_of_refused env he, refusedWrite_window v env hcore]
  case mgtOff => exact fun hmgt => execRegisterWrite_of_mgtOff hmgt a v env
  case fields => exact fun hrow hrws => reg_plainWrite hrow hrws v s
  case latching =>
    intro hin halign hrow hp hl hne
    exact ⟨latchGroup a s, execLatchedPairRead_of_listed hin halign hrow hp hl hne, rfl,
      fun hb => readReg_latchGroup hb s, frame_latchGroup a s⟩
  case latched => exact fun hl => congrArg Host.Outcome.next (readAddr_state_of_latched hl s)
  case caClr => exact fun hcore hmgt => exec_caClr hcore hmgt
  case ringStopped => exact fun hcore hrun => (exec_trClear hcore).trans (congrArg _ (ringClear_of_stopped hrun))
  case ringRunning =>
    exact fun hcore hrun hfree => ⟨ringClear s, exec_trClear hcore, ring_ringClear_of_running hrun hfree⟩
  case coreOff => exact fun hcore => ⟨exec_trClear_of_coreOff hcore, exec_caClr_of_coreOff hcore⟩
  case conversion => exact fun hmgt => by rw [exec_sensorConversion, if_pos hmgt]
  case noConversion => exact fun hmgt => by simp [exec_sensorConversion, hmgt]
  case stored =>
    exact fun hn => ⟨getF_sensorStore_code hn t0 s, flag_sensorStore_valid hn t0 s,
      fun hsat => events_sensorStore_of_saturated hsat n s⟩
  case reached => exact fun hoff hthr => warn_of_reached hoff hthr
  case held => exact fun hon hheld => thresholdStep_of_held hon hheld 56 1
  case tapLoads =>
    intro hup
    refine ⟨exec_tapIdcode hup, exec_trstNLow hup, exec_tapBypass hup, ?_, ?_, ?_, ?_⟩
    · exact fun hsv hopen => by rw [exec_tapExtest hup, hsv, hopen]; rfl
    · intro hclosed
      have hc : (inService s && tapOpen s) = false := Bool.and_eq_false_iff.mpr hclosed
      rw [exec_tapExtest hup, hc]; rfl
    · exact fun hopen => by rw [exec_tapSamplePreload hup, if_pos hopen]; rfl
    · exact fun hclosed => by rw [exec_tapSamplePreload hup, hclosed]; rfl
  case idcode => exact fun hir => by rw [tapData, tapRuns_of_idcode hir]; rfl
  case closed =>
    intro hc
    have hruns := tapRuns_of_closed hc
    exact ⟨tapData_of_bypass hruns, ballDrive_of_not_extest (hruns ▸ nofun) ball⟩
  case extest =>
    exact fun hup hopen hsv hir hkind => ballDrive_of_extest (tapRuns_of_extest hir hsv hopen hup) hkind
  case input => exact fun hkind => ballDrive_of_input hkind s
  case tapDown => exact fun hup => exec_tap_of_down hup op cells captured preload

end Sys2Proof.Machine

namespace Sys2Proof.Machine

/-! ### What AONRST_N low keeps (R25, R440, R519) -/

/-- A field of a register that holds a value under its mask reads its bits of that value. -/
theorem getF_of_reg_masked {f : Field} (hf : f.Named) {w : Word} {s : State}
    (h : reg s f.addr = w &&& regMask f.addr) : getF s f = natBits w.toNat f.hi f.lo := by
  rw [← getF_setReg_same hf w s, getF, getF, reg_setReg_same, h]

theorem flag_eq_of_getF {f : Field} {s t : State} (h : getF t f = getF s f) : flag t f = flag s f := by
  rw [flag, flag, h]

theorem b2n_flag {f : Field} (hf : f.hi = f.lo) (s : State) : b2n (flag s f) = getF s f := by
  have hlt : getF s f < 2 := by
    rw [getF, natBits, hf, Nat.add_sub_cancel_left]
    exact Nat.mod_lt _ (by decide)
  have hcases : getF s f = 0 ∨ getF s f = 1 := by omega
  rcases hcases with h | h <;> simp [b2n, flag, h]

/-- Every register but the three that a reset writes again reads its Reset column (R519). -/
theorem reg_aonReset_default {a : Nat} (hgn : a ≠ Fld.GN_STATUS_TAMPER_LATCH.addr) (htm : a ≠ Fld.GN_TAMPT_TIME.addr)
    (hmt : a ≠ Fld.MT_STATUS_HCT_OUT.addr) (s : State) : reg (aonReset s) a = regDefault a := by
  change reg (resetBase s) a = _
  unfold resetBase
  rw [reg_setReg_other hmt, reg_setReg_other htm, reg_setReg_other hgn]
  rfl

theorem reg_aonReset_gnTampt (s : State) : reg (aonReset s) Fld.GN_TAMPT_TIME.addr =
    reg s Fld.GN_TAMPT_TIME.addr &&& regMask Fld.GN_TAMPT_TIME.addr := by
  change reg (resetBase s) _ = _
  unfold resetBase
  rw [reg_setReg_other (by decide), reg_setReg_same]

theorem reg_aonReset_gnStatus (s : State) : reg (aonReset s) Fld.GN_STATUS_TAMPER_LATCH.addr =
    gnStatusKept s &&& regMask Fld.GN_STATUS_TAMPER_LATCH.addr := by
  change reg (resetBase s) _ = _
  unfold resetBase
  rw [reg_setReg_other (by decide), reg_setReg_other (by decide), reg_setReg_same]

theorem reg_aonReset_mtStatus (s : State) : reg (aonReset s) Fld.MT_STATUS_HCT_OUT.addr =
    BitVec.ofNat 32 (marchOut s) &&& regMask Fld.MT_STATUS_HCT_OUT.addr := by
  change reg (resetBase s) _ = _
  unfold resetBase
  rw [reg_setReg_same]

/-- What a reset keeps of GN_STATUS: bits 0 and 1 of the register, and TAMPER_NOW at its place. -/
theorem natBits_gnStatusKept (s : State) :
    natBits (gnStatusKept s).toNat 0 0 = getF s Fld.GN_STATUS_TAMPER_LATCH ∧
      natBits (gnStatusKept s).toNat 1 1 = getF s Fld.GN_STATUS_ERASE_DONE ∧
      natBits (gnStatusKept s).toNat 11 11 = getF s Fld.GN_STATUS_TAMPER_NOW := by
  have hnow := b2n_flag (f := Fld.GN_STATUS_TAMPER_NOW) rfl s
  have hle := b2n_le (flag s Fld.GN_STATUS_TAMPER_NOW)
  rw [← hnow]
  simp only [gnStatusKept, tamperBits, getF, natBits, Fld.GN_STATUS_TAMPER_LATCH, Fld.GN_STATUS_ERASE_DONE,
    BitVec.toNat_ofNat, Nat.shiftRight_eq_div_pow]
  omega

/-- What a reset keeps of MT_STATUS: bits 16 and 17, and no bit 31 (log entry 68). -/
theorem natBits_marchOut (s : State) :
    natBits (BitVec.ofNat 32 (marchOut s)).toNat 16 16 = getF s Fld.MT_STATUS_HCT_OUT ∧
      natBits (BitVec.ofNat 32 (marchOut s)).toNat 17 17 = getF s Fld.MT_STATUS_TRACE_OUT ∧
      natBits (BitVec.ofNat 32 (marchOut s)).toNat 31 31 = 0 := by
  simp only [marchOut, getF, natBits, Fld.MT_STATUS_HCT_OUT, Fld.MT_STATUS_TRACE_OUT, BitVec.toNat_ofNat,
    Nat.shiftRight_eq_div_pow]
  omega

/-- The tamper state that every reset keeps (R440). -/
theorem flag_aonReset_tamper (s : State) :
    flag (aonReset s) Fld.GN_STATUS_TAMPER_LATCH = flag s Fld.GN_STATUS_TAMPER_LATCH ∧
      flag (aonReset s) Fld.GN_STATUS_ERASE_DONE = flag s Fld.GN_STATUS_ERASE_DONE ∧
      flag (aonReset s) Fld.GN_STATUS_TAMPER_NOW = flag s Fld.GN_STATUS_TAMPER_NOW := by
  obtain ⟨hlatch, hdone, hnow⟩ := natBits_gnStatusKept s
  have hreg := reg_aonReset_gnStatus s
  exact ⟨flag_eq_of_getF ((getF_of_reg_masked (by decide) hreg).trans hlatch),
    flag_eq_of_getF ((getF_of_reg_masked (f := Fld.GN_STATUS_ERASE_DONE) (by decide) hreg).trans hdone),
    flag_eq_of_getF ((getF_of_reg_masked (f := Fld.GN_STATUS_TAMPER_NOW) (by decide) hreg).trans hnow)⟩

/-- HCT_OUT and TRACE_OUT stand through a reset (R294, log entry 68); the march engine is idle. -/
theorem flag_aonReset_march (s : State) :
    flag (aonReset s) Fld.MT_STATUS_HCT_OUT = flag s Fld.MT_STATUS_HCT_OUT ∧
      flag (aonReset s) Fld.MT_STATUS_TRACE_OUT = flag s Fld.MT_STATUS_TRACE_OUT ∧
      flag (aonReset s) Fld.MT_STATUS_BUSY = false := by
  obtain ⟨hhct, htrace, hbusy⟩ := natBits_marchOut s
  have hreg := reg_aonReset_mtStatus s
  have hidle : getF (aonReset s) Fld.MT_STATUS_BUSY = 0 :=
    (getF_of_reg_masked (f := Fld.MT_STATUS_BUSY) (by decide) hreg).trans hbusy
  exact ⟨flag_eq_of_getF ((getF_of_reg_masked (by decide) hreg).trans hhct),
    flag_eq_of_getF ((getF_of_reg_masked (f := Fld.MT_STATUS_TRACE_OUT) (by decide) hreg).trans htrace),
    by simp [flag, hidle]⟩

/-- Only a burn that runs is cut short (R302): without one fuses and draws are as they were. -/
theorem fusesLeft_of_idle {s : State} (h : s.mt.burn = none) : fusesLeft s = s.fuses ∧ drawsLeft s = s.draws := by
  simp [fusesLeft, drawsLeft, h, b2n]

/-- Settles O9: the registers by the three that a reset writes again, every other part by the definition of the reset. -/
theorem resetPinClearsTheDevice : Obligations.ResetPinClearsTheDevice := by
  intro s
  obtain ⟨hlatch, hdone, hnow⟩ := flag_aonReset_tamper s
  obtain ⟨hhct, htrace, hbusy⟩ := flag_aonReset_march s
  refine ⟨aonReset s, _, rfl, rfl, rfl, rfl, rfl, rfl, rfl, rfl, fun a hgn htm hmt => reg_aonReset_default hgn htm hmt s,
    reg_aonReset_gnTampt s, hhct, htrace, hbusy, hlatch, hdone, hnow, rfl, rfl, fusesLeft_of_idle, ?_⟩
  exact ⟨rfl, rfl, rfl, rfl, rfl, rfl, rfl, rfl, rfl, rfl, rfl, rfl, rfl, rfl, rfl, rfl, rfl, rfl, rfl, rfl, rfl, rfl,
    rfl⟩

end Sys2Proof.Machine

namespace Sys2Proof.Machine

/-! ### PGOOD (R24, R69) -/

/-- PGOOD as the always-on logic has recognised it, with its trace entry (Table SN-3). -/
def notePgood (high : Bool) (s : State) : State :=
  trace 0x0102 (b2n high) { s with pins := { s.pins with pgood := high } }

/-- PGOOD recognised low in RUN and in SERVICE: the entry of the host clock as it stands joins that of the fall. -/
def noteHostFall (s : State) : State :=
  trace 0x0301 (hckArgs (getF s Fld.CK_HCKCNT_COUNT) (flag s Fld.CK_STATUS_HCK_PRESENT) (flag s Fld.CK_STATUS_OVERSPEED) true)
    (notePgood false s)

theorem exec_pgoodRise {s : State} (hup : s.boot ≠ .held) (hlow : s.pins.pgood = false) :
    exec .pgoodRise s = .next (pgoodHigh s) := by
  simp [exec, execPgoodRise, hup, hlow]

theorem exec_pgoodRise_of_known {s : State} (h : s.boot = .held ∨ s.pins.pgood = true) :
    exec .pgoodRise s = .next s := by
  simp [exec, execPgoodRise, h]

theorem exec_pgoodFall {s : State} (hup : s.boot ≠ .held) (hhigh : s.pins.pgood = true) :
    exec .pgoodFall s = .next (pgoodLow s) := by
  simp [exec, execPgoodFall, hup, hhigh]

theorem exec_pgoodFall_of_known {s : State} (h : s.boot = .held ∨ s.pins.pgood = false) :
    exec .pgoodFall s = .next s := by
  simp [exec, execPgoodFall, h]

/-- A rise powers up only what a fall in SERVICE has switched off. -/
theorem pgoodHigh_eq (s : State) : pgoodHigh s =
    if inService s && !coreOn s && !inSave s then serviceUp (notePgood true s) else notePgood true s := rfl

theorem pgoodLow_of_away {s : State} (hrun : inRun s = false) (hsv : inService s = false) :
    pgoodLow s = notePgood false s := by
  have htrain : inTrain s = false := by rw [inTrain, hrun, Bool.false_and]
  simp [pgoodLow, hrun, hsv, htrain, notePgood, b2n]

theorem pgoodLow_of_service {s : State} (hsv : inService s = true) (hcore : coreOn s = true) :
    pgoodLow s = serviceDown (noteHostFall s) := by
  simp [pgoodLow, hsv, hcore, noteHostFall, notePgood, b2n]

theorem inService_of_inRun {s : State} (h : inRun s = true) : inService s = false := by
  have hmode : mode s = modeRun := of_decide_eq_true h
  rw [inService, hmode]; rfl

/-- In RUN a fall stops a sequence of RUN.TRAIN that no save has taken over. -/
theorem pgoodLow_of_inRun {s : State} (h : inRun s = true) : pgoodLow s =
    if inTrain s && !inSave s then sequenceStop (noteHostFall s) else noteHostFall s := by
  simp [pgoodLow, h, inService_of_inRun h, noteHostFall, notePgood, b2n]

theorem inRun_of_served {s : State} (h : served s = true) : inRun s = true ∧ inTrain s = false := by
  simp only [served, Bool.and_eq_true, decide_eq_true_eq] at h
  simp [inTrain, h.1, h.2]

theorem inRun_of_inTrain {s : State} (h : inTrain s = true) : inRun s = true := ((Bool.and_eq_true _ _).mp h).1

/-! ### The rail VDDQD and the hold island (R35 to R37) -/

theorem exec_vddqdRise (s : State) : exec .vddqdRise s = .next (if s.pins.vddqd then s
    else { s with pins := { s.pins with vddqd := true, island := .reset, given := false } }) := rfl

/-- Until the DRAM PHY is given the pins the island drives them. -/
theorem dramDriven_of_not_given {s : State} (h : s.pins.given = false) : dramDriven s = false := by
  rw [dramDriven, h, Bool.false_and]

/-- The pins of the DRAM side under the hold island, each by its pair of levels in Table BS-11. -/
theorem dramPins_of_not_given {s : State} (h : s.pins.given = false) (r half i : Nat) (isC : Bool) :
    drstLevel s = islandLevel s 0 false true ∧ dcsLevel s r = islandLevel s (1 + r) true false ∧
      dcaLevel s half i = islandLevel s (8 + 14 * half + i) false false ∧
      dckDrive s half isC = .level (islandLevel s (40 + 2 * half + b2n isC) isC isC) := by
  simp [drstLevel, dcsLevel, dcaLevel, dckDrive, dramDriven_of_not_given h]

theorem islandLevel_of_reset {s : State} (h : s.pins.island = .reset) (pin : Nat) (r sr : Bool) :
    islandLevel s pin r sr = r := by
  simp only [islandLevel, h]

theorem islandLevel_of_selfRefresh {s : State} (h : s.pins.island = .selfRefresh) (pin : Nat) (r sr : Bool) :
    islandLevel s pin r sr = sr := by
  simp only [islandLevel, h]

/-- Table BS-11: the two level sets while the island drives. -/
theorem islandDrives {s : State} (hgiven : s.pins.given = false) (r half i : Nat) :
    (s.pins.island = .reset → drstLevel s = false ∧ dcsLevel s r = true ∧ dcaLevel s half i = false ∧
      dckDrive s half false = .level false ∧ dckDrive s half true = .level true) ∧
    (s.pins.island = .selfRefresh → drstLevel s = true ∧ dcsLevel s r = false ∧ dcaLevel s half i = false ∧
      dckDrive s half false = .level false ∧ dckDrive s half true = .level true) := by
  obtain ⟨hdrst, hdcs, hdca, hdckT⟩ := dramPins_of_not_given hgiven r half i false
  obtain ⟨-, -, -, hdckC⟩ := dramPins_of_not_given hgiven r half i true
  rw [hdrst, hdcs, hdca, hdckT, hdckC]
  constructor
  · intro h; simp only [islandLevel_of_reset h, and_self]
  · intro h; simp only [islandLevel_of_selfRefresh h, and_self]

/-- Settles O10: PGOOD by what a rise and a fall do in each mode, the pins by the island's level set. -/
theorem supplyPinsAreFollowed : Obligations.SupplyPinsAreFollowed := by
  intro s
  refine ⟨?riseNoted, ?riseService, exec_pgoodRise_of_known, ?fallAway, ?fallServed, ?fallService, ?fallTrain,
    exec_pgoodFall_of_known, ?vddqdRise, ?vddqdKnown, rfl, fun r h i hgiven => islandDrives hgiven r h i⟩
  case riseNoted =>
    intro hup hlow hstay
    have hno : (inService s && !coreOn s && !inSave s) = false := by
      rcases hstay with h | h | h <;> simp [h]
    rw [exec_pgoodRise hup hlow, pgoodHigh_eq, hno]; rfl
  case riseService =>
    intro hup hlow hsv hcore hsave
    rw [exec_pgoodRise hup hlow, pgoodHigh_eq, hsv, hcore, hsave]; rfl
  case fallAway =>
    intro hup hhigh hrun hsv
    rw [exec_pgoodFall hup hhigh, pgoodLow_of_away hrun hsv]; rfl
  case fallServed =>
    intro hup hhigh hserved
    obtain ⟨hrun, htrain⟩ := inRun_of_served hserved
    rw [exec_pgoodFall hup hhigh, pgoodLow_of_inRun hrun, htrain]; rfl
  case fallService =>
    intro hup hhigh hsv hcore
    rw [exec_pgoodFall hup hhigh, pgoodLow_of_service hsv hcore]; rfl
  case fallTrain =>
    intro hup hhigh htrain hsave
    rw [exec_pgoodFall hup hhigh, pgoodLow_of_inRun (inRun_of_inTrain htrain), htrain, hsave]; rfl
  case vddqdRise => exact fun hoff => by rw [exec_vddqdRise, hoff]; rfl
  case vddqdKnown => exact fun hon => by rw [exec_vddqdRise, if_pos hon]

end Sys2Proof.Machine

namespace Sys2Proof.Machine

/-! ### Fields and frames -/

theorem getF_lt (f : Field) (s : State) : getF s f < 2 ^ f.width := Nat.mod_lt _ (Nat.two_pow_pos _)

/-- A register that a field was written to holds named bits only (R9). -/
theorem reg_setF_masked (f : Field) (v : Nat) (s : State) :
    reg (setF f v s) f.addr &&& regMask f.addr = reg (setF f v s) f.addr := by
  rw [setF, reg_setReg_same, BitVec.and_assoc, BitVec.and_self]

theorem Part.same_trans {p : Part} {s t u : State} (h : p.same s t) (k : p.same t u) : p.same s u := by
  cases p <;> exact Eq.trans k h

/-- Two changes one after the other leave what both leave. -/
theorem Frame.trans {ps qs : List Part} {as bs : List Nat} {s t u : State} (h : Frame ps as s t) (k : Frame qs bs t u) :
    Frame (ps ++ qs) (as ++ bs) s u := by
  obtain ⟨hparts, hregs⟩ := h
  obtain ⟨kparts, kregs⟩ := k
  constructor
  · intro p hp
    obtain ⟨hps, hqs⟩ := not_or.mp (mt List.mem_append.mpr hp)
    exact Part.same_trans (hparts p hps) (kparts p hqs)
  · intro a ha
    obtain ⟨has, hbs⟩ := not_or.mp (mt List.mem_append.mpr ha)
    exact (kregs a hbs).trans (hregs a has)

theorem Frame.mono {ps qs : List Part} {as bs : List Nat} {s t : State} (h : Frame ps as s t) (hps : ps ⊆ qs)
    (has : as ⊆ bs) : Frame qs bs s t :=
  ⟨fun p hp => h.1 p (fun hm => hp (hps hm)), fun a ha => h.2 a (fun hm => ha (has hm))⟩

theorem frame_setF (f : Field) (v : Nat) (s : State) : Frame [] [f.addr] s (setF f v s) := frame_setReg _ _ s

/-- A trace entry changes the trace unit and TR_LOST only (R510, R512). -/
theorem frame_trace (code args : Nat) (s : State) : Frame [.tr] [Fld.TR_LOST_RING.addr] s (trace code args s) := by
  constructor
  · intro p hp
    cases p with
    | tr => exact absurd (List.mem_singleton_self _) hp
    | _ => simp only [Part.same, trace_aon, trace_boot, trace_staged, trace_committed, trace_latch, trace_draws,
        trace_fuses, trace_pins, trace_clk, trace_fc, trace_ca, trace_dl, trace_lg, trace_cb, trace_ld, trace_kp,
        trace_gn, trace_mt, trace_sw, trace_ps, trace_rs, trace_tw, trace_con, trace_tap, trace_pending]
  · exact fun _ ha => reg_trace (List.ne_of_not_mem_cons ha)

/-! ### Transitions (R55, Table PM-12) -/

/-- The value of PM_LAST that a transition to `m`.`b` writes: the cause, the pair entered, the pair left. -/
def lastWord (m b cause : Nat) (s : State) : Nat :=
  cause * 0x10000 + b * 0x1000 + m * 0x100 + sub s * 0x10 + mode s

/-- The fields of Table PM-12 lie apart in PM_LAST: each pair fits its bits. -/
theorem natBits_lastWord {m b cause : Nat} (hm : m < 8) (hb : b < 4) (hc : cause < 256) (s : State) :
    let w := (BitVec.ofNat 32 (lastWord m b cause s)).toNat
    natBits w 23 16 = cause ∧ natBits w 13 12 = b ∧ natBits w 10 8 = m ∧ natBits w 5 4 = sub s ∧
      natBits w 2 0 = mode s := by
  have hsub : sub s < 4 := getF_lt Fld.PM_MODE_SUB s
  have hmode : mode s < 8 := getF_lt Fld.PM_MODE_MODE s
  simp only [lastWord, natBits, BitVec.toNat_ofNat, Nat.shiftRight_eq_div_pow]
  omega

/-- A register other than PM_MODE reads after a transition what its record left. -/
theorem reg_transition {a : Nat} (h : a ≠ Fld.PM_MODE_MODE.addr) (m b cause : Nat) (s : State) :
    reg (transition m b cause s) a = reg (recordTransition m b cause s) a :=
  (reg_setF_other h).trans (reg_setF_other h)

theorem reg_transition_pmLast (m b cause : Nat) (s : State) : reg (transition m b cause s) Fld.PM_LAST_CAUSE.addr =
    BitVec.ofNat 32 (lastWord m b cause s) &&& regMask Fld.PM_LAST_CAUSE.addr := by
  rw [reg_transition (by decide), recordTransition_eq, reg_trace (by decide), reg_setReg_other (by decide),
    reg_setReg_other (by decide), reg_setReg_same, lastWord]

/-- PM_LAST_TL holds all its 32 bits. -/
theorem reg_transition_pmLastTl (m b cause : Nat) (s : State) :
    reg (transition m b cause s) Fld.PM_LAST_TL_TIME_LO.addr = BitVec.ofNat 32 s.aon.toNat := by
  have hmask : regMask Fld.PM_LAST_TL_TIME_LO.addr = BitVec.allOnes 32 := by decide
  rw [reg_transition (by decide), recordTransition_eq, reg_trace (by decide), reg_setReg_other (by decide),
    reg_setReg_same, hmask, BitVec.and_allOnes]

/-- PM_LAST_TH holds 16 bits, and the AON timer has 16 above its low word. -/
theorem reg_transition_pmLastTh (m b cause : Nat) (s : State) :
    reg (transition m b cause s) Fld.PM_LAST_TH_TIME_HI.addr = BitVec.ofNat 32 (s.aon.toNat >>> 32) := by
  have hmask : regMask Fld.PM_LAST_TH_TIME_HI.addr = BitVec.ofNat 32 (2 ^ 16 - 1) := by decide
  have hhigh : s.aon.toNat >>> 32 < 2 ^ 16 := by
    rw [Nat.shiftRight_eq_div_pow]
    have := s.aon.isLt
    omega
  rw [reg_transition (by decide), recordTransition_eq, reg_trace (by decide), reg_setReg_same, hmask,
    ← BitVec.ofNat_and, Nat.and_two_pow_sub_one_eq_mod, Nat.mod_eq_of_lt hhigh]

theorem mode_transition {m : Nat} (hm : m < 8) (b cause : Nat) (s : State) : mode (transition m b cause s) = m :=
  (getF_setF_same (by decide) m _).trans (Nat.mod_eq_of_lt hm)

/-- MODE is written after SUB, in the same register, and leaves it. -/
theorem sub_transition {b : Nat} (hb : b < 4) (m cause : Nat) (s : State) : sub (transition m b cause s) = b := by
  have hkept : sub (transition m b cause s) = sub (setF Fld.PM_MODE_SUB b (recordTransition m b cause s)) :=
    getF_setF_apart (f := Fld.PM_MODE_MODE) m _ rfl (by decide) (by decide) (reg_setF_masked Fld.PM_MODE_SUB b _)
  rw [hkept, sub, getF_setF_same (by decide)]
  exact Nat.mod_eq_of_lt hb

theorem frame_recordTransition (m b cause : Nat) (s : State) :
    Frame [.tr] [Fld.PM_LAST_CAUSE.addr, Fld.PM_LAST_TL_TIME_LO.addr, Fld.PM_LAST_TH_TIME_HI.addr,
      Fld.TR_LOST_RING.addr] s (recordTransition m b cause s) :=
  (((frame_setReg _ _ s).trans (frame_setReg _ _ _)).trans (frame_setReg _ _ _)).trans (frame_trace _ _ _)

/-- A transition changes PM_MODE, PM_LAST with its time, and what its trace entry does. -/
theorem frame_transition (m b cause : Nat) (s : State) :
    Frame [.tr] [Fld.PM_MODE_MODE.addr, Fld.PM_LAST_CAUSE.addr, Fld.PM_LAST_TH_TIME_HI.addr,
      Fld.PM_LAST_TL_TIME_LO.addr, Fld.TR_LOST_RING.addr] s (transition m b cause s) :=
  (((frame_recordTransition m b cause s).trans (frame_setF _ _ _)).trans (frame_setF _ _ _)).mono
    (by decide) (by decide)

/-- Settles O8: PM_MODE by the two field writes, PM_LAST and its AON time by the record, the frame by their chain. -/
theorem transitionsAreRecorded : Obligations.TransitionsAreRecorded := by
  intro m b cause s hm hb hc
  obtain ⟨hcause, htoSub, hto, hfromSub, hfrom⟩ := natBits_lastWord hm hb hc s
  have hlast := reg_transition_pmLast m b cause s
  exact ⟨mode_transition hm b cause s, sub_transition hb m cause s,
    (getF_of_reg_masked (by decide) hlast).trans hcause,
    (getF_of_reg_masked (f := Fld.PM_LAST_TO) (by decide) hlast).trans hto,
    (getF_of_reg_masked (f := Fld.PM_LAST_TO_SUB) (by decide) hlast).trans htoSub,
    (getF_of_reg_masked (f := Fld.PM_LAST_FROM) (by decide) hlast).trans hfrom,
    (getF_of_reg_masked (f := Fld.PM_LAST_FROM_SUB) (by decide) hlast).trans hfromSub,
    reg_transition_pmLastTl m b cause s, reg_transition_pmLastTh m b cause s, frame_transition m b cause s⟩

end Sys2Proof.Machine

namespace Sys2Proof.Machine

/-! ### Fields that lie apart -/

/-- A named field with no bit of another: in another register, or below or above it in its own. -/
abbrev Field.Apart (g f : Field) : Prop := g.Named ∧ (g.addr ≠ f.addr ∨ g.hi < f.lo ∨ f.hi < g.lo)

theorem natBits_putBits_apart {f g : Field} (hg : g.hi < 32) (hapart : g.hi < f.lo ∨ f.hi < g.lo) (w : Word) (v : Nat) :
    natBits (putBits w f v).toNat g.hi g.lo = natBits w.toNat g.hi g.lo := by
  apply Nat.eq_of_testBit_eq
  intro i
  simp only [testBit_natBits, BitVec.testBit_toNat]
  by_cases h : g.lo + i ≤ g.hi
  · have hout : ¬(f.lo ≤ g.lo + i ∧ g.lo + i ≤ f.hi) := by omega
    rw [getLsbD_putBits _ _ _ _ (by omega), if_neg hout]
  · simp [h]

/-- A named field reads as before after a write of a field apart from it, whatever unnamed bits its register held. -/
theorem getF_setF_of_apart {f g : Field} (h : g.Apart f) (v : Nat) (s : State) : getF (setF f v s) g = getF s g := by
  obtain ⟨hnamed, hplace⟩ := h
  by_cases haddr : g.addr = f.addr
  · have hbits := hplace.resolve_left (not_not_intro haddr)
    rw [setF, ← haddr, getF_setReg_same hnamed, natBits_putBits_apart hnamed.1 hbits, getF]
  · exact getF_setF_addr haddr

theorem flag_setF_of_apart {f g : Field} (h : g.Apart f) (v : Nat) (s : State) : flag (setF f v s) g = flag s g :=
  flag_eq_of_getF (getF_setF_of_apart h v s)

theorem flag_setF_same {f : Field} (hf : f.Named) (v : Nat) (s : State) :
    flag (setF f v s) f = decide (v % 2 ^ f.width ≠ 0) := by
  rw [flag, getF_setF_same hf]

theorem flag_setB_of_apart {f g : Field} (h : g.Apart f) (b : Bool) (s : State) : flag (setB f b s) g = flag s g :=
  flag_setF_of_apart h _ s

theorem flag_setB_same {f : Field} (hf : f.Named) (hw : f.width = 1) (b : Bool) (s : State) :
    flag (setB f b s) f = b := by
  rw [setB, flag_setF_same hf, hw]
  cases b <;> rfl

theorem getF_of_regs {s t : State} (h : t.regs = s.regs) (f : Field) : getF t f = getF s f := by
  rw [getF, getF, reg_of_regs h]

/-! ### Committed values that come into force -/

/-- What every step of a fold leaves as it was, the fold leaves. -/
theorem foldl_keeps {α β : Type} (g : State → β) {f : State → α → State} {l : List α}
    (hf : ∀ e ∈ l, ∀ t, g (f t e) = g t) (s : State) : g (l.foldl f s) = g s := by
  induction l generalizing s with
  | nil => rfl
  | cons e l ih =>
    exact (ih (fun x hx => hf x (List.mem_cons_of_mem _ hx)) _).trans (hf e List.mem_cons_self s)

@[simp] theorem applyCommitted_ca (p : Nat → Bool) (s : State) : (applyCommitted p s).ca = s.ca :=
  foldl_keeps State.ca (fun _ _ _ => setReg_ca) s

@[simp] theorem applyCommitted_clk (p : Nat → Bool) (s : State) : (applyCommitted p s).clk = s.clk :=
  foldl_keeps State.clk (fun _ _ _ => setReg_clk) s

theorem reg_applyCommitted_other {p : Nat → Bool} {a : Nat} (h : p a = false) (s : State) :
    reg (applyCommitted p s) a = reg s a := by
  refine foldl_keeps (fun t => reg t a) (fun e he t => reg_setReg_other ?_) s
  rintro rfl
  exact absurd (List.mem_filter.mp he).2 (Bool.eq_false_iff.mp h)

/-- The rate fields lie at 0x0610 and above. -/
theorem getF_ratesInForce {f : Field} (h : f.addr < 0x0610) (s : State) : getF (ratesInForce s) f = getF s f := by
  have hout : (decide (0x0610 ≤ f.addr) && decide (f.addr ≤ 0x061C)) = false := by simp; omega
  rw [getF, getF, ratesInForce, reg_applyCommitted_other hout]

/-! ### The count of HCK (R83, R84) -/

/-- The fields that a tick-gated count sets. -/
def hckFields (count : Nat) (s : State) : State :=
  setB Fld.CK_STATUS_OVERSPEED (overspeed s count) (setB Fld.CK_STATUS_HCK_PRESENT (matchSet s count).isSome
    (setF Fld.CK_HCKCNT_COUNT count (setF Fld.CK_HCKCNT_XOSC_GATED 0 s)))

/-- What a tick-gated count sets, before its trace entry. -/
def hckNoted (count : Nat) (s : State) : State :=
  { hckFields count s with clk := { s.clk with
    lastMatch := matchSet s count, fits := flag s Fld.CK_STATUS_RS_VALID && within 4 count (activeRate s) } }

theorem noteCount_eq (count : Nat) (s : State) : noteCount count s =
    if s.clk.lastMatch.isSome ≠ (matchSet s count).isSome || (overspeed s count && !flag s Fld.CK_STATUS_OVERSPEED) then
      trace 0x0301 (hckArgs count (matchSet s count).isSome (overspeed s count) false) (hckNoted count s)
    else hckNoted count s := rfl

/-- A count is what it sets, then perhaps an entry. -/
theorem noteCount_cases (count : Nat) (s : State) :
    noteCount count s = hckNoted count s ∨ ∃ args, noteCount count s = trace 0x0301 args (hckNoted count s) := by
  rw [noteCount_eq]
  split
  · exact .inr ⟨_, rfl⟩
  · exact .inl rfl

theorem noteCount_clk (count : Nat) (s : State) : (noteCount count s).clk = (hckNoted count s).clk := by
  rcases noteCount_cases count s with h | ⟨args, h⟩
  · rw [h]
  · rw [h, trace_clk]

theorem getF_noteCount {f : Field} (hf : f.addr ≠ Fld.TR_LOST_RING.addr) (count : Nat) (s : State) :
    getF (noteCount count s) f = getF (hckFields count s) f := by
  have hset : getF (hckNoted count s) f = getF (hckFields count s) f := getF_of_regs rfl f
  rcases noteCount_cases count s with h | ⟨args, h⟩
  · rw [h, hset]
  · rw [h, ← hset, getF, getF, reg_trace hf]

theorem frame_clk (c : Clocks) (s : State) : Frame [.clk] [] s { s with clk := c } := by
  refine ⟨fun p hp => ?_, fun _ _ => rfl⟩
  cases p with
  | clk => exact absurd (List.mem_singleton_self _) hp
  | _ => rfl

theorem frame_hckNoted (count : Nat) (s : State) :
    Frame [.clk] [Fld.CK_HCKCNT_COUNT.addr, Fld.CK_STATUS_OVERSPEED.addr] s (hckNoted count s) := by
  have hfields : Frame _ _ s (hckFields count s) := (((frame_setF Fld.CK_HCKCNT_XOSC_GATED _ _).trans
    (frame_setF Fld.CK_HCKCNT_COUNT _ _)).trans (frame_setF Fld.CK_STATUS_HCK_PRESENT _ _)).trans
    (frame_setF Fld.CK_STATUS_OVERSPEED _ _)
  exact (hfields.trans (frame_clk _ _)).mono (by decide) (by decide)

theorem frame_noteCount (count : Nat) (s : State) :
    Frame [.clk, .tr] [Fld.CK_HCKCNT_COUNT.addr, Fld.CK_STATUS_OVERSPEED.addr, Fld.TR_LOST_RING.addr] s
      (noteCount count s) := by
  have hset := frame_hckNoted count s
  rcases noteCount_cases count s with h | ⟨args, h⟩
  · rw [h]; exact hset.mono (by decide) (by decide)
  · rw [h]; exact (hset.trans (frame_trace _ _ _)).mono (by decide) (by decide)

theorem hckFields_read (count : BitVec 16) (s : State) :
    getF (hckFields count.toNat s) Fld.CK_HCKCNT_COUNT = count.toNat ∧
      flag (hckFields count.toNat s) Fld.CK_HCKCNT_XOSC_GATED = false ∧
      flag (hckFields count.toNat s) Fld.CK_STATUS_OVERSPEED = overspeed s count.toNat ∧
      flag (hckFields count.toNat s) Fld.CK_STATUS_HCK_PRESENT = (matchSet s count.toNat).isSome := by
  unfold hckFields
  refine ⟨?count, ?gated, flag_setB_same (by decide) rfl _ _, ?present⟩
  case count =>
    rw [setB, getF_setF_of_apart (by decide), setB, getF_setF_of_apart (by decide), getF_setF_same (by decide)]
    exact Nat.mod_eq_of_lt count.isLt
  case gated =>
    rw [flag_setB_of_apart (by decide), flag_setB_of_apart (by decide), flag_setF_of_apart (by decide),
      flag_setF_same (by decide)]
    rfl
  case present => rw [flag_setB_of_apart (by decide), flag_setB_same (by decide) rfl]

/-! ### Clock events (R80, R86, R92) -/

/-- HCK was lost: no count since fits the set in force. -/
def unfit (s : State) : State := { s with clk := { s.clk with fits := false } }

theorem mayPark_iff {s : State} :
    mayPark s = true ↔ served s = true ∧ parked s = false ∧ saving s = false ∧ s.boot = .up := by
  simp [mayPark, and_assoc]

/-- Where the device may park, every clock event parks it. -/
theorem clockLost_of_mayPark {s : State} (h : mayPark s = true) (cause : Nat) :
    clockLost cause s = parkEnter cause (unfit s) := by
  have hpark : mayPark (unfit s) = true := h
  have hsave : saving (unfit s) = false := (mayPark_iff.mp h).2.2.1
  unfold unfit at hpark hsave
  simp [clockLost, hsave, hpark, unfit]

theorem exec_hrstNLow {s t : State} (hpins : hostPins s = true) (ht : t = setF Fld.CK_STATUS_HRST_LOW 1 s) :
    exec .hrstNLow s = .next (if hrstLow t && mayPark t then parkEnter 0 t else t) := by
  simp [exec, execHrstNLow, hpins, ht]

theorem hrstLow_of_ignored {s : State} (h : flag s Fld.CK_CTRL_HRST_MODE = true) : hrstLow s = false := by
  simp [hrstLow, h]

theorem exec_hckEdgesMissing (s : State) :
    exec .hckEdgesMissing s = .next (if coreOn s && s.boot = .up then clockLost 1 s else s) := rfl

theorem exec_hpllLockLost (s : State) : exec .hpllLockLost s =
    .next (if coreOn s && flag s Fld.CK_STATUS_HPLL_LOCK && !flag s Fld.CK_STATUS_HPLL_REF_XOSC then
        clockLost 2 (raise 48 (b2n (saving s) * 2 ^ 16 + getF s Fld.CK_HCKCNT_COUNT) s) else s) := rfl

theorem exec_parkExit (s : State) : exec .parkExit s =
    .next (if parked s && served s && !saving s && !hrstLow s && s.clk.fits then parkLeave s else s) := rfl

theorem exec_hckCount (count : BitVec 16) (s : State) : exec (.hckCount count) s =
    .next (if hckPins s then countEffect count.toNat (noteCount count.toNat s) else s) := rfl

/-- A count while the host is served: one that fits, a first that does not, a second (R92). -/
theorem countEffect_of_mayPark {s : State} (h : mayPark s = true) (count : Nat) :
    countEffect count s = if within 4 count (activeRate s) then { s with clk := { s.clk with offCounts := 0 } }
      else if s.clk.offCounts = 0 then { s with clk := { s.clk with offCounts := 1 } } else clockLost 3 s := by
  rw [countEffect, if_pos h]; rfl

/-! ### The DRAM in the park (R92, R93) -/

theorem apstat_ca (s : State) : (apstat s).ca = s.ca := by
  simp only [apstat]
  split <;> simp

theorem reg_apstat {a : Nat} (h : a ≠ Fld.CA_APSTAT_ROW.addr) (s : State) : reg (apstat s) a = reg s a := by
  simp only [apstat, setB]
  split
  · simp only [reg_setF_other (f := Fld.CA_APSTAT_ROW) h, reg_setF_other (f := Fld.CA_APSTAT_OPEN) h,
      reg_setF_other (f := Fld.CA_APSTAT_IN_FORCE) h]
  · simp only [reg_setF_other (f := Fld.CA_APSTAT_ROW) h, reg_setF_other (f := Fld.CA_APSTAT_OPEN) h,
      reg_setF_other (f := Fld.CA_APSTAT_IN_FORCE) h]

theorem testBit_foldl_or (l : List Nat) (a i : Nat) :
    (l.foldl (fun a i => a ||| (1 <<< i)) a).testBit i = (a.testBit i || decide (i ∈ l)) := by
  induction l generalizing a with
  | nil => simp
  | cons j l ih =>
    have hbit : (1 <<< j).testBit i = decide (i = j) := by
      simp [Nat.one_shiftLeft, Nat.testBit_two_pow, eq_comm]
    simp [ih, hbit, Bool.or_assoc]

theorem testBit_ofBits (l : List Nat) (i : Nat) : (ofBits l).testBit i = decide (i ∈ l) := by
  rw [ofBits, testBit_foldl_or, Nat.zero_testBit, Bool.false_or]

theorem mem_popRanks {s : State} {r : Nat} : r ∈ popRanks s ↔ r < 4 ∧ populated s r = true := by
  have hlist : r ∈ rankList ↔ r < 4 := by simp [rankList]; omega
  rw [popRanks, List.mem_filter, hlist]

/-- Every populated rank is in self-refresh once the DRAM is parked. -/
theorem inSr_parkDram {s : State} {r : Nat} (hpop : populated s r = true) (hr : r < 4) : inSr (parkDram s) r = true := by
  have hmem : decide (r ∈ popRanks s) = true := decide_eq_true (mem_popRanks.mpr ⟨hr, hpop⟩)
  have hr4 : r < Fld.PM_RANK_SR_STATE.width := hr
  unfold parkDram
  rw [inSr, bitF, getF, reg_apstat (by decide), ← getF, getF_setF_same (by decide), Nat.testBit_mod_two_pow,
    Nat.testBit_or, testBit_ofBits, hmem, Bool.or_true, decide_eq_true hr4, Bool.and_true]

theorem own_parkDram (s : State) : (parkDram s).ca.own =
    s.ca.own ++ (((popRanks s).filter (rankOpen s)).map OwnCmd.preab
      ++ ((popRanks s).filter (fun r => !inSr s r)).map OwnCmd.sre) := by
  unfold parkDram
  rw [apstat_ca]; rfl

theorem rows_parkDram (s : State) : (parkDram s).ca.rows = [] := by
  unfold parkDram
  rw [apstat_ca]
  exact List.filter_eq_nil_iff.mpr fun _ _ => nofun

/-- Leaving the park writes PM_RANK and CK_STATUS. -/
theorem getF_parkLeave {f : Field} (h : f.addr < 0x0610) (s : State) : getF (parkLeave s) f =
    getF (setF Fld.CK_STATUS_PARKED 0 (setF Fld.CK_STATUS_RATE_MISMATCH 0 (setF Fld.CK_STATUS_HPLL_REF_XOSC 0
      (setF Fld.CK_STATUS_HPLL_LOCK 1 (setF Fld.PM_RANK_SR_STATE 0 (issue ((popRanks s).map OwnCmd.srx) s)))))) f :=
  getF_ratesInForce h _

theorem parkLeave_ca_clk (s : State) : (parkLeave s).ca.own = s.ca.own ++ (popRanks s).map OwnCmd.srx ∧
    (parkLeave s).clk = { s.clk with clockPark := false, offCounts := 0 } := by
  unfold parkLeave ratesInForce
  rw [applyCommitted_ca, applyCommitted_clk]
  exact ⟨rfl, rfl⟩

theorem parkLeave_fields (s : State) :
    getF (parkLeave s) Fld.PM_RANK_SR_STATE = 0 ∧ parked (parkLeave s) = false ∧
      flag (parkLeave s) Fld.CK_STATUS_RATE_MISMATCH = false ∧ flag (parkLeave s) Fld.CK_STATUS_HPLL_REF_XOSC = false ∧
      flag (parkLeave s) Fld.CK_STATUS_HPLL_LOCK = true := by
  simp (disch := decide) [parked, flag, getF_parkLeave, getF_setF_same, getF_setF_of_apart]

/-- Settles O12: the inputs by their commands, a count by the fields it sets, the park by what it does to the DRAM. -/
theorem hostClockEvents : Obligations.HostClockEvents := by
  intro s count low lost
  refine ⟨?lowParks, ?lowIgnored, ?high, ?unheard, ?count, ?noCount, ?noted, ?fits, ?misses, ?edges, ?noEdges, ?lock,
    fun _ h => clockLost_of_mayPark h 2, ?noLock, ?exit, ?noExit, ?left, ?dram⟩
  case lowParks =>
    exact fun hpins hlow hpark => by
      simp only [exec_hrstNLow (t := low) hpins rfl, hlow, hpark, Bool.and_self, if_true]
  case lowIgnored =>
    intro hpins hstay
    have hmode : flag low Fld.CK_CTRL_HRST_MODE = flag s Fld.CK_CTRL_HRST_MODE := flag_setF_of_apart (by decide) 1 s
    rw [exec_hrstNLow (t := low) hpins rfl, if_neg]
    rcases hstay with h | h
    · simp [hrstLow_of_ignored (hmode.trans h)]
    · simp [h]
  case high => exact fun hpins => by simp [exec, execHrstNHigh, hpins]
  case unheard => exact fun hpins => by simp [exec, execHrstNLow, execHrstNHigh, hpins]
  case count => exact fun hpins => by simp [exec_hckCount, hpins]
  case noCount => exact fun hpins => by simp [exec_hckCount, hpins]
  case noted =>
    intro t
    obtain ⟨hcount, hgated, hfast, hpresent⟩ := hckFields_read count s
    have hclk := noteCount_clk count.toNat s
    exact ⟨(getF_noteCount (by decide) _ s).trans hcount,
      (flag_eq_of_getF (getF_noteCount (by decide) _ s)).trans hgated,
      (flag_eq_of_getF (getF_noteCount (by decide) _ s)).trans hfast,
      (flag_eq_of_getF (getF_noteCount (by decide) _ s)).trans hpresent,
      congrArg Clocks.lastMatch hclk, congrArg Clocks.fits hclk, frame_noteCount _ s⟩
  case fits => exact fun hpark hfit => by rw [countEffect_of_mayPark hpark, if_pos hfit]
  case misses => exact fun hpark hoff => by simp [countEffect_of_mayPark hpark, hoff]
  case edges =>
    intro hcore hup _ hpark
    simp only [exec_hckEdgesMissing, hcore, hup, clockLost_of_mayPark hpark, decide_true, Bool.and_self, if_true]
    rfl
  case noEdges => exact fun h => by rcases h with h | h <;> simp [exec_hckEdgesMissing, h]
  case lock => exact fun hcore hlock href => by simp [exec_hpllLockLost, hcore, hlock, href]
  case noLock => exact fun h => by rcases h with h | h | h <;> simp [exec_hpllLockLost, h]
  case exit =>
    exact fun hparked hserved hsave hlow hfit => by
      simp [exec_parkExit, hparked, hserved, hsave, hlow, hfit]
  case noExit => exact fun h => by rcases h with h | h | h <;> simp [exec_parkExit, h]
  case left =>
    obtain ⟨hown, hclk⟩ := parkLeave_ca_clk s
    obtain ⟨hsr, hparked, hmis, href, hlock⟩ := parkLeave_fields s
    exact ⟨hown, hsr, hparked, hmis, href, hlock, by rw [hclk], by rw [hclk]⟩
  case dram => exact ⟨own_parkDram s, rows_parkDram s, fun _ hpop hr => inSr_parkDram hpop hr⟩

end Sys2Proof.Machine

namespace Sys2Proof.Machine

/-! ### Tick discipline (R73 to R75) -/

theorem exec_tickDiscWindow (err : Int) (s : State) : exec (.tickDiscWindow err) s =
    .next (if mgtOn s && s.boot ≠ .held && flag s Fld.CK_STATUS_XOSC_RUN && !flag s Fld.CK_STATUS_XOSC_FAIL
      && flag s Fld.CK_TICK_DISC_EN && !s.clk.discStopped && !xoscStopped s then discWindow err s else s) := rfl

/-- A field of 8 bits read as signed is one of -128 to 127. -/
theorem signed_bounds {v : Nat} (h : v < 256) : -128 ≤ signed 8 v ∧ signed 8 v ≤ 127 := by
  unfold signed
  split <;> omega

/-- TRIM moves by one step, and stands at its ends. -/
theorem discTrim_step (err : Int) (s : State) :
    (discTrim err s - signed 8 (getF s Fld.CK_TICK_TRIM)).natAbs ≤ 1 := by
  obtain ⟨hlow, hhigh⟩ := signed_bounds (getF_lt Fld.CK_TICK_TRIM s)
  simp only [discTrim]
  split
  · omega
  · split <;> omega

theorem exec_discEnWrite {s : State} (hmgt : mgtOn s = true) (hup : s.boot ≠ .held) :
    exec .discEnWrite s = .next (discEnable s) := by
  simp [exec, execDiscEnWrite, hmgt, hup]

/-! ### XOSC, MCLK, the timer and the watchdog (R76 to R79, R428) -/

theorem exec_xoscFail (noEdge : Bool) (cycles : BitVec 16) (s : State) : exec (.xoscFail noEdge cycles) s =
    .next (if mgtOn s && flag s Fld.CK_STATUS_XOSC_RUN && !flag s Fld.CK_STATUS_XOSC_FAIL && !xoscStopped s
      then xoscFailed (b2n noEdge * 0x10000 + cycles.toNat) s else s) := rfl

theorem exec_xoscRestartAttempt (started : Bool) (s : State) : exec (.xoscRestartAttempt started) s =
    .next (if mgtOn s && flag s Fld.CK_STATUS_XOSC_FAIL then setB Fld.CK_STATUS_XOSC_RUN started s else s) := rfl

theorem exec_xoscRecovered (s : State) : exec .xoscRecovered s =
    .next (if mgtOn s && flag s Fld.CK_STATUS_XOSC_FAIL && flag s Fld.CK_STATUS_XOSC_RUN then xoscBack s else s) := rfl

theorem exec_mpllLockTimeout {s : State} (hmgt : mgtOn s = true) (hup : s.boot ≠ .held) (retryOk : Bool) :
    exec (.mpllLockTimeout retryOk) s = .next (mclkTimeout retryOk s) := by
  simp [exec, execMpllLockTimeout, hmgt, hup]

theorem exec_aonWrap (s : State) : exec .aonWrap s =
    .next (if s.boot = .held || s.aon ≠ BitVec.allOnes 48 then s else trace 0x0107 0 { s with aon := 0 }) := rfl

theorem exec_watchdogExpiry (pc : Word) (s : State) : exec (.watchdogExpiry pc) s = .next (if stewardRuns s then
    raise 52 (b2n s.fc.nmtRun.isSome * 2 ^ 32 + pc.toNat) { s with sw := { s.sw with halted := true } } else s) := rfl

/-- Settles O13: each command by the condition of its rule, the step of TRIM by the bounds of its field. -/
theorem tickAndOscillatorEvents : Obligations.TickAndOscillatorEvents := by
  intro s err noEdge started retryOk cycles pc
  refine ⟨?window, ?noWindow, discTrim_step err s, ?fails, ?noFail, ?restart, ?noRestart, ?recovers,
    fun hmgt hup => exec_mpllLockTimeout hmgt hup retryOk, ?wraps, ?noWrap, ?watchdog, ?noWatchdog, ?enabled,
    ?enabledAgain⟩
  case window =>
    exact fun hmgt hup hrun hfail hen hstop hosc => by
      simp [exec_tickDiscWindow, hmgt, hup, hrun, hfail, hen, hstop, hosc]
  case noWindow => exact fun h => by rcases h with h | h | h | h <;> simp [exec_tickDiscWindow, h]
  case fails => exact fun hmgt hrun hfail hosc => by simp [exec_xoscFail, hmgt, hrun, hfail, hosc]
  case noFail => exact fun h => by rcases h with h | h <;> simp [exec_xoscFail, h]
  case restart => exact fun hmgt hfail => by simp [exec_xoscRestartAttempt, hmgt, hfail]
  case noRestart => exact fun hok => by simp [exec_xoscRestartAttempt, exec_xoscRecovered, hok]
  case recovers => exact fun hmgt hfail hrun => by simp [exec_xoscRecovered, hmgt, hfail, hrun]
  case wraps => exact fun hup hlast => by simp [exec_aonWrap, hup, hlast]
  case noWrap => exact fun h => by rw [exec_aonWrap, if_pos (by simpa using h)]
  case watchdog => exact fun hruns => by simp [exec_watchdogExpiry, hruns]
  case noWatchdog => exact fun hruns => by simp [exec_watchdogExpiry, hruns]
  case enabled => exact fun hmgt hup hgoes => by simp [exec_discEnWrite hmgt hup, discEnable, hgoes]
  case enabledAgain => exact fun hmgt hup hstopped => by simp [exec_discEnWrite hmgt hup, discEnable, hstopped]

end Sys2Proof.Machine

namespace Sys2Proof.Machine

/-! ### What leaves the Steward and the sequence unit alone -/

/-- While the link is down nothing is asked of the twin. -/
theorem replUpdate_of_linkDown {s : State} (h : linkUp s = false) :
    (replUpdate s).sw = s.sw ∧ (replUpdate s).rs = s.rs := by
  have hrun : replMayRun s = false := by simp [replMayRun, h]
  simp [replUpdate, hrun, apply_ite State.sw, apply_ite State.rs]

theorem linkUp_of_lost (s : State) : linkUp (incF Fld.TW_DOWN_DOWNS (setF Fld.TW_STATUS_LINK 3 s)) = false := by
  rw [linkUp, incF, addF, getF_setF_of_apart (by decide), getF_setF_same (by decide)]
  rfl

theorem linkLost_sw_rs (cause : Nat) (s : State) :
    (linkLost cause s).sw = s.sw ∧ (linkLost cause s).rs = s.rs := by
  have hdown := replUpdate_of_linkDown (s := { incF Fld.TW_DOWN_DOWNS (setF Fld.TW_STATUS_LINK 3 s) with
    tw := { s.tw with held := [], waiting := [], retraining := false, t1 := none } }) (linkUp_of_lost s)
  simp only [linkLost]
  split <;> exact hdown

theorem linkNoXosc_sw_rs (s : State) : (linkNoXosc s).sw = s.sw ∧ (linkNoXosc s).rs = s.rs := by
  unfold linkNoXosc
  split
  · exact linkLost_sw_rs 3 s
  · split <;> exact ⟨rfl, rfl⟩

theorem xoscFailed_sw_rs (syn : Nat) (s : State) : (xoscFailed syn s).sw = s.sw ∧ (xoscFailed syn s).rs = s.rs := by
  simp [xoscFailed, apply_ite State.sw, apply_ite State.rs, mclkLocked, linkNoXosc_sw_rs, discRestart, hpllOff]

theorem xoscStart_sw_rs (ok : Bool) (s : State) : (xoscStart ok s).sw = s.sw ∧ (xoscStart ok s).rs = s.rs := by
  cases ok with
  | true => exact ⟨rfl, rfl⟩
  | false => exact xoscFailed_sw_rs 0x10000 s

theorem gradeValues_sw_rs (s : State) : (gradeValues s).sw = s.sw ∧ (gradeValues s).rs = s.rs := by
  simp only [gradeValues]
  split <;> split <;> exact ⟨rfl, rfl⟩

theorem fuseStart_sw_rs (s : State) : (fuseStart s).sw = s.sw ∧ (fuseStart s).rs = s.rs := by
  simp [fuseStart, readLc, loadSteering, gradeValues_sw_rs]

/-! ### The start-up phase (R87) -/

/-- P1 to P3: the fuses, the straps but after a CHIPRST, XOSC. -/
def upToXosc (pos en : BitVec 3) (w : WakeUp) (s : State) : State :=
  xoscStart w.xoscOk (if afterChip s then fuseStart s else strapSample pos en (fuseStart s))

theorem startUp_eq (pos en : BitVec 3) (w : WakeUp) (s : State) : startUp pos en w s =
    if (mclkStart w (upToXosc pos en w s)).sw.halted then { mclkStart w (upToXosc pos en w s) with boot := .up }
    else recordsStart (afterChip s) (patchStart (mclkStart w (upToXosc pos en w s))) := rfl

theorem upToXosc_sw_rs (pos en : BitVec 3) (w : WakeUp) (s : State) :
    (upToXosc pos en w s).sw = s.sw ∧ (upToXosc pos en w s).rs = s.rs := by
  obtain ⟨hsw, hrs⟩ := fuseStart_sw_rs s
  unfold upToXosc
  rw [(xoscStart_sw_rs _ _).1, (xoscStart_sw_rs _ _).2, apply_ite State.sw, apply_ite State.rs]
  simp [strapSample, hsw, hrs]

theorem mclkStart_of_locked {w : WakeUp} (h : w.lockOk = true) (s : State) : (mclkStart w s).sw = s.sw := by
  rw [mclkStart, if_pos h]; rfl

/-- Where MCLK locks, the phase goes on to its records. -/
theorem startUp_of_locked {w : WakeUp} {s : State} (hlock : w.lockOk = true) (hruns : s.sw.halted = false)
    (pos en : BitVec 3) :
    startUp pos en w s = recordsStart (afterChip s) (patchStart (mclkStart w (upToXosc pos en w s))) := by
  have hsw : (mclkStart w (upToXosc pos en w s)).sw = s.sw :=
    (mclkStart_of_locked hlock _).trans (upToXosc_sw_rs pos en w s).1
  rw [startUp_eq, hsw, hruns, if_neg (by decide)]

/-- A failed retry halts the Steward with no lock (R79). -/
theorem mclkTimeout_of_failed (s : State) : (mclkTimeout false s).sw.halted = true ∧
    flag (mclkTimeout false s) Fld.CK_STATUS_MCLK_LOCK = false ∧ (mclkTimeout false s).rs = s.rs := by
  have hregs : (mclkTimeout false s).regs = (setF Fld.CK_STATUS_MCLK_LOCK 0 (setF Fld.CK_STATUS_MCLK_ON_TICK 0
      (raise 49 (b2n (mclkFromTick s) * 2 + 1) s))).regs := by simp [mclkTimeout]; rfl
  refine ⟨by simp [mclkTimeout], ?_, by simp [mclkTimeout]⟩
  rw [flag, getF_of_regs hregs, getF_setF_same (by decide)]
  rfl

/-- Without MCLK the phase ends with the Steward halted, and no path is chosen. -/
theorem startUp_of_unlocked {w : WakeUp} (hlock : w.lockOk = false) (hretry : w.retryOk = false) (pos en : BitVec 3)
    (s : State) : startUp pos en w s = { mclkTimeout false (upToXosc pos en w s) with boot := .up } := by
  have hstart : mclkStart w (upToXosc pos en w s) = mclkTimeout false (upToXosc pos en w s) := by
    simp [mclkStart, hlock, hretry]
  rw [startUp_eq, hstart, (mclkTimeout_of_failed _).1, if_pos rfl]

theorem exec_startUpPhase_of_starting {s : State} (h : s.boot = .starting) (pos en : BitVec 3) (w : WakeUp) :
    exec (.startUpPhase pos en w) s = .next (startUp pos en w s) := by
  simp [exec, execStartUpPhase, h]

theorem exec_startUpPhase_of_held {s : State} (h : s.boot = .held) (pos en : BitVec 3) (w : WakeUp) :
    exec (.startUpPhase pos en w) s = .next (startUp pos en w (aonRelease s)) := by
  simp [exec, execStartUpPhase, h]

/-- GL_STRAP as P2 writes it: each sample at its bit. -/
theorem natBits_strapWord (enBad posBad en pos : Bool) :
    let w := (BitVec.ofNat 32 (b2n enBad * 8 + b2n posBad * 4 + b2n en * 2 + b2n pos)).toNat
    natBits w 1 1 = b2n en ∧ natBits w 0 0 = b2n pos := by
  decide +revert

theorem flag_of_getF_b2n {f : Field} {b : Bool} {s : State} (h : getF s f = b2n b) : flag s f = b := by
  rw [flag, h]
  cases b <;> rfl

theorem flag_strapSample (pos en : BitVec 3) (s : State) :
    flag (strapSample pos en s) Fld.GL_STRAP_TWIN_EN = majority en ∧
      flag (strapSample pos en s) Fld.GL_STRAP_TWIN_POS = majority pos := by
  obtain ⟨hen, hpos⟩ := natBits_strapWord (unstable en) (unstable pos) (majority en) (majority pos)
  exact ⟨flag_of_getF_b2n ((getF_setReg_same (f := Fld.GL_STRAP_TWIN_EN) (by decide) _ s).trans hen),
    flag_of_getF_b2n ((getF_setReg_same (f := Fld.GL_STRAP_TWIN_POS) (by decide) _ s).trans hpos)⟩

/-! ### Cold bring-up and the hand-back (R89, R367) -/

theorem exec_coldBringup (b : BringUp) (reads : List MarchRead) (flips : List (Nat × BitVec 72)) (s : State) :
    exec (.coldBringup b reads flips) s = .next (if mayBringUp s then coldRun b reads flips (coldBegin s) else s) := rfl

theorem exec_coldHandBack (s : State) : exec .coldHandBack s =
    .next (if inTrain s && s.rs.path = .coldReady && !hrstLow s then coldHandBack s else s) := rfl

theorem tamperAtHandBack_regs (s : State) : (tamperAtHandBack s).regs = s.regs := by
  unfold tamperAtHandBack
  split <;> rfl

theorem rankProtected_of_regs {s t : State} (h : t.regs = s.regs) : rankProtected t = rankProtected s := by
  funext r
  simp only [rankProtected, rankErased, rankSecond, flag, getF_of_regs h]

/-- The sub-state that a hand-back enters. -/
def handBackSub (s : State) : Nat := if rankList.all (rankProtected s) then subLive else subDegraded

/-- The transition of a hand-back, with ERR_N judged afresh. -/
def handBackMove (s : State) : State :=
  transition modeRun (handBackSub s) 0x0F
    { tamperAtHandBack s with pins := { (tamperAtHandBack s).pins with errHeld := none } }

theorem handBackRun_eq (s : State) : handBackRun s =
    let t := setF Fld.PM_MODE_RESTORING 0 (setF Fld.PM_MODE_WAITING 0 (handBackMove s))
    { t with pins := { t.pins with rdy := true }, rs := { t.rs with path := .idle },
             clk := { t.clk with offCounts := 0 } } := by
  rw [handBackMove, handBackSub, ← rankProtected_of_regs (tamperAtHandBack_regs s)]
  rfl

theorem getF_handBackRun (f : Field) (s : State) : getF (handBackRun s) f =
    getF (setF Fld.PM_MODE_RESTORING 0 (setF Fld.PM_MODE_WAITING 0 (handBackMove s))) f := by
  rw [handBackRun_eq]; rfl

theorem handBackSub_lt (s : State) : handBackSub s < 4 := by
  unfold handBackSub
  split <;> decide

theorem pmMode_handBackRun (s : State) : mode (handBackRun s) = modeRun ∧ sub (handBackRun s) = handBackSub s ∧
    restoring (handBackRun s) = false ∧ flag (handBackRun s) Fld.PM_MODE_WAITING = false := by
  refine ⟨?mode, ?sub, ?restoring, ?waiting⟩
  case mode =>
    rw [mode, getF_handBackRun, getF_setF_of_apart (by decide), getF_setF_of_apart (by decide)]
    exact mode_transition (by decide) _ _ _
  case sub =>
    rw [sub, getF_handBackRun, getF_setF_of_apart (by decide), getF_setF_of_apart (by decide)]
    exact sub_transition (handBackSub_lt s) _ _ _
  case restoring => rw [restoring, flag, getF_handBackRun, getF_setF_same (by decide)]; rfl
  case waiting =>
    rw [flag, getF_handBackRun, getF_setF_of_apart (by decide), getF_setF_same (by decide)]; rfl

theorem handBackRun_parts (s : State) : (handBackRun s).pins.rdy = true ∧ (handBackRun s).rs.path = .idle ∧
    (handBackRun s).pins.errHeld = none := by
  rw [handBackRun_eq]
  simp [handBackMove]

/-- Settles O11: the phase by whether MCLK locks, the straps bit by bit, the hand-back by its transition. -/
theorem startUpAndColdBringUp : Obligations.StartUpAndColdBringUp := by
  intro s pos en w b reads flips
  refine ⟨?ended, ?released, ?first, ?afterChip, ?unlocked, (flag_strapSample pos en s).1, (flag_strapSample pos en s).2,
    rfl, ?cold, ?noCold, ?handBack, ?noHandBack, ?run⟩
  case ended => exact fun hup => by simp [exec, execStartUpPhase, hup]
  case released =>
    exact fun hheld => by rw [exec_startUpPhase_of_held hheld, exec_startUpPhase_of_starting rfl]; rfl
  case first =>
    intro hboot hchip hlock hruns
    rw [exec_startUpPhase_of_starting hboot, startUp_of_locked hlock hruns, upToXosc, hchip, if_neg (by decide)]
  case afterChip =>
    intro hboot hchip hlock hruns
    rw [exec_startUpPhase_of_starting hboot, startUp_of_locked hlock hruns, upToXosc, hchip, if_pos rfl]
  case unlocked =>
    intro hboot hlock hretry
    obtain ⟨hhalted, hflag, hrs⟩ := mclkTimeout_of_failed (upToXosc pos en w s)
    refine ⟨{ mclkTimeout false (upToXosc pos en w s) with boot := .up }, ?_, rfl, hhalted, hflag,
      hrs.trans (upToXosc_sw_rs pos en w s).2⟩
    rw [exec_startUpPhase_of_starting hboot, startUp_of_unlocked hlock hretry]
  case cold =>
    exact fun hcond hup hruns htrain hpath => by
      simp [exec_coldBringup, mayBringUp, hcond, hup, hruns, htrain, hpath]
  case noCold => exact fun h => by rcases h with h | h | h | h | h <;> simp [exec_coldBringup, mayBringUp, h]
  case handBack => exact fun htrain hpath hhigh => by simp [exec_coldHandBack, htrain, hpath, hhigh]
  case noHandBack => exact fun h => by rcases h with h | h | h <;> simp [exec_coldHandBack, h]
  case run =>
    obtain ⟨hmode, hsub, hrestoring, hwaiting⟩ := pmMode_handBackRun s
    obtain ⟨hrdy, hpath, herr⟩ := handBackRun_parts s
    exact ⟨hrdy, hpath, herr, hmode, hrestoring, hwaiting, fun h => by rw [hsub, handBackSub, h]; rfl,
      fun h => by rw [hsub, handBackSub, h]; rfl⟩

end Sys2Proof.Machine

namespace Sys2Proof.Machine

/-! ### Alerts to the host (R124) -/

theorem frame_halertPulse (s : State) : Frame [.pins, .ca] [Fld.CA_ALERT_PULSES.addr] s (halertPulse s) := by
  refine ⟨fun p hp => ?_, fun a ha => reg_incF_other (List.ne_of_not_mem_cons ha)⟩
  cases p with
  | pins => exact absurd (by decide) hp
  | ca => exact absurd (by decide) hp
  | _ => rfl

/-- A free value is drawn, and the note of the running pulse set. -/
theorem frame_drew_pins (b : Pins) (s : State) : Frame [.draws, .pins] [] s { drew s with pins := b } := by
  refine ⟨fun p hp => ?_, fun _ _ => rfl⟩
  cases p with
  | draws => exact absurd (by decide) hp
  | pins => exact absurd (by decide) hp
  | _ => rfl

/-- An event that finds a pulse running is merged into it or starts the next; either way CA_ALERT counts it. -/
theorem frame_halert (cause : Nat) (s : State) :
    Frame [.draws, .pins, .ca] [Fld.CA_ALERT_PULSES.addr] s (halert cause s) := by
  have merged : Frame [.draws, .pins, .ca] [Fld.CA_ALERT_PULSES.addr] s (incF Fld.CA_ALERT_MERGED (drew s)) :=
    ((frame_drew_pins s.pins s).trans (frame_setF Fld.CA_ALERT_MERGED _ _)).mono (by decide) (by decide)
  have pulsed (b : Pins) :
      Frame [.draws, .pins, .ca] [Fld.CA_ALERT_PULSES.addr] s (halertPulse { drew s with pins := b }) :=
    ((frame_drew_pins b s).trans (frame_halertPulse _)).mono (by decide) (by decide)
  unfold halert
  split
  · exact ⟨fun p _ => by cases p <;> rfl, fun _ _ => rfl⟩
  · split
    · exact (frame_halertPulse s).mono (by decide) (by decide)
    · dsimp only
      split
      · exact merged
      · split
        · exact merged
        · exact pulsed _
      · exact pulsed _

theorem halert_dl (cause : Nat) (s : State) : (halert cause s).dl = s.dl := (frame_halert cause s).1 .dl (by decide)

/-! ### Host cycles up to their effect (R97, R99, R106) -/

/-- A cycle is sampled and answered before it is judged: no register, no open write and no part of the command path
moves. -/
theorem heard_keeps (p : CaPins) (s : State) :
    (heard p s).regs = s.regs ∧ (heard p s).ca = s.ca ∧ (heard p s).dl.writes = s.dl.writes := by
  unfold heard trainAnswer
  split
  · exact ⟨rfl, rfl, rfl⟩
  · split <;> exact ⟨rfl, rfl, rfl⟩

theorem probeEnds_regs_dl (p : CaPins) (s : State) : (probeEnds p s).regs = s.regs ∧ (probeEnds p s).dl = s.dl := by
  unfold probeEnds
  dsimp only
  split
  · exact ⟨rfl, rfl⟩
  · split <;> exact ⟨rfl, rfl⟩

/-- No probe ran on a selected rank. -/
theorem probeEnds_of_free {p : CaPins} {s : State} (h : ∀ r ∈ selected p, s.ca.probing.testBit r = false) :
    probeEnds p s = s := by
  have hnone : (selected p).filter (fun r => s.ca.probing.testBit r) = [] :=
    List.filter_eq_nil_iff.mpr fun r hr => by simp [h r hr]
  rw [probeEnds, hnone]
  rfl

theorem getF_probeEnds_heard (p : CaPins) (s : State) (f : Field) : getF (probeEnds p (heard p s)) f = getF s f :=
  getF_of_regs ((probeEnds_regs_dl p _).1.trans (heard_keeps p s).1) f

theorem writes_probeEnds_heard (p : CaPins) (s : State) : (probeEnds p (heard p s)).dl.writes = s.dl.writes := by
  rw [(probeEnds_regs_dl p _).2, (heard_keeps p s).2.2]

/-- The code of a single-rank command that selects several ranks, none of them absent, granted or being probed. -/
theorem illCode_of_several {p : CaPins} {s : State} (hfree : FreeRanks p s) (hmany : 1 < (selected p).length) :
    illCode false true false p s = some 1 := by
  have habsent : (selected p).any (fun r => !populated s r) = false :=
    List.any_eq_false.mpr fun r hr => by simp [(hfree r hr).1]
  have hgrant : (selected p).any (fun r => (grantedRanks s).testBit r) = false :=
    List.any_eq_false.mpr fun r hr => by simp [(hfree r hr).2.1]
  have hprobe : (selected p).any (fun r => s.ca.probing.testBit r) = false :=
    List.any_eq_false.mpr fun r hr => by simp [(hfree r hr).2.2]
  simp [illCode, habsent, hgrant, hprobe, hmany]

/-- What makes a rank free stands in registers and the command path, which a cycle heard leaves. -/
theorem FreeRanks.heard {p : CaPins} {s : State} (h : FreeRanks p s) : FreeRanks p (heard p s) := by
  obtain ⟨hregs, hca, -⟩ := heard_keeps p s
  intro r hr
  obtain ⟨hpop, hgrant, hprobe⟩ := h r hr
  refine ⟨?_, ?_, by rwa [hca]⟩
  · rwa [populated, rankEn, getF_of_regs hregs]
  · rwa [grantedRanks, flag_eq_of_getF (getF_of_regs hregs _), getF_of_regs hregs]

section
variable {p : CaPins} {s : State} (hlive : hostLive s = true) (hsel : selected p ≠ [])
  (hinj : getF s Fld.FC_INJ_CA_N = 0)
include hlive hsel hinj

/-- The order of judgement of a cycle heard outside the park: parity, the parity block, the rules of Table CA-5. -/
theorem receive_of_live (bcw reserved single badMrw : Bool) (effect : State → State) :
    receive p bcw reserved single badMrw effect s =
      let h := probeEnds p (heard p s)
      if flag s Fld.CA_PAR_MODE_EN && parityOdd p then parityFail p h
      else if flag s Fld.CA_STATUS_PAR_BLOCKED && !bcw then slotDeselect h
      else (illCode reserved single badMrw p h).elim (effect h) (fun c => illegal c p h) := by
  obtain ⟨hheard, hpark⟩ := Bool.and_eq_true_iff.mp hlive
  have hpark' : parked s = false := (Bool.not_eq_true' _).mp hpark
  have hflag (f : Field) := flag_eq_of_getF (getF_probeEnds_heard p s f)
  have hn := (getF_probeEnds_heard p s Fld.FC_INJ_CA_N).trans hinj
  rw [← hflag, ← hflag]
  rw [heard] at hn ⊢
  simp only [receive, hheard, hpark', List.isEmpty_eq_false_iff.mpr hsel, hn, Bool.not_true, Bool.false_and, Bool.or_self,
    ne_eq, not_true_eq_false, decide_false, Bool.false_or, Bool.false_eq_true, if_false, if_true]
  cases illCode reserved single badMrw p (probeEnds p (trainAnswer p (caSample p s))) <;> rfl

theorem receive_of_parity (hen : flag s Fld.CA_PAR_MODE_EN = true) (hodd : parityOdd p = true)
    (bcw reserved single badMrw : Bool) (effect : State → State) :
    receive p bcw reserved single badMrw effect s = parityFail p (probeEnds p (heard p s)) := by
  simp [receive_of_live hlive hsel hinj, hen, hodd]

theorem receive_of_illegal (bcw reserved single badMrw : Bool) (effect : State → State)
    (hpar : flag s Fld.CA_PAR_MODE_EN = false ∨ parityOdd p = false) (hblock : flag s Fld.CA_STATUS_PAR_BLOCKED = false)
    {c : Nat} (hill : illCode reserved single badMrw p (probeEnds p (heard p s)) = some c) :
    receive p bcw reserved single badMrw effect s = illegal c p (probeEnds p (heard p s)) := by
  have hgood : (flag s Fld.CA_PAR_MODE_EN && parityOdd p) = false := Bool.and_eq_false_iff.mpr hpar
  simp [receive_of_live hlive hsel hinj, hgood, hblock, hill]
end

/-! ### Dropped writes (R142) -/

theorem parityFail_dl (p : CaPins) (s : State) : (parityFail p s).dl = s.dl := by
  unfold parityFail
  dsimp only
  rw [apply_ite State.dl, setF_dl, ite_self, apply_ite State.dl, setReg_dl, setReg_dl, ite_self, halert_dl, raise_dl,
    incF_dl, slotDeselect]

theorem illegal_dl (c : Nat) (p : CaPins) (s : State) : (illegal c p s).dl = s.dl := by
  unfold illegal
  dsimp only
  rw [apply_ite State.dl, setF_dl, setF_dl, ite_self, incF_dl, raise_dl, slotDeselect]

/-- The write that a dropped command leaves to its data. -/
theorem dropWrite_of_live {s : State} (hlive : hostLive s = true) (p : CaPins) : dropWrite p s =
    { s with dl := { s.dl with writes := s.dl.writes ++ [openBurst (rankOf p) 0 0 0 0 0 .dropped s] } } := by
  simp only [hostLive, hostHeard, Bool.and_eq_true] at hlive
  obtain ⟨⟨⟨⟨hserved, -⟩, -⟩, hcore⟩, hpark⟩ := hlive
  have hpark' : parked s = false := (Bool.not_eq_true' _).mp hpark
  simp [dropWrite, hserved, hcore, hpark']

theorem frame_dl (d : DataLanes) (s : State) : Frame [.dl] [] s { s with dl := d } := by
  refine ⟨fun p hp => ?_, fun _ _ => rfl⟩
  cases p with
  | dl => exact absurd (List.mem_singleton_self _) hp
  | _ => rfl

/-- A WR or WRA whose reception is `t` for any effect, and opened no write, was dropped. -/
theorem exec_write_of_dropped {p : CaPins} {s t : State} (hsel : selected p ≠ [])
    (hrec : ∀ effect, receive p false false true false effect s = t) (hopen : t.dl.writes = s.dl.writes)
    (bg : BitVec 3) (bank : BitVec 2) (col : BitVec 6) (bo : BitVec 4) :
    exec (.cmdWr p bg bank col bo) s = .next (dropWrite p t) ∧
      exec (.cmdWra p bg bank col bo) s = .next (dropWrite p t) := by
  have hwrite (auto : Bool) : receiveWrite p bg.toNat bank.toNat col.toNat bo.toNat auto s = dropWrite p t := by
    simp [receiveWrite, hrec, hsel, hopen]
  exact ⟨congrArg Host.Outcome.next (hwrite false), congrArg Host.Outcome.next (hwrite true)⟩

/-! ### Write bursts (R140, R142) -/

theorem exec_writeBurst_of_coreOff {s : State} (h : coreOn s = false) (data mon : BitVec 640) (crc : BitVec 80)
    (held : Bool) : exec (.writeBurst data crc mon held) s = .next s := by
  simp [exec, execWriteBurst, h]

theorem exec_writeBurst_of_coreOn {s : State} (h : coreOn s = true) (data mon : BitVec 640) (crc : BitVec 80)
    (held : Bool) : exec (.writeBurst data crc mon held) s =
      .next (writeBurst data.toNat crc.toNat mon.toNat held s) := by
  simp [exec, execWriteBurst, h]

theorem writeBurst_of_none {s : State} (h : s.dl.writes = []) (line crc mon : Nat) (held : Bool) :
    writeBurst line crc mon held s = s := by
  simp [writeBurst, h]

theorem writeBurst_of_dropped {s : State} {o : OpenBurst} {rest : List OpenBurst} (h : s.dl.writes = o :: rest)
    (hkind : o.kind = .dropped) (line crc mon : Nat) (held : Bool) :
    writeBurst line crc mon held s = { s with dl := { s.dl with writes := rest } } := by
  simp [writeBurst, h, hkind]

theorem writeBurst_of_open {s : State} {o : OpenBurst} {rest : List OpenBurst} (h : s.dl.writes = o :: rest)
    (hkind : o.kind ≠ .dropped) (line crc mon : Nat) (held : Bool) :
    writeBurst line crc mon held s = takeBurst o line crc mon held { s with dl := { s.dl with writes := rest } } := by
  simp [writeBurst, h, hkind]

/-- Settles O23: no open write takes the burst, a dropped one ends with it, and a dropped command opens none. -/
theorem dataWithoutACommandIsIgnored : Obligations.DataWithoutACommandIsIgnored := by
  intro s data mon crc held p bg bank col bo c o rest
  refine ⟨?none, ?dropped, ?parity, ?illegal, ?several, congrArg _ (parityFail_dl p s), congrArg _ (illegal_dl c p s),
    ?drop⟩
  case none =>
    intro hnone
    cases hcore : coreOn s with
    | false => exact exec_writeBurst_of_coreOff hcore data mon crc held
    | true => rw [exec_writeBurst_of_coreOn hcore, writeBurst_of_none hnone]
  case dropped =>
    intro hcore hopen hkind
    rw [exec_writeBurst_of_coreOn hcore, writeBurst_of_dropped hopen hkind]
  case parity =>
    intro h hlive hsel hinj hen hodd
    exact exec_write_of_dropped hsel (receive_of_parity hlive hsel hinj hen hodd _ _ _ _)
      ((congrArg _ (parityFail_dl p h)).trans (writes_probeEnds_heard p s)) bg bank col bo
  case illegal =>
    intro h hlive hsel hinj hpar hblock hill
    rw [getF_probeEnds_heard] at hinj
    rw [flag_eq_of_getF (getF_probeEnds_heard p s _)] at hpar hblock
    exact exec_write_of_dropped hsel (fun _ => receive_of_illegal hlive hsel hinj _ _ _ _ _ hpar hblock hill)
      ((congrArg _ (illegal_dl c p h)).trans (writes_probeEnds_heard p s)) bg bank col bo
  case several =>
    rintro ⟨⟨hlive, hsel, hinj, hpar⟩, hfree, hblock⟩ hmany
    have hends : probeEnds p (heard p s) = heard p s := probeEnds_of_free fun r hr => (hfree.heard r hr).2.2
    have hill : illCode false true false p (probeEnds p (heard p s)) = some 1 := by
      rw [hends]; exact illCode_of_several hfree.heard hmany
    rw [← hends]
    exact (exec_write_of_dropped hsel (fun _ => receive_of_illegal hlive hsel hinj _ _ _ _ _ hpar hblock hill)
      ((congrArg _ (illegal_dl 1 p _)).trans (writes_probeEnds_heard p s)) bg bank col bo).1
  case drop =>
    intro hlive
    rw [dropWrite_of_live hlive]
    exact ⟨_, rfl, rfl, frame_dl _ s⟩

end Sys2Proof.Machine

namespace Sys2Proof.Machine

/-! ### Host write bursts that a command opened (R139 to R142, R158) -/

theorem exec_writeBurst_of_open {s : State} {o : OpenBurst} {rest : List OpenBurst} (hcore : coreOn s = true)
    (h : s.dl.writes = o :: rest) (hkind : o.kind ≠ .dropped) (data mon : BitVec 640) (crc : BitVec 80) (held : Bool) :
    exec (.writeBurst data crc mon held) s =
      .next (takeBurst o data.toNat crc.toNat mon.toNat held { s with dl := { s.dl with writes := rest } }) := by
  rw [exec_writeBurst_of_coreOn hcore, writeBurst_of_open h hkind]

/-- The state in which an open write's burst is sent on: sampled, its CRC and its code checked. -/
def burstJudged (o : OpenBurst) (line crc mon : Nat) (s : State) : State :=
  writeCheck o line (crcFailed o (crcFails o line crc s)
    (levelAnswer (hostSample line mon { s with dl := { s.dl with writePre := snooped o Fld.HL_SNOOP_WPRE } })))

theorem takeBurst_of_dram {o : OpenBurst} (h : o.kind = .dram) (line crc mon : Nat) (held : Bool) (s : State) :
    takeBurst o line crc mon held s = toDram o line (burstJudged o line crc mon s) := by
  simp only [takeBurst, h]; rfl

theorem takeBurst_of_aperture {o : OpenBurst} {l : Nat} {fwd : Bool} (h : o.kind = .aperture l fwd)
    (line crc mon : Nat) (held : Bool) (s : State) :
    takeBurst o line crc mon held s =
      let t := ledgerBurst o l line (crcFails o line crc s ≠ 0) (countHeld held (burstJudged o line crc mon s))
      if fwd then toDram o line t else t := by
  simp only [takeBurst, h]; rfl

theorem crcFails_of_unchecked {o : OpenBurst} {s : State}
    (h : snooped o Fld.HL_SNOOP_WRCRC_ON = 0 ∨ flag s Fld.HL_CFG_CRC_CHECK = false) (line crc : Nat) :
    crcFails o line crc s = 0 := by
  rcases h with h | h <;> simp [crcFails, h]

/-- While the CRC is checked a lane fails where its beats are not the CRC of its data. -/
theorem testBit_crcFails {o : OpenBurst} {s : State} (hon : snooped o Fld.HL_SNOOP_WRCRC_ON = 1)
    (hcheck : flag s Fld.HL_CFG_CRC_CHECK = true) {n : Nat} (hn : n < 5) (line crc : Nat) :
    (crcFails o line crc s).testBit n = true ↔
      (Config.laneCrc (BitVec.ofNat 128 (hostLane line n))).toNat ≠ natBits crc (16 * n + 15) (16 * n) := by
  rw [crcFails, if_pos (by simp [hon, hcheck]), testBit_ofBits]
  simp [hn]

theorem toDram_sends (o : OpenBurst) (line : Nat) (s : State) :
    ∃ w, (toDram o line s).dl.dramWrite = some w ∧ w.rank = o.rank ∧
      w.data = BitVec.ofNat 768 (dramBurst s o.rank line) ∧
      (w.crc.isSome = true ↔ snooped o Fld.HL_SNOOP_WRCRC_ON = 1) := by
  refine ⟨_, rfl, rfl, rfl, ?_⟩
  by_cases h : snooped o Fld.HL_SNOOP_WRCRC_ON = 1 <;> simp [h]

/-! ### DRAM alerts (R143, R144, R235) -/

theorem getF_incF_same {f : Field} (hf : f.Named) (s : State) :
    getF (incF f s) f = sat (2 ^ f.width - 1) (getF s f + 1) := by
  have hpos := Nat.two_pow_pos f.width
  have hle : sat (2 ^ f.width - 1) (getF s f + 1) < 2 ^ f.width := by unfold sat; split <;> omega
  rw [incF, addF, getF_setF_same hf, Nat.mod_eq_of_lt hle]

/-- A DRAM alert noted in DL_ALERT. -/
def alertNoted (ranks : Nat) (s : State) : State := incF Fld.DL_ALERT_COUNT (setF Fld.DL_ALERT_RANKS ranks s)

/-- The syndrome of FS 20 (Table FS-3). -/
def alertSyn (ranks : Nat) (s : State) : Nat :=
  ranks * 0x10000 + b2n (flag s Fld.HL_SNOOP_WRCRC_ON) * 2 + b2n (inDrain s)

/-- A DRAM alert noted, raised as FS 20, passed to the host and to the gap trials. -/
def alertPassed (ranks : Nat) (s : State) : State :=
  gapAlert (halert 2 (raise 20 (alertSyn ranks s) (alertNoted ranks s)))

/-- Outside the drain of a save an alert marks no rank; within it the named ranks, or those written since S1, are cold. -/
theorem dalert_eq (ranks : Nat) (s : State) : dalert ranks s =
    if inDrain s then
      setF Fld.PM_RANK_COLD_MARK (getF s Fld.PM_RANK_COLD_MARK ||| (if ranks = 0 then s.dl.writtenS1 else ranks))
        (alertPassed ranks s)
    else alertPassed ranks s := rfl

theorem dalert_fc_cb (ranks : Nat) (s : State) :
    (dalert ranks s).fc = (alertPassed ranks s).fc ∧ (dalert ranks s).cb = (alertPassed ranks s).cb := by
  rw [dalert_eq]
  split <;> exact ⟨rfl, rfl⟩

theorem getF_alertPassed {f : Field} (h : f.addr ≠ Fld.CA_ALERT_PULSES.addr) (ranks : Nat) (s : State) :
    getF (alertPassed ranks s) f = getF (alertNoted ranks s) f := by
  have halerted := (frame_halert 2 (raise 20 (alertSyn ranks s) (alertNoted ranks s))).2 f.addr
    (mt List.mem_singleton.mp h)
  rw [reg_raise] at halerted
  rw [getF, getF, ← halerted]; rfl

theorem getF_dalert {f : Field} (h : f.addr ≠ Fld.CA_ALERT_PULSES.addr) (hcold : f.addr ≠ Fld.PM_RANK_COLD_MARK.addr)
    (ranks : Nat) (s : State) : getF (dalert ranks s) f = getF (alertNoted ranks s) f := by
  rw [dalert_eq]
  split
  · rw [getF_setF_addr hcold, getF_alertPassed h]
  · exact getF_alertPassed h ranks s

theorem alertNoted_reads (ranks : BitVec 4) (s : State) :
    getF (alertNoted ranks.toNat s) Fld.DL_ALERT_RANKS = ranks.toNat ∧
    getF (alertNoted ranks.toNat s) Fld.DL_ALERT_COUNT = sat 65535 (getF s Fld.DL_ALERT_COUNT + 1) := by
  unfold alertNoted
  constructor
  · rw [incF, addF, getF_setF_of_apart (by decide), getF_setF_same (by decide)]
    exact Nat.mod_eq_of_lt ranks.isLt
  · rw [getF_incF_same (by decide), getF_setF_of_apart (by decide)]; rfl

theorem coldMark_alertPassed (ranks : Nat) (s : State) :
    getF (alertPassed ranks s) Fld.PM_RANK_COLD_MARK = getF s Fld.PM_RANK_COLD_MARK := by
  rw [getF_alertPassed (by decide), alertNoted, incF, addF, getF_setF_addr (by decide), getF_setF_addr (by decide)]

theorem coldMark_dalert_of_named {s : State} (h : inDrain s = true) {ranks : BitVec 4} (hranks : ranks ≠ 0) :
    getF (dalert ranks.toNat s) Fld.PM_RANK_COLD_MARK = getF s Fld.PM_RANK_COLD_MARK ||| ranks.toNat := by
  have hne : ranks.toNat ≠ 0 := fun h0 => hranks (BitVec.eq_of_toNat_eq h0)
  have hlt : getF s Fld.PM_RANK_COLD_MARK ||| ranks.toNat < 2 ^ 4 := Nat.or_lt_two_pow (getF_lt _ s) ranks.isLt
  rw [dalert_eq, if_pos h, if_neg hne, getF_setF_same (by decide)]
  exact Nat.mod_eq_of_lt hlt

theorem events_alertPassed (ranks : Nat) (s : State) : (alertPassed ranks s).fc.events =
    addEvents s.fc.events 20 1 (BitVec.ofNat 64 (alertSyn ranks s)) := by
  unfold alertPassed gapAlert
  rw [(frame_halert 2 _).1 .fc (by decide)]; rfl

theorem gaps_alertPassed (ranks : Nat) (s : State) : ∀ g ∈ (alertPassed ranks s).cb.gaps, g.sent = none :=
  List.forall_mem_map.mpr fun _ _ => rfl

theorem exec_dalertEvent (ranks : BitVec 4) (s : State) :
    exec (.dalertEvent ranks) s = .next (if coreOn s then dalert ranks.toNat s else s) := rfl

/-- Settles O24: a burst by the kind of the oldest open write, the CRC lane by lane, an alert by what it notes, passes on
and marks. -/
theorem writeBurstsReachDramOrLedger : Obligations.WriteBurstsReachDramOrLedger := by
  intro s data mon crc held o rest s1 lanes u
  refine ⟨fun hcore => exec_writeBurst_of_coreOff hcore data mon crc held, ?dram, ?ledger, ?both,
    fun h => crcFails_of_unchecked (s := s1) h _ _, fun hon hcheck n hn => testBit_crcFails (s := s1) hon hcheck hn _ _,
    rfl, toDram_sends o data.toNat s, frame_dl _ s, fun ranks => ⟨fun hcore => ?off, fun hcore => ?on⟩⟩
  case dram =>
    intro hcore hopen hkind
    rw [exec_writeBurst_of_open hcore hopen (by simp [hkind]), takeBurst_of_dram hkind]; rfl
  case ledger =>
    intro l hcore hopen hkind
    rw [exec_writeBurst_of_open hcore hopen (by simp [hkind]), takeBurst_of_aperture hkind]; rfl
  case both =>
    intro l hcore hopen hkind
    rw [exec_writeBurst_of_open hcore hopen (by simp [hkind]), takeBurst_of_aperture hkind]; rfl
  case off => rw [exec_dalertEvent, hcore]; rfl
  case on =>
    obtain ⟨hfc, hcb⟩ := dalert_fc_cb ranks.toNat s
    obtain ⟨hranks, hcount⟩ := alertNoted_reads ranks s
    refine ⟨dalert ranks.toNat s, by rw [exec_dalertEvent, hcore]; rfl,
      (getF_dalert (by decide) (by decide) _ s).trans hranks, (getF_dalert (by decide) (by decide) _ s).trans hcount,
      by rw [hfc, events_alertPassed]; rfl, by rw [hcb]; exact gaps_alertPassed _ s,
      fun hdrain => by rw [dalert_eq, hdrain]; exact coldMark_alertPassed _ s,
      fun hdrain hnamed => coldMark_dalert_of_named hdrain hnamed⟩

end Sys2Proof.Machine

namespace Sys2Proof.Machine

/-! ### The parity over the lanes of a burst (R159, R161) -/

theorem xorAll_cons (a : Nat) (ls : List Nat) : xorAll (a :: ls) = a ^^^ xorAll ls := by
  rw [xorAll, List.foldl_cons, Nat.xor_comm 0 a]
  exact List.foldl_assoc

/-- Replacing one lane leaves the XOR of the other lanes. -/
theorem xorAll_set (v : Nat) {ls : List Nat} {k : Nat} (h : k < ls.length) :
    xorAll (ls.set k v) ^^^ v = xorAll ls ^^^ ls.getD k 0 := by
  induction ls generalizing k with
  | nil => exact absurd h (Nat.not_lt_zero k)
  | cons a ls ih =>
    cases k with
    | zero =>
      rw [List.set_cons_zero, xorAll_cons, xorAll_cons, List.getD_cons_zero, Nat.xor_comm v (xorAll ls),
        Nat.xor_comm a (xorAll ls), Nat.xor_assoc, Nat.xor_assoc, Nat.xor_self, Nat.xor_self]
    | succ k =>
      rw [List.set_cons_succ, xorAll_cons, xorAll_cons, List.getD_cons_succ, Nat.xor_assoc, Nat.xor_assoc,
        ih (Nat.lt_of_succ_lt_succ h)]

/-- In a burst whose lanes XOR to 0 the XOR of five lanes is the sixth, whatever the sixth reads. -/
theorem xorAll_others {ls : List Nat} {k : Nat} (hk : k < ls.length) (hpar : xorAll ls = 0) (v : Nat) :
    xorAll (ls.set k v) ^^^ (ls.set k v).getD k 0 = ls.getD k 0 := by
  have hread : (ls.set k v).getD k 0 = v := by simp [hk]
  rw [hread, xorAll_set v hk, hpar, Nat.zero_xor]

/-- Settles O26: the rebuilt lane is the XOR of the others, every other lane is read as it was. -/
theorem parityRebuildsOneLane : Obligations.ParityRebuildsOneLane := by
  intro s ls k v hlen hk hpar
  refine List.map_congr_left fun n _ => ?_
  by_cases hn : mapLane s n = k
  · rw [if_pos hn, xorAll_others (hlen ▸ hk) hpar, hn]
  · rw [if_neg hn, List.getD_eq_getElem?_getD, List.getElem?_set_ne (Ne.symm hn), List.getD_eq_getElem?_getD]

end Sys2Proof.Machine

namespace Sys2Proof.Machine

/-! ### Reads of a PROTECTED rank (R161 to R163, Table LG-1) -/

section
variable {s : State} {o : OpenBurst} {ls : List Nat}

/-- Parity 0: the code alone judges the raw line. -/
theorem readProtected_of_even (hpar : xorAll ls = 0) : readProtected o ls s =
    deliver o (rawLine s ls)
      (if flag s Fld.LG_STATUS_HCT_LOADED && !hctPasses s (ofHostLanes (rawLine s ls)) then failRead 7 o 0 s else s) := by
  rw [readProtected]
  simp only [hpar, if_true]
  split <;> rfl

theorem readProtected_of_unloaded (hpar : xorAll ls ≠ 0) (hload : flag s Fld.LG_STATUS_HCT_LOADED = false) :
    readProtected o ls s = deliver o (rawLine s ls) (failRead 4 o (xorAll ls) s) := by
  simp [readProtected, hpar, hload]

variable (hpar : xorAll ls ≠ 0) (hload : flag s Fld.LG_STATUS_HCT_LOADED = true)
include hpar hload

theorem readProtected_of_no_trial (hnone : trials s ls = []) : readProtected o ls s =
    deliver o (rawLine s ls) (if hctPasses s (ofHostLanes (rawLine s ls)) then correctRead 1 (parLane s) o (xorAll ls) s
      else failRead 2 o (xorAll ls) s) := by
  cases hok : hctPasses s (ofHostLanes (rawLine s ls)) <;> simp [readProtected, hpar, hload, hnone, hok]

theorem readProtected_of_located {d : Nat} {line : List Nat} (hone : trials s ls = [(d, line)])
    (hok : hctPasses s (ofHostLanes (rawLine s ls)) = false) :
    readProtected o ls s = deliver o line (correctRead 0 d o (xorAll ls) s) := by
  simp [readProtected, hpar, hload, hone, hok]

/-- A trial passes beside the raw line: the bad lane is not located. -/
theorem readProtected_of_ambiguous {t : Nat × List Nat} (hmem : t ∈ trials s ls)
    (hok : hctPasses s (ofHostLanes (rawLine s ls)) = true) :
    readProtected o ls s = deliver o (rawLine s ls) (failRead 3 o (xorAll ls) s) := by
  obtain ⟨x, rest, hlist⟩ := List.exists_cons_of_ne_nil (List.ne_nil_of_mem hmem)
  simp [readProtected, hpar, hload, hlist, hok]
end

/-- Settles O27: the rows of Table LG-1, by the parity, the table and the trials that pass. -/
theorem protectedReadsFollowTableLG1 : Obligations.ProtectedReadsFollowTableLG1 := by
  intro s o ls raw ok loaded
  refine ⟨?clean, ?code, readProtected_of_unloaded, ?parity,
    fun d line hpar hload hone => readProtected_of_located hpar hload hone, ?unlocated,
    fun t hpar hload hmem hok => readProtected_of_ambiguous hpar hload hmem hok, fun l => ⟨rfl, frame_dl _ s⟩⟩
  case clean =>
    intro hpar hfine
    rw [readProtected_of_even hpar, if_neg]
    rcases hfine with h | h <;> simp [loaded, ok, raw] at h <;> simp [h]
  case code =>
    intro hpar hload hfail
    rw [readProtected_of_even hpar, if_pos]
    exact (Bool.and_eq_true _ _).mpr ⟨hload, congrArg Bool.not hfail⟩
  case parity => exact fun hpar hload hnone hok => by rw [readProtected_of_no_trial hpar hload hnone, if_pos hok]
  case unlocated =>
    exact fun hpar hload hnone hok => by rw [readProtected_of_no_trial hpar hload hnone, if_neg (Bool.eq_false_iff.mp hok)]

end Sys2Proof.Machine

namespace Sys2Proof.Machine

/-! ### The console lines that complete a command (R459, R461, R471) -/

/-- Changes one after the other, all within one frame. -/
theorem Frame.next {ps : List Part} {as : List Nat} {s t u : State} (h : Frame ps as s t) (k : Frame ps as t u) :
    Frame ps as s u :=
  (h.trans k).mono (by simp) (by simp)

theorem Frame.refl (ps : List Part) (as : List Nat) (s : State) : Frame ps as s s :=
  ⟨fun p _ => by cases p <;> rfl, fun _ _ => rfl⟩

theorem Frame.ite {ps : List Part} {as : List Nat} {c : Prop} [Decidable c] {s t u : State} (ht : Frame ps as s t)
    (hu : Frame ps as s u) : Frame ps as s (if c then t else u) := by
  split
  · exact ht
  · exact hu

theorem Frame.foldl {α : Type} {ps : List Part} {as : List Nat} {f : State → α → State}
    (hf : ∀ t e, Frame ps as t (f t e)) (l : List α) (s : State) : Frame ps as s (l.foldl f s) := by
  induction l generalizing s with
  | nil => exact Frame.refl ps as s
  | cons e l ih => exact (hf s e).next (ih _)

/-- A console line changes the console and the counts of lines and interrupts lost (CN_STAT2). -/
abbrev ConsoleFrame (s t : State) : Prop := Frame [.con] [Fld.CN_STAT2_EVLOST.addr] s t

theorem consoleFrame_con (c : Console) (s : State) : ConsoleFrame s { s with con := c } := by
  refine ⟨fun p hp => ?_, fun _ _ => rfl⟩
  cases p with
  | con => exact absurd (List.mem_singleton_self _) hp
  | _ => rfl

theorem consoleFrame_ibi (mdb : Nat) (data : Option Nat) (s : State) : ConsoleFrame s (ibi mdb data s) :=
  .ite (.ite (consoleFrame_con _ s) ((frame_setF Fld.CN_STAT2_IBILOST _ s).mono (by decide) (by decide)))
    (.refl _ _ s)

theorem consoleFrame_outAppend (b : List Byte) (s : State) : ConsoleFrame s (outAppend b s) :=
  .ite ((consoleFrame_con _ s).next (consoleFrame_ibi _ _ _)) (consoleFrame_con _ s)

theorem consoleFrame_queueEvent (t : String) (s : State) : ConsoleFrame s (queueEvent t s) :=
  .ite (consoleFrame_con _ s)
    ((consoleFrame_con _ s).next ((frame_setF Fld.CN_STAT2_EVLOST _ _).mono (by decide) (by decide)))

theorem consoleFrame_sendEvent (t : String) (s : State) : ConsoleFrame s (sendEvent t s) :=
  .ite (consoleFrame_con _ s) (.ite (consoleFrame_outAppend _ s) (consoleFrame_queueEvent t s))

theorem consoleFrame_conEvent (isFault : Bool) (t : String) (s : State) : ConsoleFrame s (conEvent isFault t s) := by
  have hnotified : ConsoleFrame s (if isFault || holder s = 1 then s else ibi 0x02 none s) :=
    .ite (.refl _ _ s) (consoleFrame_ibi _ _ s)
  exact .ite (.refl _ _ s) (.ite (hnotified.next (consoleFrame_queueEvent t _))
    (hnotified.next (consoleFrame_sendEvent t _)))

theorem consoleFrame_completeTokens (what : Nat) (result : String) (s : State) :
    ConsoleFrame s (completeTokens what result s) :=
  (consoleFrame_con _ s).next (Frame.foldl (fun _ _ => consoleFrame_conEvent _ _ _) _ _)

end Sys2Proof.Machine

namespace Sys2Proof.Machine

/-! ### The erasure policy (R168) -/

/-- The increments of a counter that the policy counts: those of a PROTECTED rank. -/
def countedInc (s : State) (k : Nat) : Nat :=
  if rankProtected s (k / 6) then (smGet (zeroDefault 32) s.lg.inc k).toNat else 0

def incTotal (s : State) : Nat := (List.range 24).foldl (fun a k => a + countedInc s k) 0

/-- The counter with the most increments, the lowest of several. -/
def topCounter (s : State) : Nat := (List.range 24).foldl (fun a k => if countedInc s a < countedInc s k then k else a) 0

theorem eraseDecision_of_due {s : State} (hdue : s.lg.decide = true) (hruns : s.sw.halted = false)
    (hauto : flag s Fld.LG_CTRL_AUTO_ERASE = true)
    (hshare : incTotal s ≠ 0 ∧ getF s Fld.LG_POLICY_ERASE_SHARE * incTotal s ≤ countedInc s (topCounter s) * 100) :
    eraseDecision s = eraseLane (topCounter s / 6) (topCounter s % 6) 0
      { s with lg := { s.lg with decide := false, inc := [] } } := by
  rw [eraseDecision, hdue, hruns, hauto]
  exact if_pos hshare

theorem eraseDecision_of_none {s : State}
    (h : s.lg.decide = false ∨ s.sw.halted = true ∨ flag s Fld.LG_CTRL_AUTO_ERASE = false) :
    eraseDecision s = { s with lg := { s.lg with decide := false } } := by
  refine if_pos ?_
  rcases h with h | h | h <;> simp [h]

theorem foldl_add_of_single {f : Nat → Nat} {k n : Nat} (h : ∀ j < n, j ≠ k → f j = 0) :
    (List.range n).foldl (fun a j => a + f j) 0 = if k < n then f k else 0 := by
  induction n with
  | zero => rfl
  | succ n ih =>
    rw [List.range_succ, List.foldl_append, ih fun j hj => h j (Nat.lt_succ_of_lt hj), List.foldl_cons, List.foldl_nil]
    rcases Nat.lt_trichotomy k n with hlt | rfl | hgt
    · rw [if_pos hlt, if_pos (Nat.lt_succ_of_lt hlt), h n (Nat.lt_succ_self n) (Nat.ne_of_gt hlt), Nat.add_zero]
    · rw [if_neg (Nat.lt_irrefl k), if_pos (Nat.lt_succ_self k), Nat.zero_add]
    · rw [if_neg (Nat.lt_asymm hgt), if_neg (Nat.not_lt.mpr hgt), h n (Nat.lt_succ_self n) (Nat.ne_of_lt hgt)]

theorem foldl_top_of_single {f : Nat → Nat} {k n : Nat} (hk : f k ≠ 0) (h : ∀ j < n, j ≠ k → f j = 0) :
    (List.range n).foldl (fun a j => if f a < f j then j else a) 0 = if k < n then k else 0 := by
  induction n with
  | zero => rfl
  | succ n ih =>
    rw [List.range_succ, List.foldl_append, ih fun j hj => h j (Nat.lt_succ_of_lt hj), List.foldl_cons, List.foldl_nil]
    rcases Nat.lt_trichotomy k n with hlt | rfl | hgt
    · rw [if_pos hlt, if_pos (Nat.lt_succ_of_lt hlt), h n (Nat.lt_succ_self n) (Nat.ne_of_gt hlt),
        if_neg (Nat.not_lt_zero _)]
    · rw [if_neg (Nat.lt_irrefl k), if_pos (Nat.lt_succ_self k)]
      cases k with
      | zero => exact ite_self 0
      | succ k => rw [h 0 (by omega) (by omega), if_pos (Nat.pos_of_ne_zero hk)]
    · rw [if_neg (Nat.lt_asymm hgt), if_neg (Nat.not_lt.mpr hgt), h n (Nat.lt_succ_self n) (Nat.ne_of_lt hgt),
        if_neg (Nat.not_lt_zero _)]

/-- One counter of a PROTECTED rank holds all the increments: it is the top one, and its share is all. -/
theorem incs_of_single {s : State} {k : Nat} (hk : k < 24) (hprot : rankProtected s (k / 6) = true)
    (hinc : (smGet (zeroDefault 32) s.lg.inc k).toNat ≠ 0)
    (hother : ∀ j, j < 24 → j ≠ k → smGet (zeroDefault 32) s.lg.inc j = 0) :
    topCounter s = k ∧ incTotal s = countedInc s k ∧ countedInc s k ≠ 0 := by
  have hself : countedInc s k ≠ 0 := by rwa [countedInc, if_pos hprot]
  have hzero : ∀ j < 24, j ≠ k → countedInc s j = 0 := fun j hj hne => by simp [countedInc, hother j hj hne]
  exact ⟨(foldl_top_of_single hself hzero).trans (if_pos hk), (foldl_add_of_single hzero).trans (if_pos hk), hself⟩

theorem eraseDecision_of_single {s : State} {k : Nat} (hk : k < 24) (hdue : s.lg.decide = true)
    (hruns : s.sw.halted = false) (hauto : flag s Fld.LG_CTRL_AUTO_ERASE = true)
    (hprot : rankProtected s (k / 6) = true) (hinc : (smGet (zeroDefault 32) s.lg.inc k).toNat ≠ 0)
    (hother : ∀ j, j < 24 → j ≠ k → smGet (zeroDefault 32) s.lg.inc j = 0)
    (hshare : getF s Fld.LG_POLICY_ERASE_SHARE ≤ 100) :
    eraseDecision s = eraseLane (k / 6) (k % 6) 0 { s with lg := { s.lg with decide := false, inc := [] } } := by
  obtain ⟨htop, htotal, hself⟩ := incs_of_single hk hprot hinc hother
  have hreached : getF s Fld.LG_POLICY_ERASE_SHARE * countedInc s k ≤ countedInc s k * 100 := by
    rw [Nat.mul_comm]
    exact Nat.mul_le_mul_left _ hshare
  rw [eraseDecision_of_due hdue hruns hauto (by rw [htop, htotal]; exact ⟨hself, hreached⟩), htop]

/-! ### The boundary of a rank (R169, R171) -/

theorem takeFail_of_find {p : LanePend → Bool} {s : State} {f : LanePend} (h : s.lg.fails.find? p = some f) :
    takeFail p s = { s with lg := { s.lg with fails := s.lg.fails.erase f } } := by
  simp [takeFail, h]

theorem erasureEffect_of_waiting {r : Nat} {s : State} {f : LanePend}
    (h : s.lg.fails.find? (fun f => f.rank = r && !f.second) = some f) :
    erasureEffect r s = completeTokens (waitErase r) "ok" (checkSweep (guardStatus (degrade f.lane
      (eraseNow r f.lane f.cause { s with lg := { s.lg with fails := s.lg.fails.erase f } })))) := by
  simp only [erasureEffect, h, takeFail_of_find h]

theorem erasureEffect_of_none {r : Nat} {s : State} (h : ∀ f ∈ s.lg.fails, f.rank = r → f.second = true) :
    erasureEffect r s = s := by
  have hnone : s.lg.fails.find? (fun f => f.rank = r && !f.second) = none :=
    List.find?_eq_none.mpr fun f hf => by simpa using h f hf
  simp only [erasureEffect, hnone]

theorem secondEffect_of_waiting {r : Nat} {s : State} {f : LanePend}
    (h : s.lg.fails.find? (fun f => f.rank = r && f.second) = some f) (herased : rankErased s r = true) :
    secondEffect r s = completeTokens (waitSecond r) "ok" (guardStatus (secondNow r f.cause
      { s with lg := { s.lg with fails := s.lg.fails.erase f } })) := by
  simp only [secondEffect, h, herased, takeFail_of_find h, if_true]

theorem secondEffect_of_none {r : Nat} {s : State} (h : ∀ f ∈ s.lg.fails, f.rank = r → f.second = false) :
    secondEffect r s = s := by
  have hnone : s.lg.fails.find? (fun f => f.rank = r && f.second) = none :=
    List.find?_eq_none.mpr fun f hf => by simpa using h f hf
  simp only [secondEffect, hnone]

/-! ### What an erasure does (R169) -/

theorem frame_raise (src syn : Nat) (s : State) : Frame [.fc] [] s (raise src syn s) := by
  refine ⟨fun p hp => ?_, fun _ _ => rfl⟩
  cases p with
  | fc => exact absurd (List.mem_singleton_self _) hp
  | _ => rfl

@[simp] theorem getF_raise (src syn : Nat) (s : State) (f : Field) : getF (raise src syn s) f = getF s f :=
  getF_of_regs raise_regs f

theorem getF_setF_rank_same {f : Field} (h : ∀ q : Rank, (f.at q).Named) (r : Rank) (v : Nat) (s : State) :
    getF (setF (f.at r) v s) (f.at r) = v % 2 ^ f.width := getF_setF_same (h r) v s

theorem getF_setF_rank_apart {f g : Field} (h : ∀ q : Rank, (g.at q).Apart (f.at q)) (r : Rank) (v : Nat) (s : State) :
    getF (setF (f.at r) v s) (g.at r) = getF s (g.at r) := getF_setF_of_apart (h r) v s

/-- The fields of rank `r` that every erasure of lane `d` writes. -/
def erasureNoted (r d : Nat) (s : State) : State :=
  setF (Fld.LG_RANK_ERASED.at r) 1 (setF (Fld.LG_RANK_LANE.at r) d (setF (Fld.LG_RFAIL_COUNT.at r) 0 s))

/-- The syndrome of an erasure (Table LG-5). -/
def erasureSyn (r d cause : Nat) (s : State) : Nat := synLane r d cause (getF s (ccntF r d))

/-- The parity lane has PL_FAULT and FS 23 beside what every erasure does. -/
theorem eraseNow_eq (r d cause : Nat) (s : State) : eraseNow r d cause s =
    if d = parLane s then raise 23 (erasureSyn r d cause s) (raise 18 (erasureSyn r d cause s)
      (setF (Fld.LG_RANK_PL_FAULT.at r) 1 (erasureNoted r d s)))
    else raise 18 (erasureSyn r d cause s) (erasureNoted r d s) := rfl

section
variable (r : Rank) (d cause : Nat) (s : State)

theorem erasureNoted_reads (hd : d < 6) :
    getF (erasureNoted r d s) (Fld.LG_RANK_ERASED.at r) = 1 ∧ getF (erasureNoted r d s) (Fld.LG_RANK_LANE.at r) = d ∧
      getF (erasureNoted r d s) (Fld.LG_RFAIL_COUNT.at r) = 0 ∧
      getF (erasureNoted r d s) (Fld.LG_RANK_PL_FAULT.at r) = getF s (Fld.LG_RANK_PL_FAULT.at r) := by
  have hfits : d % 2 ^ Fld.LG_RANK_LANE.width = d := Nat.mod_eq_of_lt (Nat.lt_of_lt_of_le hd (by decide))
  simp (disch := decide) only [erasureNoted, getF_setF_rank_same, getF_setF_rank_apart, hfits]
  exact ⟨Nat.one_mod_two_pow_eq_one.mpr (by decide), trivial, Nat.zero_mod _, trivial⟩

theorem getF_eraseNow {f : Field} (h : ∀ q : Rank, (f.at q).Apart (Fld.LG_RANK_PL_FAULT.at q)) :
    getF (eraseNow r d cause s) (f.at r) = getF (erasureNoted r d s) (f.at r) := by
  rw [eraseNow_eq]
  split
  · rw [getF_raise, getF_raise, getF_setF_rank_apart h]
  · rw [getF_raise]

theorem eraseNow_of_parity (h : d = parLane s) : rankPl (eraseNow r d cause s) r = true ∧
    (eraseNow r d cause s).fc.events = addEvents
      (addEvents s.fc.events 18 1 (BitVec.ofNat 64 (erasureSyn r d cause s))) 23 1
      (BitVec.ofNat 64 (erasureSyn r d cause s)) := by
  have hnamed : ∀ q : Rank, (Fld.LG_RANK_PL_FAULT.at q).Named := by decide
  rw [eraseNow_eq, if_pos h, rankPl, flag, getF_raise, getF_raise, ← flag]
  exact ⟨flag_setF_one (hnamed r) (Nat.le_refl _) _, rfl⟩

theorem eraseNow_of_data (hd : d < 6) (h : d ≠ parLane s) :
    rankPl (eraseNow r d cause s) r = rankPl s r ∧
      (eraseNow r d cause s).fc.events = addEvents s.fc.events 18 1 (BitVec.ofNat 64 (erasureSyn r d cause s)) := by
  obtain ⟨-, -, -, hpl⟩ := erasureNoted_reads r d s hd
  rw [eraseNow_eq, if_neg h]
  exact ⟨flag_eq_of_getF ((getF_raise ..).trans hpl), rfl⟩

theorem frame_eraseNow : Frame [.fc] [(Fld.LG_RANK_ERASED.at r).addr, (Fld.LG_RFAIL_COUNT.at r).addr] s
    (eraseNow r d cause s) := by
  have hrank : (Fld.LG_RANK_LANE.at r).addr = (Fld.LG_RANK_ERASED.at r).addr ∧
      (Fld.LG_RANK_PL_FAULT.at r).addr = (Fld.LG_RANK_ERASED.at r).addr := ⟨rfl, rfl⟩
  have hnoted : Frame [.fc] [(Fld.LG_RANK_ERASED.at r).addr, (Fld.LG_RFAIL_COUNT.at r).addr] s (erasureNoted r d s) :=
    (((frame_setF (Fld.LG_RFAIL_COUNT.at r) 0 s).trans (frame_setF (Fld.LG_RANK_LANE.at r) d _)).trans
      (frame_setF (Fld.LG_RANK_ERASED.at r) 1 _)).mono (by simp) (by simp [hrank])
  have hpl := (frame_setF (Fld.LG_RANK_PL_FAULT.at r) 1 (erasureNoted r d s)).mono (qs := [.fc])
    (bs := [(Fld.LG_RANK_ERASED.at r).addr, (Fld.LG_RFAIL_COUNT.at r).addr]) (by simp) (by simp [hrank])
  have hraise (src syn : Nat) (t : State) := (frame_raise src syn t).mono
    (bs := [(Fld.LG_RANK_ERASED.at r).addr, (Fld.LG_RFAIL_COUNT.at r).addr]) (List.Subset.refl _) (by simp)
  rw [eraseNow_eq]
  exact .ite (((hnoted.next hpl).next (hraise _ _ _)).next (hraise _ _ _)) (hnoted.next (hraise _ _ _))
end

/-! ### Readmission (R172) -/

/-- The registers that the end of a readmission may write beside those of the rank itself. -/
def readmitHomes : List Nat :=
  [Fld.LG_STATUS_ANY_ERASED.addr, Fld.CN_STAT2_EVLOST.addr, Fld.PM_MODE_MODE.addr, Fld.PM_LAST_CAUSE.addr,
    Fld.PM_LAST_TH_TIME_HI.addr, Fld.PM_LAST_TL_TIME_LO.addr, Fld.TR_LOST_RING.addr]

theorem frame_guardStatus (s : State) : Frame [] [Fld.LG_STATUS_ANY_ERASED.addr] s (guardStatus s) :=
  ((frame_setF Fld.LG_STATUS_ERASE_PENDING _ s).next (frame_setF Fld.LG_STATUS_ANY_PL _ _)).next
    (frame_setF Fld.LG_STATUS_ANY_ERASED _ _)

/-- What follows the return of the rank: the summaries, the lines of the commands that waited, perhaps RUN.LIVE. -/
theorem frame_readmitEffect {r : Nat} {s : State} (h : r ∈ s.lg.readmit) :
    Frame [.con, .tr] readmitHomes (readmitNow r s) (readmitEffect r s) := by
  have htoken (what : Nat) (t : State) : Frame [.con, .tr] readmitHomes t (completeTokens what "ok" t) :=
    (consoleFrame_completeTokens what "ok" t).mono (by decide) (by decide)
  have hends := ((((frame_guardStatus (readmitNow r s)).mono (qs := [.con, .tr]) (bs := readmitHomes) (by decide)
    (by decide)).next (htoken (waitSecond r) _)).next (htoken (waitErase r) _)).next (htoken (waitReadmit r) _)
  rw [readmitEffect, if_pos (List.contains_iff_mem.mpr h)]
  exact .ite (hends.next ((frame_transition modeRun subLive 0x0D _).mono (by decide) (by decide))) hends

theorem readmitEffect_of_none {r : Nat} {s : State} (h : r ∉ s.lg.readmit) : readmitEffect r s = s := by
  simp [readmitEffect, h]

/-- LG_RANK at 0 has neither ERASED nor SECOND (Table LG-3). -/
theorem rankProtected_of_reg {r : Nat} {s : State} (h : reg s (Fld.LG_RANK_ERASED.at r).addr = 0) :
    rankProtected s r = true := by
  have hsecond : reg s (Fld.LG_RANK_SECOND.at r).addr = 0 := h
  simp [rankProtected, rankErased, rankSecond, flag, getF, h, hsecond, natBits]

theorem reg_guard (g : Guard) (s : State) (a : Nat) : reg { s with lg := g } a = reg s a := rfl

/-- The registers that a readmission clears. -/
def readmitCleared (r : Nat) (s : State) : State :=
  (List.range 6).foldl (fun t d => setF (ccntF r d) 0 t)
    (setF (Fld.LG_UCNT_COUNT.at r) 0 (setF (Fld.LG_RFAIL_COUNT.at r) 0 (setReg (0x2010 + 4 * r) 0 s)))

theorem readmitNow_eq (r : Nat) (s : State) : readmitNow r s =
    { readmitCleared r s with lg := { (readmitCleared r s).lg with
        fails := (readmitCleared r s).lg.fails.filter (fun f => f.rank ≠ r),
        readmit := (readmitCleared r s).lg.readmit.filter (fun q => q ≠ r) } } := rfl

/-- The counters that a readmission clears are no rank state. -/
theorem reg_rank_readmitNow (r : Rank) (s : State) : reg (readmitNow r s) (Fld.LG_RANK_ERASED.at r).addr = 0 := by
  have hcounters : ∀ q : Rank, (∀ d < 6, (Fld.LG_RANK_ERASED.at q).addr ≠ (ccntF q d).addr) ∧
      (Fld.LG_RANK_ERASED.at q).addr ≠ (Fld.LG_UCNT_COUNT.at q).addr ∧
      (Fld.LG_RANK_ERASED.at q).addr ≠ (Fld.LG_RFAIL_COUNT.at q).addr := by decide
  obtain ⟨hccnt, hucnt, hrfail⟩ := hcounters r
  rw [readmitNow_eq, reg_guard, readmitCleared, foldl_keeps (fun t => reg t (Fld.LG_RANK_ERASED.at r).addr)
    (fun d hd t => reg_setF_other (hccnt d (List.mem_range.mp hd))), reg_setF_other hucnt, reg_setF_other hrfail,
    show (Fld.LG_RANK_ERASED.at r).addr = 0x2010 + 4 * r from rfl, reg_setReg_same]
  exact BitVec.zero_and

theorem lists_readmitNow (r : Nat) (s : State) :
    r ∉ (readmitNow r s).lg.readmit ∧ ∀ f ∈ (readmitNow r s).lg.fails, f.rank ≠ r := by
  simp [readmitNow]

theorem readmitEffect_of_accepted {r : Rank} {s : State} (h : r.val ∈ s.lg.readmit) :
    r.val ∉ (readmitEffect r s).lg.readmit ∧ rankProtected (readmitEffect r s) r = true ∧
      ∀ f ∈ (readmitEffect r s).lg.fails, f.rank ≠ r := by
  obtain ⟨hparts, hregs⟩ := frame_readmitEffect h
  have hlg : (readmitEffect r s).lg = (readmitNow r s).lg := hparts .lg (by decide)
  have hout : ∀ q : Rank, (Fld.LG_RANK_ERASED.at q).addr ∉ readmitHomes := by decide
  obtain ⟨hreadmit, hfails⟩ := lists_readmitNow r s
  rw [hlg]
  exact ⟨hreadmit, rankProtected_of_reg ((hregs _ (hout r)).trans (reg_rank_readmitNow r s)), hfails⟩

/-! ### The failure window (R171) -/

theorem rfailClear_of_never {s : State} (h : flag s Fld.LG_POLICY_SECOND_WIN = false) : rfailClear s = s := by
  simp [rfailClear, h]

theorem rfailClear_of_window {s : State} (h : flag s Fld.LG_POLICY_SECOND_WIN = true) :
    rfailClear s = rankList.foldl (fun t r => setF (Fld.LG_RFAIL_COUNT.at r) 0 t) s := if_pos h

theorem getF_rfailCleared : ∀ r < 4, ∀ s : State,
    getF (rankList.foldl (fun t r => setF (Fld.LG_RFAIL_COUNT.at r) 0 t) s) (Fld.LG_RFAIL_COUNT.at r) = 0 := by
  intro r hr s
  have hrank : r = 0 ∨ r = 1 ∨ r = 2 ∨ r = 3 := by omega
  simp only [rankList, List.foldl_cons, List.foldl_nil]
  rcases hrank with rfl | rfl | rfl | rfl <;>
    simp (disch := decide) only [getF_setF_same, getF_setF_addr, Nat.zero_mod]

theorem frame_rfailCleared (s : State) : Frame [] [Fld.LG_RFAIL_COUNT.addr, Fld.LG_RFAIL_COUNT.addr + 4,
    Fld.LG_RFAIL_COUNT.addr + 8, Fld.LG_RFAIL_COUNT.addr + 12] s
      (rankList.foldl (fun t r => setF (Fld.LG_RFAIL_COUNT.at r) 0 t) s) :=
  (((frame_setF (Fld.LG_RFAIL_COUNT.at 0) 0 s).trans (frame_setF (Fld.LG_RFAIL_COUNT.at 1) 0 _)).trans
    (frame_setF (Fld.LG_RFAIL_COUNT.at 2) 0 _)).trans (frame_setF (Fld.LG_RFAIL_COUNT.at 3) 0 _)

/-- Settles O29: a decision by the increments counted, a boundary by the failure or readmission that waits, an erasure by
the fields of its rank. -/
theorem rankStatesChangeAtBoundaries : Obligations.RankStatesChangeAtBoundaries := by
  intro s rank
  refine ⟨fun h => congrArg Host.Outcome.next (eraseDecision_of_none h), ?decision,
    fun f h => congrArg Host.Outcome.next (erasureEffect_of_waiting h),
    fun h => congrArg Host.Outcome.next (erasureEffect_of_none h),
    fun f h herased => congrArg Host.Outcome.next (secondEffect_of_waiting h herased),
    fun h => congrArg Host.Outcome.next (secondEffect_of_none h),
    fun h => congrArg Host.Outcome.next (readmitEffect_of_none h), fun h => ⟨_, rfl, readmitEffect_of_accepted h⟩,
    ?window, fun h => congrArg Host.Outcome.next (rfailClear_of_never h), ?erasure⟩
  case decision =>
    exact fun k hk hdue hruns hauto hprot hinc hother hshare =>
      congrArg Host.Outcome.next (eraseDecision_of_single hk hdue hruns hauto hprot hinc hother hshare)
  case window =>
    exact fun h => ⟨_, congrArg Host.Outcome.next (rfailClear_of_window h), fun r hr => getF_rfailCleared r hr s,
      frame_rfailCleared s⟩
  case erasure =>
    intro d cause hd t
    obtain ⟨herased, hlane, hrfail, -⟩ := erasureNoted_reads rank d s hd
    have herased' : getF t (Fld.LG_RANK_ERASED.at rank) = 1 := (getF_eraseNow rank d cause s (by decide)).trans herased
    refine ⟨by simp [rankErased, flag, herased'], (getF_eraseNow rank d cause s (by decide)).trans hlane,
      (getF_eraseNow rank d cause s (by decide)).trans hrfail, fun hpar => ?parity, fun hdata => ?data,
      frame_eraseNow rank d cause s⟩
    case parity =>
      obtain ⟨hpl, hevents⟩ := eraseNow_of_parity rank d cause s hpar
      exact ⟨hpl, _, hevents⟩
    case data =>
      obtain ⟨hpl, hevents⟩ := eraseNow_of_data rank d cause s hd hdata
      exact ⟨hpl, _, hevents⟩

end Sys2Proof.Machine

namespace Sys2Proof.Machine

/-! ### Reads by the state of their rank (R146, R160 to R165, R175) -/

theorem exec_readBurstCheck_of_none {s : State} (h : s.dl.reads = []) (data : BitVec 768) (mon : BitVec 128) :
    exec (.readBurstCheck data mon) s = .next s := by
  simp [exec, execReadBurstCheck, h]

section
variable {s u : State} {o : OpenBurst} {rest : List OpenBurst} (hopen : s.dl.reads = o :: rest)
  (hu : u = { s with dl := { s.dl with reads := rest } }) (data : BitVec 768) (mon : BitVec 128)
include hopen hu

theorem exec_readBurstCheck_of_aperture {l : Nat} {fwd : Bool} (hkind : o.kind = .aperture l fwd) :
    exec (.readBurstCheck data mon) s = .next (settleEngines u) := by
  simp [exec, execReadBurstCheck, hopen, hkind, hu]

theorem exec_readBurstCheck_of_mrr (hkind : o.kind = .mrr) :
    exec (.readBurstCheck data mon) s =
      .next (settleEngines (deliver o (rawLine u (burstLanes data.toNat)) u)) := by
  simp [exec, execReadBurstCheck, hopen, hkind, hu]

theorem exec_readBurstCheck_of_dram (hkind : o.kind = .dram) (hserved : served s = true) :
    exec (.readBurstCheck data mon) s = .next (settleEngines (judgeRead o data.toNat mon.toNat u)) := by
  have hserved' : served { s with dl := { s.dl with reads := rest } } = true := hserved
  simp [exec, execReadBurstCheck, hopen, hkind, hserved', hu]
end

section
variable {s : State} {o : OpenBurst} (d mon : Nat)

theorem judgeRead_of_pattern (hpat : patternOn o = true) :
    judgeRead o d mon s = readPattern o (burstLanes d) s := by
  simp [judgeRead, hpat]

theorem judgeRead_of_unprotected (hpat : patternOn o = false) (hprot : rankProtected s o.rank = false) :
    judgeRead o d mon s = readErased o (burstLanes d) s := by
  simp [judgeRead, hpat, hprot]

variable (hpat : patternOn o = false) (hprot : rankProtected s o.rank = true)
include hpat hprot

theorem judgeRead_of_tail {k : Nat} (hswept : o.swept = some k) :
    judgeRead o d mon s = readTail k o (burstLanes d) s := by
  simp [judgeRead, hpat, hprot, hswept]

theorem judgeRead_of_swept (hswept : o.swept = none) {w : Sweep} (hsweep : s.cb.sweep = some w)
    (hrank : w.rank = o.rank) : judgeRead o d mon s = readSwept w o (burstLanes d) mon s := by
  simp [judgeRead, hpat, hprot, hswept, hsweep, hrank]

/-- No lane of the rank is swept: Table LG-1 while checking is in force, the raw line while it is not. -/
theorem judgeRead_of_unswept (hswept : o.swept = none) (hother : ∀ w, s.cb.sweep = some w → w.rank ≠ o.rank) :
    judgeRead o d mon s = if flag s Fld.LG_STATUS_CHECK_IN_FORCE then readProtected o (burstLanes d) s
      else deliver o (rawLine s (burstLanes d)) s := by
  cases hsweep : s.cb.sweep with
  | none => simp [judgeRead, hpat, hprot, hswept, hsweep]
  | some w => simp [judgeRead, hpat, hprot, hswept, hsweep, hother w hsweep]
end

/-! ### Reads under a sweep (R175, R176) -/

theorem sweepSample_of_running {w : Sweep} (h8 : w.kind8 = false) (hend : w.ending = false) (ls : List Nat) (mon : Nat)
    (s : State) : ∃ v, (sweepSample w ls mon s).cb.sweep = some v ∧ v.beats = w.beats + 16 ∧ v.rank = w.rank ∧
      v.lane = w.lane := by
  rw [sweepSample, h8, hend]
  exact ⟨_, rfl, rfl, rfl, rfl⟩

section
variable {s : State} {w : Sweep} {ls : List Nat} (o : OpenBurst) (mon : Nat)

theorem readSwept_of_passing (h : hctPasses s (ofHostLanes (sweptLine s ls w.lane)) = true) :
    readSwept w o ls mon s = deliver o (sweptLine s ls w.lane) (sweepSample w ls mon s) := by
  rw [readSwept, if_pos h]

theorem readSwept_of_failing (h : hctPasses s (ofHostLanes (sweptLine s ls w.lane)) = false) :
    readSwept w o ls mon s =
      deliver o (sweptLine s ls w.lane) (failRead 8 o (xorAll ls) (sweepKind8 s)) := by
  rw [readSwept, h]; rfl
end

theorem failRead_cb (kind : Nat) (o : OpenBurst) (syn : Nat) (s : State) : (failRead kind o syn s).cb = s.cb := rfl

theorem events_failRead (kind : Nat) (o : OpenBurst) (syn : Nat) (s : State) : (failRead kind o syn s).fc.events =
    addEvents s.fc.events 17 1 (BitVec.ofNat 64 (synRead kind 7 o syn)) := rfl

/-- Settles O25: the burst by the kind of the oldest open read, a DRAM burst by the state of its rank. -/
theorem readBurstsAreJudgedByRankState : Obligations.ReadBurstsAreJudgedByRankState := by
  intro s data mon o rest u ls judged
  have hjudge {t : State} (hopen : s.dl.reads = o :: rest) (hkind : o.kind = .dram) (hserved : served s = true)
      (ht : judgeRead o data.toNat mon.toNat u = t) :
      exec (.readBurstCheck data mon) s = .next (settleEngines t) :=
    ht ▸ exec_readBurstCheck_of_dram hopen rfl data mon hkind hserved
  refine ⟨fun hnone => exec_readBurstCheck_of_none hnone data mon,
    fun l f hopen hkind => exec_readBurstCheck_of_aperture hopen rfl data mon hkind,
    fun hopen hkind => exec_readBurstCheck_of_mrr hopen rfl data mon hkind,
    fun hopen hkind hserved hpat => hjudge hopen hkind hserved (judgeRead_of_pattern _ _ hpat),
    ?erased, ?tail, ?swept, ?plain, ?sampled, ?kind8⟩
  case erased =>
    rintro ⟨hopen, hkind, hserved, hpat⟩ hprot
    exact hjudge hopen hkind hserved (judgeRead_of_unprotected (s := u) _ _ hpat hprot)
  case tail =>
    rintro k ⟨hopen, hkind, hserved, hpat⟩ hprot hswept
    exact hjudge hopen hkind hserved (judgeRead_of_tail (s := u) _ _ hpat hprot hswept)
  case swept =>
    rintro w ⟨hopen, hkind, hserved, hpat⟩ hprot hswept hsweep hrank
    exact hjudge hopen hkind hserved (judgeRead_of_swept (s := u) _ _ hpat hprot hswept hsweep hrank)
  case plain =>
    rintro ⟨hopen, hkind, hserved, hpat⟩ hprot hswept hother
    have hplain := judgeRead_of_unswept (s := u) data.toNat mon.toNat hpat hprot hswept hother
    exact ⟨fun hcheck => hjudge hopen hkind hserved (hplain.trans (if_pos hcheck)),
      fun hoff => hjudge hopen hkind hserved (hplain.trans (if_neg (Bool.eq_false_iff.mp hoff)))⟩
  case sampled =>
    intro w hpass h8 hend
    rw [readSwept_of_passing o _ hpass]
    exact sweepSample_of_running h8 hend ls mon.toNat s
  case kind8 =>
    intro w hfail hsweep t
    have ht : t = deliver o (sweptLine s ls w.lane) (failRead 8 o (xorAll ls) (sweepKind8 s)) :=
      readSwept_of_failing o _ hfail
    rw [ht]
    exact ⟨congrArg (Option.map _) hsweep, events_failRead 8 o (xorAll ls) (sweepKind8 s)⟩

end Sys2Proof.Machine

namespace Sys2Proof.Machine

/-! ### The host-code table (R179, R180, R568) -/

theorem exec_hct_of_coreOff {s : State} (h : coreOn s = false) (value : Word) (rows : Byte) :
    exec (.hctWindowWrite value) s = .next s ∧ exec .hctWindowRead s = .next s ∧ exec (.hctLoad rows) s = .next s ∧
      exec .hctUnload s = .next s := by
  simp [exec, execHctWindowWrite, execHctWindowRead, execHctLoad, execHctUnload, h]

theorem exec_hctWindowWrite {s : State} (h : coreOn s = true) (value : Word) :
    exec (.hctWindowWrite value) s = .next (hctWrite value s) := by
  simp [exec, execHctWindowWrite, h]

theorem hctWrite_of_closed {s : State} (h : flag s Fld.LG_HCTC_LOADED = true ∨ flag s Fld.LG_HCTC_PENDING = true)
    (value : Word) : hctWrite value s = s :=
  if_pos ((Bool.or_eq_true _ _).mpr h)

theorem exec_hctWindowRead {s : State} (h : coreOn s = true) : exec .hctWindowRead s = .next (hctReadStep s) := by
  simp [exec, execHctWindowRead, h]

theorem exec_hctLoad (rows : Byte) (s : State) : exec (.hctLoad rows) s =
    .next (if coreOn s && !flag s Fld.LG_HCTC_PENDING && hctUsable s then hctStart rows.toNat s else s) := rfl

theorem exec_hctUnload {s : State} (h : coreOn s = true) :
    exec .hctUnload s = .next { s with lg := { s.lg with unloadDue := true } } := by
  simp [exec, execHctUnload, h]

theorem exec_hctVerifyDone (s : State) : exec .hctVerifyDone s = .next (hctVerify s) := rfl

theorem exec_hctInForce (s : State) : exec .hctInForce s = .next (guardBoundary s) := rfl

/-- The findings of a verification, as LG_HCTC shows them. -/
def hctNoted (s : State) : State :=
  setB Fld.LG_HCTC_STRONG (hctStrong (windowTable s)) (setB Fld.LG_HCTC_REJECT (hctReject (windowTable s) ≠ 0)
    (setF Fld.LG_HCTC_REJECT_CODE (hctReject (windowTable s)) s))

/-- The table that comes into force, or leaves it, at a boundary. -/
def hctSwapped (s : State) : State := hctLoadNow (hctUnloadNow s)

theorem hctVerify_of_idle {s : State} (h : s.lg.pend ≠ .verifying) : hctVerify s = s := by
  unfold hctVerify
  split
  · contradiction
  · rfl

theorem hctVerify_of_sound {s : State} (h : s.lg.pend = .verifying) (hsound : hctReject (windowTable s) = 0) :
    hctVerify s = setReg Fld.LG_HCTCRC_CRC.addr (hctCrc (windowTable s)) (completeTokens tokHct "ok"
      { hctNoted s with lg := { s.lg with pend := .load (hctStrong (windowTable s)) } }) := by
  simp only [hctVerify, h]
  exact if_pos hsound

theorem hctVerify_of_unsound {s : State} (h : s.lg.pend = .verifying) (hreject : hctReject (windowTable s) ≠ 0) :
    hctVerify s = setF Fld.LG_HCTC_PENDING 0 (completeTokens tokHct "err E60 hardware"
      { hctNoted s with lg := { s.lg with pend := .none } }) := by
  simp only [hctVerify, h]
  exact if_neg hreject

theorem checkSweep_of_none {s : State} (h : s.cb.sweep = none) : checkSweep s = s := by
  simp [checkSweep, h]

/-- A boundary with no sweep under way: the table changes, then CHECK_EN takes effect. -/
theorem guardBoundary_of_unswept {s t : State} (ht : hctSwapped s = t) (h : t.cb.sweep = none) :
    guardBoundary s = setB Fld.LG_STATUS_CHECK_IN_FORCE (flag t Fld.LG_CTRL_CHECK_EN) t := by
  subst ht
  exact checkSweep_of_none ((congrArg Calib.sweep setB_cb).trans h)

theorem hctSwapped_of_load {s : State} {strong : Bool} (h : s.lg.pend = .load strong) (hkeep : s.lg.unloadDue = false) :
    hctSwapped s = setF Fld.LG_HCTC_LOADED 1 (setF Fld.LG_HCTC_PENDING 0 (setF Fld.LG_STATUS_HCT_LOADED 1
      (setB Fld.LG_STATUS_HCT_STRONG strong (setF Fld.LD_OPSTAT_NO_HCT 0
        { s with lg := { s.lg with pend := .none, table := windowTable s } })))) := by
  simp [hctSwapped, hctUnloadNow, hctLoadNow, hkeep, h]

theorem hctSwapped_of_unload {s : State} (h : s.lg.pend = .none) (hdue : s.lg.unloadDue = true) :
    hctSwapped s = hctClear s := by
  have hpend : (hctClear s).lg.pend = .none := h
  simp [hctSwapped, hctUnloadNow, hctLoadNow, hdue, hpend]

/-- Settles O28: the window and the requests by LG_HCTC, a verification by its finding, a boundary by what is due. -/
theorem hostCodeTableCommands : Obligations.HostCodeTableCommands := by
  intro s rows value h noted
  refine ⟨?write, ?writeClosed, fun hcore => exec_hctWindowRead hcore, fun hoff => (exec_hct_of_coreOff hoff value rows).2,
    ?load, ?loadClosed, fun hcore => exec_hctUnload hcore, ?idle, ?sound, ?unsound, ?comes, ?leaves⟩
  case write =>
    intro hcore hload hpend
    rw [exec_hctWindowWrite hcore, hctWrite, hload, hpend]; rfl
  case writeClosed =>
    intro hclosed
    cases hcore : coreOn s with
    | false => exact (exec_hct_of_coreOff hcore value rows).1
    | true =>
      rw [exec_hctWindowWrite hcore, hctWrite_of_closed (hclosed.resolve_left (by simp [hcore]))]
  case load => exact fun hcore hpend hin => by rw [exec_hctLoad, hcore, hpend, hctUsable, hin]; rfl
  case loadClosed => exact fun hclosed => by rcases hclosed with hpend | hout <;> simp [exec_hctLoad, hctUsable, *]
  case idle => exact fun hidle => by rw [exec_hctVerifyDone, hctVerify_of_idle hidle]
  case sound => exact fun hpend hsound => by rw [exec_hctVerifyDone, hctVerify_of_sound hpend hsound]; rfl
  case unsound => exact fun hpend hreject => by rw [exec_hctVerifyDone, hctVerify_of_unsound hpend hreject]; rfl
  case comes =>
    intro strong hload hkeep hsweep
    rw [exec_hctInForce, guardBoundary_of_unswept (hctSwapped_of_load hload hkeep) (by simpa using hsweep)]
  case leaves =>
    intro hpend hdue hsweep
    rw [exec_hctInForce, guardBoundary_of_unswept (hctSwapped_of_unload hpend hdue) hsweep]; rfl

end Sys2Proof.Machine

namespace Sys2Proof.Machine

/-! ### Counting disagreements (R188) -/

theorem popCount_succ (n v : Nat) : popCount (n + 1) v = popCount n v + b2n (v.testBit n) := by
  simp [popCount, List.range_succ]

theorem popCount_le (n v : Nat) : popCount n v ≤ n := by
  induction n with
  | zero => exact Nat.le_refl 0
  | succ n ih =>
    have := b2n_le (v.testBit n)
    rw [popCount_succ]
    omega

theorem tallyBits_tallyOf (n ref sample : Nat) : tallyBits (tallyOf n ref sample) = n :=
  Nat.add_sub_of_le (popCount_le n ref)

/-- The bits that differ are the ones of the reference that disagree and the ones of the sample that do. -/
theorem tallyBad_tallyOf (n ref sample : Nat) : tallyBad (tallyOf n ref sample) =
    ((List.range n).filter (fun i => ref.testBit i != sample.testBit i)).length := by
  induction n with
  | zero => rfl
  | succ n ih =>
    have hbit : b2n (((ref ^^^ sample) &&& ref).testBit n) + b2n (((ref ^^^ sample) &&& sample).testBit n) =
        b2n (ref.testBit n != sample.testBit n) := by
      rw [Nat.testBit_and, Nat.testBit_and, Nat.testBit_xor]
      cases ref.testBit n <;> cases sample.testBit n <;> rfl
    have hlast : ((List.filter (fun i => ref.testBit i != sample.testBit i) [n]).length) =
        b2n (ref.testBit n != sample.testBit n) := by
      rw [List.filter_cons, List.filter_nil]
      cases ref.testBit n != sample.testBit n <;> rfl
    rw [List.range_succ, List.filter_append, List.length_append, hlast, ← ih, ← hbit]
    simp only [tallyBad, tallyOf, popCount_succ]
    omega

/-! ### The search for an edge (R189) -/

/-- A dwell with a valid rate, inside the eye. -/
def Inside (thr : Nat) (t : Tally) : Prop := tallyValid thr t = true ∧ tallyOutside thr t = false

/-- What the answer of a search says of the dwells of its side. -/
def SearchTells (thr max : Nat) (l : List Tally) : Search → Prop
  | .found k => (∃ y, l[k]? = some y ∧ tallyValid thr y = true ∧ tallyOutside thr y = true) ∧ ∀ y ∈ l.take k, Inside thr y
  | .missing => max ≤ l.length ∧ ∀ y ∈ l, Inside thr y
  | .dwell k => (∀ y ∈ l.take k, Inside thr y) ∧
      ((l[k]? = none ∧ k = l.length ∧ k < max) ∨ ∃ y, l[k]? = some y ∧ tallyValid thr y = false)

/-- The search goes on behind dwells that are all inside. -/
theorem searchTells_append {thr max : Nat} (l : List Tally) {past : List Tally} (h : ∀ y ∈ past, Inside thr y) :
    SearchTells thr max (past ++ l) (search thr max l past.length) := by
  induction l generalizing past with
  | nil =>
    rw [search, List.append_nil]
    split
    · next hmore => exact ⟨by simpa using h, .inl ⟨by simp, rfl, hmore⟩⟩
    · next hend => exact ⟨Nat.le_of_not_lt hend, h⟩
  | cons t l ih =>
    have hlast : (past ++ t :: l)[past.length]? = some t := by simp
    have hpast : ∀ y ∈ (past ++ t :: l).take past.length, Inside thr y := by simpa using h
    rw [search]
    cases hv : tallyValid thr t with
    | false => exact ⟨hpast, .inr ⟨t, hlast, hv⟩⟩
    | true =>
      cases ho : tallyOutside thr t with
      | true => exact ⟨⟨t, hlast, hv, ho⟩, hpast⟩
      | false =>
        have hnext : ∀ y ∈ past ++ [t], Inside thr y := by
          intro y hy
          rcases List.mem_append.mp hy with hy | hy
          · exact h y hy
          · exact List.mem_singleton.mp hy ▸ ⟨hv, ho⟩
        simpa using ih hnext

theorem search_tells (thr max : Nat) (l : List Tally) : SearchTells thr max l (search thr max l 0) :=
  searchTells_append (past := []) l (by simp)

/-- A dwell that a burst is counted at lies on the side, or is its next offset within the range. -/
def Reached (max : Nat) (l : List Tally) (k : Nat) : Prop := k < l.length ∨ k = l.length ∧ k < max

theorem reached_of_search {thr max k : Nat} {l : List Tally} (h : search thr max l 0 = .dwell k) : Reached max l k := by
  have htells := search_tells thr max l
  rw [h] at htells
  obtain ⟨-, ⟨-, hlen, hmax⟩ | ⟨y, hy, -⟩⟩ := htells
  · exact .inr ⟨hlen, hmax⟩
  · exact .inl (List.getElem?_eq_some_iff.mp hy).1

theorem lt_length_of_search {thr max k : Nat} {l : List Tally} (h : search thr max l 0 = .found k) : k < l.length := by
  have htells := search_tells thr max l
  rw [h] at htells
  obtain ⟨⟨y, hy, -⟩, -⟩ := htells
  exact (List.getElem?_eq_some_iff.mp hy).1

/-- The full scan goes on behind the dwells that it has counted. -/
theorem reached_of_scanAll {thr max k j : Nat} {l : List Tally} (h : scanAll thr max l j = .dwell k) :
    j ≤ k ∧ (k < j + l.length ∨ k = j + l.length ∧ k < max) := by
  induction l generalizing j with
  | nil =>
    rw [scanAll] at h
    split at h
    · next hmore => cases h; exact ⟨Nat.le_refl k, .inr ⟨rfl, hmore⟩⟩
    · cases h
  | cons t l ih =>
    rw [scanAll] at h
    split at h
    · have := ih h
      simp only [List.length_cons]
      omega
    · cases h
      simp

theorem reached_of_timeSearch {m : Sampling} {thr max k : Nat} {l : List Tally} (h : timeSearch m thr max l = .dwell k) :
    Reached max l k := by
  rw [timeSearch] at h
  split at h
  · simpa [Reached] using (reached_of_scanAll h).2
  · exact reached_of_search h

/-! ### Bursts that are counted (R189, R206) -/

/-- The bits that the dwells of a side have counted. -/
def sideBits (l : List Tally) : Nat := (l.map tallyBits).sum

theorem tallyBits_tallyAdd (x t : Tally) : tallyBits (tallyAdd x t) = tallyBits x + tallyBits t := by
  simp only [tallyBits, tallyAdd]
  omega

theorem sideBits_modify (x : Tally) {k : Nat} {l : List Tally} (h : k < l.length) :
    sideBits (l.modify k (tallyAdd x)) = sideBits l + tallyBits x := by
  induction l generalizing k with
  | nil => exact absurd h (Nat.not_lt_zero k)
  | cons t l ih =>
    cases k with
    | zero =>
      simp only [List.modify_zero_cons, sideBits, List.map_cons, List.sum_cons, tallyBits_tallyAdd]
      omega
    | succ k =>
      have := ih (Nat.lt_of_succ_lt_succ h)
      simp only [List.modify_succ_cons, sideBits, List.map_cons, List.sum_cons] at this ⊢
      omega

theorem sideBits_bump (x : Tally) (k : Nat) (l : List Tally) : sideBits (bump x k l) = sideBits l + tallyBits x := by
  rw [bump]
  split
  · next h => exact sideBits_modify x h
  · simp [sideBits]

theorem length_bump_le (x : Tally) {max k : Nat} {l : List Tally} (h : Reached max l k) (hl : l.length ≤ max) :
    (bump x k l).length ≤ max := by
  rw [bump]
  split
  · rwa [List.length_modify]
  · rw [List.length_append, List.length_singleton]
    unfold Reached at h
    omega

theorem Search.eq_dwell {q : Search} (h : q.dwells = true) : ∃ k, q = .dwell k := by
  cases q with
  | dwell k => exact ⟨k, rfl⟩
  | _ => cases h

theorem feedSide_of_not_dwells (x : Tally) {q : Search} (h : q.dwells = false) (l : List Tally) : feedSide x q l = l := by
  cases q with
  | dwell k => cases h
  | _ => rfl

theorem dwells_of_leftTurn {m : Sampling} {l r : Search} (h : leftTurn m l r = true) : l.dwells = true := by
  cases l with
  | dwell k => rfl
  | _ => cases h

/-- The left side waits only for the right one. -/
theorem not_dwells_of_not_leftTurn {m : Sampling} {l r : Search} (h : leftTurn m l r = false) (hr : r.dwells = false) :
    l.dwells = false := by
  cases l with
  | dwell k =>
    cases r with
    | dwell j => cases hr
    | _ => cases h
  | _ => rfl

theorem feedOne_of_bitDone {m : Sampling} {thr : Nat} {s : BitScan} (h : bitDone m thr s = true) (x : Tally) :
    feedOne m thr x s = s := by
  obtain ⟨htime, hvolt⟩ := (Bool.and_eq_true _ _).mp h
  simp only [timeDone, Bool.and_eq_true, Bool.not_eq_true'] at htime
  obtain ⟨hl, hr⟩ := htime
  have hturn : leftTurn m (timeSearch m thr leftMax s.l) (timeSearch m thr rightMax s.r) = false :=
    Bool.eq_false_iff.mpr fun hturn => Bool.eq_false_iff.mp hl (dwells_of_leftTurn hturn)
  cases hgo : goesOn m thr s with
  | false => simp [feedOne, hturn, hr, hgo]
  | true =>
    simp only [hgo, Bool.not_true, Bool.false_or, Bool.and_eq_true, Bool.not_eq_true'] at hvolt
    obtain ⟨hb, ht⟩ := hvolt
    simp [feedOne, hturn, hr, hgo, hb, feedSide_of_not_dwells x ht]

/-- A burst of a bit that is not done is counted at the one dwell that its sampler has reached. -/
theorem feedOne_of_running {m : Sampling} {thr : Nat} {s : BitScan} (h : bitDone m thr s = false) (x : Tally) :
    (∃ k, Reached leftMax s.l k ∧ feedOne m thr x s = { s with l := bump x k s.l }) ∨
    (∃ k, Reached rightMax s.r k ∧ feedOne m thr x s = { s with r := bump x k s.r }) ∨
    (∃ k, Reached (bottomMax m) s.b k ∧ feedOne m thr x s = { s with b := bump x k s.b }) ∨
    (∃ k, Reached topMax s.t k ∧ feedOne m thr x s = { s with t := bump x k s.t }) := by
  unfold feedOne
  dsimp only
  split
  next hturn =>
    obtain ⟨k, hk⟩ := Search.eq_dwell (dwells_of_leftTurn hturn)
    exact .inl ⟨k, reached_of_timeSearch hk, by rw [hk]; rfl⟩
  next hturn =>
    split
    next hr =>
      obtain ⟨k, hk⟩ := Search.eq_dwell hr
      exact .inr (.inl ⟨k, reached_of_timeSearch hk, by rw [hk]; rfl⟩)
    next hr =>
      have hr := Bool.eq_false_iff.mpr hr
      have hl := not_dwells_of_not_leftTurn (Bool.eq_false_iff.mpr hturn) hr
      have hvolt : goesOn m thr s = true ∧
          ((search thr (bottomMax m) s.b 0).dwells = false → (search thr topMax s.t 0).dwells = true) := by
        simpa [bitDone, timeDone, hl, hr] using h
      obtain ⟨hgo, htop⟩ := hvolt
      rw [if_pos hgo]
      split
      next hb =>
        obtain ⟨k, hk⟩ := Search.eq_dwell hb
        exact .inr (.inr (.inl ⟨k, reached_of_search hk, by rw [hk]; rfl⟩))
      next hb =>
        obtain ⟨k, hk⟩ := Search.eq_dwell (htop (Bool.eq_false_iff.mpr hb))
        exact .inr (.inr (.inr ⟨k, reached_of_search hk, by rw [hk]; rfl⟩))

/-- The bits that the four sides of a bit have counted. -/
def scanBits (s : BitScan) : Nat := ((s.l ++ s.r ++ s.b ++ s.t).map tallyBits).sum

theorem scanBits_eq (s : BitScan) : scanBits s = sideBits s.l + sideBits s.r + sideBits s.b + sideBits s.t := by
  simp only [scanBits, sideBits, List.map_append, List.sum_append]

theorem scanBits_feedOne {m : Sampling} {thr : Nat} {s : BitScan} (h : bitDone m thr s = false) (x : Tally) :
    scanBits (feedOne m thr x s) = scanBits s + tallyBits x := by
  rw [scanBits_eq, scanBits_eq]
  rcases feedOne_of_running h x with ⟨k, -, hfed⟩ | ⟨k, -, hfed⟩ | ⟨k, -, hfed⟩ | ⟨k, -, hfed⟩ <;>
    · rw [hfed]
      simp only [sideBits_bump]
      omega

/-- No side of a bit has more dwells than its range has offsets. -/
def ScanFits (m : Sampling) (s : BitScan) : Prop :=
  s.l.length ≤ leftMax ∧ s.r.length ≤ rightMax ∧ s.b.length ≤ bottomMax m ∧ s.t.length ≤ topMax

theorem scanFits_feedOne {m : Sampling} {thr : Nat} {s : BitScan} (h : ScanFits m s) (x : Tally) :
    ScanFits m (feedOne m thr x s) := by
  cases hdone : bitDone m thr s with
  | true => rwa [feedOne_of_bitDone hdone]
  | false =>
    obtain ⟨hl, hr, hb, ht⟩ := h
    rcases feedOne_of_running hdone x with ⟨k, hk, hfed⟩ | ⟨k, hk, hfed⟩ | ⟨k, hk, hfed⟩ | ⟨k, hk, hfed⟩ <;> rw [hfed]
    · exact ⟨length_bump_le x hk hl, hr, hb, ht⟩
    · exact ⟨hl, length_bump_le x hk hr, hb, ht⟩
    · exact ⟨hl, hr, length_bump_le x hk hb, ht⟩
    · exact ⟨hl, hr, hb, length_bump_le x hk ht⟩

/-! ### The edges of an eye (R187, R189) -/

/-- An edge lies at an offset that its side has dwelt on. -/
theorem edgeAt_search {f : Nat → Int} {thr max : Nat} {l : List Tally} {a : Int}
    (h : edgeAt f (search thr max l 0) = some a) : ∃ k < l.length, a = f k := by
  cases hq : search thr max l 0 with
  | found k =>
    rw [hq, edgeAt, Option.some.injEq] at h
    exact ⟨k, lt_length_of_search hq, h.symm⟩
  | _ => rw [hq] at h; cases h

/-- Outside an acquisition the timing edges are those of the searches; the voltage edges too where the bit goes on. -/
theorem bitEye_of_search {m : Sampling} (h : m ≠ .acquire) (thr : Nat) (s : BitScan) : bitEye m thr s =
    ⟨edgeAt leftAt (search thr leftMax s.l 0), edgeAt rightAt (search thr rightMax s.r 0),
      if goesOn m thr s then edgeAt topAt (search thr topMax s.t 0) else none,
      if goesOn m thr s then edgeAt (bottomAt m) (search thr (bottomMax m) s.b 0) else none⟩ := by
  unfold bitEye timeEdges
  cases goesOn m thr s <;> simp [h]

theorem bitEye_in_range {m : Sampling} {s : BitScan} (hfits : ScanFits m s) (h : m ≠ .acquire) (thr : Nat) (a : Int) :
    ((bitEye m thr s).l = some a → -63 ≤ a ∧ a ≤ 0) ∧ ((bitEye m thr s).r = some a → 1 ≤ a ∧ a ≤ 63) ∧
    ((bitEye m thr s).t = some a → 1 ≤ a ∧ a ≤ 127) ∧ ((bitEye m thr s).b = some a → -128 ≤ a ∧ a ≤ 0) := by
  obtain ⟨hl, hr, hb, ht⟩ := hfits
  rw [leftMax] at hl
  rw [rightMax] at hr
  rw [topMax] at ht
  rw [bitEye_of_search h]
  refine ⟨fun he => ?left, fun he => ?right, fun he => ?top, fun he => ?bottom⟩
  case left =>
    obtain ⟨k, hk, rfl⟩ := edgeAt_search he
    rw [leftAt]
    omega
  case right =>
    obtain ⟨k, hk, rfl⟩ := edgeAt_search he
    rw [rightAt]
    omega
  case top =>
    obtain ⟨-, he⟩ := Option.ite_none_right_eq_some.mp he
    obtain ⟨k, hk, rfl⟩ := edgeAt_search he
    rw [topAt]
    omega
  case bottom =>
    obtain ⟨-, he⟩ := Option.ite_none_right_eq_some.mp he
    obtain ⟨k, hk, rfl⟩ := edgeAt_search he
    rw [bottomMax] at hb
    rw [bottomAt]
    by_cases hm : m = .double
    · rw [if_pos hm] at hb ⊢
      omega
    · rw [if_neg hm] at hb ⊢
      omega

theorem eyeMove_and_eyeW_of_timed {e : BitEye} {a b : Int} (hl : e.l = some a) (hr : e.r = some b) :
    eyeMove e = (a + b).tdiv 2 ∧ eyeW e = (b - a).toNat := by
  simp [eyeMove, eyeW, eyeTimed, hl, hr]

/-- Settles O34: counts bit by bit, a search by what lies behind it, a burst by the one dwell that it reaches. -/
theorem eyeEdgesAreFoundBySearch : Obligations.EyeEdgesAreFoundBySearch := by
  intro thr max k n ref sample l t x m s e a b
  have htells := search_tells thr max l
  refine ⟨tallyBits_tallyOf n ref sample, tallyBad_tallyOf n ref sample, decide_eq_true_iff, decide_eq_true_iff,
    fun hfound => ?_, fun hmissing => ?_, fun hdwell => ?_, fun hdone => feedOne_of_bitDone hdone x,
    fun hrun => scanBits_feedOne hrun x, fun hfits => scanFits_feedOne hfits x,
    fun hfits hm => bitEye_in_range hfits hm thr a, eyeMove_and_eyeW_of_timed⟩
  · rwa [hfound] at htells
  · rwa [hmissing] at htells
  · rwa [hdwell] at htells

end Sys2Proof.Machine

namespace Sys2Proof.Machine

/-! ### The tests of Table CB-4 (R189, R193, R194) -/

section

variable (lim : Word) (ts : TestSet) (t : Trial) (x : TrialResult)

theorem missingEdge_iff : (!t.eyes.all (if ts.volt then eyeFound else eyeTimed)) = true ↔
    ¬ ∀ e ∈ t.eyes, (if ts.volt then eyeFound e else eyeTimed e) = true := by
  cases ts.volt <;> simp

theorem smallWidth_iff : (x.ws.any (fun w => w < minWidth lim)) = true ↔ ¬ ∀ w ∈ x.ws, minWidth lim ≤ w := by
  simp

theorem smallHeight_iff : (ts.volt && x.hs.any (fun h => h < minHeight lim)) = true ↔
    ¬ (ts.volt = true → ∀ h ∈ x.hs, minHeight lim ≤ h) := by
  cases ts.volt <;> simp

theorem largeStep_iff : (ts.step && x.moves.any (fun m => maxStep lim < m.natAbs)) = true ↔
    ¬ (ts.step = true → ∀ m ∈ x.moves, m.natAbs ≤ maxStep lim) := by
  cases ts.step <;> simp

theorem largeVstep_iff : (ts.vstep && decide (maxVstep lim < x.vmove.natAbs)) = true ↔
    ¬ (ts.vstep = true → x.vmove.natAbs ≤ maxVstep lim) := by
  cases ts.vstep <;> simp

end

/-- A test with a reason leaves 0 where it passes and the tests behind it do. -/
theorem reason_eq_zero_iff {p : Prop} [Decidable p] {n m : Nat} (hn : n ≠ 0) :
    (if ¬p then n else m) = 0 ↔ p ∧ m = 0 := by
  by_cases hp : p
  · rw [if_neg (not_not_intro hp)]
    exact ⟨fun hm => ⟨hp, hm⟩, And.right⟩
  · rw [if_pos hp]
    exact ⟨fun hz => absurd hz hn, fun hpm => absurd hpm.1 hp⟩

theorem rangeReason_eq_zero_iff (b : Bool) : (if (!b) = true then 6 else 0) = 0 ↔ b = true := by
  cases b <;> decide

/-- Settles O35: each Boolean test is the failure of its condition, and the first that fails gives the reason. -/
theorem acceptanceTestsInOrder : Obligations.AcceptanceTestsInOrder := by
  intro lim ts t x inRange found wide high near vnear
  simp only [acceptReason, missingEdge_iff, smallWidth_iff, smallHeight_iff, largeStep_iff, largeVstep_iff]
  refine ⟨?accepted, fun hf => if_pos hf, fun hf hw => ?width, fun hf hw hh => ?height, fun hf hw hh hn => ?step,
    fun hf hw hh hn hv => ?vstep⟩
  case accepted =>
    rw [reason_eq_zero_iff (by decide), reason_eq_zero_iff (by decide), reason_eq_zero_iff (by decide),
      reason_eq_zero_iff (by decide), reason_eq_zero_iff (by decide), rangeReason_eq_zero_iff]
  case width => rw [if_neg (not_not_intro hf), if_pos hw]
  case height => rw [if_neg (not_not_intro hf), if_neg (not_not_intro hw), if_pos hh]
  case step => rw [if_neg (not_not_intro hf), if_neg (not_not_intro hw), if_neg (not_not_intro hh), if_pos hn]
  case vstep =>
    rw [if_neg (not_not_intro hf), if_neg (not_not_intro hw), if_neg (not_not_intro hh),
      if_neg (not_not_intro hn), if_pos hv]

end Sys2Proof.Machine

namespace Sys2Proof.Machine

/-! ### Pending codes of the impedance and duty-cycle engines (R38, R186) -/

theorem frame_cb (c : Calib) (s : State) : Frame [.cb] [] s { s with cb := c } := by
  refine ⟨fun p hp => ?_, fun _ _ => rfl⟩
  cases p with
  | cb => exact absurd (List.mem_singleton_self _) hp
  | _ => rfl

theorem frame_pendF (f : Field) (v : Int) (s : State) : Frame [.cb] [] s (pendF f v s) := frame_cb _ s

theorem frame_zqSide (fs : List (Field × Nat)) (s : State) : Frame [.cb] [] s (zqSide fs s) := by
  rw [zqSide]
  exact Frame.foldl (fun t _ => frame_pendF _ _ t) fs s

/-- The codes that wait decide nothing about the lanes that a measurement moves. -/
theorem zqCodes_pend (p : SMap 64) (s : State) : zqCodes { s with cb := { s.cb with pend := p } } = zqCodes s := rfl

theorem zqCodes_zqSide (fs : List (Field × Nat)) (s : State) : zqCodes (zqSide fs s) = zqCodes s := by
  rw [zqSide]
  exact foldl_keeps zqCodes (fun _ _ t => zqCodes_pend _ t) s

/-- The duty-cycle code of a lane; the impedance codes share its register. -/
def dccField (dram : Bool) (lane : Nat) : Field :=
  if dram then Fld.DL_DRV_DCC.lane lane else Fld.HL_DRV_DCC.lane lane

theorem width_dccField (dram : Bool) (lane : Nat) : (dccField dram lane).width = 6 := by cases dram <;> rfl

theorem dccField_addr_inj {dram : Bool} {m n : Nat} (h : (dccField dram m).addr = (dccField dram n).addr) : m = n := by
  cases dram with
  | false =>
    change 0x100C + 0x100 * m = 0x100C + 0x100 * n at h
    omega
  | true =>
    change 0x1810 + 0x100 * m = 0x1810 + 0x100 * n at h
    omega

theorem mem_freeLanes {s : State} {dram : Bool} {n : Nat} :
    n ∈ freeLanes s dram ↔ n < (if dram then 6 else 5) ∧ calHeld s dram n = false := by
  simp [freeLanes]

/-- Impedance codes belong to the lanes whose engines run. -/
theorem addr_of_mem_zqCodes {s : State} {dram : Bool} {up down : Nat} {e : Field × Nat}
    (h : e ∈ zqCodes s dram up down) : ∃ n ∈ freeLanes s dram, e.1.addr = (dccField dram n).addr := by
  obtain ⟨n, hn, he⟩ := List.mem_flatMap.mp h
  refine ⟨n, hn, ?_⟩
  cases dram with
  | false =>
    simp only [Bool.false_eq_true, if_false, List.mem_cons, List.not_mem_nil, or_false] at he
    rcases he with rfl | rfl <;> rfl
  | true =>
    simp only [if_true, List.mem_cons, List.not_mem_nil, or_false] at he
    rcases he with rfl | rfl <;> rfl

theorem zqCodes_of_held {s : State} {dram : Bool} {lane : Nat} (h : calHeld s dram lane = true) (up down : Nat) :
    ∀ e ∈ zqCodes s dram up down, e.1.addr ≠ (dccField dram lane).addr := by
  intro e he haddr
  obtain ⟨n, hn, hen⟩ := addr_of_mem_zqCodes he
  obtain rfl := dccField_addr_inj (hen.symm.trans haddr)
  exact Bool.false_ne_true ((mem_freeLanes.mp hn).2.symm.trans h)

theorem stepToward_nears (now want : Nat) :
    (stepToward now want - (now : Int)).natAbs ≤ 1 ∧ stepToward want want = (want : Int) ∧
      (now ≠ want → (stepToward now want - want).natAbs < ((now : Int) - want).natAbs) := by
  unfold stepToward
  refine ⟨?_, by rw [if_neg (Nat.lt_irrefl want), if_neg (Nat.lt_irrefl want)], fun hne => ?_⟩
  · split
    · omega
    · split <;> omega
  · split
    · omega
    · split <;> omega

/-! ### ZQ measurements (R38, R186) -/

theorem exec_zqMeasure_of_on {s : State} (hcore : coreOn s = true) (hrun : inRun s = true)
    (hen : flag s Fld.CB_CTRL_ZQ_EN = true) (hu hd du dd : BitVec 5) (hs ds : Bool) :
    exec (.zqMeasure hu hd du dd hs ds) s = .next (zqMeasure hu.toNat hd.toNat du.toNat dd.toNat hs ds s) :=
  congrArg Host.Outcome.next (if_pos (by rw [hcore, hrun, hen]; rfl))

theorem exec_zqMeasure_of_off {s : State}
    (h : coreOn s = false ∨ inRun s = false ∨ flag s Fld.CB_CTRL_ZQ_EN = false) (hu hd du dd : BitVec 5) (hs ds : Bool) :
    exec (.zqMeasure hu hd du dd hs ds) s = .next s :=
  congrArg Host.Outcome.next (if_neg (by rcases h with h | h | h <;> simp [h]))

/-- The fused default codes of a side wait. -/
def zqDefaults (dram : Bool) (s : State) : State :=
  (zqCodes s dram 0 0).foldl
    (fun t f => pendF f.1 (natBits (regDefault f.1.addr).toNat f.1.hi f.1.lo : Nat) t) s

theorem zqSaturated_eq (dram : Bool) (s : State) : zqSaturated dram s =
    rejectWith (if dram then 21 else 11) 0 8 (b2n dram) 0 0 0 0 0 0 0 (zqDefaults dram s) := by
  rw [zqSaturated, zqDefaults]

theorem frame_zqDefaults (dram : Bool) (s : State) : Frame [.cb] [] s (zqDefaults dram s) := by
  rw [zqDefaults]
  exact Frame.foldl (fun t _ => frame_pendF _ _ t) _ s

theorem events_raise (src syn : Nat) (s : State) :
    (raise src syn s).fc.events = addEvents s.fc.events src 1 (BitVec.ofNat 64 syn) := rfl

/-- A rejection raises its source with the captured figures under `top` (R240). -/
theorem events_rejectWith (src top reason side r lane bit w h : Nat) (move vmove : Int) (s : State) :
    (rejectWith src top reason side r lane bit w h move vmove s).fc.events = addEvents s.fc.events src 1
      (BitVec.ofNat 64 (top * 2 ^ 60 + (reason * 2 ^ 24 + side * 2 ^ 16 + r * 2 ^ 12 + lane * 2 ^ 8 + bit) * 2 ^ 32
        + sat 255 w * 2 ^ 24 + sat 255 h * 2 ^ 16 + unsigned 8 move * 2 ^ 8 + unsigned 8 vmove)) := by
  rw [rejectWith, events_raise, apply_ite State.fc, setReg_fc, ite_self]

theorem reg_rejectWith {a : Nat} (ha : a ≠ Fld.CB_RLOG_VALID.addr) (src top reason side r lane bit w h : Nat)
    (move vmove : Int) (s : State) : reg (rejectWith src top reason side r lane bit w h move vmove s) a = reg s a := by
  rw [rejectWith, reg_raise]
  split
  · rfl
  · exact reg_setReg_other ha

theorem events_zqSaturated (dram : Bool) (s : State) : (zqSaturated dram s).fc.events =
    addEvents s.fc.events (if dram then 21 else 11) 1 (BitVec.ofNat 64 (8 * 2 ^ 56 + b2n dram * 2 ^ 48)) := by
  have hfc : (zqDefaults dram s).fc = s.fc := (frame_zqDefaults dram s).1 .fc (by decide)
  rw [zqSaturated_eq, events_rejectWith, hfc]
  cases dram <;> rfl

theorem reg_zqSaturated {a : Nat} (h : a ≠ Fld.CB_RLOG_VALID.addr) (dram : Bool) (s : State) :
    reg (zqSaturated dram s) a = reg s a := by
  rw [zqSaturated_eq, reg_rejectWith h]
  exact (frame_zqDefaults dram s).2 a List.not_mem_nil

/-! ### Duty steps (R186) -/

/-- A code of six bits with its sign. -/
theorem getS_dccField (dram : Bool) (lane : Nat) (s : State) :
    -32 ≤ getS s (dccField dram lane) ∧ getS s (dccField dram lane) ≤ 31 := by
  have hlt := getF_lt (dccField dram lane) s
  rw [width_dccField] at hlt
  unfold getS signed
  rw [width_dccField]
  split <;> omega

theorem exec_dccStep_of_on {s : State} (hcore : coreOn s = true) (hrun : inRun s = true)
    (hen : flag s Fld.CB_CTRL_DCC_EN = true) (dram : Bool) (lane : DLane) (up : Bool) :
    exec (.dccStep dram lane up) s = .next (dccStep dram lane.val up s) :=
  congrArg Host.Outcome.next (if_pos (by rw [hcore, hrun, hen]; rfl))

theorem dccStep_of_held {s : State} {dram : Bool} {lane : Nat} (h : lane ∉ freeLanes s dram) (up : Bool) :
    dccStep dram lane up s = s :=
  if_pos (by simpa using h)

theorem exec_dccStep_of_off {s : State} {dram : Bool} {lane : DLane} (h : coreOn s = false ∨ inRun s = false ∨
    flag s Fld.CB_CTRL_DCC_EN = false ∨ lane.val ∉ freeLanes s dram) (up : Bool) :
    exec (.dccStep dram lane up) s = .next s := by
  refine congrArg Host.Outcome.next ?_
  rcases h with h | h | h | h
  · exact if_neg (by simp [h])
  · exact if_neg (by simp [h])
  · exact if_neg (by simp [h])
  · rw [dccStep_of_held h, ite_self]

/-- The code that a duty step leads to. -/
def dccNext (s : State) (dram : Bool) (lane : Nat) (up : Bool) : Int :=
  if up then getS s (dccField dram lane) + 1 else getS s (dccField dram lane) - 1

section

variable {s : State} {dram : Bool} {lane : Nat} {up : Bool} (h : lane ∈ freeLanes s dram)
include h

theorem dccStep_of_free : dccStep dram lane up s =
    if dccNext s dram lane up < -32 ∨ 31 < dccNext s dram lane up then
      rejectWith (if dram then 21 else 11) 0 7 (b2n dram) 0 lane 0 0 0 0 0
        (incF (Fld.CB_CNT_REJ.bank (cntBank (b2n dram) 0 lane)) s)
    else pendF (dccField dram lane) (dccNext s dram lane up) s :=
  if_neg (by simpa using h)

theorem dccStep_of_inside (hlow : -32 ≤ dccNext s dram lane up) (hhigh : dccNext s dram lane up ≤ 31) :
    dccStep dram lane up s = pendF (dccField dram lane) (dccNext s dram lane up) s := by
  rw [dccStep_of_free h, if_neg (by omega)]

theorem dccStep_of_end (hout : dccNext s dram lane up < -32 ∨ 31 < dccNext s dram lane up) : dccStep dram lane up s =
    rejectWith (if dram then 21 else 11) 0 7 (b2n dram) 0 lane 0 0 0 0 0
      (incF (Fld.CB_CNT_REJ.bank (cntBank (b2n dram) 0 lane)) s) := by
  rw [dccStep_of_free h, if_pos hout]

end

/-! ### Starved values (R198) -/

theorem exec_pendingStarved_of_pending {s : State} (hcore : coreOn s = true) (h : s.cb.pend ≠ []) :
    exec .pendingStarved s = .next (trace 0x0701 1 (setF Fld.CB_STATUS_STARVED 1 s)) :=
  congrArg Host.Outcome.next (if_pos (by simp [hcore, h]))

theorem exec_pendingStarved_of_none {s : State} (hpend : s.cb.pend = []) (hcommit : s.committed = []) :
    exec .pendingStarved s = .next s :=
  congrArg Host.Outcome.next (if_neg (by simp [hpend, hcommit]))

/-- Settles O32: a measurement by its two sides, a duty step by the code that it leads to. -/
theorem impedanceDutyAndStarvation : Obligations.ImpedanceDutyAndStarvation := by
  intro s hu hd du dd hs ds up dram lane f on
  refine ⟨fun ⟨hcore, hrun⟩ hen => ⟨exec_zqMeasure_of_on hcore hrun hen .., ?moved⟩,
    fun hoff => exec_zqMeasure_of_off hoff .., fun d => ⟨events_zqSaturated d s, fun a ha => reg_zqSaturated ha d s⟩,
    fun fs => frame_zqSide fs s, fun hheld => zqCodes_of_held hheld _ _, stepToward_nears,
    fun ⟨hcore, hrun⟩ hen hfree => ?duty, fun hoff => exec_dccStep_of_off hoff up, exec_pendingStarved_of_pending,
    exec_pendingStarved_of_none⟩
  case moved =>
    rw [exec_zqMeasure_of_on hcore hrun hen]
    simp only [zqMeasure, Bool.false_eq_true, if_false, zqCodes_zqSide]
  case duty =>
    obtain ⟨hlow, hhigh⟩ := getS_dccField dram lane.val s
    have hup : dccNext s dram lane.val true = getS s f + 1 := rfl
    have hdown : dccNext s dram lane.val false = getS s f - 1 := rfl
    change -32 ≤ getS s f at hlow
    change getS s f ≤ 31 at hhigh
    rw [exec_dccStep_of_on hcore hrun hen]
    refine ⟨?_, ?_, ?_⟩
    · rintro rfl hlt
      rw [dccStep_of_inside hfree (by omega) (by omega), hup]
      rfl
    · rintro rfl hlt
      rw [dccStep_of_inside hfree (by omega) (by omega), hdown]
      rfl
    · rintro (⟨rfl, hend⟩ | ⟨rfl, hend⟩)
      · rw [dccStep_of_end hfree (.inr (by omega))]
      · rw [dccStep_of_end hfree (.inl (by omega))]

end Sys2Proof.Machine

namespace Sys2Proof.Machine

/-! ### What a record store leaves alone (R305, R312) -/

/-- What the write of a record copy leaves as it was: the calibration engines and the stores that wait for their retry. -/
def besideStores (s : State) : Calib × List Retry := (s.cb, s.kp.retry)

theorem besideStores_setF (f : Field) (v : Nat) (s : State) : besideStores (setF f v s) = besideStores s := rfl

theorem besideStores_setReg (a : Nat) (v : Word) (s : State) : besideStores (setReg a v s) = besideStores s := rfl

theorem besideStores_raise (src syn : Nat) (s : State) : besideStores (raise src syn s) = besideStores s := rfl

theorem besideStores_setKeep (k : Nat) (v : BitVec 72) (s : State) : besideStores (setKeep k v s) = besideStores s := rfl

theorem besideStores_keepFlips (lo hi : Nat) (flips : List (Nat × BitVec 72)) (s : State) :
    besideStores (keepFlips lo hi flips s) = besideStores s := by
  refine foldl_keeps besideStores (fun e _ t => ?_) s
  split
  · exact besideStores_setKeep _ _ t
  · rfl

theorem besideStores_putBytes (n k : Nat) (bs : List Byte) (s : State) :
    besideStores (putBytes n k bs s) = besideStores s := by
  induction n generalizing k bs s with
  | zero => rfl
  | succ n ih => rw [putBytes, ih, besideStores_setKeep]

theorem besideStores_keepWrite (a : Nat) (bs : List Byte) (flips : List (Nat × BitVec 72)) (s : State) :
    besideStores (keepWrite a bs flips s) = besideStores s := by
  rw [keepWrite, besideStores_keepFlips, besideStores_putBytes]

theorem besideStores_keepCapture (ue : Bool) (k : Nat) (s : State) :
    besideStores (keepCapture ue k s) = besideStores s := by
  unfold keepCapture
  extract_lets log s1
  have hs1 : besideStores s1 = besideStores s := (besideStores_raise _ _ _).trans (besideStores_setF _ _ s)
  split
  · exact hs1
  · rw [besideStores_setReg, besideStores_setReg, hs1]

/-- A corrected word counts, and makes its record due; no store is tried again for it. -/
theorem besideStores_keepCorrected (k : Nat) (s : State) : besideStores (keepCorrected k s) = besideStores s := by
  rw [keepCorrected]
  dsimp only
  split <;> rfl

theorem besideStores_keepEvent (ue : Bool) (k : Nat) (s : State) : besideStores (keepEvent ue k s) = besideStores s := by
  cases ue with
  | true => exact besideStores_keepCapture true k s
  | false => exact (besideStores_keepCorrected k _).trans (besideStores_keepCapture false k s)

theorem besideStores_keepRead (a n : Nat) (s : State) : besideStores (keepRead a n s).2 = besideStores s := by
  rw [keepRead]
  refine (foldl_keeps besideStores (fun e _ t => ?_) _).trans ?_
  · split
    · exact besideStores_keepEvent true _ t
    · split
      · exact besideStores_keepEvent false _ t
      · rfl
  · split
    · exact besideStores_setF _ _ s
    · rfl

theorem besideStores_crcFail (region index copy : Nat) (write : Bool) (s : State) :
    besideStores (crcFail region index copy write s) = besideStores s := by
  cases write <;> rfl

theorem besideStores_setWear (region n : Nat) (s : State) : besideStores (setWear region n s) = besideStores s := by
  rw [setWear]
  split <;> rfl

theorem besideStores_wearCal (slot : Nat) (s : State) : besideStores (wearCal slot s) = besideStores s :=
  besideStores_setWear _ _ _

theorem besideStores_storeOne (a c : Nat) (bs : List Byte) (ok : List Byte → Bool) (index : Nat)
    (flips : List (Nat × BitVec 72)) (s : State) : besideStores (storeOne a c bs ok index flips s).2 = besideStores s := by
  have hread : besideStores (keepRead a bs.length (keepWrite a bs flips s)).2 = besideStores s := by
    rw [besideStores_keepRead, besideStores_keepWrite]
  rw [storeOne]
  split
  · exact hread
  · exact (besideStores_crcFail _ _ _ _ _).trans hread

theorem besideStores_calStoreCopy (c seq : Nat) (full : Bool) (flips : List (Nat × BitVec 72)) (s : State) :
    besideStores (calStoreCopy c seq full flips s).2 = besideStores s := by
  rw [calStoreCopy, besideStores_storeOne, besideStores_wearCal]

theorem besideStores_calStoreCut (flips : List (Nat × BitVec 72)) (s : State) :
    besideStores (calStoreCut flips s) = besideStores s := by
  rw [calStoreCut, besideStores_setF]
  split
  · rw [besideStores_calStoreCopy, besideStores_calStoreCopy]
    rfl
  · rw [besideStores_calStoreCopy]
    rfl

/-! ### Calibration stores (R201, R485) -/

theorem calStoreStart_of_open {s : State} (hcore : coreOn s = true) (hopen : storeOpen s = true)
    (hidle : flag s Fld.CB_STATUS_STORING = false) (hrate : flag s Fld.CK_STATUS_RS_VALID = true) : calStoreStart s =
    setF Fld.CB_STATUS_STORING 1 { s with cb := { s.cb with storing := true } } :=
  if_pos (by rw [hcore, hopen, hidle, hrate]; rfl)

theorem calStoreStart_of_storing {s : State} (h : flag s Fld.CB_STATUS_STORING = true) : calStoreStart s = s :=
  if_neg (by simp [h])

theorem exec_calStoreNow (s : State) : exec .calStoreNow s = .next (calStoreStart s) := rfl

theorem exec_calStoreAuto (s : State) : exec .calStoreAuto s =
    .next (if (served s || inService s) && flag s Fld.CB_CTRL_AUTO_STORE && storeDue s
        && getF s Fld.CB_STORE_INTERVAL * ticksPerS ≤ ticksSince s.aon s.cb.lastStore
      then calStoreStart s else s) := rfl

theorem exec_calStoreDone (flips : List (Nat × BitVec 72)) (s : State) : exec (.calStoreDone flips) s =
    .next (if !flag s Fld.CB_STATUS_STORING then s
      else if saving s && flag s Fld.CA_STATUS_SAVE_BLOCK then calStoreCut flips s
      else if s.kp.commit.isSome then s
      else calStoreEnd s.kp.calDue flips s) := rfl

/-- There are four rate sets, and their registers lie below CB_STATUS. -/
theorem storing_apart_calValid (s : State) : Fld.CB_STATUS_STORING.Apart (Fld.CK_RS_CAL_VALID.at (rateSet s)) := by
  have hrate : rateSet s < 4 := getF_lt Fld.CK_STATUS_RS_ACTIVE s
  refine ⟨by decide, .inl ?_⟩
  simp only [Field.at, Fld.CB_STATUS_STORING, Fld.CK_RS_CAL_VALID]
  omega

theorem getF_rememberStored (s : State) (f : Field) : getF (rememberStored s) f = getF s f := getF_of_regs rfl f

/-- A store that has run is over, whether its copies were verified or not. -/
theorem storing_calStoreRun (full again : Bool) (flips : List (Nat × BitVec 72)) (s : State) :
    getF (calStoreRun full again flips s) Fld.CB_STATUS_STORING = 0 := by
  have hstored (t : State) : getF (setF Fld.CB_STATUS_STORING 0 t) Fld.CB_STATUS_STORING = 0 :=
    getF_setF_same (by decide) 0 t
  have hfailed (n : Nat) (t : State) : getF (setF Fld.CB_STATUS_LAST_STORE_FAIL n t) Fld.CB_STATUS_STORING =
      getF t Fld.CB_STATUS_STORING := getF_setF_of_apart (by decide) n t
  have hseq (n : Nat) (t : State) : getF (setF Fld.CB_SEQ_SEQ n t) Fld.CB_STATUS_STORING =
      getF t Fld.CB_STATUS_STORING := getF_setF_of_apart (by decide) n t
  unfold calStoreRun
  extract_lets
  split
  · rw [getF_rememberStored, getF_setF_of_apart (storing_apart_calValid s), hseq, hfailed, hstored]
  · split <;> exact (hfailed 1 _).trans (hstored _)

theorem storing_calStoreCut (flips : List (Nat × BitVec 72)) (s : State) :
    getF (calStoreCut flips s) Fld.CB_STATUS_STORING = 0 :=
  getF_setF_same (by decide) 0 _

/-! ### Retries and records stored again (R312, R321) -/

theorem exec_recordStoreRetry_of_none {s : State} (h : s.kp.retry = [] ∨ storeAllowed s = false)
    (flips : List (Nat × BitVec 72)) : exec (.recordStoreRetry flips) s = .next s := by
  refine congrArg Host.Outcome.next ?_
  rcases h with h | h
  · rw [h]
  · split
    · rfl
    · exact if_neg (by simp [h])

theorem exec_keepRecordRewrite_of_none {s : State}
    (h : s.kp.rewrite = [] ∨ served s = false ∨ storeAllowed s = false) (flips : List (Nat × BitVec 72)) :
    exec (.keepRecordRewrite flips) s = .next s := by
  refine congrArg Host.Outcome.next ?_
  rcases h with h | h
  · rw [h]
  · split
    · rfl
    · exact if_neg (by rcases h with h | h <;> simp [h])

/-! ### Retention (R324) -/

/-- The retention used, with its field, before the limit is judged. -/
def retainNoted (n : Nat) (s : State) : State :=
  setF Fld.KP_RETAIN_USED (sat 0xFFFF ((s.kp.retain + n) / retainMille))
    { s with kp := { s.kp with retain := s.kp.retain + n } }

/-- The limit is in the register of the field that is written, apart from it. -/
theorem addRetain_eq (n : Nat) (s : State) : addRetain n s =
    if getF s Fld.KP_RETAIN_LIMIT * retainMille ≤ s.kp.retain + n then
      setF Fld.KP_STATUS_REFRESH_DUE 1 (retainNoted n s) else retainNoted n s := by
  have hlimit : getF (retainNoted n s) Fld.KP_RETAIN_LIMIT = getF s Fld.KP_RETAIN_LIMIT :=
    getF_setF_of_apart (by decide) _ _
  rw [← hlimit]
  rfl

theorem frame_kp (k : Keep) (s : State) : Frame [.kp] [] s { s with kp := k } := by
  refine ⟨fun p hp => ?_, fun _ _ => rfl⟩
  cases p with
  | kp => exact absurd (List.mem_singleton_self _) hp
  | _ => rfl

theorem frame_addRetain (n : Nat) (s : State) :
    Frame [.kp] [Fld.KP_RETAIN_USED.addr, Fld.KP_STATUS_REFRESH_DUE.addr] s (addRetain n s) := by
  have hnoted : Frame [.kp] [Fld.KP_RETAIN_USED.addr, Fld.KP_STATUS_REFRESH_DUE.addr] s (retainNoted n s) :=
    ((frame_kp _ s).trans (frame_setF _ _ _)).mono (by decide) (by decide)
  rw [addRetain_eq]
  exact .ite (hnoted.next ((frame_setF _ _ _).mono (by decide) (by decide))) hnoted

theorem retain_addRetain (n : Nat) (s : State) : (addRetain n s).kp.retain = s.kp.retain + n := by
  rw [addRetain_eq]
  split <;> rfl

theorem sat_le (m v : Nat) : sat m v ≤ m := by
  unfold sat
  split <;> omega

theorem used_addRetain (n : Nat) (s : State) :
    getF (addRetain n s) Fld.KP_RETAIN_USED = sat 0xFFFF ((s.kp.retain + n) / retainMille) := by
  have hfits : sat 0xFFFF ((s.kp.retain + n) / retainMille) < 2 ^ Fld.KP_RETAIN_USED.width :=
    Nat.lt_succ_of_le (sat_le _ _)
  have hnoted : getF (retainNoted n s) Fld.KP_RETAIN_USED = sat 0xFFFF ((s.kp.retain + n) / retainMille) :=
    (getF_setF_same (by decide) _ _).trans (Nat.mod_eq_of_lt hfits)
  rw [addRetain_eq]
  split
  · rw [getF_setF_of_apart (by decide), hnoted]
  · exact hnoted

theorem refreshDue_addRetain_of_reached {n : Nat} {s : State}
    (h : getF s Fld.KP_RETAIN_LIMIT * retainMille ≤ s.kp.retain + n) :
    flag (addRetain n s) Fld.KP_STATUS_REFRESH_DUE = true := by
  rw [addRetain_eq, if_pos h]
  exact flag_setF_one (by decide) (by decide) _

theorem refreshDue_addRetain_of_below {n : Nat} {s : State}
    (h : s.kp.retain + n < getF s Fld.KP_RETAIN_LIMIT * retainMille) :
    flag (addRetain n s) Fld.KP_STATUS_REFRESH_DUE = flag s Fld.KP_STATUS_REFRESH_DUE := by
  rw [addRetain_eq, if_neg (Nat.not_le_of_lt h)]
  exact flag_setF_of_apart (by decide) _ _

theorem exec_keepRetainAccrue (s : State) : exec .keepRetainAccrue s =
    .next (if mgtOn s && (inRun s || inService s) then addRetain (retainMinute (hottest s)) s else s) := rfl

/-! ### Configuration stores (R490) -/

theorem exec_keepConfigStoreDone (flips : List (Nat × BitVec 72)) (s : State) : exec (.keepConfigStoreDone flips) s =
    .next (if mgtOn s then cfgStoreEnd flips s else s) := rfl

theorem cfgStoreEnd_of_none {s : State} (h : s.kp.genNext = none) (flips : List (Nat × BitVec 72)) :
    cfgStoreEnd flips s = s := by
  rw [cfgStoreEnd, h]

/-- Settles O44: each command by its guard; a cut store leaves what no copy's write touches, a minute by its one sum. -/
theorem keepRecordsAreStoredAndKept : Obligations.KeepRecordsAreStoredAndKept := by
  intro s flips r rest g i more
  refine ⟨?begins, ?once, ?manual, ?idle, ?ends, ?cut, fun h => exec_recordStoreRetry_of_none h flips, ?retry,
    fun h => exec_keepRecordRewrite_of_none h flips, ?rewrite, ?accrue, ?elsewhere, ?noConfig, ?config⟩
  case begins =>
    intro hcore hopen hidle hrate
    have hstart := calStoreStart_of_open hcore hopen hidle hrate
    refine ⟨by rw [exec_calStoreNow, hstart], fun hhost hauto hdue hpassed => ?_⟩
    rw [exec_calStoreAuto, if_pos (by simpa [hauto, hdue, hpassed] using hhost), hstart]
  case once =>
    intro hstoring
    have hsame := calStoreStart_of_storing hstoring
    exact ⟨by rw [exec_calStoreNow, hsame], by rw [exec_calStoreAuto, hsame, ite_self]⟩
  case manual =>
    intro hauto
    rw [exec_calStoreAuto, if_neg (by simp [hauto])]
  case idle =>
    intro hidle
    rw [exec_calStoreDone, hidle]
    rfl
  case ends =>
    intro hstoring hsave
    have hwhole : (saving s && flag s Fld.CA_STATUS_SAVE_BLOCK) = false := by
      rcases hsave with h | h <;> simp [h]
    refine ⟨fun hcommit => ?_, fun hcommit => ⟨?_, storing_calStoreRun _ _ _ _⟩⟩ <;>
      · rw [exec_calStoreDone, hstoring, hwhole, hcommit]
        rfl
  case cut =>
    intro hstoring hsaving hblock
    have hleft := besideStores_calStoreCut flips s
    refine ⟨?_, storing_calStoreCut flips s, congrArg Prod.snd hleft, congrArg Prod.fst hleft⟩
    rw [exec_calStoreDone, hstoring, hsaving, hblock]
    rfl
  case retry =>
    intro hretry hallowed
    refine congrArg Host.Outcome.next ?_
    rw [hretry]
    exact if_pos hallowed
  case rewrite =>
    intro hrewrite hserved hallowed
    refine congrArg Host.Outcome.next ?_
    rw [hrewrite]
    exact if_pos (by rw [hserved, hallowed]; rfl)
  case accrue =>
    intro hmgt hmode
    refine ⟨_, by rw [exec_keepRetainAccrue, if_pos (by simpa [hmgt] using hmode)], retain_addRetain _ s,
      used_addRetain _ s, refreshDue_addRetain_of_reached, refreshDue_addRetain_of_below, frame_addRetain _ s⟩
  case elsewhere =>
    intro hrun hservice
    rw [exec_keepRetainAccrue, if_neg (by simp [hrun, hservice])]
  case noConfig =>
    intro hnone
    rw [exec_keepConfigStoreDone, cfgStoreEnd_of_none hnone, ite_self]
  case config =>
    intro hmgt
    rw [exec_keepConfigStoreDone, if_pos hmgt]

end Sys2Proof.Machine

namespace Sys2Proof.Machine

/-! ### Reading through a frame, and single bits -/

/-- A field of a register outside the homes of a frame reads as before. -/
theorem Frame.getF_eq {ps : List Part} {as : List Nat} {s t : State} (h : Frame ps as s t) {f : Field}
    (hf : f.addr ∉ as) : getF t f = getF s f := by
  rw [getF, getF, h.2 _ hf]

theorem Frame.flag_eq {ps : List Part} {as : List Nat} {s t : State} (h : Frame ps as s t) {f : Field}
    (hf : f.addr ∉ as) : flag t f = flag s f :=
  flag_eq_of_getF (h.getF_eq hf)

theorem frame_setBitF (f : Field) (i : Nat) (b : Bool) (s : State) : Frame [] [f.addr] s (setBitF f i b s) :=
  frame_setF f _ s

theorem frame_incF (f : Field) (s : State) : Frame [] [f.addr] s (incF f s) := frame_setF f _ s

theorem testBit_sub_own_bit (v i : Nat) : (v - (if v.testBit i then 1 <<< i else 0)).testBit i = false := by
  by_cases h : v.testBit i = true
  · have hdiv : (v - 2 ^ i) / 2 ^ i = v / 2 ^ i - 1 := by simpa using Nat.sub_mul_div v (2 ^ i) 1
    rw [if_pos h, Nat.one_shiftLeft, Nat.testBit_eq_decide_div_mod_eq, hdiv]
    rw [Nat.testBit_eq_decide_div_mod_eq, decide_eq_true_iff] at h
    exact decide_eq_false (by omega)
  · rw [if_neg h, Nat.sub_zero, Bool.eq_false_iff.mpr h]

theorem bitF_setBitF_same {f : Field} (hf : f.Named) {i : Nat} (hi : i < f.width) (b : Bool) (s : State) :
    bitF (setBitF f i b s) f i = b := by
  rw [bitF, setBitF, getF_setF_same hf, Nat.testBit_mod_two_pow, decide_eq_true hi, Bool.true_and]
  cases b with
  | true => simp [Nat.testBit_or, Nat.one_shiftLeft]
  | false => exact testBit_sub_own_bit _ i

theorem bitF_setBitF_of_apart {f g : Field} (h : g.Apart f) (i j : Nat) (b : Bool) (s : State) :
    bitF (setBitF f i b s) g j = bitF s g j := by
  rw [bitF, setBitF, getF_setF_of_apart h, bitF]

/-! ### A host-side trial ends (R211, R215) -/

theorem consoleFrame_settleEngines (s : State) : ConsoleFrame s (settleEngines s) :=
  Frame.foldl (fun t _ => .ite (consoleFrame_completeTokens _ _ t) (.refl _ _ t)) _ s

theorem frame_endHost (n : Nat) (s : State) : Frame [.cb, .con] [Fld.CN_STAT2_EVLOST.addr] s (endHost n s) :=
  (frame_cb _ s).trans (consoleFrame_settleEngines _)

/-- Of the calibration state an end takes the trial only; the completion lines leave it. -/
theorem endHost_cb (n : Nat) (s : State) :
    (endHost n s).cb = { s.cb with hosts := s.cb.hosts.filter (fun e => e.1 ≠ n) } :=
  (consoleFrame_settleEngines _).1 .cb (by decide)

theorem endHost_dl (n : Nat) (s : State) : (endHost n s).dl = s.dl := (frame_endHost n s).1 .dl (by decide)

/-! ### Evaluations start (R207) -/

theorem hostScan_putScan_same (n : Nat) (x : Scan) (s : State) : hostScan (putScan n x s) n = some x := by
  simp [hostScan, putScan]

theorem hostScan_putScan_other {n k : Nat} (h : k ≠ n) (x : Scan) (s : State) :
    hostScan (putScan n x s) k = hostScan s k := by
  have hentry : (fun e : Nat × Scan => decide (decide (e.1 ≠ n) = true ∧ decide (e.1 = k) = true)) =
      fun e => decide (e.1 = k) := by
    funext e
    by_cases he : e.1 = k <;> simp [he, h]
  rw [hostScan, putScan, List.find?_cons_of_neg (by simpa using h.symm), List.find?_filter, hentry, hostScan]

theorem hostRuns_eq_isSome (s : State) (n : Nat) : hostRuns s n = (hostScan s n).isSome := by
  rw [Bool.eq_iff_iff]
  simp [hostRuns, hostScan, List.find?_isSome]

/-- The trial that starts on a lane, under the limits of now (R203). -/
def newScan (n : Nat) (s : State) : Scan :=
  ⟨limNow s, repNow s, n < 5 && bitF s Fld.CB_HSTAT_ACQ n, noScans (if n = 5 then 19 else 8)⟩

/-- A trial that still runs on a lane is counted as abandoned. -/
def countAbandoned (n : Nat) (s : State) : State := if hostRuns s n then incF Fld.CB_HABN_COUNT s else s

theorem startHost_of_free {n : Nat} {s : State} (h : hostLaneFree s n = true) :
    startHost n s = putScan n (newScan n (countAbandoned n s)) (countAbandoned n s) := if_pos h

theorem startHost_of_paused {n : Nat} {s : State} (h : hostLaneFree s n = false) : startHost n s = s :=
  if_neg (Bool.eq_false_iff.mp h)

theorem frame_countAbandoned (n : Nat) (s : State) : Frame [] [Fld.CB_HABN_COUNT.addr] s (countAbandoned n s) :=
  .ite (frame_incF Fld.CB_HABN_COUNT s) (.refl _ _ s)

theorem countAbandoned_cb (n : Nat) (s : State) : (countAbandoned n s).cb = s.cb :=
  (frame_countAbandoned n s).1 .cb List.not_mem_nil

theorem hostScan_countAbandoned (n k : Nat) (s : State) : hostScan (countAbandoned n s) k = hostScan s k := by
  rw [hostScan, countAbandoned_cb, hostScan]

theorem frame_startHost (n : Nat) (s : State) : Frame [.cb] [Fld.CB_HABN_COUNT.addr] s (startHost n s) :=
  .ite ((frame_countAbandoned n s).trans (frame_cb _ _)) (.refl _ _ s)

theorem startHost_held (n : Nat) (s : State) : (startHost n s).cb.held = s.cb.held := by
  cases h : hostLaneFree s n with
  | true =>
    rw [startHost_of_free h, ← countAbandoned_cb n s]
    rfl
  | false => rw [startHost_of_paused h]

theorem limNow_startHost (n : Nat) (s : State) : limNow (startHost n s) = limNow s :=
  (frame_startHost n s).2 _ (by decide)

theorem repNow_startHost (n : Nat) (s : State) : repNow (startHost n s) = repNow s :=
  (frame_startHost n s).2 _ (by decide)

theorem hostEngines_startHost (n : Nat) (s : State) : hostEngines (startHost n s) = hostEngines s := by
  have hframe := frame_startHost n s
  have hpins : (startHost n s).pins = s.pins := hframe.1 .pins (by decide)
  have hdl : (startHost n s).dl = s.dl := hframe.1 .dl (by decide)
  have hmode : mode (startHost n s) = mode s := hframe.getF_eq (f := Fld.PM_MODE_MODE) (by decide)
  have hsub : sub (startHost n s) = sub s := hframe.getF_eq (f := Fld.PM_MODE_SUB) (by decide)
  have hparked : parked (startHost n s) = parked s := hframe.flag_eq (f := Fld.CK_STATUS_PARKED) (by decide)
  have hblock := hframe.flag_eq (f := Fld.CA_STATUS_SAVE_BLOCK) (by decide)
  simp only [hostEngines, served, inRun, hpins, hdl, hmode, hsub, hparked, hblock]

theorem pauseHolds_startHost (n k : Nat) (s : State) : pauseHolds (startHost n s) k = pauseHolds s k := by
  have hframe := frame_startHost n s
  have hdl : (startHost n s).dl = s.dl := hframe.1 .dl (by decide)
  have hhost := hframe.flag_eq (f := Fld.CB_CTRL_HOST_EN) (by decide)
  have hca := hframe.flag_eq (f := Fld.CB_HPOL_CA_EN) (by decide)
  have hlane := hframe.flag_eq (f := Fld.HL_CTRL_CAL_HOLD.lane k) (by
    simp only [Field.lane, Fld.HL_CTRL_CAL_HOLD, Fld.CB_HABN_COUNT, List.mem_singleton]
    omega)
  simp only [pauseHolds, allPaused, hdl, hhost, hca, hlane]

/-- Nothing that frees or pauses a lane lies in the trials or in CB_HABN (R204, R215). -/
theorem hostLaneFree_startHost (n k : Nat) (s : State) : hostLaneFree (startHost n s) k = hostLaneFree s k := by
  simp only [hostLaneFree, lanePaused, hostEngines_startHost, pauseHolds_startHost, startHost_held]

/-- A trial runs on the lane, and it took these limits when it started. -/
def RunsUnder (lim rep : Word) (k : Nat) (s : State) : Prop := ∃ y, hostScan s k = some y ∧ y.lim = lim ∧ y.rep = rep

theorem hostScan_startHost_other {n k : Nat} (h : k ≠ n) (s : State) : hostScan (startHost n s) k = hostScan s k := by
  cases hfree : hostLaneFree s n with
  | true => rw [startHost_of_free hfree, hostScan_putScan_other h, hostScan_countAbandoned]
  | false => rw [startHost_of_paused hfree]

theorem runsUnder_startHost_same {n : Nat} {s : State} (h : hostLaneFree s n = true) :
    RunsUnder (limNow s) (repNow s) n (startHost n s) := by
  have hframe := frame_countAbandoned n s
  rw [startHost_of_free h]
  exact ⟨_, hostScan_putScan_same _ _ _, hframe.2 _ (by decide), hframe.2 _ (by decide)⟩

theorem hostRuns_startHost (n k : Nat) (s : State) :
    hostRuns (startHost n s) k = (hostRuns s k || (decide (k = n) && hostLaneFree s n)) := by
  by_cases hk : k = n
  · subst hk
    cases hfree : hostLaneFree s k with
    | true =>
      obtain ⟨y, hy, -⟩ := runsUnder_startHost_same hfree
      simp [hostRuns_eq_isSome, hy]
    | false => simp [startHost_of_paused hfree]
  · simp [hostRuns_eq_isSome, hostScan_startHost_other hk, hk]

/-- A later start leaves a trial under the limits of now, on the same lane by replacing it. -/
theorem runsUnder_startHost {lim rep : Word} {k : Nat} {s : State} (hlim : limNow s = lim) (hrep : repNow s = rep)
    (h : RunsUnder lim rep k s) (n : Nat) : RunsUnder lim rep k (startHost n s) := by
  by_cases hk : k = n
  · subst hk hlim hrep
    cases hfree : hostLaneFree s k with
    | true => exact runsUnder_startHost_same hfree
    | false => rwa [startHost_of_paused hfree]
  · rwa [RunsUnder, hostScan_startHost_other hk]

/-- A period of R207 starts an evaluation on each lane of a list that may run one. -/
def startHosts (l : List Nat) (s : State) : State := l.foldl (fun t n => startHost n t) s

theorem frame_startHosts (l : List Nat) (s : State) : Frame [.cb] [Fld.CB_HABN_COUNT.addr] s (startHosts l s) :=
  Frame.foldl (fun t n => frame_startHost n t) l s

theorem hostRuns_startHosts (l : List Nat) (k : Nat) (s : State) :
    hostRuns (startHosts l s) k = (hostRuns s k || (decide (k ∈ l) && hostLaneFree s k)) := by
  induction l generalizing s with
  | nil => simp [startHosts]
  | cons n l ih =>
    have hfirst : startHosts (n :: l) s = startHosts l (startHost n s) := rfl
    rw [hfirst, ih, hostRuns_startHost, hostLaneFree_startHost]
    by_cases hk : k = n
    · subst hk
      cases hostLaneFree s k <;> simp
    · simp [hk]

theorem runsUnder_startHosts_of_runs {lim rep : Word} {k : Nat} (l : List Nat) {s : State} (hlim : limNow s = lim)
    (hrep : repNow s = rep) (h : RunsUnder lim rep k s) : RunsUnder lim rep k (startHosts l s) := by
  induction l generalizing s with
  | nil => exact h
  | cons n l ih =>
    exact ih ((limNow_startHost n s).trans hlim) ((repNow_startHost n s).trans hrep) (runsUnder_startHost hlim hrep h n)

theorem runsUnder_startHosts_of_free {k : Nat} {l : List Nat} {s : State} (hk : k ∈ l) (h : hostLaneFree s k = true) :
    RunsUnder (limNow s) (repNow s) k (startHosts l s) := by
  induction l generalizing s with
  | nil => exact absurd hk List.not_mem_nil
  | cons n l ih =>
    have hlim := limNow_startHost n s
    have hrep := repNow_startHost n s
    rcases List.mem_cons.mp hk with rfl | hl
    · exact runsUnder_startHosts_of_runs l hlim hrep (runsUnder_startHost_same h)
    · rw [← hlim, ← hrep]
      exact ih hl ((hostLaneFree_startHost n k s).trans h)

theorem exec_hostEvalStart (s : State) : exec .hostEvalStart s = .next (startHosts (List.range 6) s) := rfl

/-! ### A lane's trial (R208 to R212) -/

theorem exec_hostTrialDone (lane : HLane) (s : State) :
    exec (.hostTrialDone lane) s = .next (hostTrial lane.val s) := rfl

theorem hostTrial_of_none {n : Nat} {s : State} (h : hostScan s n = none) : hostTrial n s = s := by
  rw [hostTrial, h]

theorem hostTrial_of_running {n : Nat} {s : State} {x : Scan} (h : hostScan s n = some x) (hrun : hostDone x = false) :
    hostTrial n s = s := by
  rw [hostTrial, h]
  exact if_pos (by rw [hrun]; rfl)

/-- The reason of the first test that a lane's complete trial fails; an acquisition has no step tests (R211). -/
def hostReason (s : State) (n : Nat) (x : Scan) : Nat :=
  acceptReason x.lim ⟨true, knownScope s (scopeHost n) && !x.acq, knownScope s (scopeHost n) && !x.acq⟩ (hostTrialOf x)
    (trialResult (hostTrialOf x)) (codesInRange (hostCodes s n (trialResult (hostTrialOf x))))

theorem hostTrial_of_done {n : Nat} {s : State} {x : Scan} (h : hostScan s n = some x) (hdone : hostDone x = true) :
    hostTrial n s = if hostReason s n x = 0
      then acceptHost n (hostCodes s n (trialResult (hostTrialOf x))) (trialResult (hostTrialOf x)) (endHost n s)
      else setBitF Fld.CB_HSTAT_LAST_ACC n false (countReject n
        (rejectTrial 11 0 (hostReason s n x) 0 0 n (trialResult (hostTrialOf x)) (endHost n s))) := by
  rw [hostTrial, h]
  exact if_neg (by rw [hdone]; decide)

theorem frame_pendHost (n : Nat) (c : NewCodes) (s : State) : Frame [.cb] [] s (pendHost n c s) := by
  rw [pendHost]
  have hlane := (frame_pendF (hostRxDqs n) c.dqs s).next (frame_pendF (hostVref n) c.vref _)
  refine hlane.next (Frame.foldl (fun t i => ?_) _ _)
  exact (frame_pendF (hostDeskew n i) _ t).next (frame_pendF _ _ _)

@[simp] theorem markFresh_regs (k : Nat) (s : State) : (markFresh k s).regs = s.regs := rfl
@[simp] theorem markFresh_dl (k : Nat) (s : State) : (markFresh k s).dl = s.dl := rfl
@[simp] theorem setQuality_regs (key : Nat → Nat) (ws hs : List Nat) (s : State) :
    (setQuality key ws hs s).regs = s.regs := rfl
@[simp] theorem setQuality_dl (key : Nat → Nat) (ws hs : List Nat) (s : State) :
    (setQuality key ws hs s).dl = s.dl := rfl
@[simp] theorem countEval_regs (s : State) : (countEval s).regs = s.regs := rfl

theorem mem_fresh_markFresh (k : Nat) (s : State) : k ∈ (markFresh k s).cb.fresh := List.mem_cons_self

theorem markFresh_rejects (k : Nat) (s : State) : (markFresh k s).cb.rejects = s.cb.rejects := rfl

theorem setQuality_rejects (key : Nat → Nat) (ws hs : List Nat) (s : State) :
    (setQuality key ws hs s).cb.rejects = s.cb.rejects := rfl

theorem countEval_rejects (s : State) : (countEval s).cb.rejects = s.cb.rejects := rfl

theorem evals_countEval (s : State) : (countEval s).dl.evals = sat 255 (s.dl.evals + 1) := rfl

/-- A lane's count of consecutive rejections starts again (R211). -/
def clearRejects (n : Nat) (s : State) : State :=
  { s with cb := { s.cb with rejects := smSet (zeroDefault 8) s.cb.rejects n 0 } }

theorem clearRejects_rejects (n : Nat) (s : State) :
    (clearRejects n s).cb.rejects = smSet (zeroDefault 8) s.cb.rejects n 0 := rfl

/-- What CB_CNT and CB_HSTAT show once a lane's trial is accepted, with its codes pending. -/
def acceptShown (n : Nat) (c : NewCodes) (s : State) : State :=
  setBitF Fld.CB_HSTAT_LAST_ACC n true (setBitF Fld.CB_HSTAT_STALE n false
    (setBitF Fld.CB_HSTAT_ACQ n false (incF (Fld.CB_CNT_ACC.bank (cntBank 0 0 n)) (pendHost n c s))))

theorem frame_acceptShown (n : Nat) (c : NewCodes) (s : State) : Frame [.cb]
    [(Fld.CB_CNT_ACC.bank (cntBank 0 0 n)).addr, Fld.CB_HSTAT_LAST_ACC.addr] s (acceptShown n c s) := by
  have hcount := (frame_pendHost n c s).trans (frame_incF (Fld.CB_CNT_ACC.bank (cntBank 0 0 n)) _)
  have hacq := hcount.trans (frame_setBitF Fld.CB_HSTAT_ACQ n false _)
  have hstale := hacq.trans (frame_setBitF Fld.CB_HSTAT_STALE n false _)
  exact (hstale.trans (frame_setBitF Fld.CB_HSTAT_LAST_ACC n true _)).mono (by simp)
    (by simp [Fld.CB_HSTAT_ACQ, Fld.CB_HSTAT_STALE, Fld.CB_HSTAT_LAST_ACC])

theorem acceptHost_eq (n : Nat) (c : NewCodes) (r : TrialResult) (s : State) : acceptHost n c r s =
    markFresh (scopeHost n) (setQuality (qHost n) r.ws r.hs (countEval (clearRejects n (acceptShown n c s)))) := by
  rw [acceptHost, clearRejects, acceptShown]

theorem acceptHost_regs (n : Nat) (c : NewCodes) (r : TrialResult) (s : State) :
    (acceptHost n c r s).regs = (acceptShown n c s).regs := by
  rw [acceptHost_eq, markFresh_regs, setQuality_regs, countEval_regs, clearRejects]

theorem bitF_acceptHost (n : Nat) (c : NewCodes) (r : TrialResult) (s : State) (f : Field) (i : Nat) :
    bitF (acceptHost n c r s) f i = bitF (acceptShown n c s) f i := by
  rw [bitF, getF_of_regs (acceptHost_regs n c r s), bitF]

section

variable {n : Nat} (hn : n < 5) (c : NewCodes) (r : TrialResult) (s : State)
include hn

theorem stale_acceptHost : bitF (acceptHost n c r s) Fld.CB_HSTAT_STALE n = false := by
  rw [bitF_acceptHost, acceptShown, bitF_setBitF_of_apart (by decide)]
  exact bitF_setBitF_same (by decide) hn _ _

theorem acq_acceptHost : bitF (acceptHost n c r s) Fld.CB_HSTAT_ACQ n = false := by
  rw [bitF_acceptHost, acceptShown, bitF_setBitF_of_apart (by decide), bitF_setBitF_of_apart (by decide)]
  exact bitF_setBitF_same (by decide) hn _ _

theorem lastAcc_acceptHost : bitF (acceptHost n c r s) Fld.CB_HSTAT_LAST_ACC n = true := by
  rw [bitF_acceptHost, acceptShown]
  exact bitF_setBitF_same (by decide) hn _ _

end

theorem fresh_acceptHost (n : Nat) (c : NewCodes) (r : TrialResult) (s : State) :
    scopeHost n ∈ (acceptHost n c r s).cb.fresh := by
  rw [acceptHost_eq]
  exact mem_fresh_markFresh _ _

theorem rejects_acceptHost (n : Nat) (c : NewCodes) (r : TrialResult) (s : State) :
    smGet (zeroDefault 8) (acceptHost n c r s).cb.rejects n = 0 := by
  rw [acceptHost_eq, markFresh_rejects, setQuality_rejects, countEval_rejects, clearRejects_rejects, smGet_smSet_same]

/-- The codes wait: the lane's Vref in force is the old one (R208). -/
theorem vref_acceptHost (n : Nat) (c : NewCodes) (r : TrialResult) (s : State) :
    getF (acceptHost n c r s) (hostVref n) = getF s (hostVref n) := by
  rw [getF_of_regs (acceptHost_regs n c r s)]
  refine (frame_acceptShown n c s).getF_eq ?_
  simp only [hostVref, Field.lane, Field.bank, cntBank, Fld.HL_VREF_VREF, Fld.CB_CNT_ACC, Fld.CB_HSTAT_LAST_ACC,
    List.mem_cons, List.not_mem_nil, or_false, not_or]
  omega

theorem evals_acceptHost (n : Nat) (c : NewCodes) (r : TrialResult) (s : State) :
    (acceptHost n c r s).dl.evals = sat 255 (s.dl.evals + 1) := by
  have hdl : (acceptShown n c s).dl = s.dl := (frame_acceptShown n c s).1 .dl (by decide)
  rw [acceptHost_eq, markFresh_dl, setQuality_dl, evals_countEval, clearRejects, hdl]

/-! ### The C/A trial (R213, R214) -/

theorem exec_caTrialDone (s : State) : exec .caTrialDone s = .next (caTrial s) := rfl

theorem caTrial_of_none {s : State} (h : hostScan s 5 = none) : caTrial s = s := by
  rw [caTrial, h]

theorem caTrial_of_running {s : State} {x : Scan} (h : hostScan s 5 = some x) (hrun : hostDone x = false) :
    caTrial s = s := by
  rw [caTrial, h]
  exact if_pos (by rw [hrun]; rfl)

/-- The receive Vref that a C/A trial leads to. -/
def caCode (s : State) (x : Scan) : Int := getF s Fld.CB_CAV_VREF + (trialResult (hostTrialOf x)).vmove

/-- The reason of the first test that a complete C/A trial fails; it has no timing step test. -/
def caReason (s : State) (x : Scan) : Nat :=
  acceptReason x.lim ⟨true, false, knownScope s scopeCa⟩ (hostTrialOf x) (trialResult (hostTrialOf x))
    (0 ≤ caCode s x && caCode s x ≤ 255)

/-- The worst pin of a C/A trial, by grade and width (R191). -/
def caPin (s : State) (x : Scan) : Nat := worstTrial s (trialResult (hostTrialOf x))

/-- The width of the worst pin. -/
def caWidth (s : State) (x : Scan) : Nat := (trialResult (hostTrialOf x)).ws.getD (caPin s x) 0

/-- The height of the worst pin. -/
def caHeight (s : State) (x : Scan) : Nat := (trialResult (hostTrialOf x)).hs.getD (caPin s x) 0

/-- CB_CAQ after a C/A trial has reached its tests. -/
def caWord (s : State) (x : Scan) : Nat :=
  2 ^ 31 + b2n (caReason s x ≠ 0) * 2 ^ 30 + caPin s x * 2 ^ 24 + grade s (caWidth s x) (caHeight s x) * 2 ^ 16
    + sat 255 (caHeight s x) * 2 ^ 8 + sat 255 (caWidth s x)

/-- The C/A trial ends and CB_CAQ reports its worst pin. -/
def caNoted (s : State) (x : Scan) : State :=
  setReg Fld.CB_CAQ_VALID.addr (BitVec.ofNat 32 (caWord s x)) (endHost 5 s)

/-- What CB_CNT and CB_HSTAT show once a C/A trial is accepted, with its Vref pending. -/
def caShown (v : Int) (t : State) : State :=
  setF Fld.CB_HSTAT_CA_ACC 1 (setF Fld.CB_HSTAT_CA_STALE 0
    (incF (Fld.CB_CNT_ACC.bank (cntBank 0 0 5)) (pendF Fld.CB_CAV_VREF v t)))

/-- A C/A trial is accepted: its Vref waits for the idle boundary. -/
def caAccept (v : Int) (t : State) : State := countEval (markFresh scopeCa (caShown v t))

/-- A C/A trial is rejected: counted, captured with lane 5 and bit 0, raised as FS 11. -/
def caReject (why w h : Nat) (move vmove : Int) (t : State) : State :=
  setF Fld.CB_HSTAT_CA_ACC 0 (rejectWith 11 0 why 0 0 5 0 w h move vmove
    (incF (Fld.CB_CNT_REJ.bank (cntBank 0 0 5)) t))

theorem caTrial_of_done {s : State} {x : Scan} (h : hostScan s 5 = some x) (hdone : hostDone x = true) :
    caTrial s = if caReason s x = 0 then caAccept (caCode s x) (caNoted s x)
      else caReject (caReason s x) (caWidth s x) (caHeight s x)
        ((trialResult (hostTrialOf x)).moves.getD (caPin s x) 0) (trialResult (hostTrialOf x)).vmove (caNoted s x) := by
  have hran : ¬ (!hostDone x) = true := by rw [hdone]; decide
  rw [caTrial, h]
  simp only [if_neg hran]
  rw [caReason, caCode, caNoted, caAccept, caShown, caReject]
  rfl

theorem worstOf_lt {f : Nat → Nat × Nat} {l : List Nat} {m : Nat} (hm : 0 < m) (hl : ∀ i ∈ l, i < m) :
    worstOf f l < m := by
  cases l with
  | nil => exact hm
  | cons i t =>
    obtain ⟨hi, ht⟩ := List.forall_mem_cons.mp hl
    refine List.foldlRecOn (motive := fun b => b < m) t _ hi (fun b hb j hj => ?_)
    split
    · exact ht j hj
    · exact hb

/-- Each of the 19 pins has figures, so that the worst is one of them. -/
theorem caPin_lt {x : Scan} (hlen : x.bits.length = 19) (s : State) : caPin s x < 19 := by
  refine worstOf_lt (by decide) (fun i hi => ?_)
  simpa [trialResult, hostTrialOf, trialOf, hlen] using hi

/-- A choice of two numbers stays within the bound of both. -/
theorem ite_le_bound {c : Prop} [Decidable c] {a b m : Nat} (ha : a ≤ m) (hb : b ≤ m) : (if c then a else b) ≤ m := by
  split
  · exact ha
  · exact hb

theorem grade_le_three (s : State) (w h : Nat) : grade s w h ≤ 3 := by
  rw [grade]
  exact ite_le_bound (by decide) (ite_le_bound (by decide) (ite_le_bound (by decide) (by decide)))

/-- The pin and its figures stay below the upper bits of CB_CAQ. -/
theorem caWord_bounds {x : Scan} (hlen : x.bits.length = 19) (s : State) :
    2 ^ 31 ≤ caWord s x ∧ caWord s x < 2 ^ 32 := by
  have hpin := caPin_lt hlen s
  have hgrade := grade_le_three s (caWidth s x) (caHeight s x)
  have hrejected : b2n (caReason s x ≠ 0) ≤ 1 := by unfold b2n; split <;> decide
  have hh : sat 255 (caHeight s x) ≤ 255 := sat_le _ _
  have hw : sat 255 (caWidth s x) ≤ 255 := sat_le _ _
  unfold caWord
  omega

/-- A register written with its top bit set shows that bit. -/
theorem flag_top_setReg {f : Field} (hf : f.Named) (hhi : f.hi = 31) (hlo : f.lo = 31) {v : Nat} (hlow : 2 ^ 31 ≤ v)
    (hhigh : v < 2 ^ 32) (s : State) : flag (setReg f.addr (BitVec.ofNat 32 v) s) f = true := by
  have htop : natBits (BitVec.ofNat 32 v).toNat 31 31 = 1 := by
    simp only [natBits, BitVec.toNat_ofNat, Nat.shiftRight_eq_div_pow]
    omega
  rw [flag, getF_setReg_same hf, hhi, hlo, htop]
  rfl

theorem caqValid_caNoted {x : Scan} (hlen : x.bits.length = 19) (s : State) :
    flag (caNoted s x) Fld.CB_CAQ_VALID = true :=
  have ⟨hlow, hhigh⟩ := caWord_bounds hlen s
  flag_top_setReg (by decide) rfl rfl hlow hhigh _

theorem frame_caNoted (s : State) (x : Scan) :
    Frame [.cb, .con] [Fld.CN_STAT2_EVLOST.addr, Fld.CB_CAQ_VALID.addr] s (caNoted s x) :=
  (frame_endHost 5 s).trans (frame_setReg _ _ _)

theorem frame_caShown (v : Int) (t : State) :
    Frame [.cb] [(Fld.CB_CNT_ACC.bank (cntBank 0 0 5)).addr, Fld.CB_HSTAT_CA_ACC.addr] t (caShown v t) := by
  have hcount := (frame_pendF Fld.CB_CAV_VREF v t).trans (frame_incF (Fld.CB_CNT_ACC.bank (cntBank 0 0 5)) _)
  have hstale := hcount.trans (frame_setF Fld.CB_HSTAT_CA_STALE 0 _)
  exact (hstale.trans (frame_setF Fld.CB_HSTAT_CA_ACC 1 _)).mono (by decide) (by decide)

theorem frame_caAccept (v : Int) (t : State) :
    Frame [.cb, .dl] [(Fld.CB_CNT_ACC.bank (cntBank 0 0 5)).addr, Fld.CB_HSTAT_CA_ACC.addr] t (caAccept v t) :=
  (((frame_caShown v t).trans (frame_cb _ _)).trans (frame_dl _ _)).mono (by decide) (by decide)

theorem caAccept_regs (v : Int) (t : State) : (caAccept v t).regs = (caShown v t).regs := by
  rw [caAccept, countEval_regs, markFresh_regs]

theorem frame_rejectWith (src top reason side r lane bit w h : Nat) (move vmove : Int) (s : State) :
    Frame [.fc] [Fld.CB_RLOG_VALID.addr] s (rejectWith src top reason side r lane bit w h move vmove s) := by
  have hlog (v : Word) : Frame [] [Fld.CB_RLOG_VALID.addr] s
      (if flag s Fld.CB_RLOG_VALID then s else setReg Fld.CB_RLOG_VALID.addr v s) :=
    .ite (.refl _ _ s) (frame_setReg _ v s)
  exact (hlog _).trans (frame_raise _ _ _)

theorem frame_caReject (why w h : Nat) (move vmove : Int) (t : State) : Frame [.fc]
    [(Fld.CB_CNT_REJ.bank (cntBank 0 0 5)).addr, Fld.CB_RLOG_VALID.addr, Fld.CB_HSTAT_CA_ACC.addr] t
    (caReject why w h move vmove t) :=
  ((frame_incF (Fld.CB_CNT_REJ.bank (cntBank 0 0 5)) t).trans (frame_rejectWith ..)).trans
    (frame_setF Fld.CB_HSTAT_CA_ACC 0 _)

theorem acceptReason_le_seven (lim : Word) (ts : TestSet) (t : Trial) (r : TrialResult) (inRange : Bool) :
    acceptReason lim ts t r inRange ≤ 7 := by
  have hrange : (if (!inRange) = true then 6 else 0) ≤ 7 := ite_le_bound (by decide) (by decide)
  rw [acceptReason]
  exact ite_le_bound (by decide) (ite_le_bound (by decide) (ite_le_bound (by decide) (ite_le_bound (by decide)
    (ite_le_bound (by decide) hrange))))

/-- After a rejection a capture stands: the new one, or the one before it (R194). -/
theorem rlogValid_rejectWith {src top reason side r lane bit w h : Nat} {move vmove : Int}
    (hlog : reason * 2 ^ 24 + side * 2 ^ 16 + r * 2 ^ 12 + lane * 2 ^ 8 + bit < 2 ^ 31) (s : State) :
    flag (rejectWith src top reason side r lane bit w h move vmove s) Fld.CB_RLOG_VALID = true := by
  rw [rejectWith, flag_of_reg (reg_raise _)]
  split
  · assumption
  · exact flag_top_setReg (by decide) rfl rfl (by omega) (by omega) _

section

variable (v : Int) (t : State)

theorem flag_caAccept (f : Field) : flag (caAccept v t) f = flag (caShown v t) f :=
  flag_eq_of_getF (getF_of_regs (caAccept_regs v t) f)

theorem caAcc_caAccept : flag (caAccept v t) Fld.CB_HSTAT_CA_ACC = true := by
  rw [flag_caAccept, caShown]
  exact flag_setF_one (by decide) (by decide) _

theorem caStale_caAccept : flag (caAccept v t) Fld.CB_HSTAT_CA_STALE = false := by
  rw [flag_caAccept, caShown, flag_setF_of_apart (by decide), flag_setF_same (by decide)]
  rfl

theorem fresh_caAccept : scopeCa ∈ (caAccept v t).cb.fresh := by
  rw [caAccept]
  exact mem_fresh_markFresh _ _

theorem evals_caAccept : (caAccept v t).dl.evals = sat 255 (t.dl.evals + 1) := by
  have hdl : (caShown v t).dl = t.dl := (frame_caShown v t).1 .dl (by decide)
  rw [caAccept, evals_countEval, markFresh_dl, hdl]

end

section

variable {why : Nat} (w h : Nat) (move vmove : Int) (t : State)

theorem caAcc_caReject : flag (caReject why w h move vmove t) Fld.CB_HSTAT_CA_ACC = false := by
  rw [caReject, flag_setF_same (by decide)]
  rfl

theorem rlogValid_caReject (hwhy : why ≤ 7) : flag (caReject why w h move vmove t) Fld.CB_RLOG_VALID = true := by
  rw [caReject, flag_setF_of_apart (by decide)]
  exact rlogValid_rejectWith (by omega) _

theorem events_caReject :
    ∃ syn, (caReject why w h move vmove t).fc.events = addEvents t.fc.events 11 1 syn :=
  ⟨_, by rw [caReject, setF_fc, events_rejectWith, incF_fc]⟩

end

theorem caReason_le_seven (s : State) (x : Scan) : caReason s x ≤ 7 := by
  rw [caReason]
  exact acceptReason_le_seven ..

theorem caNoted_fc (s : State) (x : Scan) : (caNoted s x).fc = (endHost 5 s).fc := by
  rw [caNoted, setReg_fc]

theorem caNoted_pend (s : State) (x : Scan) : (caNoted s x).cb.pend = s.cb.pend := by
  rw [caNoted, setReg_cb, endHost_cb]

theorem caNoted_dl (s : State) (x : Scan) : (caNoted s x).dl = s.dl := (frame_caNoted s x).1 .dl (by decide)

/-- Either outcome of a C/A trial leaves CB_CAQ valid and the Vref in force as it was (R214). -/
theorem caTrial_shown {s : State} {x : Scan} (h : hostScan s 5 = some x) (hlen : x.bits.length = 19)
    (hdone : hostDone x = true) :
    flag (caTrial s) Fld.CB_CAQ_VALID = true ∧ getF (caTrial s) Fld.CB_CAV_VREF = getF s Fld.CB_CAV_VREF := by
  have hvalid := caqValid_caNoted hlen s
  have hvref : getF (caNoted s x) Fld.CB_CAV_VREF = getF s Fld.CB_CAV_VREF := (frame_caNoted s x).getF_eq (by decide)
  rw [caTrial_of_done h hdone]
  split
  · have hframe := frame_caAccept (caCode s x) (caNoted s x)
    exact ⟨(hframe.flag_eq (by decide)).trans hvalid, (hframe.getF_eq (by decide)).trans hvref⟩
  · have hframe := frame_caReject (caReason s x) (caWidth s x) (caHeight s x)
      ((trialResult (hostTrialOf x)).moves.getD (caPin s x) 0) (trialResult (hostTrialOf x)).vmove (caNoted s x)
    exact ⟨(hframe.flag_eq (by decide)).trans hvalid, (hframe.getF_eq (by decide)).trans hvref⟩

theorem caTrial_accepted {s : State} {x : Scan} (h : hostScan s 5 = some x) (hdone : hostDone x = true)
    (hwhy : caReason s x = 0) :
    flag (caTrial s) Fld.CB_HSTAT_CA_ACC = true ∧ scopeCa ∈ (caTrial s).cb.fresh ∧
      flag (caTrial s) Fld.CB_HSTAT_CA_STALE = false ∧ (caTrial s).fc = (endHost 5 s).fc ∧
      (caTrial s).dl.evals = sat 255 (s.dl.evals + 1) := by
  have hfc : (caAccept (caCode s x) (caNoted s x)).fc = (caNoted s x).fc := (frame_caAccept _ _).1 .fc (by decide)
  rw [caTrial_of_done h hdone, if_pos hwhy, evals_caAccept, caNoted_dl, hfc, caNoted_fc]
  exact ⟨caAcc_caAccept _ _, fresh_caAccept _ _, caStale_caAccept _ _, rfl, rfl⟩

theorem caTrial_rejected {s : State} {x : Scan} (h : hostScan s 5 = some x) (hdone : hostDone x = true)
    (hwhy : caReason s x ≠ 0) :
    flag (caTrial s) Fld.CB_HSTAT_CA_ACC = false ∧ (caTrial s).cb.pend = s.cb.pend ∧
      flag (caTrial s) Fld.CB_RLOG_VALID = true ∧
      ∃ syn, (caTrial s).fc.events = addEvents (endHost 5 s).fc.events 11 1 syn := by
  rw [caTrial_of_done h hdone, if_neg hwhy, ← caNoted_fc s x, ← caNoted_pend s x]
  have hframe := frame_caReject (caReason s x) (caWidth s x) (caHeight s x)
    ((trialResult (hostTrialOf x)).moves.getD (caPin s x) 0) (trialResult (hostTrialOf x)).vmove (caNoted s x)
  exact ⟨caAcc_caReject .., congrArg Calib.pend (hframe.1 .cb (by decide)),
    rlogValid_caReject _ _ _ _ _ (caReason_le_seven s x), events_caReject ..⟩

/-! ### Stale lanes (R212) -/

theorem exec_staleTimeout (n : Fin 6) (s : State) : exec (.staleTimeout n) s =
    .next (if hostLaneFree s n.val && flag s Fld.CB_HPOL_STALE_AFTER then
      (if n.val = 5 then trace 0x0701 0x22 (setF Fld.CB_HSTAT_CA_STALE 1 s)
       else trace 0x0701 (2 + n.val * 4) (setBitF Fld.CB_HSTAT_STALE n.val true s))
      else s) := rfl

section

variable {n : Fin 6} {s : State}

theorem exec_staleTimeout_of_free (hfree : hostLaneFree s n.val = true) (hafter : flag s Fld.CB_HPOL_STALE_AFTER = true) :
    exec (.staleTimeout n) s = .next (if n.val = 5 then trace 0x0701 0x22 (setF Fld.CB_HSTAT_CA_STALE 1 s)
      else trace 0x0701 (2 + n.val * 4) (setBitF Fld.CB_HSTAT_STALE n.val true s)) := by
  rw [exec_staleTimeout, if_pos (by rw [hfree, hafter]; rfl)]

theorem exec_staleTimeout_of_not (h : hostLaneFree s n.val = false ∨ flag s Fld.CB_HPOL_STALE_AFTER = false) :
    exec (.staleTimeout n) s = .next s := by
  rw [exec_staleTimeout, if_neg (by rcases h with h | h <;> simp [h])]

end

/-- Settles O30: starts by induction over the lanes, a trial by the reason of its first failing test. -/
theorem hostSideCalibration : Obligations.HostSideCalibration := by
  intro s lane x n r step c why v caWhy
  refine ⟨⟨_, exec_hostEvalStart s, ?runs, ?limits, frame_startHosts _ s⟩, ?none, ?running, ?rejected, ?accepted,
    ⟨fresh_acceptHost .., rejects_acceptHost .., stale_acceptHost lane.isLt _ _ s, acq_acceptHost lane.isLt _ _ s,
      lastAcc_acceptHost lane.isLt _ _ s, vref_acceptHost .., evals_acceptHost ..⟩, ?caNone, ?caRunning,
    ?caDone, ?stale, ?caStale,
    exec_staleTimeout_of_not⟩
  case runs =>
    intro k hk
    rw [hostRuns_startHosts, decide_eq_true (List.mem_range.mpr hk), Bool.true_and]
  case limits => exact fun k hk hfree => runsUnder_startHosts_of_free (List.mem_range.mpr hk) hfree
  case none => exact fun h => by rw [exec_hostTrialDone, hostTrial_of_none h]
  case running => exact fun h hrun => by rw [exec_hostTrialDone, hostTrial_of_running h hrun]
  case rejected => exact fun h hdone hwhy => congrArg Host.Outcome.next ((hostTrial_of_done h hdone).trans (if_neg hwhy))
  case accepted => exact fun h hdone hwhy => congrArg Host.Outcome.next ((hostTrial_of_done h hdone).trans (if_pos hwhy))
  case caNone => exact fun h => by rw [exec_caTrialDone, caTrial_of_none h]
  case caRunning => exact fun h hrun => by rw [exec_caTrialDone, caTrial_of_running h hrun]
  case caDone =>
    intro h hlen hdone
    obtain ⟨hvalid, hvref⟩ := caTrial_shown h hlen hdone
    have haccepted := caTrial_accepted h hdone
    have hrejected := caTrial_rejected h hdone
    refine ⟨_, exec_caTrialDone s, ?_, hvalid, hvref, fun hz => (haccepted hz).2, fun hnz => (hrejected hnz).2⟩
    by_cases hwhy : caReason s x = 0
    · exact (haccepted hwhy).1.trans (decide_eq_true hwhy).symm
    · exact (hrejected hwhy).1.trans (decide_eq_false hwhy).symm
  case stale => exact fun hfree hafter hlane => by rw [exec_staleTimeout_of_free hfree hafter, if_neg hlane]
  case caStale => exact fun hfree hafter hlane => by rw [exec_staleTimeout_of_free hfree hafter, if_pos hlane]

end Sys2Proof.Machine

namespace Sys2Proof.Machine

/-! ### A sweep starts (R220, R221) -/

theorem exec_sweepStart (s : State) : exec .sweepStart s = .next (sweepStart s) := rfl

/-- The sweep that starts at a place of the round, under the limits of now (R203). -/
def newSweep (k : Nat) (s : State) : Sweep :=
  ⟨k / 6, k % 6, limNow s, repNow s, noScans 8, 0, none, false, false⟩

/-- What CB_DSTAT shows once a sweep has started at a place of the round. -/
def sweepShown (k : Nat) (s : State) : State :=
  setF Fld.CB_DSTAT_SW_RANK (k / 6) (setF Fld.CB_DSTAT_SW_LANE (k % 6)
    (setF Fld.CB_DSTAT_TRIAL_B 0 (setF Fld.CB_DSTAT_SWEEPING 1 s)))

/-- A sweep runs from a place of the round on. -/
def sweepBegun (k : Nat) (s : State) : State :=
  { sweepShown k s with cb := { (sweepShown k s).cb with sweep := some (newSweep k s) } }

/-- The engines run, SWEEP_EN is set, no sweep runs, and a lane-rank of the round may be swept. -/
theorem sweepStart_of_next {s : State} {k : Nat} (hon : dramEngines s = true)
    (hen : flag s Fld.CB_CTRL_SWEEP_EN = true) (hnone : s.cb.sweep = none) (hnext : nextSweep s = some k) :
    sweepStart s = sweepBegun k s := by
  rw [sweepStart, if_pos (by simp [hon, hen, hnone]), hnext]
  rfl

theorem sweepStart_of_not {s : State} (h : dramEngines s = false ∨ flag s Fld.CB_CTRL_SWEEP_EN = false ∨
    s.cb.sweep ≠ none ∨ nextSweep s = none) : sweepStart s = s := by
  rw [sweepStart]
  rcases h with hoff | hdis | hruns | hnext
  · exact if_neg (by simp [hoff])
  · exact if_neg (by simp [hdis])
  · exact if_neg (by simp [hruns])
  · rw [hnext]
    exact ite_self s

theorem frame_sweepShown (k : Nat) (s : State) : Frame [] [Fld.CB_DSTAT_SWEEPING.addr] s (sweepShown k s) :=
  (((frame_setF Fld.CB_DSTAT_SWEEPING 1 s).next (frame_setF Fld.CB_DSTAT_TRIAL_B 0 _)).next
    (frame_setF Fld.CB_DSTAT_SW_LANE _ _)).next (frame_setF Fld.CB_DSTAT_SW_RANK _ _)

theorem frame_sweepBegun (k : Nat) (s : State) : Frame [.cb] [Fld.CB_DSTAT_SWEEPING.addr] s (sweepBegun k s) :=
  (frame_sweepShown k s).trans (frame_cb _ _)

theorem sweeping_sweepBegun (k : Nat) (s : State) : flag (sweepBegun k s) Fld.CB_DSTAT_SWEEPING = true := by
  have hshown : flag (sweepBegun k s) Fld.CB_DSTAT_SWEEPING = flag (sweepShown k s) Fld.CB_DSTAT_SWEEPING :=
    flag_eq_of_getF (getF_of_regs rfl _)
  rw [hshown, sweepShown, flag_setF_of_apart (by decide), flag_setF_of_apart (by decide),
    flag_setF_of_apart (by decide), flag_setF_one (by decide) (by decide)]

/-! ### A sweep trial is complete (R222 to R224) -/

theorem exec_sweepTrialDone (s : State) : exec .sweepTrialDone s = .next (sweepTrial s) := rfl

/-- The figures of a sweep's present trial. -/
def sweepResult (w : Sweep) : TrialResult := trialResult (trialOf .double (edgeThr w.rep) w.bits)

/-- The reason of the first test that a sweep's present trial fails; the step tests apply to a known lane-rank. -/
def sweepReason (s : State) (w : Sweep) : Nat :=
  acceptReason w.lim ⟨true, knownScope s (scopeRead w.rank w.lane), knownScope s (scopeRead w.rank w.lane)⟩
    (trialOf .double (edgeThr w.rep) w.bits) (sweepResult w)
    (codesInRange (readCodes s w.rank w.lane (sweepResult w)))

/-- The sweep that runs has a complete trial, and nothing has ended it. -/
def SweepComplete (s : State) (w : Sweep) : Prop :=
  s.cb.sweep = some w ∧ w.kind8 = false ∧ w.ending = false ∧ sweepDone w = true

/-- What follows a second trial that passes, after the first one `a` (R223). -/
def sweepPair (w : Sweep) (a : TrialResult) (s : State) : State :=
  if !agree w.rep true a (sweepResult w) then rejectSweep w 22 5 a s
  else if !codesInRange (readCodes s w.rank w.lane (meanResult a (sweepResult w))) then
    rejectSweep w 21 6 (meanResult a (sweepResult w)) s
  else acceptSweep w (meanResult a (sweepResult w)) s

theorem sweepTrial_of_none {s : State} (h : s.cb.sweep = none) : sweepTrial s = s := by
  rw [sweepTrial, h]

theorem sweepTrial_of_ended {s : State} {w : Sweep} (h : s.cb.sweep = some w)
    (hend : w.kind8 = true ∨ w.ending = true ∨ sweepDone w = false) : sweepTrial s = s := by
  rw [sweepTrial, h]
  exact if_pos (by rcases hend with hend | hend | hend <;> simp [hend])

section

variable {s : State} {w : Sweep} (h : SweepComplete s w)
include h

/-- A complete trial is judged: rejected, kept as the first, or compared with the first. -/
theorem sweepTrial_of_complete : sweepTrial s =
    if sweepReason s w ≠ 0 then rejectSweep w 21 (sweepReason s w) (sweepResult w) s
    else w.first.elim (sweepSecond w (sweepResult w) s) (fun a => sweepPair w a s) := by
  obtain ⟨hsweep, hkind, hending, hdone⟩ := h
  rw [sweepTrial, hsweep]
  refine (if_neg (by simp [hkind, hending, hdone])).trans ?_
  cases w.first <;> rfl

theorem sweepTrial_of_rejected (hwhy : sweepReason s w ≠ 0) :
    sweepTrial s = rejectSweep w 21 (sweepReason s w) (sweepResult w) s := by
  rw [sweepTrial_of_complete h, if_pos hwhy]

theorem sweepTrial_of_first (hwhy : sweepReason s w = 0) (hfirst : w.first = none) :
    sweepTrial s = sweepSecond w (sweepResult w) s := by
  rw [sweepTrial_of_complete h, if_neg (not_not_intro hwhy), hfirst, Option.elim_none]

theorem sweepTrial_of_second {a : TrialResult} (hwhy : sweepReason s w = 0) (hfirst : w.first = some a) :
    sweepTrial s = sweepPair w a s := by
  rw [sweepTrial_of_complete h, if_neg (not_not_intro hwhy), hfirst, Option.elim_some]

end

section

variable {w : Sweep} {a : TrialResult} {s : State}

theorem sweepPair_of_disagree (h : agree w.rep true a (sweepResult w) = false) :
    sweepPair w a s = rejectSweep w 22 5 a s :=
  if_pos (by rw [h]; rfl)

theorem sweepPair_of_agree (h : agree w.rep true a (sweepResult w) = true)
    (hrange : codesInRange (readCodes s w.rank w.lane (meanResult a (sweepResult w))) = true) :
    sweepPair w a s = acceptSweep w (meanResult a (sweepResult w)) s := by
  rw [sweepPair, if_neg (by rw [h]; decide), if_neg (by rw [hrange]; decide)]

end

/-- The first trial's figures are kept, and the second has compared nothing yet. -/
theorem sweepSecond_sweep (w : Sweep) (x : TrialResult) (s : State) : (sweepSecond w x s).cb.sweep =
    some { w with lim := limNow s, rep := repNow s, bits := noScans 8, beats := 0, first := some x } := by
  rw [sweepSecond, setF_cb]

theorem frame_sweepSecond (w : Sweep) (x : TrialResult) (s : State) :
    Frame [.cb] [Fld.CB_DSTAT_TRIAL_B.addr] s (sweepSecond w x s) :=
  (frame_cb _ s).trans (frame_setF _ _ _)

/-! ### A sweep is abandoned, and ends at its boundary (R221, R222) -/

theorem exec_sweepAbandon (s : State) : exec .sweepAbandon s = .next (sweepAbandon s) := rfl

theorem sweepAbandon_of_none {s : State} (h : s.cb.sweep = none) : sweepAbandon s = s := by
  rw [sweepAbandon, h]

theorem sweepAbandon_of_ended {s : State} {w : Sweep} (h : s.cb.sweep = some w)
    (hend : w.kind8 = true ∨ w.ending = true) : sweepAbandon s = s := by
  rw [sweepAbandon, h]
  exact if_pos (by rcases hend with hend | hend <;> simp [hend])

theorem sweepAbandon_of_running {s : State} {w : Sweep} (h : s.cb.sweep = some w) (hkind : w.kind8 = false)
    (hending : w.ending = false) : sweepAbandon s =
      incF Fld.CB_DABN_COUNT { s with cb := { s.cb with sweep := some { w with ending := true } } } := by
  rw [sweepAbandon, h]
  exact if_neg (by simp [hkind, hending])

theorem settleEngines_cb (s : State) : (settleEngines s).cb = s.cb :=
  (consoleFrame_settleEngines s).1 .cb (by decide)

theorem dropSweep_sweep (s : State) : (dropSweep s).cb.sweep = none := by
  rw [dropSweep]
  split
  · assumption
  · rw [settleEngines_cb, setF_cb, setF_cb]

/-- At a boundary of its rank an abandoned sweep ends, with a kind-8 event or without. -/
theorem sweepBoundary_of_ending {s : State} {w : Sweep} (h : s.cb.sweep = some w) (hending : w.ending = true) :
    (sweepBoundary w.rank s).cb.sweep = none := by
  rw [sweepBoundary, h]
  simp only [ne_eq, not_true_eq_false, if_false, hending, Bool.true_or, if_true]
  split
  · exact dropSweep_sweep _
  · exact dropSweep_sweep _

/-! ### A gap trial starts (R233) -/

theorem exec_gapTrialStart (rank : Rank) (s : State) : exec (.gapTrialStart rank) s = .next (gapStart rank.val s) := rfl

/-- The trial that starts on a rank, under the limits of now (R203). -/
def newGap (r : Nat) (write : Bool) (s : State) : GapTrial :=
  ⟨r, write, limNow s, repNow s, gapLanes s r write, noRun, noRun, if write then 0 else 64, 0, none, false, false⟩

theorem gapRun_of_noLanes {r : Nat} {write : Bool} {s : State} (h : gapLanes s r write = 0) : gapRun r write s = s :=
  if_pos h

theorem gapRun_gaps {r : Nat} {write : Bool} {s : State} (h : gapLanes s r write ≠ 0) :
    (gapRun r write s).cb.gaps = s.cb.gaps ++ [newGap r write s] := by
  rw [gapRun, if_neg h]
  rfl

theorem frame_gapRun (r : Nat) (write : Bool) (s : State) :
    Frame [.cb] [Fld.CB_DSTAT_GAPRUN.addr] s (gapRun r write s) :=
  .ite (.refl _ _ s) ((frame_cb _ s).trans (frame_setBitF Fld.CB_DSTAT_GAPRUN r true _))

theorem gapStart_of_free {r : Nat} {s : State} (hon : dramEngines s = true) (hen : flag s Fld.CB_CTRL_GAP_EN = true)
    (hpop : populated s r = true) (hfree : ∀ h ∈ s.cb.gaps, h.rank ≠ r) : gapStart r s = gapRun r true s :=
  if_pos (by simpa [hon, hen, hpop] using hfree)

theorem gapStart_of_running {r : Nat} {s : State} (h : ∃ g ∈ s.cb.gaps, g.rank = r) : gapStart r s = s := by
  have hany : s.cb.gaps.any (fun g => g.rank = r) = true := by simpa using h
  rw [gapStart, hany]
  exact if_neg (by simp)

/-! ### A gap trial is complete, or is abandoned (R231 to R234) -/

theorem exec_gapTrialDone (rank : Rank) (s : State) : exec (.gapTrialDone rank) s = .next (gapDone rank.val s) := rfl

theorem exec_gapTrialAbandon (rank : Rank) (s : State) :
    exec (.gapTrialAbandon rank) s = .next (gapAbandon rank.val s) := rfl

/-- One lane of a complete trial is judged; all are rejected where the host hit the scratch row (R234). -/
def gapLane (g : GapTrial) (r : Nat) (t : State) (d : Nat) : State :=
  if g.hit then rejectTrial 21 (if g.write then 3 else 2) 7 1 r d (trialResult (gapTrialOf g g.runA d)) t
  else if g.write then gapWriteLane g d t else gapReadLane g d t

section

variable {r : Nat} {s : State}

theorem gapDone_of_none (h : s.cb.gaps.find? (fun g => g.rank = r) = none) : gapDone r s = s := by
  rw [gapDone, h]

theorem gapAbandon_of_none (h : s.cb.gaps.find? (fun g => g.rank = r) = none) : gapAbandon r s = s := by
  rw [gapAbandon, h]

variable {g : GapTrial} (h : s.cb.gaps.find? (fun g => g.rank = r) = some g)
include h

theorem gapDone_of_running (hrun : gapComplete g = false) : gapDone r s = s := by
  rw [gapDone, h]
  exact if_pos (by rw [hrun]; rfl)

theorem gapDone_of_complete (hdone : gapComplete g = true) :
    gapDone r s = gapEnd g ((bitsOf 6 g.lanes).foldl (gapLane g r) s) := by
  rw [gapDone, h]
  exact if_neg (by rw [hdone]; decide)

theorem gapAbandon_of_running : gapAbandon r s = gapEnd g (if g.reached then incF Fld.CB_DABN_COUNT s
    else setBitF Fld.CB_DSTAT_NOPROG r true (incF Fld.CB_DABN_COUNT s)) := by
  rw [gapAbandon, h]

end

section

variable {g : GapTrial} (r : Nat)

theorem gapLane_of_hit (hhit : g.hit = true) : gapLane g r = fun t d =>
    rejectTrial 21 (if g.write then 3 else 2) 7 1 r d (trialResult (gapTrialOf g g.runA d)) t :=
  funext fun _ => funext fun _ => if_pos hhit

theorem gapLane_of_write (hhit : g.hit = false) (hwrite : g.write = true) :
    gapLane g r = fun t d => gapWriteLane g d t :=
  funext fun _ => funext fun _ => (if_neg (by rw [hhit]; decide)).trans (if_pos hwrite)

theorem gapLane_of_read (hhit : g.hit = false) (hread : g.write = false) :
    gapLane g r = fun t d => gapReadLane g d t :=
  funext fun _ => funext fun _ => (if_neg (by rw [hhit]; decide)).trans (if_neg (by rw [hread]; decide))

end

/-- Settles O31: a sweep by the reason of its first failing test and its first trial, a gap trial by what it was for
and whether the host hit it. -/
theorem dramSideCalibration : Obligations.DramSideCalibration := by
  intro s rank w g k known trial x why runs
  refine ⟨?started, ?notStarted, ?first,
    ⟨_, sweepSecond_sweep w x s, rfl, rfl, rfl, rfl, frame_sweepSecond w x s⟩, ?rejected, ?disagree, ?accepted,
    ?nothing, ?abandoned, ?notAbandoned, sweepBoundary_of_ending, ?gapStarted, ?gapRuns, ?noGap, ?gap⟩
  case started =>
    intro hon hen hnone hnext
    rw [exec_sweepStart, sweepStart_of_next hon hen hnone hnext]
    exact ⟨_, rfl, rfl, sweeping_sweepBegun k s, frame_sweepBegun k s⟩
  case notStarted => exact fun h => by rw [exec_sweepStart, sweepStart_of_not h]
  case first => exact fun h hwhy hfirst => congrArg Host.Outcome.next (sweepTrial_of_first h hwhy hfirst)
  case rejected => exact fun h hwhy => congrArg Host.Outcome.next (sweepTrial_of_rejected h hwhy)
  case disagree =>
    intro a h hwhy hfirst hdis
    exact congrArg Host.Outcome.next ((sweepTrial_of_second h hwhy hfirst).trans (sweepPair_of_disagree hdis))
  case accepted =>
    intro a h hwhy hfirst hagree hrange
    exact congrArg Host.Outcome.next ((sweepTrial_of_second h hwhy hfirst).trans (sweepPair_of_agree hagree hrange))
  case nothing =>
    rintro (hnone | ⟨hsweep, hend⟩)
    · rw [exec_sweepTrialDone, sweepTrial_of_none hnone]
    · rw [exec_sweepTrialDone, sweepTrial_of_ended hsweep hend]
  case abandoned =>
    exact fun h hkind hending => by rw [exec_sweepAbandon, sweepAbandon_of_running h hkind hending]
  case notAbandoned =>
    rintro (hnone | ⟨hsweep, hend⟩)
    · rw [exec_sweepAbandon, sweepAbandon_of_none hnone]
    · rw [exec_sweepAbandon, sweepAbandon_of_ended hsweep hend]
  case gapStarted =>
    intro hon hen hpop hfree
    rw [exec_gapTrialStart, gapStart_of_free hon hen hpop hfree]
    refine ⟨fun hlanes => by rw [gapRun_of_noLanes hlanes], fun hlanes => ?_⟩
    exact ⟨_, newGap rank.val true s, rfl, gapRun_gaps hlanes, rfl, rfl, rfl, rfl, rfl,
      frame_gapRun rank.val true s⟩
  case gapRuns => exact fun h => by rw [exec_gapTrialStart, gapStart_of_running h]
  case noGap =>
    intro h
    exact ⟨by rw [exec_gapTrialDone, gapDone_of_none h], by rw [exec_gapTrialAbandon, gapAbandon_of_none h]⟩
  case gap =>
    intro h
    refine ⟨fun hrun => ?_, fun hdone hhit => ?_, fun hdone hhit hwrite => ?_, fun hdone hhit hread => ?_, ?_⟩
    · rw [exec_gapTrialDone, gapDone_of_running h hrun]
    · rw [exec_gapTrialDone, gapDone_of_complete h hdone, gapLane_of_hit rank.val hhit]
    · rw [exec_gapTrialDone, gapDone_of_complete h hdone, gapLane_of_write rank.val hhit hwrite]
    · rw [exec_gapTrialDone, gapDone_of_complete h hdone, gapLane_of_read rank.val hhit hread]
    · rw [exec_gapTrialAbandon, gapAbandon_of_running h]

end Sys2Proof.Machine

namespace Sys2Proof.Machine

/-! ### The code of a stored word (R567) -/

theorem secdedXor_xor (cs : List Nat) (a b : Nat) : secdedXor cs (a ^^^ b) = secdedXor cs a ^^^ secdedXor cs b := by
  induction cs generalizing a b with
  | nil => exact (Nat.xor_self 0).symm
  | cons c cs ih =>
    have hcol : (if (a ^^^ b).testBit 0 then c else 0) =
        (if a.testBit 0 then c else 0) ^^^ (if b.testBit 0 then c else 0) := by
      rw [Nat.testBit_xor]
      cases a.testBit 0 <;> cases b.testBit 0 <;> simp
    rw [secdedXor, secdedXor, secdedXor, hcol, Nat.xor_div_two, ih]
    ac_rfl

theorem secdedCheck_xor (a b : Dword) : secdedCheck (a ^^^ b) = secdedCheck a ^^^ secdedCheck b := by
  rw [secdedCheck, BitVec.toNat_xor, secdedXor_xor, BitVec.ofNat_xor, secdedCheck, secdedCheck]

theorem secdedData_eq_setWidth (w : BitVec 72) : secdedData w = w.setWidth 64 := rfl

theorem secdedData_xor (v w : BitVec 72) : secdedData (v ^^^ w) = secdedData v ^^^ secdedData w := by
  simp only [secdedData_eq_setWidth, BitVec.setWidth_xor]

theorem secdedSyndrome_xor (v w : BitVec 72) : secdedSyndrome (v ^^^ w) = secdedSyndrome v ^^^ secdedSyndrome w := by
  have hread : BitVec.ofNat 8 ((v ^^^ w).toNat >>> 64) =
      BitVec.ofNat 8 (v.toNat >>> 64) ^^^ BitVec.ofNat 8 (w.toNat >>> 64) := by
    rw [BitVec.toNat_xor, Nat.shiftRight_xor_distrib, BitVec.ofNat_xor]
  rw [secdedSyndrome, secdedSyndrome, secdedSyndrome, hread, secdedData_xor, secdedCheck_xor]
  ac_rfl

theorem toNat_secdedEncode (d : Dword) : (secdedEncode d).toNat = d.toNat + 2 ^ 64 * (secdedCheck d).toNat := by
  rw [secdedEncode, BitVec.toNat_ofNat, Nat.mod_eq_of_lt (by omega)]

@[simp] theorem secdedData_secdedEncode (d : Dword) : secdedData (secdedEncode d) = d := by
  rw [secdedData, toNat_secdedEncode]
  apply BitVec.eq_of_toNat_eq
  rw [BitVec.toNat_ofNat]
  omega

@[simp] theorem secdedSyndrome_secdedEncode (d : Dword) : secdedSyndrome (secdedEncode d) = 0 := by
  have hread : (secdedEncode d).toNat >>> 64 = (secdedCheck d).toNat := by
    rw [toNat_secdedEncode, Nat.shiftRight_eq_div_pow]
    omega
  rw [secdedSyndrome, hread, secdedData_secdedEncode, BitVec.ofNat_toNat, BitVec.setWidth_eq]
  exact BitVec.xor_self

/-! ### One flipped bit, and two (R255, R256) -/

/-- The syndrome that a flip of bit `i` of a stored word gives: its column, or the check bit itself. -/
def flipSyndrome (i : Nat) : Byte := secdedSyndrome (BitVec.ofNat 72 (2 ^ i))

/-- Every column of the code, those of the check bits among them, has an odd number of ones. -/
def oddWeight (b : Byte) : Bool := (List.range 8).foldr (fun k p => b.getLsbD k ^^ p) false

theorem oddWeight_xor (a b : Byte) : oddWeight (a ^^^ b) = (oddWeight a ^^ oddWeight b) := by
  rw [oddWeight, oddWeight, oddWeight]
  induction List.range 8 with
  | nil => rfl
  | cons k ks ih =>
    rw [List.foldr_cons, List.foldr_cons, List.foldr_cons, ih, BitVec.getLsbD_xor]
    simp only [Bool.xor_assoc, Bool.xor_left_comm]

theorem secdedSyndrome_flip (d : Dword) (i : Nat) :
    secdedSyndrome (secdedEncode d ^^^ BitVec.ofNat 72 (2 ^ i)) = flipSyndrome i := by
  rw [secdedSyndrome_xor, secdedSyndrome_secdedEncode]
  exact BitVec.zero_xor

theorem secdedSyndrome_flip_flip (d : Dword) (i j : Nat) :
    secdedSyndrome (secdedEncode d ^^^ BitVec.ofNat 72 (2 ^ i) ^^^ BitVec.ofNat 72 (2 ^ j)) =
      flipSyndrome i ^^^ flipSyndrome j := by
  rw [secdedSyndrome_xor, secdedSyndrome_flip, ← flipSyndrome]

theorem flipSyndrome_injOn : ∀ i < 72, ∀ j < 72, flipSyndrome i = flipSyndrome j → i = j := by
  have hnodup : ((List.range 72).map flipSyndrome).Nodup := by decide +kernel
  intro i hi j hj
  exact List.inj_on_of_nodup_map hnodup (List.mem_range.mpr hi) (List.mem_range.mpr hj)

theorem oddWeight_flipSyndrome : ∀ i < 72, oddWeight (flipSyndrome i) = true := by decide +kernel

theorem secdedJudge_zero (d : Dword) : secdedJudge d 0 = .clean := rfl

theorem flipSyndrome_ne_zero {i : Nat} (hi : i < 72) : flipSyndrome i ≠ 0 := fun h =>
  absurd (oddWeight_flipSyndrome i hi) (by rw [h]; decide)

/-- A flipped data bit is named by its column. -/
theorem findIdx_flipSyndrome_of_data :
    ∀ i < 64, secdedCols.findIdx? (fun c => c = (flipSyndrome i).toNat) = some i := by decide +kernel

/-- A flipped check bit is no column. -/
theorem findIdx_flipSyndrome_of_check :
    ∀ k < 8, secdedCols.findIdx? (fun c => c = (flipSyndrome (64 + k)).toNat) = none := by decide +kernel

theorem toNat_flipSyndrome_of_check : ∀ k < 8, (flipSyndrome (64 + k)).toNat = 1 <<< k := by decide +kernel

theorem secdedData_flip (i : Nat) : secdedData (BitVec.ofNat 72 (2 ^ i)) = BitVec.ofNat 64 (1 <<< i) := by
  rw [secdedData_eq_setWidth, BitVec.setWidth_ofNat_of_le (by decide), Nat.one_shiftLeft]

theorem secdedData_flip_of_check : ∀ k < 8, secdedData (BitVec.ofNat 72 (2 ^ (64 + k))) = 0#64 := by decide

theorem secdedJudge_flip (d : Dword) {i : Nat} (hi : i < 72) :
    secdedJudge d (flipSyndrome i) = .corrected (d ^^^ secdedData (BitVec.ofNat 72 (2 ^ i))) := by
  rw [secdedJudge, if_neg (flipSyndrome_ne_zero hi)]
  by_cases hdata : i < 64
  · rw [findIdx_flipSyndrome_of_data i hdata, secdedData_flip]
  · obtain ⟨k, rfl⟩ := Nat.exists_eq_add_of_le (Nat.le_of_not_lt hdata)
    have hk : k < 8 := by omega
    have hany : (List.range 8).any (fun m => (flipSyndrome (64 + k)).toNat = 1 <<< m) = true :=
      List.any_eq_true.mpr ⟨k, List.mem_range.mpr hk, decide_eq_true (toNat_flipSyndrome_of_check k hk)⟩
    rw [findIdx_flipSyndrome_of_check k hk, secdedData_flip_of_check k hk, BitVec.xor_zero]
    exact if_pos hany

/-- A syndrome of even weight is no column and no check bit. -/
theorem secdedJudge_of_even {syn : Byte} (hne : syn ≠ 0) (heven : oddWeight syn = false) (d : Dword) :
    secdedJudge d syn = .uncorrectable := by
  have hcols : ∀ c ∈ secdedCols, oddWeight (BitVec.ofNat 8 c) = true := by decide +kernel
  have hchecks : ∀ k ∈ List.range 8, oddWeight (BitVec.ofNat 8 (1 <<< k)) = true := by decide
  have hodd : ∀ n, oddWeight (BitVec.ofNat 8 n) = true → syn.toNat ≠ n := by
    rintro _ hn rfl
    rw [BitVec.ofNat_toNat, BitVec.setWidth_eq, heven] at hn
    exact absurd hn (by decide)
  have hnone : secdedCols.findIdx? (fun c => c = syn.toNat) = none :=
    List.findIdx?_eq_none_iff.mpr fun c hc => decide_eq_false (Ne.symm (hodd c (hcols c hc)))
  have hany : (List.range 8).any (fun k => syn.toNat = 1 <<< k) = false :=
    List.any_eq_false.mpr fun k hk => by simpa using hodd _ (hchecks k hk)
  rw [secdedJudge, if_neg hne, hnone, hany]
  rfl

theorem judgeStored_of_clean {w : BitVec 72} (h : secdedJudge (secdedData w) (secdedSyndrome w) = .clean) :
    (judgeStored w 0).1 = ⟨secdedData w, false, false⟩ := by
  simp [judgeStored, h]

theorem judgeStored_of_corrected {w : BitVec 72} {d : Dword}
    (h : secdedJudge (secdedData w) (secdedSyndrome w) = .corrected d) : (judgeStored w 0).1 = ⟨d, false, true⟩ := by
  simp [judgeStored, h]

theorem judgeStored_of_uncorrectable {w : BitVec 72}
    (h : secdedJudge (secdedData w) (secdedSyndrome w) = .uncorrectable) : (judgeStored w 0).1.ue = true := by
  simp [judgeStored, h]

/-- Settles O36: the syndrome is linear, so it is that of the flipped bits alone; one is a column of odd weight, two
give an even weight other than 0. -/
theorem ledgerWordsAreProtected : Obligations.LedgerWordsAreProtected := by
  intro d i j hi hj hij
  refine ⟨?clean, ?corrected, ?uncorrectable⟩
  case clean =>
    rw [judgeStored_of_clean (by rw [secdedSyndrome_secdedEncode, secdedJudge_zero]), secdedData_secdedEncode]
  case corrected =>
    apply judgeStored_of_corrected
    rw [secdedSyndrome_flip, secdedJudge_flip _ hi, secdedData_xor, secdedData_secdedEncode, BitVec.xor_assoc,
      BitVec.xor_self, BitVec.xor_zero]
  case uncorrectable =>
    apply judgeStored_of_uncorrectable
    rw [secdedSyndrome_flip_flip]
    refine secdedJudge_of_even (fun h => hij (flipSyndrome_injOn i hi j hj (BitVec.xor_eq_zero_iff.mp h))) ?_ _
    rw [oddWeight_xor, oddWeight_flipSyndrome i hi, oddWeight_flipSyndrome j hj, Bool.xor_self]

end Sys2Proof.Machine

namespace Sys2Proof.Machine

/-! ### Writes of ledger words (R242, R245, R255) -/

theorem frame_ld (l : Ledger) (s : State) : Frame [.ld] [] s { s with ld := l } := by
  refine ⟨fun p hp => ?_, fun _ _ => rfl⟩
  cases p with
  | ld => exact absurd (List.mem_singleton_self _) hp
  | _ => rfl

@[simp] theorem ledgerStored_putWord_same (l w : Nat) (d : Dword) (s : State) :
    ledgerStored (putWord l w d s) (wordKey l w) = secdedEncode d := smGet_smSet_same _ _ _

theorem ledgerStored_putWord_other {l w k : Nat} (h : k ≠ wordKey l w) (d : Dword) (s : State) :
    ledgerStored (putWord l w d s) k = ledgerStored s k := smGet_smSet_other _ _ h

theorem mem_scrub_putWord (l w k : Nat) (d : Dword) (s : State) :
    k ∈ (putWord l w d s).ld.scrub ↔ k ∈ s.ld.scrub ∧ k ≠ wordKey l w := by
  rw [show (putWord l w d s).ld.scrub = s.ld.scrub.filter (fun k => k ≠ wordKey l w) from rfl, List.mem_filter,
    decide_eq_true_iff]

theorem frame_putWord (l w : Nat) (d : Dword) (s : State) : Frame [.ld] [] s (putWord l w d s) := frame_ld _ s

/-- Settles O37: the word by the read of a map after a write, the write-backs by membership in the queue without the
word's key. -/
theorem ledgerLinesReadBack : Obligations.LedgerLinesReadBack := fun s l w k d =>
  ⟨ledgerStored_putWord_same l w d s, fun h => ledgerStored_putWord_other h d s, rfl, rfl, rfl,
    mem_scrub_putWord l w k d s, frame_putWord l w d s⟩

end Sys2Proof.Machine

namespace Sys2Proof.Machine

/-! ### The port E window (R251, R253) -/

theorem exec_ldWindowRead (held : Bool) (s : State) :
    exec (.ldWindowRead held) s = .next (if coreOn s then windowRead held s else s) := rfl

theorem exec_ldWindowWrite (held collide : Bool) (s : State) :
    exec (.ldWindowWrite held collide) s = .next (if coreOn s then windowWrite held collide s else s) := rfl

theorem portERefused_read_of_ready {s : State} (h : flag s Fld.LD_STATUS_READY = true) (l : Nat) :
    portERefused s false l = false := by
  rw [portERefused, h]
  rfl

section

variable {s : State} (held collide : Bool)

theorem windowRead_of_busy (h : flag s Fld.LD_ECMD_BUSY = true) : windowRead held s = s := if_pos h

theorem windowWrite_of_busy (h : flag s Fld.LD_ECMD_BUSY = true) : windowWrite held collide s = s := if_pos h

variable (hidle : flag s Fld.LD_ECMD_BUSY = false)
include hidle

theorem windowRead_of_refused (href : portERefused s false (getF s Fld.LD_EA_LINE) = true) :
    windowRead held s = windowStatus false false false true false s := by
  rw [windowRead, hidle, href]
  rfl

theorem windowWrite_of_refused (href : portERefused s true (getF s Fld.LD_EA_LINE) = true) :
    windowWrite held collide s = windowStatus false false false true false s := by
  rw [windowWrite, hidle, href]
  rfl

theorem windowRead_of_waiting (href : portERefused s false (getF s Fld.LD_EA_LINE) = false)
    (hbusy : portEBusy s = true) : windowRead held s = setF Fld.LD_ECMD_BUSY 1 s := by
  rw [windowRead, hidle, href, hbusy]
  rfl

theorem windowWrite_of_waiting (href : portERefused s true (getF s Fld.LD_EA_LINE) = false)
    (hbusy : portEBusy s = true) : windowWrite held collide s = setF Fld.LD_ECMD_BUSY 1 s := by
  rw [windowWrite, hidle, href, hbusy]
  rfl

theorem windowRead_of_served (href : portERefused s false (getF s Fld.LD_EA_LINE) = false)
    (hbusy : portEBusy s = false) :
    let r := readWord 1 2 (getF s Fld.LD_EA_LINE) (getF s Fld.LD_EA_WORD)
      (wakeFor (getF s Fld.LD_EA_LINE) (countHeld held s))
    windowRead held s = windowStatus false r.1.ue r.1.corr false held
      (setReg Fld.LD_ED0_DATA_LO.addr (BitVec.ofNat 32 r.1.data.toNat)
        (setReg Fld.LD_ED1_DATA_HI.addr (BitVec.ofNat 32 (r.1.data.toNat >>> 32)) r.2)) := by
  rw [windowRead, hidle, href, hbusy]
  rfl

theorem windowWrite_of_served (href : portERefused s true (getF s Fld.LD_EA_LINE) = false)
    (hbusy : portEBusy s = false) :
    windowWrite held false s = windowStatus false false false false held
      (portEWrite (getF s Fld.LD_EA_LINE) (getF s Fld.LD_EA_WORD)
        (BitVec.ofNat 64 (getF s Fld.LD_ED0_DATA_LO + getF s Fld.LD_ED1_DATA_HI <<< 32)) (countHeld held s)) := by
  rw [windowWrite, hidle, href, hbusy]
  rfl

end

/-! ### Write-backs (R255) -/

theorem exec_ledgerScrubWriteBack_of_none {s : State} (h : s.ld.scrub = []) :
    exec .ledgerScrubWriteBack s = .next s := by
  rw [exec, execLedgerScrubWriteBack, h]

theorem exec_ledgerScrubWriteBack_of_correctable {s : State} {key : Nat} {rest : List Nat}
    (h : s.ld.scrub = key :: rest) (hready : flag s Fld.LD_STATUS_READY = true) (hbusy : portEBusy s = false)
    (hue : (judgeStored (ledgerStored s key) 0).1.ue = false) : exec .ledgerScrubWriteBack s =
      .next (setStored key (secdedEncode (judgeStored (ledgerStored s key) 0).1.data)
        { s with ld := { s.ld with scrub := rest } }) := by
  rw [exec, execLedgerScrubWriteBack, h, hready, hbusy]
  dsimp only
  rw [hue]
  rfl

/-! ### Replica banks park and wake (R266, R267) -/

theorem exec_bankPark (k : Fin 7) (s : State) : exec (.bankPark k) s =
    .next (if flag s Fld.LD_STATUS_READY && (served s || inService s) && flag s Fld.LD_CFG_AUTO_RETAIN
        && s.ld.cfgNext.isNone && !flag s Fld.LD_CFG_REPL_HOST && flag s Fld.LD_STATUS_MIRROR_IN_FORCE
        && !s.ld.scanning.contains (8 + k.val)
      then setBitF Fld.LD_STATUS_PARKED k.val true (writeTag (8 + k.val) s) else s) := rfl

theorem exec_bankWake (k : Fin 7) (damage : List (Nat × BitVec 72)) (s : State) : exec (.bankWake k damage) s =
    .next (if bankParked s (8 + k.val) then wakeBank (8 + k.val) (damageLedger damage s) else s) := rfl

/-- Of the banks that may park, bank 8 + k has bit k of PARKED. -/
theorem bankParked_eq_bitF (k : Fin 7) (s : State) : bankParked s (8 + k.val) = bitF s Fld.LD_STATUS_PARKED k.val := by
  have hlow : 8 ≤ 8 + k.val := by omega
  have hhigh : 8 + k.val ≤ 14 := by omega
  rw [bankParked, decide_eq_true hlow, decide_eq_true hhigh, Nat.add_sub_cancel_left]
  rfl

theorem cfgNext_mendTag (k : Nat) (s : State) : (mendTag k s).ld.cfgNext = s.ld.cfgNext := by
  rw [mendTag]
  dsimp only
  split <;> rfl

/-- A parked bank as it wakes: its bit of PARKED is cleared, the wake counts, and its scan begins (R267). -/
def wakeBegun (b : Nat) (s : State) : State :=
  let t := incF Fld.LD_HOLD_PARK_WAKES (setBitF Fld.LD_STATUS_PARKED (b - 8) false (mendTag b s))
  scanStatus { t with ld := { t.ld with scanning := t.ld.scanning ++ [b] } }

theorem mem_scanning_wakeBegun (b : Nat) (s : State) : b ∈ (wakeBegun b s).ld.scanning :=
  List.mem_append_right _ List.mem_cons_self

theorem cfgNext_wakeBegun (b : Nat) (s : State) : (wakeBegun b s).ld.cfgNext = s.ld.cfgNext := cfgNext_mendTag b s

theorem getF_wakeBegun_parked (b : Nat) (s : State) : getF (wakeBegun b s) Fld.LD_STATUS_PARKED =
    getF (setBitF Fld.LD_STATUS_PARKED (b - 8) false (mendTag b s)) Fld.LD_STATUS_PARKED := by
  rw [wakeBegun, scanStatus, setB, getF_setF_of_apart (by decide)]
  exact (getF_of_regs rfl _).trans ((frame_incF Fld.LD_HOLD_PARK_WAKES _).getF_eq (by decide))

theorem bankParked_wakeBegun (k : Fin 7) (s : State) : bankParked (wakeBegun (8 + k.val) s) (8 + k.val) = false := by
  rw [bankParked_eq_bitF, bitF, getF_wakeBegun_parked, ← bitF, Nat.add_sub_cancel_left,
    bitF_setBitF_same (by decide) k.isLt]

theorem wakeSettle_of_settled {s : State} (h : s.ld.cfgNext = none) : wakeSettle s = s := by
  rw [wakeSettle, h]

theorem wakeBank_of_agrees {b : Nat} {s : State} (hparked : bankParked s b = true) (htag : tagAgrees s b = true)
    (hnext : s.ld.cfgNext = none) : wakeBank b s = wakeBegun b s := by
  rw [wakeBank, hparked, htag]
  exact wakeSettle_of_settled ((cfgNext_wakeBegun b s).trans hnext)

/-! ### The background scan (R263, R267) -/

theorem exec_bankScanDone (k : Fin 7) (s : State) :
    exec (.bankScanDone k) s = .next (if portEBusy s then s else scanDone (8 + k.val) s) := rfl

theorem ledgerEvent_ld (ue : Bool) (req l w : Nat) (syn : Byte) (s : State) :
    (ledgerEvent ue req l w syn s).ld = s.ld := by
  rw [ledgerEvent, apply_ite State.ld]
  exact ite_self _

theorem scanEvents_ld (p : Nat → Bool) (s : State) : (scanEvents p s).ld = s.ld := by
  refine foldl_keeps State.ld (fun e _ t => ?_) s
  dsimp only
  split
  · exact ledgerEvent_ld _ _ _ _ _ t
  · rfl

/-- Each of the two counts is the number of words that satisfy `p` and are judged so. -/
theorem scanCounts_eq (m : SMap 72) (p : Nat → Bool) : scanCounts m p =
    (m.countP (fun e => p e.1 && (judgeStored e.2 0).1.ue),
      m.countP (fun e => p e.1 && (judgeStored e.2 0).1.corr)) := by
  induction m using List.reverseRecOn with
  | nil => rfl
  | append_singleton m e ih =>
    have hstep : scanCounts (m ++ [e]) p = if p e.1 then
        ((scanCounts m p).1 + b2n (judgeStored e.2 0).1.ue, (scanCounts m p).2 + b2n (judgeStored e.2 0).1.corr)
      else scanCounts m p := List.foldl_append
    rw [hstep, ih, List.countP_append, List.countP_append, List.countP_singleton, List.countP_singleton]
    cases p e.1 <;> rfl

/-- No word that satisfies `p` has an error. -/
def ScanClean (m : SMap 72) (p : Nat → Bool) : Prop :=
  ∀ e ∈ m, p e.1 = true → (judgeStored e.2 0).1.ue = false ∧ (judgeStored e.2 0).1.corr = false

theorem scanClean_of_counts {m : SMap 72} {p : Nat → Bool} (hue : (scanCounts m p).1 = 0)
    (hcorr : (scanCounts m p).2 = 0) : ScanClean m p := by
  rw [scanCounts_eq] at hue hcorr
  intro e he hp
  have hnoUe := List.countP_eq_zero.mp hue e he
  have hnoCorr := List.countP_eq_zero.mp hcorr e he
  rw [hp] at hnoUe hnoCorr
  exact ⟨Bool.eq_false_iff.mpr hnoUe, Bool.eq_false_iff.mpr hnoCorr⟩

theorem scanEvents_of_clean {s : State} {p : Nat → Bool} (h : ScanClean s.ld.words p) : scanEvents p s = s := by
  refine foldl_keeps id (fun e he t => if_neg ?_) s
  intro hraised
  obtain ⟨hp, hjudged⟩ := (Bool.and_eq_true _ _).mp hraised
  obtain ⟨hue, hcorr⟩ := h e he hp
  rw [hue, hcorr] at hjudged
  exact absurd hjudged (by decide)

theorem scanCorrect_of_clean {m : SMap 72} {p : Nat → Bool} (h : ScanClean m p) (d : Nat → BitVec 72) :
    scanCorrect d m p = m := by
  refine List.foldlRecOn (motive := fun a => a = m) m _ rfl (fun a ha e he => ?_)
  refine (if_neg ?_).trans ha
  intro hcorrected
  obtain ⟨hp, hjudged⟩ := (Bool.and_eq_true _ _).mp hcorrected
  rw [(h e he hp).2] at hjudged
  exact absurd hjudged (by decide)

/-- A bank whose scan has ended. -/
def scanLeft (b : Nat) (s : State) : State :=
  scanStatus { s with ld := { s.ld with scanning := s.ld.scanning.filter (fun x => x ≠ b) } }

/-- A scan that the bank passes: its events are raised, its corrected words written back. -/
def scanPassed (b : Nat) (s : State) : State :=
  let t := scanEvents (inBank b) (scanLeft b s)
  { t with ld := { t.ld with words := scanCorrect (zeroDefault 72) t.ld.words (inBank b) } }

theorem frame_scanLeft (b : Nat) (s : State) : Frame [.ld] [Fld.LD_STATUS_SCANNING.addr] s (scanLeft b s) :=
  (frame_ld _ s).trans (frame_setF _ _ _)

theorem not_mem_scanning_scanPassed (b : Nat) (s : State) : b ∉ (scanPassed b s).ld.scanning := by
  have hscanning : (scanPassed b s).ld.scanning = s.ld.scanning.filter (fun x => x ≠ b) :=
    congrArg Ledger.scanning (scanEvents_ld (inBank b) (scanLeft b s))
  simp [hscanning]

theorem words_scanPassed (b : Nat) (s : State) :
    (scanPassed b s).ld.words = scanCorrect (zeroDefault 72) s.ld.words (inBank b) := by
  have hwords : (scanEvents (inBank b) (scanLeft b s)).ld.words = s.ld.words := by
    rw [scanEvents_ld]
    rfl
  rw [← hwords]
  rfl

/-- The scan of a bank without an error raises nothing. -/
theorem frame_scanPassed {b : Nat} {s : State} (h : ScanClean s.ld.words (inBank b)) :
    Frame [.ld] [Fld.LD_STATUS_SCANNING.addr] s (scanPassed b s) := by
  have hquiet : scanEvents (inBank b) (scanLeft b s) = scanLeft b s := scanEvents_of_clean h
  rw [scanPassed, hquiet]
  exact (frame_scanLeft b s).next ((frame_ld _ _).mono (by simp) (by simp))

theorem scanDone_of_idle {b : Nat} {s : State} (h : b ∉ s.ld.scanning) : scanDone b s = s :=
  if_pos (by simpa using h)

theorem scanDone_of_passing {b : Nat} {s : State} (h : b ∈ s.ld.scanning)
    (hue : (scanCounts s.ld.words (inBank b)).1 = 0)
    (hcorr : (scanCounts s.ld.words (inBank b)).2 ≤ getF s Fld.LD_RETAIN_CORR_MAX) :
    scanDone b s = scanPassed b s := by
  rw [scanDone, if_neg (by simpa using h)]
  exact if_pos ⟨hue, hcorr⟩

/-- Settles O38: each command by the condition of its rule; the scan of a clean bank finds no word to raise or to
write back. -/
theorem ledgerPortCommands : Obligations.LedgerPortCommands := by
  intro s held collide k damage key rest l
  refine ⟨?noAccess, ?readRefused, ?writeRefused, ?reads, ?waits, ?writes, exec_ledgerScrubWriteBack_of_none,
    exec_ledgerScrubWriteBack_of_correctable, ?parks, ?staysUp, ?wakes, ?awake, ?woken, ?noScan, ?scanned⟩
  case noAccess =>
    rintro (hoff | hbusy)
    · rw [exec_ldWindowRead, exec_ldWindowWrite, hoff]
      exact ⟨rfl, rfl⟩
    · rw [exec_ldWindowRead, exec_ldWindowWrite, windowRead_of_busy held hbusy, windowWrite_of_busy held collide hbusy,
        ite_self]
      exact ⟨rfl, rfl⟩
  case readRefused =>
    exact fun hon hidle href => by rw [exec_ldWindowRead, if_pos hon, windowRead_of_refused held hidle href]
  case writeRefused =>
    exact fun hon hidle href => by rw [exec_ldWindowWrite, if_pos hon, windowWrite_of_refused held collide hidle href]
  case reads =>
    intro r hon hidle hready hbusy
    rw [exec_ldWindowRead, if_pos hon, windowRead_of_served held hidle (portERefused_read_of_ready hready l) hbusy]
  case waits =>
    intro hon hidle hbusy
    exact ⟨fun href => by rw [exec_ldWindowRead, if_pos hon, windowRead_of_waiting held hidle href hbusy],
      fun href => by rw [exec_ldWindowWrite, if_pos hon, windowWrite_of_waiting held collide hidle href hbusy]⟩
  case writes =>
    intro hon hidle href hbusy
    rw [exec_ldWindowWrite, if_pos hon, windowWrite_of_served held hidle href hbusy, portEWrite]
  case parks =>
    intro hready hmode hauto hhost hmirror hnext hscan
    rw [exec_bankPark, if_pos (by simp [hready, hmode, hauto, hhost, hmirror, hnext, hscan])]
  case staysUp => rintro (h | h) <;> rw [exec_bankPark, if_neg (by simp [h])]
  case wakes => exact fun h => by rw [exec_bankWake, if_pos h]
  case awake => exact fun h => by rw [exec_bankWake, h]; rfl
  case woken =>
    intro hparked htag hnext
    rw [wakeBank_of_agrees hparked htag hnext]
    exact ⟨bankParked_wakeBegun k s, mem_scanning_wakeBegun _ s⟩
  case noScan =>
    rintro (h | h)
    · rw [exec_bankScanDone, if_pos h]
    · rw [exec_bankScanDone, scanDone_of_idle h, ite_self]
  case scanned =>
    intro hbusy hscan hue hcorr
    refine ⟨_, by rw [exec_bankScanDone, hbusy, scanDone_of_passing hscan hue hcorr]; rfl,
      not_mem_scanning_scanPassed _ s, words_scanPassed _ s, fun hnone => ?_⟩
    have hclean := scanClean_of_counts hue hnone
    have hframe := frame_scanPassed hclean
    exact ⟨hframe.1 .fc (by decide), (words_scanPassed _ s).trans (scanCorrect_of_clean hclean _), hframe⟩

end Sys2Proof.Machine

namespace Sys2Proof.Machine

/-! ### Every step keeps the queue and the invariant -/

/-- A command's outcome keeps the queue that waits behind it, and `Sound`. -/
theorem exec_keeps {c : Instr} {s t : State} (h : Sound s) (hexec : exec c s = .next t) :
    t.pending = s.pending ∧ Sound t :=
  kept_iff.mp (keptOut_exec (kept_iff.mpr ⟨rfl, h⟩) t hexec)

/-- The command at the front leaves the queue before it runs. -/
theorem sound_pending {s : State} (h : Sound s) (l : List Instr) : Sound { s with pending := l } := h

theorem sound_idleTick {s : State} (h : Sound s) : Sound (idleTick s) :=
  (kept_iff.mp (kept_idleTick (kept_iff.mpr ⟨rfl, h⟩))).2

/-- Settles O3: a step is a tick or the front command, and both keep the invariant. -/
theorem everyStepKeepsTheStateSound : Obligations.EveryStepKeepsTheStateSound := by
  intro s t hs hstep
  unfold step at hstep
  split at hstep
  case h_1 =>
    injection hstep with ht
    exact ht ▸ sound_idleTick hs
  case h_2 c rest _ => exact (exec_keeps (sound_pending hs rest) hstep).2

/-- Settles O4: no command's meaning writes the queue, and each keeps the invariant. -/
theorem commandsLeaveTheQueueAlone : Obligations.CommandsLeaveTheQueueAlone :=
  fun _ _ _ hs hexec => exec_keeps hs hexec

end Sys2Proof.Machine

namespace Sys2Proof.Machine

/-! ### Every command answers a next state -/

theorem exec_readBurstCheck_answers (data : BitVec 768) (mon : BitVec 128) (s : State) :
    ∃ t, exec (.readBurstCheck data mon) s = .next t := by
  show ∃ t, execReadBurstCheck data mon s = .next t
  rw [execReadBurstCheck]
  split
  · exact ⟨_, rfl⟩
  · exact ⟨_, rfl⟩

theorem exec_answers (c : Instr) (s : State) : ∃ t, exec c s = .next t := by
  cases c
  case readBurstCheck data mon => exact exec_readBurstCheck_answers data mon s
  all_goals exact ⟨_, rfl⟩

/-- Settles O1. -/
theorem queueStepRunsTheFrontCommand : Obligations.QueueStepRunsTheFrontCommand :=
  fun c _ s => ⟨rfl, exec_answers c s⟩

end Sys2Proof.Machine

namespace Sys2Proof.Machine

/-! ### The state after reset -/

/-- One entry is listed, ERASE_DONE of a new part, and no memory holds a word. -/
theorem sound_reset : Sound State.reset := by
  simp only [Sound, RegsOk, Bounded]
  decide +kernel

theorem reg_reset {a : Nat} (h : a ≠ Fld.GN_STATUS_ERASE_DONE.addr) : reg State.reset a = regDefault a :=
  if_neg (Ne.symm h)

/-- Outside the two catalogue registers the unlisted value is the Reset column. -/
theorem regDefault_of_row {a : Nat} {r : RegRow} (hrow : regRow a = some r) (hsrc : r.addr ≠ Fld.FC_SRC_CLASS.addr)
    (hwin : r.addr ≠ Fld.FC_WIN_MS.addr) : regDefault a = BitVec.ofNat 32 r.reset := by
  rw [regDefault, hrow]
  exact (if_neg hsrc).trans (if_neg hwin)

/-- Settles O5. -/
theorem resetStateIsSound : Obligations.ResetStateIsSound :=
  ⟨sound_reset, by decide +kernel, rfl, fun _ _ hrow herase hsrc hwin =>
    (reg_reset herase).trans (regDefault_of_row hrow hsrc hwin)⟩

/-! ### Trace entries (R510, R512) -/

theorem trace_of_masked {code args : Nat} {s : State} (h : traceMasked s code = true) : trace code args s = s := if_pos h

theorem trace_of_running {code args : Nat} {s : State} (hmask : traceMasked s code = false)
    (hrun : flag s Fld.TR_STATUS_RUNNING = true) : trace code args s =
      if flag s Fld.TR_CTRL_FREEZE then incF Fld.TR_LOST_RING s
      else ringPush ⟨s.aon, BitVec.ofNat 16 code, BitVec.ofNat 64 args⟩ s := by
  simp [trace, hmask, hrun]

theorem trace_of_stopped {code args : Nat} {s : State} (hmask : traceMasked s code = false)
    (hrun : flag s Fld.TR_STATUS_RUNNING = false) (hram : flag s Fld.MT_STATUS_TRACE_OUT = false) :
    trace code args s = fifoPush ⟨s.aon, BitVec.ofNat 16 code, BitVec.ofNat 64 args⟩ s := by
  simp [trace, hmask, hrun, hram]

theorem fifoPush_of_room (e : TraceEntry) {s : State} (h : s.tr.fifo.length < 63) :
    fifoPush e s = { s with tr := { s.tr with fifo := s.tr.fifo ++ [e] } } := if_pos h

/-- Settles O7. -/
theorem traceEntriesGoToRingOrFifo : Obligations.TraceEntriesGoToRingOrFifo := by
  intro code args s
  refine ⟨frame_trace code args s, trace_of_masked, ?ring, ?frozen, ?fifo⟩
  case ring =>
    intro hmask hrun hfree
    rw [trace_of_running hmask hrun, hfree]
    exact ⟨rfl, rfl⟩
  case frozen =>
    intro hmask hrun hfrozen
    rw [trace_of_running hmask hrun, if_pos hfrozen]
  case fifo =>
    intro hmask hstop hram hroom
    rw [trace_of_stopped hmask hstop hram, fifoPush_of_room _ hroom]
    exact ⟨rfl, rfl⟩

end Sys2Proof.Machine

namespace Sys2Proof.Machine

/-! ### A tick with no command waiting (R76, R74) -/

/-- The gap trials left when those of some ranks are dropped. -/
theorem gaps_foldl_dropGap (l : List Nat) (s : State) :
    (l.foldl (fun t r => dropGap r t) s).cb.gaps = s.cb.gaps.filter (fun g => g.rank ∉ l) := by
  induction l generalizing s with
  | nil => simp
  | cons r rest ih =>
    have hone : (dropGap r s).cb.gaps = s.cb.gaps.filter (fun g => g.rank ≠ r) := by
      rw [dropGap, settleEngines_cb]
      rfl
    rw [List.foldl_cons, ih, hone, List.filter_filter]
    refine List.filter_congr fun g _ => ?_
    simp [Bool.and_comm]

theorem frame_dropGap (r : Nat) (s : State) :
    Frame [.cb, .con] [Fld.CB_DSTAT_GAPRUN.addr, Fld.CN_STAT2_EVLOST.addr] s (dropGap r s) :=
  ((frame_cb _ s).trans (frame_setBitF _ _ _ _)).trans (consoleFrame_settleEngines _)

theorem frame_gapPause (s : State) :
    Frame [.cb, .con] [Fld.CB_DSTAT_GAPRUN.addr, Fld.CN_STAT2_EVLOST.addr] s (gapPause s) :=
  .ite (.refl _ _ s) (.foldl (fun t r => frame_dropGap r t) rankList s)

/-- With gap trials enabled, or none running, nothing is dropped. -/
theorem gapPause_of_quiet {s : State} (h : flag s Fld.CB_CTRL_GAP_EN = true ∨ s.cb.gaps = []) : gapPause s = s := by
  rw [gapPause, if_pos]
  rcases h with h | h <;> simp [h]

/-- With gap trials disabled every rank's are dropped. -/
theorem gaps_gapPause {s : State} (h : flag s Fld.CB_CTRL_GAP_EN = false) :
    ∀ g ∈ (gapPause s).cb.gaps, g.rank ∉ rankList := by
  intro g hg
  rw [gapPause, h, Bool.false_or] at hg
  split at hg
  case isTrue hnone => rw [List.isEmpty_iff.mp hnone] at hg; exact absurd hg List.not_mem_nil
  case isFalse =>
    rw [gaps_foldl_dropGap, List.mem_filter] at hg
    simpa using hg.2

theorem probesOver_of_none {s : State} (h : s.ca.probing = 0) : probesOver s = s := if_pos h

theorem probesOver_of_some {s : State} (h : s.ca.probing ≠ 0) :
    probesOver s = gapPause { s with ca := { s.ca with probing := 0 } } := if_neg h

theorem frame_ca (c : CmdPath) (s : State) : Frame [.ca] [] s { s with ca := c } := by
  refine ⟨fun p hp => ?_, fun _ _ => rfl⟩
  cases p with
  | ca => exact absurd (List.mem_singleton_self _) hp
  | _ => rfl

theorem probing_probesOver (s : State) : (probesOver s).ca.probing = 0 := by
  by_cases h : s.ca.probing = 0
  · rw [probesOver_of_none h, h]
  · rw [probesOver_of_some h, (frame_gapPause _).1 .ca (by decide)]

theorem frame_probesOver (s : State) :
    Frame [.ca, .cb, .con] [Fld.CB_DSTAT_GAPRUN.addr, Fld.CN_STAT2_EVLOST.addr] s (probesOver s) :=
  .ite (.refl _ _ s) ((frame_ca _ s).trans (frame_gapPause _))

/-- A tick up to the end of the probes: the timer counts, the pulse is over, TICK_DISC falls where XOSC stops. -/
def tickBegun (s : State) : State :=
  let s1 := { s with aon := s.aon + 1, pins := { s.pins with halertBusy := false, halertOwed := false } }
  if xoscStopped s then discRestart s1 else s1

theorem idleTick_of_held {s : State} (h : s.boot = .held) : idleTick s = s := if_pos h

theorem idleTick_of_free {s : State} (h : s.boot ≠ .held) :
    idleTick s = if (probesOver (tickBegun s)).aon = 0 then trace 0x0107 0 (probesOver (tickBegun s))
      else probesOver (tickBegun s) := if_neg h

theorem tickBegun_of_running {s : State} (h : xoscStopped s = false) : tickBegun s =
    { s with aon := s.aon + 1, pins := { s.pins with halertBusy := false, halertOwed := false } } := by
  rw [tickBegun, h]
  rfl

theorem frame_aon_pins (t : Time) (b : Pins) (s : State) : Frame [.aon, .pins] [] s { s with aon := t, pins := b } := by
  refine ⟨fun p hp => ?_, fun _ _ => rfl⟩
  cases p with
  | aon => exact absurd (by decide) hp
  | pins => exact absurd (by decide) hp
  | _ => rfl

theorem frame_discRestart (s : State) : Frame [.clk] [Fld.CK_STATUS_TICK_DISC.addr] s (discRestart s) :=
  (frame_setF Fld.CK_STATUS_TICK_DISC 0 s).trans (frame_clk _ _)

theorem frame_tickBegun (s : State) : Frame [.aon, .pins, .clk] [Fld.CK_STATUS_TICK_DISC.addr] s (tickBegun s) :=
  .ite (((frame_aon_pins _ _ s).trans (frame_discRestart _)).mono (by decide) (by decide))
    ((frame_aon_pins _ _ s).mono (by decide) (by decide))

theorem aon_tickBegun (s : State) : (tickBegun s).aon = s.aon + 1 := by
  rw [tickBegun]
  split <;> rfl

theorem ca_tickBegun (s : State) : (tickBegun s).ca = s.ca := (frame_tickBegun s).1 .ca (by decide)

theorem flag_setF_zero {f : Field} (hf : f.Named) (s : State) : flag (setF f 0 s) f = false := by
  simp [flag, getF_setF_same hf]

theorem named_tickDisc : Fld.CK_STATUS_TICK_DISC.Named := by decide +kernel

theorem tickDisc_tickBegun_of_stopped {s : State} (h : xoscStopped s = true) :
    flag (tickBegun s) Fld.CK_STATUS_TICK_DISC = false := by
  rw [tickBegun, if_pos h]
  exact flag_setF_zero named_tickDisc _

/-- What follows the probes of a tick is at most one trace entry. -/
theorem frame_idleTick {s : State} (h : s.boot ≠ .held) :
    Frame [.tr] [Fld.TR_LOST_RING.addr] (probesOver (tickBegun s)) (idleTick s) := by
  rw [idleTick_of_free h]
  exact .ite (frame_trace _ _ _) (.refl _ _ _)

/-- Where no gap trial is dropped the probes leave the rest of the state. -/
theorem frame_probesOver_of_quiet {s : State}
    (h : s.ca.probing = 0 ∨ flag s Fld.CB_CTRL_GAP_EN = true ∨ s.cb.gaps = []) : Frame [.ca] [] s (probesOver s) := by
  by_cases hp : s.ca.probing = 0
  · rw [probesOver_of_none hp]
    exact .refl _ _ s
  · have hquiet : gapPause { s with ca := { s.ca with probing := 0 } } = { s with ca := { s.ca with probing := 0 } } :=
      gapPause_of_quiet (h.resolve_left hp)
    rw [probesOver_of_some hp, hquiet]
    exact frame_ca _ s

/-- Settles O2: a tick is its begun part, the end of the probes, and at the wrap a trace entry. -/
theorem emptyQueueLetsOneTickPass : Obligations.EmptyQueueLetsOneTickPass := by
  intro s hempty
  refine ⟨idleTick s, by rw [step, hempty], ?aon, ?pending, idleTick_of_held, ?probing, ?quiet, ?gaps⟩
  case aon =>
    split
    case isTrue h => rw [idleTick_of_held h]
    case isFalse h =>
      rw [(frame_idleTick h).1 .aon (by decide), (frame_probesOver _).1 .aon (by decide), aon_tickBegun]
  case pending =>
    by_cases h : s.boot = .held
    · rw [idleTick_of_held h, hempty]
    · rw [(frame_idleTick h).1 .pending (by decide), (frame_probesOver _).1 .pending (by decide),
        (frame_tickBegun s).1 .pending (by decide), hempty]
  case probing =>
    intro h
    rw [(frame_idleTick h).1 .ca (by decide), probing_probesOver]
  case quiet =>
    intro hquiet
    by_cases h : s.boot = .held
    · rw [idleTick_of_held h]
      exact ⟨.refl _ _ s, fun _ => rfl, fun _ => ⟨rfl, rfl⟩, fun _ hfree => absurd h hfree⟩
    · have hbegun := frame_tickBegun s
      have hprobes : Frame [.ca] [] (tickBegun s) (probesOver (tickBegun s)) := frame_probesOver_of_quiet (by
        rwa [ca_tickBegun, hbegun.flag_eq (by decide), hbegun.1 .cb (by decide)])
      have hafter : Frame [.ca, .tr] [Fld.TR_LOST_RING.addr] (tickBegun s) (idleTick s) := hprobes.trans (frame_idleTick h)
      refine ⟨(hbegun.trans hafter).mono (by decide) (by decide), fun hnone => ?_, fun hrun => ?_, fun hstop _ => ?_⟩
      · rw [(frame_idleTick h).1 .ca (by decide), probesOver_of_none (by rwa [ca_tickBegun]), ca_tickBegun]
      · rw [hafter.1 .clk (by decide), hafter.flag_eq (by decide), tickBegun_of_running hrun]
        exact ⟨rfl, rfl⟩
      · rw [hafter.flag_eq (by decide), tickDisc_tickBegun_of_stopped hstop]
  case gaps =>
    intro h hsome hoff
    rw [(frame_idleTick h).1 .cb (by decide), probesOver_of_some (by rwa [ca_tickBegun])]
    exact gaps_gapPause (((frame_tickBegun s).flag_eq (by decide)).trans hoff)

end Sys2Proof.Machine

namespace Sys2Proof.Machine

/-! ### The operations of Table LO-7 -/

/-- Signed saturation is a clamp between the least and the greatest value of the width. -/
theorem opAddResult_signed (w v a : Nat) (hw : 0 < w) :
    let t := signed (8 * w) v + signed (8 * w) a
    let r := max (-2 ^ (8 * w - 1)) (min (2 ^ (8 * w - 1) - 1) t)
    opAddResult 2 w v a = ⟨some (unsigned (8 * w) r), unsigned (8 * w) r, 1, decide (r ≠ t)⟩ := by
  intro t r
  have hhalf : ((2 ^ (8 * w) / 2 : Nat) : Int) = 2 ^ (8 * w - 1) := by
    rw [show 8 * w = 8 * w - 1 + 1 by omega, Nat.pow_succ, Nat.mul_div_cancel _ (by decide)]
    push_cast
    rfl
  have hpos : (0 : Int) < 2 ^ (8 * w - 1) := by positivity
  have hclamp : (if ((2 ^ (8 * w) / 2 : Nat) : Int) - 1 < t then ((2 ^ (8 * w) / 2 : Nat) : Int) - 1
      else if t < -((2 ^ (8 * w) / 2 : Nat) : Int) then -((2 ^ (8 * w) / 2 : Nat) : Int) else t) = r := by
    rw [hhalf]
    split
    · omega
    · split <;> omega
  show (⟨some (unsigned (8 * w) _), unsigned (8 * w) _, 1, decide (_ ≠ t)⟩ : OpResult) = _
  rw [hclamp]

theorem opResult_of_swap {line : Nat} (v : Nat) (h : descOpcode line = opcSwap) :
    opResult line v = ⟨some (descOperand line 8), descOperand line 8, 1, false⟩ := by
  simp [opResult, h, opcSwap, opcAdd]

theorem opResult_of_cas {line : Nat} (v : Nat) (h : descOpcode line = opcCas) :
    opResult line v = if v = descOperand line 8 then ⟨some (descOperand line 16), descOperand line 16, 1, false⟩
      else ⟨none, v, 2, false⟩ := by
  simp [opResult, h, opcSwap, opcAdd, opcCas]

theorem opResult_of_read {line : Nat} (v : Nat) (h : descOpcode line = opcRead) : opResult line v = ⟨none, v, 1, false⟩ := by
  simp [opResult, h, opcSwap, opcAdd, opcCas, opcRead]

/-- Settles O40. -/
theorem atomicResultsAreRight : Obligations.AtomicResultsAreRight := by
  intro line v a w hw _ _
  have hpos : 0 < w := by omega
  refine ⟨rfl, ?unsigned, ?signed, opResult_of_swap v, ?_, ?_, opResult_of_read v⟩
  case unsigned =>
    have hm : 0 < 2 ^ (8 * w) := Nat.two_pow_pos _
    simp only [opAddResult]
    split
    · rw [Nat.min_eq_right (by omega)]
    · rw [Nat.min_eq_left (by omega)]
  case signed =>
    intro t hi lo
    rw [opAddResult_signed w v a hpos]
    refine ⟨rfl, ?_⟩
    have hpow : (0 : Int) < 2 ^ (8 * w - 1) := by positivity
    simp only [decide_eq_true_eq]
    omega
  · exact fun h hv => by rw [opResult_of_cas v h, if_pos hv]
  · exact fun h hv => by rw [opResult_of_cas v h, if_neg hv]

end Sys2Proof.Machine

namespace Sys2Proof.Machine

/-! ### Op slots: the oldest descriptor (R274, R281) -/

theorem exec_op (s : State) : exec .opClear s = .next (opStep opcClear s) ∧ exec .opRead s = .next (opStep opcRead s) ∧
    exec .opAdd s = .next (opStep opcAdd s) ∧ exec .opSwap s = .next (opStep opcSwap s) ∧
    exec .opCas s = .next (opStep opcCas s) := ⟨rfl, rfl, rfl, rfl, rfl⟩

/-- What follows the last descriptor while the slots are being switched off (R287). -/
def opSettled (rest : List OpDesc) (t : State) : State :=
  if rest = [] && !flag t Fld.LD_OPCFG_EN then completeTokens waitOps "ok" t else t

theorem opStep_of_none {s : State} (opc : Nat) (h : s.ld.ops = []) : opStep opc s = s := by
  rw [opStep, h]

theorem opStep_of_other {s : State} {o : OpDesc} {rest : List OpDesc} {opc : Nat} (h : s.ld.ops = o :: rest)
    (hother : descOpcode o.line.toNat ≠ opc) (hknown : opcKnown (descOpcode o.line.toNat) = true) : opStep opc s = s := by
  simp [opStep, h, hother, hknown]

theorem opStep_of_due {s : State} {o : OpDesc} {rest : List OpDesc} {opc : Nat} (h : s.ld.ops = o :: rest)
    (hdue : descOpcode o.line.toNat = opc ∨ opcKnown (descOpcode o.line.toNat) = false) :
    opStep opc s = opSettled rest (opExecute o { s with ld := { s.ld with ops := rest } }) := by
  rw [opStep, h]
  exact if_pos (by rcases hdue with hdue | hdue <;> simp [hdue])

theorem opExecute_of_bad {o : OpDesc} {s : State} (h : o.status ≠ 0) : opExecute o s =
    let e := opError o.slot o.status (putResult o.slot (resultLine o.table o.line.toNat o.status 0 0 0 0) s)
    if o.status = 0x16 then e else raise 2 (synOp o.slot o.status) e := if_pos h

theorem opExecute_of_replay {o : OpDesc} {s : State} (h : o.status = 0) (hreplay : o.replay = true) :
    opExecute o s = incF Fld.LD_OPREP_REPLAYS s := by simp [opExecute, h, hreplay]

theorem opExecute_of_clear {o : OpDesc} {s : State} (h : o.status = 0) (hfresh : o.replay = false)
    (hop : descOpcode o.line.toNat = opcClear) : opExecute o s = clearSlot (emptyChecks o.table) o.slot s := by
  simp [opExecute, h, hfresh, hop]

theorem opExecute_of_run {o : OpDesc} {s : State} (h : o.status = 0) (hfresh : o.replay = false)
    (hop : descOpcode o.line.toNat ≠ opcClear) : opExecute o s = opRun o.table o.slot o.line.toNat s := by
  simp [opExecute, h, hfresh, hop]

/-! ### Op slots: a descriptor arrives (R281, R285) -/

theorem ops_readWord (port req l w : Nat) (s : State) : (readWord port req l w s).2.ld.ops = s.ld.ops := by
  have hinj : (takeLedgerInj port s).2.ld = s.ld := by
    rw [takeLedgerInj]
    split <;> rfl
  have hevent (ue : Bool) (syn : Byte) :
      (ledgerEvent ue req l w syn (takeLedgerInj port s).2).ld.ops = s.ld.ops := by rw [ledgerEvent_ld, hinj]
  simp only [readWord]
  split
  · exact hevent _ _
  · split
    · split
      · exact hevent _ _
      · exact hevent _ _
    · exact congrArg Ledger.ops hinj

/-- A read through SECDED leaves the descriptors. -/
theorem ops_readWords (port req l : Nat) (ws : List Nat) (s : State) : (readWords port req l ws s).2.ld.ops = s.ld.ops := by
  induction ws generalizing s with
  | nil => rfl
  | cons w ws ih => exact (ih _).trans (ops_readWord port req l w s)

/-- What the replay guard says of a line as it arrives, and the state after its reads. -/
def opGuarded (slot n : Nat) (s : State) : Bool × State :=
  if opStatus s n = 0 && descOnce n then opReplay slot n s else (false, s)

theorem opReceive_eq (slot n : Nat) (s : State) : opReceive slot n s =
    let g := opGuarded slot n s
    { g.2 with ld := { g.2.ld with ops := g.2.ld.ops ++ [⟨slot, BitVec.ofNat 640 n, s.lg.table, opStatus s n, g.1⟩] } } := rfl

theorem opGuarded_of_not_once {n : Nat} (slot : Nat) (s : State) (h : descOnce n = false) :
    opGuarded slot n s = (false, s) := by simp [opGuarded, h]

theorem ops_opGuarded (slot n : Nat) (s : State) : (opGuarded slot n s).2.ld.ops = s.ld.ops := by
  rw [opGuarded]
  split
  · exact ops_readWords _ _ _ _ s
  · rfl

/-- Settles O39: a row runs the oldest descriptor where it is its own or of no row, and each such run is one of four. -/
theorem opSlotsExecuteInOrder : Obligations.OpSlotsExecuteInOrder := by
  intro s o rest slot line u settle valid
  obtain ⟨hclear, hread, hadd, hswap, hcas⟩ := exec_op s
  rw [hclear, hread, hadd, hswap, hcas]
  have hother {opc c : Nat} (hops : s.ld.ops = o :: rest) (hop : descOpcode line = c) (hne : c ≠ opc)
      (hknown : opcKnown c = true) : (.next (opStep opc s) : Host.Outcome State Fault Refusal) = .next s := by
    rw [opStep_of_other hops (by rw [hop]; exact hne) (by rw [hop]; exact hknown)]
  have hrun {opc : Nat} (hvalid : valid) (hop : descOpcode line = opc) (hne : opc ≠ opcClear) :
      (.next (opStep opc s) : Host.Outcome State Fault Refusal) = .next (settle (opRun o.table o.slot line u)) := by
    obtain ⟨hops, hstatus, hfresh⟩ := hvalid
    rw [opStep_of_due hops (.inl hop), opExecute_of_run hstatus hfresh (by rw [hop]; exact hne)]
    rfl
  refine ⟨fun h => ?none, fun hops hop => ?other, fun hvalid hop => ?clear, fun hvalid hop => hrun hvalid hop (by decide),
    fun hvalid hop => hrun hvalid hop (by decide), fun hvalid hop => hrun hvalid hop (by decide),
    fun hvalid hop => hrun hvalid hop (by decide), fun hops hstatus hreplay => ?replay, fun hops hstatus => ?bad, fun n => ?receive⟩
  case none => simp only [opStep_of_none _ h, and_self]
  case other =>
    exact ⟨hother hops hop (by decide) (by decide), hother hops hop (by decide) (by decide),
      hother hops hop (by decide) (by decide), hother hops hop (by decide) (by decide)⟩
  case clear =>
    obtain ⟨hops, hstatus, hfresh⟩ := hvalid
    rw [opStep_of_due hops (.inl hop), opExecute_of_clear hstatus hfresh hop]
    rfl
  case replay =>
    have hcount {opc : Nat} (hop : descOpcode line = opc) : (.next (opStep opc s) : Host.Outcome State Fault Refusal) =
        .next (settle (incF Fld.LD_OPREP_REPLAYS u)) := by
      rw [opStep_of_due hops (.inl hop), opExecute_of_replay hstatus hreplay]
      rfl
    exact ⟨hcount, hcount, hcount, hcount, hcount⟩
  case bad =>
    intro e t
    have hfail {opc : Nat} (hop : descOpcode line = opc ∨ opcKnown (descOpcode line) = false) :
        (.next (opStep opc s) : Host.Outcome State Fault Refusal) = .next t := by
      rw [opStep_of_due hops hop, opExecute_of_bad hstatus]
      rfl
    exact ⟨fun h => ⟨hfail (.inr h), hfail (.inr h), hfail (.inr h), hfail (.inr h), hfail (.inr h)⟩,
      fun h => hfail (.inl h), fun h => hfail (.inl h), fun h => hfail (.inl h), fun h => hfail (.inl h),
      fun h => hfail (.inl h)⟩
  case receive =>
    refine ⟨⟨slot, BitVec.ofNat 640 n, s.lg.table, opStatus s n, (opGuarded slot n s).1⟩, ?_, rfl, rfl, rfl, rfl,
      fun h => ?_, fun h => ?_⟩
    · rw [opReceive_eq, ← ops_opGuarded slot n s]
    · rw [opGuarded_of_not_once slot s h]
    · rw [opReceive_eq, opGuarded_of_not_once slot s h]
      exact frame_ld _ s

end Sys2Proof.Machine

namespace Sys2Proof.Machine

/-! ### The parts of a march run (R292, Table MT-4) -/

/-- The parts of a run before the arrays that it does not test leave them. -/
def plannedParts (spares : Bool) : List MarchPart :=
  ⟨1, false, bankGroup 0 ++ [18, 19]⟩ :: (List.range 3).map (fun g => ⟨g + 2, false, bankGroup (g + 1)⟩)
    ++ (if spares then (List.range 4).map (fun g => ⟨5, true, bankGroup g⟩) else [])
    ++ [⟨6, false, [17]⟩, ⟨7, false, [16]⟩]

/-- A part with the arrays that a run tests. -/
def testedPart (r : MarchRun) (p : MarchPart) : MarchPart := { p with arrays := p.arrays.filter (arrayTested r) }

theorem marchParts_eq (r : MarchRun) :
    marchParts r = ((plannedParts r.spares).map (testedPart r)).filter (fun p => !p.arrays.isEmpty) := rfl

theorem mem_marchParts {r : MarchRun} {p : MarchPart} :
    p ∈ marchParts r ↔ (∃ q ∈ plannedParts r.spares, testedPart r q = p) ∧ p.arrays ≠ [] := by
  rw [marchParts_eq, List.mem_filter, List.mem_map, Bool.not_eq_true', List.isEmpty_eq_false_iff]

theorem plannedParts_spare : ∀ b, ∀ q ∈ plannedParts b, q.spare = true → b = true ∧ ∀ a ∈ q.arrays, a < 16 := by decide

theorem plannedParts_cover : ∀ b, ∀ a < 20, ∃ q ∈ plannedParts b, q.spare = false ∧ a ∈ q.arrays := by decide

theorem tested_of_mem_marchParts {r : MarchRun} {p : MarchPart} (h : p ∈ marchParts r) : ∀ a ∈ p.arrays, arrayTested r a = true := by
  obtain ⟨⟨q, _, rfl⟩, _⟩ := mem_marchParts.mp h
  exact fun a ha => (List.mem_filter.mp ha).2

theorem spare_of_mem_marchParts {r : MarchRun} {p : MarchPart} (h : p ∈ marchParts r) (hspare : p.spare = true) :
    r.spares = true ∧ ∀ a ∈ p.arrays, a < 16 := by
  obtain ⟨⟨q, hq, rfl⟩, _⟩ := mem_marchParts.mp h
  obtain ⟨hon, hbanks⟩ := plannedParts_spare _ q hq hspare
  exact ⟨hon, fun a ha => hbanks a (List.mem_filter.mp ha).1⟩

theorem marchParts_cover {r : MarchRun} {a : Nat} (h : arrayTested r a = true) :
    ∃ p ∈ marchParts r, p.spare = false ∧ a ∈ p.arrays := by
  have hlt : a < 20 := by
    simp only [arrayTested, Bool.and_eq_true, decide_eq_true_eq] at h
    exact h.1.1
  obtain ⟨q, hq, hmain, ha⟩ := plannedParts_cover r.spares a hlt
  have hmem : a ∈ (testedPart r q).arrays := List.mem_filter.mpr ⟨ha, h⟩
  exact ⟨testedPart r q, mem_marchParts.mpr ⟨⟨q, hq, rfl⟩, List.ne_nil_of_mem hmem⟩, hmain, hmem⟩

/-! ### The reads that a run makes (R290, R291) -/

/-- A part makes a read only at a word of the array and with one of its backgrounds. -/
theorem readTime_isSome {r : MarchRun} {x : MarchRead} (h : (readTime r x).isSome = true) :
    x.word.toNat < arrayWords x.array ∧ x.bg.toNat ∈ r.bgs := by
  simp only [readTime] at h
  split at h
  case h_1 e bi he hbg =>
    have hmem : x.bg.toNat ∈ r.bgs := by
      obtain ⟨hlt, hfound, _⟩ := List.findIdx?_eq_some_iff_getElem.mp hbg
      rw [← of_decide_eq_true hfound]
      exact List.getElem_mem hlt
    split at h
    · split at h
      · exact absurd h (by decide)
      case isFalse hin =>
        simp only [Bool.or_eq_true, decide_eq_true_eq, not_or] at hin
        exact ⟨by omega, hmem⟩
    · exact absurd h (by decide)
  case h_2 => exact absurd h (by decide)

/-- A run makes a read in a part of it that has the array. -/
theorem readAt_isSome {r : MarchRun} {x : MarchRead} {t0 : Nat} {ps : List MarchPart}
    (h : (readAt r x t0 ps).isSome = true) :
    ∃ p ∈ ps, p.spare = x.spare ∧ x.array ∈ p.arrays ∧ (readTime (partRun r p) x).isSome = true := by
  induction ps generalizing t0 with
  | nil => exact absurd h (by simp [readAt])
  | cons p ps ih =>
    rw [readAt] at h
    split at h
    case isTrue hp =>
      simp only [Bool.and_eq_true, decide_eq_true_eq, List.contains_iff_mem] at hp
      exact ⟨p, List.mem_cons_self, hp.1, hp.2, by rwa [Option.isSome_map] at h⟩
    case isFalse =>
      obtain ⟨q, hq, hread⟩ := ih h
      exact ⟨q, List.mem_cons_of_mem p hq, hread⟩

/-- What a read that a run makes is one of. -/
theorem madeRead {r : MarchRun} {x : MarchRead} (h : (readAt r x 0 (marchParts r)).isSome = true) :
    arrayTested r x.array = true ∧ x.word.toNat < arrayWords x.array ∧
      (x.spare = true → r.spares = true ∧ x.bg = 0 ∧ x.array < 16) ∧ (x.spare = false → x.bg.toNat ∈ r.bgs) := by
  obtain ⟨p, hp, hspare, harray, htime⟩ := readAt_isSome h
  obtain ⟨hword, hbg⟩ := readTime_isSome htime
  refine ⟨tested_of_mem_marchParts hp _ harray, hword, fun hx => ?_, fun hx => ?_⟩
  · rw [hx] at hspare
    obtain ⟨hon, hbanks⟩ := spare_of_mem_marchParts hp hspare
    rw [partRun, if_pos hspare, List.mem_singleton] at hbg
    exact ⟨hon, BitVec.eq_of_toNat_eq hbg, hbanks _ harray⟩
  · rwa [partRun, if_neg (by simp [hspare, hx])] at hbg

/-! ### The failing reads (R298) -/

/-- The failure of a read: none where the run does not make it, or it returns what it expects. -/
def failOf (r : MarchRun) (x : MarchRead) : Option MarchFail :=
  match readAt r x 0 (marchParts r) with
  | none => none
  | some t => if failBits r x = 0 then none else some ⟨t * 32 + x.array, x, failBits r x⟩

/-- Failures put one after the other in the order of execution. -/
def ordered (l fs : List MarchFail) : List MarchFail := fs.foldl (fun l f => insertFail f l) l

theorem marchFails_eq (r : MarchRun) (reads : List MarchRead) : marchFails r reads = ordered [] (reads.filterMap (failOf r)) := by
  rw [ordered, List.foldl_filterMap, marchFails]
  congr 1
  funext l x
  rw [failOf]
  cases readAt r x 0 (marchParts r) with
  | none => rfl
  | some t =>
    by_cases hbits : failBits r x = 0
    · simp only [if_pos hbits]
    · simp only [if_neg hbits]

theorem failOf_eq_some {r : MarchRun} {x : MarchRead} {f : MarchFail} (h : failOf r x = some f) :
    f.read = x ∧ f.bits = failBits r x ∧ f.bits ≠ 0 ∧ (readAt r x 0 (marchParts r)).isSome = true := by
  rw [failOf] at h
  split at h
  · exact absurd h (by simp)
  case h_2 t hmade =>
    split at h
    · exact absurd h (by simp)
    case isFalse hbits =>
      injection h with hf
      subst hf
      exact ⟨rfl, rfl, hbits, by rw [hmade]; rfl⟩

theorem mem_insertFail {f g : MarchFail} {l : List MarchFail} (h : g ∈ insertFail f l) : g = f ∨ g ∈ l := by
  induction l with
  | nil => exact .inl (List.mem_singleton.mp h)
  | cons k l ih =>
    rw [insertFail] at h
    split at h
    · exact List.mem_cons.mp h
    · split at h
      · exact .inr h
      · rcases List.mem_cons.mp h with h | h
        · exact .inr (h ▸ List.mem_cons_self)
        · exact (ih h).imp_right (List.mem_cons_of_mem k)

theorem mem_insertFail_of_mem {f g : MarchFail} {l : List MarchFail} (h : g ∈ l) : g ∈ insertFail f l := by
  induction l with
  | nil => exact absurd h List.not_mem_nil
  | cons k l ih =>
    rw [insertFail]
    split
    · exact List.mem_cons_of_mem f h
    · split
      · exact h
      · rcases List.mem_cons.mp h with h | h
        · exact h ▸ List.mem_cons_self
        · exact List.mem_cons_of_mem k (ih h)

/-- After an insertion some failure stands at the place. -/
theorem insertFail_has_place (f : MarchFail) (l : List MarchFail) : ∃ g ∈ insertFail f l, g.at_ = f.at_ := by
  induction l with
  | nil => exact ⟨f, List.mem_singleton_self f, rfl⟩
  | cons k l ih =>
    rw [insertFail]
    split
    · exact ⟨f, List.mem_cons_self, rfl⟩
    · split
      case isTrue heq => exact ⟨k, List.mem_cons_self, heq.symm⟩
      · obtain ⟨g, hg, hat⟩ := ih
        exact ⟨g, List.mem_cons_of_mem k hg, hat⟩

theorem pairwise_insertFail (f : MarchFail) {l : List MarchFail} (h : l.Pairwise (fun f g => f.at_ < g.at_)) :
    (insertFail f l).Pairwise (fun f g => f.at_ < g.at_) := by
  induction l with
  | nil => exact List.pairwise_singleton _ f
  | cons k l ih =>
    obtain ⟨hk, hl⟩ := List.pairwise_cons.mp h
    rw [insertFail]
    split
    case isTrue hlt =>
      refine List.pairwise_cons.mpr ⟨fun g hg => ?_, h⟩
      rcases List.mem_cons.mp hg with hg | hg
      · rwa [hg]
      · exact Nat.lt_trans hlt (hk g hg)
    case isFalse hge =>
      split
      · exact h
      case isFalse hne =>
        refine List.pairwise_cons.mpr ⟨fun g hg => ?_, ih hl⟩
        rcases mem_insertFail hg with hg | hg
        · rw [hg]; omega
        · exact hk g hg

theorem mem_ordered {g : MarchFail} {l fs : List MarchFail} (h : g ∈ ordered l fs) : g ∈ l ∨ g ∈ fs := by
  induction fs generalizing l with
  | nil => exact .inl h
  | cons f fs ih =>
    rcases ih h with h | h
    · exact (mem_insertFail h).elim (fun h => .inr (h ▸ List.mem_cons_self)) .inl
    · exact .inr (List.mem_cons_of_mem f h)

theorem mem_ordered_of_mem {g : MarchFail} {l : List MarchFail} (fs : List MarchFail) (h : g ∈ l) : g ∈ ordered l fs := by
  induction fs generalizing l with
  | nil => exact h
  | cons f fs ih => exact ih (mem_insertFail_of_mem h)

theorem ordered_has_place {f : MarchFail} {l fs : List MarchFail} (h : f ∈ fs) : ∃ g ∈ ordered l fs, g.at_ = f.at_ := by
  induction fs generalizing l with
  | nil => exact absurd h List.not_mem_nil
  | cons k fs ih =>
    rcases List.mem_cons.mp h with rfl | h
    · obtain ⟨g, hg, hat⟩ := insertFail_has_place f l
      exact ⟨g, mem_ordered_of_mem fs hg, hat⟩
    · exact ih h

theorem pairwise_ordered {l : List MarchFail} (fs : List MarchFail) (h : l.Pairwise (fun f g => f.at_ < g.at_)) :
    (ordered l fs).Pairwise (fun f g => f.at_ < g.at_) := by
  induction fs generalizing l with
  | nil => exact h
  | cons f fs ih => exact ih (pairwise_insertFail f h)

/-- Every failing read is the failure of a read that the run makes. -/
theorem mem_marchFails {r : MarchRun} {reads : List MarchRead} {f : MarchFail} (h : f ∈ marchFails r reads) :
    ∃ x ∈ reads, failOf r x = some f := by
  rw [marchFails_eq] at h
  exact List.mem_filterMap.mp ((mem_ordered h).resolve_left List.not_mem_nil)

/-- The operations of the two algorithms, one after the other. -/
theorem marchElements_expect : ∀ ext : Bool, ∀ i < 13, ∀ a ∈ ((marchElements ext).flatMap (·.ops))[i]?,
    ∀ b ∈ ((marchElements ext).flatMap (·.ops))[i + 1]?, b.read = true → b.one = a.one := by decide

theorem marchElements_length : ∀ ext : Bool, ((marchElements ext).flatMap (·.ops)).length ≤ 14 := by decide

theorem marchElements_write : ∀ ext : Bool, (((marchElements ext).flatMap (·.ops))[0]?).map (·.read) = some false := by decide

/-- Settles O42. -/
theorem marchRunsFollowTheirTables : Obligations.MarchRunsFollowTheirTables := by
  intro r reads x ext
  refine ⟨rfl, rfl, ⟨marchElements_write ext, fun i hi a b ha hb => ?expect⟩, fun p hp => ?part, fun a => marchParts_cover,
    fun f hf => ?fails, fun t hx hbits hmade => ?found, ⟨fun hbg hmain => ?background, fun harray => ?array⟩, ?order⟩
  case expect =>
    have hlength := marchElements_length ext
    exact marchElements_expect ext i (by omega) a ha b hb
  case part => exact ⟨(mem_marchParts.mp hp).2, tested_of_mem_marchParts hp, spare_of_mem_marchParts hp⟩
  case fails =>
    obtain ⟨y, hy, hfail⟩ := mem_marchFails hf
    obtain ⟨rfl, hbits, hne, hmade⟩ := failOf_eq_some hfail
    obtain ⟨htested, hword, hspare, _⟩ := madeRead hmade
    exact ⟨hy, hbits, hne, htested, hword, hspare⟩
  case found =>
    have hfail : failOf r x = some ⟨t * 32 + x.array, x, failBits r x⟩ := by
      rw [failOf, hmade]
      exact if_neg hbits
    rw [marchFails_eq]
    exact ordered_has_place (List.mem_filterMap.mpr ⟨x, hx, hfail⟩)
  case background =>
    refine Option.not_isSome_iff_eq_none.mp fun hmade => hbg ?_
    obtain ⟨_, _, _, hin⟩ := madeRead hmade
    exact hin hmain
  case array =>
    refine Option.not_isSome_iff_eq_none.mp fun hmade => ?_
    rw [(madeRead hmade).1] at harray
    exact Bool.noConfusion harray
  case order =>
    rw [marchFails_eq]
    exact pairwise_ordered _ List.Pairwise.nil

end Sys2Proof.Machine

namespace Sys2Proof.Machine

/-! ### Reads of a map that forgot some keys -/

theorem smGet_smDrop {w : Nat} (d : Nat → BitVec w) (m : SMap w) (p : Nat → Bool) (k : Nat) :
    smGet d (smDrop m p) k = if p k then d k else smGet d m k := by
  induction m with
  | nil => exact (ite_self _).symm
  | cons e t ih =>
    have hcons : smDrop (e :: t) p = if p e.1 then smDrop t p else e :: smDrop t p := by
      rw [smDrop, smDrop, List.filter_cons]
      cases p e.1 <;> rfl
    rw [hcons]
    by_cases he : e.1 = k
    · subst he
      by_cases hp : p e.1 = true
      · simp only [hp, if_true, ih]
      · simp only [hp, if_false, smGet, if_true, Bool.false_eq_true]
    · by_cases hp : p e.1 = true
      · simp only [hp, if_true, ih, smGet, he, if_false]
      · simp only [hp, if_false, smGet, he, ih, Bool.false_eq_true]

theorem smGet_smDrop_of_kept {w : Nat} {d : Nat → BitVec w} {p : Nat → Bool} {k : Nat} (h : p k = false) (m : SMap w) :
    smGet d (smDrop m p) k = smGet d m k := by rw [smGet_smDrop, h]; rfl

/-- Registers that a reset does not name read as before. -/
theorem reg_resetRegs_of_kept {p : Nat → Bool} {a : Nat} (h : p a = false) (s : State) : reg (resetRegs p s) a = reg s a :=
  smGet_smDrop_of_kept h s.regs

end Sys2Proof.Machine

namespace Sys2Proof.Machine

/-! ### March runs on request (R295, R298) -/

theorem exec_marchStart (s : State) : exec .marchStart s =
    .next (if flag s Fld.MT_STATUS_BUSY || saving s || !marchAllowed s then s else marchBegin s) := rfl

theorem exec_marchEnd (reads : List MarchRead) (s : State) : exec (.marchAbort reads) s = .next (marchEnd true reads s) ∧
    exec (.marchDone reads) s = .next (marchEnd false reads s) := ⟨rfl, rfl⟩

theorem marchEnd_of_idle {s : State} (h : marchBusy s = false) (aborted : Bool) (reads : List MarchRead) :
    marchEnd aborted reads s = s := if_pos (by simp [h])

/-- The engine's flags of MT_STATUS are bits of it, apart from each other (Table MT-6). -/
theorem apart_marchStatus : Fld.MT_STATUS_BUSY.Apart Fld.MT_STATUS_PHASE ∧ Fld.MT_STATUS_BUSY.Apart Fld.MT_STATUS_ORIGIN ∧
    Fld.MT_STATUS_BUSY.Apart Fld.MT_STATUS_BURNING ∧ Fld.MT_STATUS_DONE.Apart Fld.MT_STATUS_PHASE ∧
    Fld.MT_STATUS_DONE.Apart Fld.MT_STATUS_ORIGIN ∧ Fld.MT_STATUS_DONE.Apart Fld.MT_STATUS_BUSY ∧
    Fld.MT_STATUS_BURNING.Apart Fld.MT_STATUS_PHASE ∧ Fld.MT_STATUS_BURN_FAIL.Apart Fld.MT_STATUS_PHASE ∧
    Fld.MT_STATUS_BURN_FAIL.Apart Fld.MT_STATUS_BURNING ∧ Fld.MT_STATUS_BURN_FAIL.Apart Fld.MT_STATUS_BUSY ∧
    Fld.MT_STATUS_MEM_FAIL.Apart Fld.MT_STATUS_PASS ∧ Fld.MT_STATUS_PASS.Named := by decide +kernel

theorem flag_clearResults_done (s : State) : flag (clearResults s) Fld.MT_STATUS_DONE = false := by
  obtain ⟨_, _, _, ⟨hnamed, _⟩, _⟩ := apart_marchStatus
  have hreg : reg (clearResults s) Fld.MT_STATUS_DONE.addr =
      BitVec.ofNat 32 ((reg s Fld.MT_STATUS_BUSY.addr).toNat / 0x10000 % 4 * 0x10000) &&& regMask Fld.MT_STATUS_DONE.addr :=
    (reg_resetRegs_of_kept rfl _).trans reg_setReg_same
  have hread : getF (clearResults s) Fld.MT_STATUS_DONE = 0 := by
    rw [getF_of_reg_masked hnamed hreg, natBits, BitVec.toNat_ofNat, Nat.shiftRight_eq_div_pow]
    have hlow : (reg s Fld.MT_STATUS_BUSY.addr).toNat / 0x10000 % 4 < 4 := Nat.mod_lt _ (by decide)
    simp only [Fld.MT_STATUS_DONE]
    omega
  simp [flag, hread]

theorem marchBegin_shows (s : State) :
    flag (marchBegin s) Fld.MT_STATUS_BUSY = true ∧ flag (marchBegin s) Fld.MT_STATUS_DONE = false := by
  obtain ⟨hbusyPhase, hbusyOrigin, _, hdonePhase, hdoneOrigin, hdoneBusy, _⟩ := apart_marchStatus
  rw [marchBegin, flag_setF_of_apart hbusyPhase, flag_setF_of_apart hbusyOrigin, flag_setF_of_apart hdonePhase,
    flag_setF_of_apart hdoneOrigin, flag_setF_of_apart hdoneBusy]
  exact ⟨flag_setF_one hbusyPhase.1 (by decide) _, flag_clearResults_done s⟩

theorem recordFail_fc (f : MarchFail) (s : State) : (recordFail f s).fc = s.fc := by
  have hfirst (c : Bool) (a : Nat) (w : Word) (t : State) : (if c then t else setReg a w t).fc = t.fc := by
    cases c <;> rfl
  have hbank (a : Nat) (t : State) : (if a < 16 then setBitF Fld.MT_BFAIL_BANKS a true t else t).fc = t.fc := by
    split <;> rfl
  have hspare (hit : List Nat) (a : Nat) (t : State) : (if hit.isEmpty then t else spareBad a hit t).fc = t.fc := by
    split <;> rfl
  rw [recordFail, hspare, hbank, incF_fc, hfirst, setF_fc, setF_fc, setF_fc]

theorem foldl_recordFail_fc (fs : List MarchFail) (s : State) : (fs.foldl (fun t f => recordFail f t) s).fc = s.fc :=
  foldl_keeps State.fc (fun f _ t => recordFail_fc f t) s

/-- The summary of a run in MT_STATUS, before FS 62. -/
def runSummed (fs : List MarchFail) (s : State) : State :=
  setB Fld.MT_STATUS_PASS fs.isEmpty (setF Fld.MT_STATUS_MEM_FAIL (failedTargets fs)
    (fs.foldl (fun t f => recordFail f t) s))

theorem recordRun_eq (r : MarchRun) (reads : List MarchRead) (s : State) : recordRun r reads s =
    if (marchFails r reads).isEmpty then runSummed (marchFails r reads) s
    else raise 62 (synFs62 (marchFails r reads)) (runSummed (marchFails r reads) s) := rfl

theorem runSummed_fc (fs : List MarchFail) (s : State) : (runSummed fs s).fc = s.fc := by
  rw [runSummed, setB_fc, setF_fc, foldl_recordFail_fc]

theorem getF_recordRun (r : MarchRun) (reads : List MarchRead) (s : State) (f : Field) :
    getF (recordRun r reads s) f = getF (runSummed (marchFails r reads) s) f := by
  rw [recordRun_eq]
  split
  · rfl
  · exact getF_raise _ _ _ f

/-! ### Burns (R301, R302) -/

theorem exec_burnGo (bank : BitVec 4) (spare : BitVec 2) (col : BitVec 7) (s : State) : exec (.burnGo bank spare col) s =
    .next (if burnMode s || flag s Fld.MT_STATUS_BUSY || saving s || burnBad s bank.toNat spare.toNat col.toNat then s
      else burnStart bank.toNat spare.toNat col.toNat s) := rfl

/-- The entry that the fuses of a spare hold after a burn. -/
def burntEntry (s : State) (key c : Nat) (stuck : BitVec 9) : BitVec 9 :=
  smGet (zeroDefault 9) s.fuses.spares key ||| (fuseEntry c &&& ~~~stuck)

/-- Fuses and march unit at the end of a burn: the entry is in use only where it reads as asked. -/
def burnt (key c : Nat) (stuck : BitVec 9) (s : State) : State :=
  let f := blowFuses key (fuseEntry c &&& ~~~stuck) s.fuses
  if burntEntry s key c stuck = fuseEntry c then
    { s with
      fuses := { f with spoilt := s.fuses.spoilt.filter (· ≠ key) }
      mt := { s.mt with burn := none, steer := smSet (zeroDefault 9) s.mt.steer key (fuseEntry c),
                        torn := s.mt.torn.filter (· ≠ key) } }
  else { s with fuses := { f with spoilt := key :: s.fuses.spoilt.filter (· ≠ key) }, mt := { s.mt with burn := none } }

theorem burnEnd_of_none {s : State} (h : s.mt.burn = none) (stuck : BitVec 9) : burnEnd stuck s = s := by
  rw [burnEnd, h]

theorem burnEnd_of_burning {s : State} {b k c : Nat} (h : s.mt.burn = some (b, k, c)) (stuck : BitVec 9) :
    burnEnd stuck s = setF Fld.MT_STATUS_PHASE 0 (setF Fld.MT_STATUS_BURNING 0 (setF Fld.MT_STATUS_BUSY 0
      (setB Fld.MT_STATUS_BURN_FAIL (!decide (burntEntry s (b * 4 + k) c stuck = fuseEntry c)) (burnt (b * 4 + k) c stuck s)))) := by
  have hblown : smGet (zeroDefault 9) (blowFuses (b * 4 + k) (fuseEntry c &&& ~~~stuck) s.fuses).spares (b * 4 + k) =
      burntEntry s (b * 4 + k) c stuck := smGet_smSet_same _ _ _
  rw [burnEnd, h]
  simp only [hblown, burnt]
  by_cases hok : burntEntry s (b * 4 + k) c stuck = fuseEntry c
  · simp only [hok, decide_true, if_true]
  · simp only [hok, decide_false, if_false]

theorem spares_burnt (key c : Nat) (stuck : BitVec 9) (s : State) :
    smGet (zeroDefault 9) (burnt key c stuck s).fuses.spares key = burntEntry s key c stuck := by
  rw [burnt]
  split
  · exact smGet_smSet_same _ _ _
  · exact smGet_smSet_same _ _ _

theorem burn_burnt (key c : Nat) (stuck : BitVec 9) (s : State) : (burnt key c stuck s).mt.burn = none := by
  rw [burnt]
  split <;> rfl

/-- An entry that reads as asked steers, and is not torn. -/
theorem burnt_of_verified {key c : Nat} {stuck : BitVec 9} {s : State} (h : burntEntry s key c stuck = fuseEntry c) :
    smGet (zeroDefault 9) (burnt key c stuck s).mt.steer key = fuseEntry c ∧ key ∉ (burnt key c stuck s).mt.torn := by
  rw [burnt, if_pos h]
  exact ⟨smGet_smSet_same _ _ _, by simp⟩

/-- An entry that does not is torn from the next start-up on. -/
theorem burnt_of_unverified {key c : Nat} {stuck : BitVec 9} {s : State} (h : burntEntry s key c stuck ≠ fuseEntry c) :
    (burnt key c stuck s).mt.steer = s.mt.steer ∧ key ∈ (burnt key c stuck s).fuses.spoilt := by
  rw [burnt, if_neg h]
  exact ⟨rfl, List.mem_cons_self⟩

theorem burnEnd_flags {s : State} {b k c : Nat} (h : s.mt.burn = some (b, k, c)) (stuck : BitVec 9) :
    flag (burnEnd stuck s) Fld.MT_STATUS_BUSY = false ∧ flag (burnEnd stuck s) Fld.MT_STATUS_BURNING = false ∧
      flag (burnEnd stuck s) Fld.MT_STATUS_BURN_FAIL = decide (burntEntry s (b * 4 + k) c stuck ≠ fuseEntry c) := by
  obtain ⟨hbusyPhase, _, hbusyBurning, _, _, _, hburningPhase, hfailPhase, hfailBurning, hfailBusy, _⟩ := apart_marchStatus
  rw [burnEnd_of_burning h, flag_setF_of_apart hbusyPhase, flag_setF_of_apart hbusyBurning, flag_setF_of_apart hburningPhase,
    flag_setF_of_apart hfailPhase, flag_setF_of_apart hfailBurning, flag_setF_of_apart hfailBusy,
    flag_setB_same hfailPhase.1 rfl, decide_not]
  exact ⟨flag_setF_zero hbusyPhase.1 _, flag_setF_zero hburningPhase.1 _, rfl⟩

theorem fuseEntry_sound : ∀ c < 72, entrySound (fuseEntry c) = true ∧ (fuseEntry c).toNat % 128 = c := by decide +kernel

/-- Settles O41. -/
theorem marchAndBurnCommands : Obligations.MarchAndBurnCommands := by
  intro s reads bank spare col stuck fails
  obtain ⟨habort, hdone⟩ := exec_marchEnd reads s
  refine ⟨fun hidle hsave hmay => ?_, fun h => ?_, ⟨(marchBegin_shows s).1, (marchBegin_shows s).2, rfl, rfl, rfl⟩, fun h => ?_,
    fun _ => ⟨habort, hdone⟩, ?results, fun hmode hcore hlc hidle hsave hgood => ?_, fun h => ?_, fun h => ?_, fun b k c h => ?burn,
    fuseEntry_sound⟩
  · rw [exec_marchStart, if_neg (by simp [hidle, hsave, hmay])]
  · rw [exec_marchStart, if_pos (by rcases h with h | h | h <;> simp [h])]
  · rw [habort, hdone, marchEnd_of_idle h, marchEnd_of_idle h]
    exact ⟨rfl, rfl⟩
  case results =>
    obtain ⟨_, _, _, _, _, _, _, _, _, _, hmemPass, hpass⟩ := apart_marchStatus
    refine ⟨?_, ?_, fun h => ?_, fun h => ?_⟩
    · rw [flag_eq_of_getF (getF_recordRun _ reads s _)]
      exact flag_setB_same hpass rfl _ _
    · rw [getF_recordRun, runSummed, setB, getF_setF_of_apart hmemPass, getF_setF_same hmemPass.1]
      rfl
    · rw [recordRun_eq, if_pos (List.isEmpty_iff.mpr h), runSummed_fc]
    · rw [recordRun_eq, if_neg (by rwa [List.isEmpty_iff]), events_raise, runSummed_fc]
  · rw [exec_burnGo, if_neg (by simp [burnMode, hmode, hcore, hlc, hidle, hsave, hgood])]
    rfl
  · rw [exec_burnGo, if_pos (by rcases h with h | h | h | h <;> simp [burnMode, h])]
  · exact congrArg _ (burnEnd_of_none h stuck)
  case burn =>
    obtain ⟨hbusy, hburning, hfail⟩ := burnEnd_flags h stuck
    have hparts : (burnEnd stuck s).fuses = (burnt (b * 4 + k) c stuck s).fuses ∧
        (burnEnd stuck s).mt = (burnt (b * 4 + k) c stuck s).mt := by
      rw [burnEnd_of_burning h]
      exact ⟨rfl, rfl⟩
    obtain ⟨hfuses, hmt⟩ := hparts
    refine ⟨burnEnd stuck s, rfl, ?_, hbusy, hburning, ?_⟩
    · rw [hmt, burn_burnt]
    · intro old new
      have hnew : new = burntEntry s (b * 4 + k) c stuck := by
        rw [show new = smGet (zeroDefault 9) (burnEnd stuck s).fuses.spares (b * 4 + k) from rfl, hfuses, spares_burnt]
      rw [hnew, hmt, hfuses]
      exact ⟨rfl, hfail, burnt_of_unverified, burnt_of_verified⟩

end Sys2Proof.Machine

namespace Sys2Proof.Machine

/-! ### Bytes and words of the keep (R305) -/

theorem leBytes_length (n v : Nat) : (leBytes n v).length = n := by simp [leBytes]

/-- The lowest byte comes first. -/
theorem leBytes_succ (n v : Nat) : leBytes (n + 1) v = BitVec.ofNat 8 v :: leBytes n (v / 256) := by
  simp only [leBytes, List.range_succ_eq_map, List.map_cons, List.map_map, Nat.mul_zero, Nat.shiftRight_zero]
  refine congrArg _ (List.map_congr_left fun i _ => ?_)
  simp only [Function.comp, Nat.succ_eq_add_one, Nat.shiftRight_eq_div_pow, Nat.mul_add, Nat.pow_add, Nat.mul_one]
  rw [Nat.div_div_eq_div_mul, Nat.mul_comm]

theorem ofLeBytes_lt (l : List Byte) : ofLeBytes l < 256 ^ l.length := by
  induction l with
  | nil => decide
  | cons b bs ih =>
    have hb := b.isLt
    simp only [ofLeBytes, List.length_cons, Nat.pow_succ]
    omega

/-- The bytes of the number that bytes spell are those bytes, filled up with zeros. -/
theorem leBytes_ofLeBytes (n : Nat) (l : List Byte) (h : l.length ≤ n) :
    leBytes n (ofLeBytes l) = l ++ List.replicate (n - l.length) 0 := by
  induction n generalizing l with
  | zero => rw [List.eq_nil_of_length_eq_zero (Nat.le_zero.mp h)]; rfl
  | succ n ih =>
    cases l with
    | nil => rw [leBytes_succ]; exact congrArg _ (ih [] (Nat.zero_le n))
    | cons b bs =>
      have hlow : BitVec.ofNat 8 (ofLeBytes (b :: bs)) = b := by
        apply BitVec.eq_of_toNat_eq
        have hb := b.isLt
        simp only [ofLeBytes, BitVec.toNat_ofNat]
        omega
      have hhigh : ofLeBytes (b :: bs) / 256 = ofLeBytes bs := by
        have hb := b.isLt
        simp only [ofLeBytes]
        omega
      rw [leBytes_succ, hlow, hhigh, ih bs (Nat.le_of_succ_le_succ h), List.length_cons, Nat.add_sub_add_right,
        List.cons_append]

/-- The keep word that eight bytes make. -/
def packedWord (bs : List Byte) : Dword := BitVec.ofNat 64 (ofLeBytes (bs.take 8))

theorem toNat_packedWord (bs : List Byte) : (packedWord bs).toNat = ofLeBytes (bs.take 8) := by
  have hlt := ofLeBytes_lt (bs.take 8)
  have hpow : 256 ^ (bs.take 8).length ≤ 256 ^ 8 := Nat.pow_le_pow_right (by decide) (List.length_take_le 8 bs)
  rw [packedWord, BitVec.toNat_ofNat, Nat.mod_eq_of_lt (by omega)]

@[simp] theorem keepStored_setKeep_same (k : Nat) (v : BitVec 72) (s : State) : keepStored (setKeep k v s) k = v :=
  smGet_smSet_same _ _ _

theorem keepStored_setKeep_other {j k : Nat} (h : j ≠ k) (v : BitVec 72) (s : State) :
    keepStored (setKeep k v s) j = keepStored s j := smGet_smSet_other _ _ h

theorem frame_setKeep (k : Nat) (v : BitVec 72) (s : State) : Frame [.kp] [] s (setKeep k v s) := frame_kp _ s

theorem frame_putBytes (n k : Nat) (bs : List Byte) (s : State) : Frame [.kp] [] s (putBytes n k bs s) := by
  induction n generalizing k bs s with
  | zero => exact .refl _ _ s
  | succ n ih => exact (frame_setKeep k _ s).next (ih (k + 1) (bs.drop 8) _)

theorem keepStored_putBytes_outside {n k j : Nat} (bs : List Byte) (s : State) (h : j < k ∨ k + n ≤ j) :
    keepStored (putBytes n k bs s) j = keepStored s j := by
  induction n generalizing k bs s with
  | zero => rfl
  | succ n ih => rw [putBytes, ih _ _ (by omega), keepStored_setKeep_other (by omega)]

theorem keepStored_putBytes_inside {n i : Nat} (k : Nat) (bs : List Byte) (s : State) (h : i < n) :
    keepStored (putBytes n k bs s) (k + i) = secdedEncode (packedWord (bs.drop (8 * i))) := by
  induction n generalizing k bs s i with
  | zero => exact absurd h (Nat.not_lt_zero i)
  | succ n ih =>
    cases i with
    | zero =>
      rw [putBytes, keepStored_putBytes_outside _ _ (Or.inl (Nat.lt_add_one (k + 0))), Nat.add_zero,
        keepStored_setKeep_same]
      rfl
    | succ i =>
      rw [putBytes, show k + (i + 1) = k + 1 + i by omega, ih (k + 1) (bs.drop 8) _ (by omega), List.drop_drop,
        show 8 + 8 * i = 8 * (i + 1) by omega]

/-- A word as written is read as written (R567). -/
theorem judgeStored_secdedEncode (d : Dword) : (judgeStored (secdedEncode d) 0).1 = ⟨d, false, false⟩ := by
  have h := judgeStored_of_clean (w := secdedEncode d) (by rw [secdedSyndrome_secdedEncode]; exact secdedJudge_zero _)
  rwa [secdedData_secdedEncode] at h

/-- Words cut from a byte list give the list again. -/
theorem flatMap_packedWord (n : Nat) (bs : List Byte) (h : bs.length ≤ 8 * n) :
    ((List.range n).flatMap (fun i => leBytes 8 (packedWord (bs.drop (8 * i))).toNat)).take bs.length = bs := by
  induction n generalizing bs with
  | zero => rw [List.eq_nil_of_length_eq_zero (Nat.le_zero.mp h)]; rfl
  | succ n ih =>
    have hfirst : (leBytes 8 (ofLeBytes (bs.take 8))).take bs.length = bs.take 8 := by
      rw [leBytes_ofLeBytes 8 _ (List.length_take_le 8 bs)]
      rcases Nat.le_total 8 bs.length with h8 | h8
      · simp [List.length_take, h8]
      · rw [List.take_of_length_le h8, List.take_left]
    have hrest := ih (bs.drop 8) (by rw [List.length_drop]; omega)
    rw [List.range_succ_eq_map, List.flatMap_cons, List.flatMap_map, List.take_append, leBytes_length,
      toNat_packedWord, Nat.mul_zero, List.drop_zero, hfirst]
    simp only [List.drop_drop, List.length_drop] at hrest
    simp only [Nat.succ_eq_add_one, Nat.mul_add, Nat.mul_one, Nat.add_comm _ 8, hrest]
    exact List.take_append_drop 8 bs

/-- Settles O43: the words are encoded as they are cut, each is judged clean, and their bytes are the list. -/
theorem keepBytesReadBack : Obligations.KeepBytesReadBack := by
  intro s a k bs _
  refine ⟨?read, fun h => keepStored_putBytes_outside bs s h, frame_putBytes _ _ bs s⟩
  case read =>
    have hword : ∀ i ∈ List.range ((bs.length + 7) / 8),
        leBytes 8 (judgeStored (keepStored (keepWrite a bs [] s) (a / 8 + i)) 0).1.data.toNat =
          leBytes 8 (packedWord (bs.drop (8 * i))).toNat := fun i hi => by
      have hstored : keepStored (keepWrite a bs [] s) (a / 8 + i) = secdedEncode (packedWord (bs.drop (8 * i))) :=
        keepStored_putBytes_inside _ bs s (List.mem_range.mp hi)
      rw [hstored, judgeStored_secdedEncode]
    rw [keepPeek, List.flatMap_congr hword]
    exact flatMap_packedWord _ bs (by omega)

end Sys2Proof.Machine

namespace Sys2Proof.Machine

/-! ### Checkpoints and refreshes (R316 to R325) -/

theorem exec_keepCheckpoint (flips : List (Nat × BitVec 72)) (s : State) :
    exec (.keepCheckpoint flips) s = .next (checkpointStart flips s) := rfl

theorem exec_keepRefresh (flips : List (Nat × BitVec 72)) (s : State) :
    exec (.keepRefresh flips) s = .next (refreshStart flips s) := rfl

theorem checkpointAllowed_iff (s : State) : checkpointAllowed s = true ↔ served s = true ∧ s.kp.commit = none ∧
    saving s = false ∧ flag s Fld.KP_STATUS_CHECKPOINT = false ∧ flag s Fld.KP_STATUS_REFRESHING = false := by
  simp [checkpointAllowed, and_assoc]

theorem checkpointStart_of_allowed {s : State} (h : checkpointAllowed s = true) (flips : List (Nat × BitVec 72)) :
    checkpointStart flips s =
      setF Fld.KP_STATUS_CHECKPOINT 1 (checkpointBegin 1 flips { s with kp := { s.kp with bad := false } }) := if_pos h

theorem checkpointStart_of_not {s : State} (h : checkpointAllowed s = false) (flips : List (Nat × BitVec 72)) :
    checkpointStart flips s = s := if_neg (by simp [h])

theorem refreshStart_of_allowed {s : State} (h : checkpointAllowed s = true) (flips : List (Nat × BitVec 72)) :
    refreshStart flips s = refreshBegin flips { s with kp := { s.kp with bad := false } } := if_pos h

theorem refreshStart_of_not {s : State} (h : checkpointAllowed s = false) (flips : List (Nat × BitVec 72)) :
    refreshStart flips s = s := if_neg (by simp [h])

/-- The slot that is not sealed, or A where none is (R316). -/
theorem commitSlot_eq (s : State) : commitSlot s = if getF s Fld.KP_STATUS_SEAL_SLOT = 0 then 1 else 0 := by
  rw [commitSlot, sealSlot]
  by_cases hnone : getF s Fld.KP_STATUS_SEAL_SLOT = 3
  · simp [hnone]
  · simp [hnone]

/-- A saturating sum that fits its field reads as it is. -/
theorem getF_countHolds (n : Nat) (s : State) :
    getF (countHolds n s) Fld.LD_HOLD_HOLDS = sat 0xFFFF (getF s Fld.LD_HOLD_HOLDS + n) := by
  have hfits : sat 0xFFFF (getF s Fld.LD_HOLD_HOLDS + n) < 2 ^ Fld.LD_HOLD_HOLDS.width := Nat.lt_succ_of_le (sat_le _ _)
  exact (getF_setF_same (by decide) _ s).trans (Nat.mod_eq_of_lt hfits)

theorem exec_keepCheckpointDone (flips : List (Nat × BitVec 72)) (holds : BitVec 16) (s : State) :
    exec (.keepCheckpointDone flips holds) s =
      .next (if flag s Fld.KP_STATUS_CHECKPOINT && !saving s then
        completeTokens tokCheckpoint (workResult (checkpointEnd flips (countHolds holds.toNat s)))
          (setF Fld.KP_STATUS_CHECKPOINT 0 (checkpointEnd flips (countHolds holds.toNat s)))
      else s) := rfl

/-- Both checkpoints of a refresh, its counts cleared (R325). -/
def refreshRun (flips : List (Nat × BitVec 72)) (h : State) : State :=
  let t := checkpointEnd flips (checkpointBegin 2 flips (checkpointEnd flips (checkpointBegin 2 flips h)))
  { t with kp := { t.kp with retain := 0, corrSince := 0 } }

/-- The same with the flags cleared. -/
def refreshed (flips : List (Nat × BitVec 72)) (h : State) : State :=
  setF Fld.KP_STATUS_REFRESHING 0 (setF Fld.KP_STATUS_REFRESH_DUE 0 (setF Fld.KP_RETAIN_USED 0 (refreshRun flips h)))

/-- The result is the keep's, no register. -/
theorem workResult_setF (f : Field) (v : Nat) (s : State) : workResult (setF f v s) = workResult s := by
  rw [workResult, setF_kp, workResult]

theorem exec_keepRefreshDone (flips : List (Nat × BitVec 72)) (holds : BitVec 16) (s : State) :
    exec (.keepRefreshDone flips holds) s =
      .next (if !flag s Fld.KP_STATUS_REFRESHING then s
        else if saving s then setF Fld.KP_STATUS_REFRESHING 0 s
        else completeTokens tokRefresh (workResult (refreshed flips (countHolds holds.toNat s)))
          (refreshed flips (countHolds holds.toNat s))) := by
  rw [refreshed, workResult_setF, workResult_setF, workResult_setF]
  rfl

theorem apart_refresh : Fld.KP_RETAIN_USED.Apart Fld.KP_STATUS_REFRESHING ∧ Fld.KP_RETAIN_USED.Apart Fld.KP_STATUS_REFRESH_DUE ∧
    Fld.KP_STATUS_REFRESH_DUE.Apart Fld.KP_STATUS_REFRESHING ∧ Fld.KP_STATUS_REFRESHING.Named ∧
    Fld.KP_STATUS_CHECKPOINT.Named := by decide +kernel

theorem refreshed_shows (flips : List (Nat × BitVec 72)) (h : State) :
    getF (refreshed flips h) Fld.KP_RETAIN_USED = 0 ∧ flag (refreshed flips h) Fld.KP_STATUS_REFRESH_DUE = false ∧
      flag (refreshed flips h) Fld.KP_STATUS_REFRESHING = false := by
  obtain ⟨husedRef, husedDue, hdue, href, _⟩ := apart_refresh
  refine ⟨?_, ?_, flag_setF_zero href _⟩
  · rw [refreshed, getF_setF_of_apart husedRef, getF_setF_of_apart husedDue, getF_setF_same husedRef.1, Nat.zero_mod]
  · rw [refreshed, flag_setF_of_apart hdue, flag_setF_zero hdue.1]

/-- Settles O45. -/
theorem checkpointsAndRefreshes : Obligations.CheckpointsAndRefreshes := by
  intro s flips holds h
  refine ⟨checkpointAllowed_iff s, fun hno => ?_, fun hyes => ?begin_, fun hrun hsave => ?_, getF_countHolds _ s,
    frame_setF _ _ s, fun hno => ?_, fun hyes => ?_, fun hno => ?_, fun hrun hsave => ?_, fun hrun hsave => ?refreshed⟩
  · rw [exec_keepCheckpoint, exec_keepRefresh, checkpointStart_of_not hno, refreshStart_of_not hno]
    exact ⟨rfl, rfl⟩
  case begin_ =>
    obtain ⟨_, _, _, _, hnamed⟩ := apart_refresh
    refine ⟨_, by rw [exec_keepCheckpoint, checkpointStart_of_allowed hyes], flag_setF_one hnamed (by decide) _, ?_⟩
    rw [setF_kp, checkpointBegin, commitSlot_eq]
    rfl
  · rw [exec_keepCheckpointDone, if_pos (by simp [hrun, hsave])]
  · rw [exec_keepCheckpointDone, if_neg (by rcases hno with hno | hno <;> simp [hno])]
  · rw [exec_keepRefresh, refreshStart_of_allowed hyes]
  · rw [exec_keepRefreshDone, if_pos (by simp [hno])]
  · rw [exec_keepRefreshDone, if_neg (by simp [hrun]), if_pos hsave]
  case refreshed =>
    obtain ⟨hused, hdue, href⟩ := refreshed_shows flips h
    refine ⟨refreshed flips h, ?_, rfl, rfl, hused, hdue, href, rfl⟩
    rw [exec_keepRefreshDone, if_neg (by simp [hrun]), if_neg (by simp [hsave])]

end Sys2Proof.Machine

namespace Sys2Proof.Machine

/-! ### Triggers and the SAVE pair (R327 to R333) -/

theorem frame_ps (p : SaveUnit) (s : State) : Frame [.ps] [] s { s with ps := p } := by
  refine ⟨fun q hq => ?_, fun _ _ => rfl⟩
  cases q with
  | ps => exact absurd (List.mem_singleton_self _) hq
  | _ => rfl

theorem saveable_iff (s : State) : saveable s = true ↔ s.boot = .up ∧ flag s Fld.PS_STATUS_SAVING = false ∧
    ((inRun s = true ∧ flag s Fld.PM_MODE_WAITING = false) ∨ inService s = true) := by
  simp [saveable, inSave, and_assoc]

theorem apart_saveBegin : Fld.PS_STATUS_SAVING.Apart Fld.PS_IN_DISC_RUN ∧ Fld.PS_STATUS_CAUSE.Apart Fld.PS_IN_DISC_RUN ∧
    Fld.PS_STATUS_STEP.Apart Fld.PS_IN_DISC_RUN ∧ Fld.PM_MODE_SAVING.Apart Fld.PS_IN_DISC_RUN := by decide +kernel

theorem frame_saveBegin (cause : Nat) (fs32 : Bool) (s : State) :
    Frame [.ps] [Fld.PS_STATUS_STEP.addr, Fld.PM_MODE_SAVING.addr, Fld.PS_IN_DISC_RUN.addr] s (saveBegin cause fs32 s) :=
  ((((frame_setF Fld.PM_MODE_SAVING 1 s).trans (frame_setReg _ _ _)).trans (frame_ps _ _)).trans (frame_setF _ _ _)).mono
    (by decide) (by decide)

/-- PS_STATUS as a save begins: SAVING, DEFER_CHIPRST as it was, FS32, the cause, STEP 1. -/
def savedStatus (cause : Nat) (fs32 : Bool) (s : State) : Nat :=
  2 ^ 31 + (reg s Fld.PS_STATUS_STEP.addr).toNat / 2 ^ 30 % 2 * 2 ^ 30 + b2n fs32 * 2 ^ 28 + cause * 2 ^ 16 + 1

theorem natBits_savedStatus {cause : Nat} (h : cause < 256) (fs32 : Bool) (s : State) :
    let w := (BitVec.ofNat 32 (savedStatus cause fs32 s)).toNat
    natBits w 31 31 = 1 ∧ natBits w 23 16 = cause ∧ natBits w 3 0 = 1 := by
  have hfs := b2n_le fs32
  have hdefer : (reg s Fld.PS_STATUS_STEP.addr).toNat / 2 ^ 30 % 2 < 2 := Nat.mod_lt _ (by decide)
  simp only [savedStatus, natBits, BitVec.toNat_ofNat, Nat.shiftRight_eq_div_pow]
  omega

/-- What a save shows as it begins. -/
theorem saveBegin_shows {cause : Nat} (h : cause < 256) (fs32 : Bool) (s : State) :
    flag (saveBegin cause fs32 s) Fld.PS_STATUS_SAVING = true ∧ getF (saveBegin cause fs32 s) Fld.PS_STATUS_CAUSE = cause ∧
      getF (saveBegin cause fs32 s) Fld.PS_STATUS_STEP = 1 ∧ flag (saveBegin cause fs32 s) Fld.PM_MODE_SAVING = true := by
  obtain ⟨hsaving, hcause, hstep, hmode⟩ := apart_saveBegin
  obtain ⟨hbit, hbyte, hlow⟩ := natBits_savedStatus h fs32 s
  have hfield {f : Field} (hf : f.Apart Fld.PS_IN_DISC_RUN) (haddr : f.addr = Fld.PS_STATUS_STEP.addr) :
      getF (saveBegin cause fs32 s) f = natBits (BitVec.ofNat 32 (savedStatus cause fs32 s)).toNat f.hi f.lo := by
    rw [saveBegin, getF_setF_of_apart hf, ← getF_setReg_same hf.1 _ (setF Fld.PM_MODE_SAVING 1 s), haddr]
    rfl
  refine ⟨?_, (hfield hcause rfl).trans hbyte, (hfield hstep rfl).trans hlow, ?_⟩
  · rw [flag, (hfield hsaving rfl).trans hbit]
    rfl
  · rw [saveBegin, flag_setF_of_apart hmode]
    refine (flag_of_reg ?_).trans (flag_setF_one hmode.1 (by decide) s)
    exact reg_setReg_other (by decide)

theorem s0_saveBegin (cause : Nat) (fs32 : Bool) (s : State) : (saveBegin cause fs32 s).ps.s0 = s.aon := by
  have hread (a : Nat) (w : Word) (t : State) :
      ({ setReg a w t with ps := { (setReg a w t).ps with s0 := (setReg a w t).aon } } : State).ps.s0 = t.aon := rfl
  rw [saveBegin, setF_ps]
  exact hread _ _ (setF Fld.PM_MODE_SAVING 1 s)

theorem savePair_of_both (s : State) : savePair true true s = saveBegin 0x02 false s := by
  simp only [savePair, Bool.and_self, if_true]

theorem exec_saveNow (s : State) : exec .saveNow s = .next (if mgtOn s then saveTrigger 0x04 s else s) := rfl

theorem saveTrigger_of_saveable {s : State} (h : saveable s = true) (cause : Nat) :
    saveTrigger cause s = saveBegin cause false s := if_pos h

theorem saveTrigger_of_saving {s : State} (h : saveable s = false) (hsave : inSave s = true) (cause : Nat) :
    saveTrigger cause s = trace 0x0106 cause s := by simp [saveTrigger, h, hsave]

theorem saveTrigger_of_neither {s : State} (h : saveable s = false) (hsave : inSave s = false) (cause : Nat) :
    saveTrigger cause s = s := by simp [saveTrigger, h, hsave]

theorem frame_saveLevels (low0 low1 : Bool) (s : State) :
    Frame [.tr] [Fld.PS_IN_SAVE0_LOW.addr, Fld.TR_LOST_RING.addr] s (saveLevels low0 low1 s) := by
  have hlevels := (frame_setF Fld.PS_IN_SAVE1_LOW (b2n low1) s).trans (frame_setF Fld.PS_IN_SAVE0_LOW (b2n low0) _)
  exact .ite (hlevels.mono (by decide) (by decide)) ((hlevels.trans (frame_trace _ _ _)).mono (by decide) (by decide))

/-- The recognised levels are none of what decides whether a save can start. -/
theorem saveable_saveLevels (low0 low1 : Bool) (s : State) : saveable (saveLevels low0 low1 s) = saveable s := by
  have h := frame_saveLevels low0 low1 s
  have hboot : (saveLevels low0 low1 s).boot = s.boot := h.1 .boot (by decide)
  rw [Bool.eq_iff_iff, saveable_iff, saveable_iff, inRun, inRun, inService, inService, mode, mode, hboot,
    h.flag_eq (f := Fld.PS_STATUS_SAVING) (by decide), h.flag_eq (f := Fld.PM_MODE_WAITING) (by decide),
    h.getF_eq (f := Fld.PM_MODE_MODE) (by decide)]

theorem exec_savePairSample (low0 low1 : Bool) (s : State) : exec (.savePairSample low0 low1) s =
    .next (if s.boot = .held then s else savePairTick low0 low1 s) := rfl

theorem savePairTick_of_saveable {s : State} (h : saveable s = true) (low0 low1 : Bool) :
    savePairTick low0 low1 s = savePair low0 low1 (saveLevels low0 low1 s) :=
  if_pos ((saveable_saveLevels low0 low1 s).trans h)

theorem exec_discrepancyExpiry (s : State) : exec .discrepancyExpiry s =
    .next (if saveable s && flag s Fld.PS_IN_DISC_RUN && s.boot = .up
      then discExpire (getF s Fld.PS_IN_DISC_CH) (getF s Fld.PS_TDSC_TICKS) s else s) := rfl

/-- Settles O46: the pair by its table, the triggers by whether a save can start. -/
theorem saveTriggersAreJudged : Obligations.SaveTriggersAreJudged := by
  intro s low0 low1
  refine ⟨saveable_iff s, fun hmgt h => ?now, fun hmgt h hsave => ?_, fun h hsave => ?_, fun h => ?_, fun hboot h => ?_, savePair_of_both s,
    fun hstop => ?idle, fun hrun hch => ?running, fun h hrun => ?_, fun h => ?_⟩
  case now =>
    obtain ⟨hsaving, hcause, hstep, hmode⟩ := saveBegin_shows (cause := 0x04) (by decide) false s
    exact ⟨saveBegin 0x04 false s, by rw [exec_saveNow, if_pos hmgt, saveTrigger_of_saveable h], hsaving, hcause, hstep,
      hmode, s0_saveBegin _ _ s, frame_saveBegin _ _ s⟩
  · rw [exec_saveNow, if_pos hmgt, saveTrigger_of_saving h hsave]
  · rw [exec_saveNow, saveTrigger_of_neither h hsave, ite_self]
  · rw [exec_savePairSample, if_pos h]
  · rw [exec_savePairSample, if_neg hboot, savePairTick_of_saveable h]
  case idle => simp [savePair, hstop]
  case running =>
    refine ⟨?_, ?_, fun hlong => ?_, fun hshort => ?_⟩
    · simp [savePair, hrun, hch]
    · simp [savePair, hrun, hch]
    · simp [savePair, hrun, hch, hlong]
    · simp [savePair, hrun, hch, Nat.not_le.mpr hshort]
  · rw [exec_discrepancyExpiry, if_pos (by simp [h, hrun, ((saveable_iff s).mp h).1])]
  · rw [exec_discrepancyExpiry, if_neg (by rcases h with h | h <;> simp [h])]

end Sys2Proof.Machine

namespace Sys2Proof.Machine

/-! ### Banks, counters and bits -/

/-- A bank of a register has the fields of its row (R519). -/
theorem regMask_bank (a n : Nat) : regMask (a + 0x10000 * n) = regMask a := by
  have hfold : regFold (a + 0x10000 * n) = regFold a := by simp only [regFold, Nat.add_mul_mod_self_left]
  rw [regMask, regRow, hfold]
  rfl

theorem Field.Named.bank {f : Field} (h : f.Named) (n : Nat) : (f.bank n).Named :=
  ⟨h.1, (congrArg _ (regMask_bank f.addr n)).trans h.2⟩

/-- Fields of one register lie apart in each of its banks. -/
theorem Field.Apart.bank {g f : Field} (h : g.Apart f) (n : Nat) : (g.bank n).Apart (f.bank n) :=
  ⟨h.1.bank n, h.2.imp_left fun haddr heq => haddr (Nat.add_right_cancel heq)⟩

theorem sat_eq_min (m v : Nat) : sat m v = min m v := by
  unfold sat
  split <;> omega

theorem getF_addF_same {f : Field} (hf : f.Named) (n : Nat) (s : State) :
    getF (addF f n s) f = min (2 ^ f.width - 1) (getF s f + n) := by
  have hpos := Nat.two_pow_pos f.width
  rw [addF, getF_setF_same hf, sat_eq_min, Nat.mod_eq_of_lt (by omega)]

theorem getF_addF_of_apart {f g : Field} (h : g.Apart f) (n : Nat) (s : State) : getF (addF f n s) g = getF s g :=
  getF_setF_of_apart h _ s

/-- Setting one bit of a field leaves its others. -/
theorem bitF_setBitF_other {f : Field} (hf : f.Named) {i j : Nat} (hne : j ≠ i) (s : State) :
    bitF (setBitF f i true s) f j = bitF s f j := by
  rw [bitF, setBitF, getF_setF_same hf, Nat.testBit_mod_two_pow, bitF]
  have hshift : (1 <<< i).testBit j = false := by simp [Nat.one_shiftLeft, hne.symm]
  by_cases hj : j < f.width
  · simp [hj, Nat.testBit_or, hshift]
  · have hzero : (getF s f).testBit j = false :=
      Nat.testBit_lt_two_pow (Nat.lt_of_lt_of_le (getF_lt f s) (Nat.pow_le_pow_right (by decide) (Nat.not_lt.mp hj)))
    simp [hj, hzero]

/-- A word without unnamed bits reads as written. -/
theorem getF_setReg_word {f : Field} (hf : f.Named) (v : Nat) (s : State) :
    getF (setReg f.addr (BitVec.ofNat 32 v) s) f = natBits (v % 2 ^ 32) f.hi f.lo := by
  rw [getF_setReg_same hf, BitVec.toNat_ofNat]

/-! ### The record (R412 to R414) -/

theorem frame_fc (u : FaultUnit) (s : State) : Frame [.fc] [] s { s with fc := u } := by
  refine ⟨fun q hq => ?_, fun _ _ => rfl⟩
  cases q with
  | fc => exact absurd (List.mem_singleton_self _) hq
  | _ => rfl

/-- A history entry that falls due waits or is counted as lost. -/
theorem frame_histDue (e : HistEntry) (s : State) : Frame [.fc] [Fld.FC_HIST_LOST.addr] s (histDue e s) :=
  .ite ((frame_fc _ s).mono (by decide) (by decide)) ((frame_incF _ s).mono (by decide) (by decide))

theorem frame_histPromo (e : HistEntry) (s : State) : Frame [.fc] [Fld.FC_HIST_LOST.addr] s (histPromo e s) :=
  .ite ((frame_fc _ s).mono (by decide) (by decide)) ((frame_incF _ s).mono (by decide) (by decide))

/-- What a collection does beside a record: merged into it until it is acknowledged, overflow after (R413, R414). -/
def besideRecord (j : Judged) (s : State) : State :=
  if flag s Fld.FC_FIRST_ACKED then addF Fld.FC_OVF_COUNT j.count (setF Fld.FC_OVF_OVF 1 s)
  else addF Fld.FC_FIRST_MCNT j.count (setBitF (mergeField j.src) (j.src % 32) true s)

theorem record_of_free {j : Judged} {s : State} (h : flag s Fld.FC_FIRST_VALID = false) : record j s = capture j s :=
  if_pos (by simp [h])

theorem record_of_valid {j : Judged} {s : State} (h : flag s Fld.FC_FIRST_VALID = true) :
    record j s = if j.prom then histPromo (entryFor j s) (besideRecord j s) else besideRecord j s := if_neg (by simp [h])

theorem besideRecord_of_fresh {j : Judged} {s : State} (h : flag s Fld.FC_FIRST_ACKED = false) : besideRecord j s =
    addF Fld.FC_FIRST_MCNT j.count (setBitF (mergeField j.src) (j.src % 32) true s) := if_neg (by simp [h])

theorem besideRecord_of_acked {j : Judged} {s : State} (h : flag s Fld.FC_FIRST_ACKED = true) : besideRecord j s =
    addF Fld.FC_OVF_COUNT j.count (setF Fld.FC_OVF_OVF 1 s) := if_pos h

/-- Beside a record the history is all that a collection changes after it has joined. -/
theorem frame_record {j : Judged} {s : State} (h : flag s Fld.FC_FIRST_VALID = true) :
    Frame [.fc] [Fld.FC_HIST_LOST.addr] (besideRecord j s) (record j s) := by
  rw [record_of_valid h]
  exact .ite (frame_histPromo _ _) (.refl _ _ _)

/-- FC_MERGE0 and FC_MERGE1 are whole registers, apart from FC_FIRST and FC_OVF. -/
theorem mergeField_fields (n : Nat) : (mergeField n).Apart Fld.FC_FIRST_MCNT ∧ (mergeField n).Apart Fld.FC_OVF_COUNT ∧
    (mergeField n).Apart Fld.FC_OVF_OVF ∧ (mergeField n).width = 32 ∧ (mergeField n).addr ≠ Fld.FC_HIST_LOST.addr ∧
    Fld.FC_FIRST_MCNT.Apart (mergeField n) := by
  rw [mergeField]
  split <;> decide +kernel

theorem mergeField_of_low {n : Nat} (h : n < 32) : mergeField n = Fld.FC_MERGE0_MERGE := if_pos h

theorem mergeField_of_high {n : Nat} (h : ¬n < 32) : mergeField n = Fld.FC_MERGE1_MERGE := if_neg h

/-- Two sources have different bits in the merge registers. -/
theorem bitF_merge_other {m n : Nat} (hm : m < 64) (hn : n < 64) (hne : n ≠ m) (s : State) :
    bitF (setBitF (mergeField m) (m % 32) true s) (mergeField n) (n % 32) = bitF s (mergeField n) (n % 32) := by
  have hnamed : Fld.FC_MERGE0_MERGE.Apart Fld.FC_MERGE1_MERGE ∧ Fld.FC_MERGE1_MERGE.Apart Fld.FC_MERGE0_MERGE := by
    decide +kernel
  by_cases hm32 : m < 32
  · by_cases hn32 : n < 32
    · rw [mergeField_of_low hm32, mergeField_of_low hn32]
      exact bitF_setBitF_other hnamed.1.1 (by omega) s
    · rw [mergeField_of_low hm32, mergeField_of_high hn32]
      exact bitF_setBitF_of_apart hnamed.2 _ _ _ s
  · by_cases hn32 : n < 32
    · rw [mergeField_of_high hm32, mergeField_of_low hn32]
      exact bitF_setBitF_of_apart hnamed.1 _ _ _ s
    · rw [mergeField_of_high hm32, mergeField_of_high hn32]
      exact bitF_setBitF_other hnamed.2.1 (by omega) s

theorem bitF_of_getF {s t : State} {f : Field} (h : getF t f = getF s f) (i : Nat) : bitF t f i = bitF s f i := by
  rw [bitF, bitF, h]

/-- The fields of a record but its merge count. -/
theorem apart_record : ∀ f ∈ [Fld.FC_FIRST_VALID, Fld.FC_FIRST_ACKED, Fld.FC_FIRST_FORCED, Fld.FC_FIRST_PROMOTED,
    Fld.FC_FIRST_CLASS, Fld.FC_FIRST_REACT, Fld.FC_FIRST_SOURCE, Fld.FC_FTIMEL_TIME_LO, Fld.FC_FTIMEH_TIME_HI,
    Fld.FC_FSYNL_SYN_LO, Fld.FC_FSYNH_SYN_HI], f.Apart Fld.FC_FIRST_MCNT ∧ f.Apart Fld.FC_MERGE0_MERGE ∧
      f.Apart Fld.FC_MERGE1_MERGE ∧ f.addr ∉ [Fld.FC_HIST_LOST.addr] := by decide +kernel

/-- Settles O53: the merge bit and the count are all that a merged collection writes beside the history. -/
theorem mergedCollections : Obligations.MergedCollections := by
  intro s j n hj hn hvalid hfresh t
  have hframe : Frame [.fc] [Fld.FC_HIST_LOST.addr] (besideRecord j s) t := frame_record hvalid
  rw [besideRecord_of_fresh hfresh] at hframe
  obtain ⟨hmerge, _, _, hwidth, hlost, hcount⟩ := mergeField_fields j.src
  obtain ⟨hmergeN, _, _, _, hlostN, _⟩ := mergeField_fields n
  refine ⟨?_, fun hne => ?_, ?_, fun f hf => ?_⟩
  · rw [bitF_of_getF (hframe.getF_eq (by simpa using hlost)), bitF_of_getF (getF_addF_of_apart hmerge _ _)]
    exact bitF_setBitF_same hmerge.1 (by rw [hwidth]; exact Nat.mod_lt _ (by decide)) true s
  · rw [bitF_of_getF (hframe.getF_eq (by simpa using hlostN)), bitF_of_getF (getF_addF_of_apart hmergeN _ _)]
    exact bitF_merge_other hj hn hne s
  · rw [hframe.getF_eq (by decide), getF_addF_same hcount.1, setBitF, getF_setF_of_apart hcount]
    rfl
  · obtain ⟨hmcnt, hlow, hhigh, haddr⟩ := apart_record f hf
    have hbit : f.Apart (mergeField j.src) := by
      rw [mergeField]
      split
      · exact hlow
      · exact hhigh
    rw [hframe.getF_eq haddr, getF_addF_of_apart hmcnt, setBitF, getF_setF_of_apart hbit]

end Sys2Proof.Machine

namespace Sys2Proof.Machine

/-! ### Capture (R412) -/

/-- FC_FIRST of a captured collection (Table FC-3): VALID, FORCED, PROMOTED, the class, the reactions, the source. -/
def firstWordOf (j : Judged) : Nat :=
  2 ^ 31 + b2n j.forced * 2 ^ 29 + b2n j.prom * 2 ^ 28 + j.cls * 2 ^ 26 + j.react * 2 ^ 21 + j.src

/-- The registers of the record as a collection is captured. -/
def captured (j : Judged) (s : State) : State :=
  setReg 0x3C18 (BitVec.ofNat 32 (j.syn.toNat >>> 32)) (setReg 0x3C14 (BitVec.ofNat 32 j.syn.toNat)
    (setReg 0x3C10 (BitVec.ofNat 32 (s.aon.toNat >>> 32)) (setReg 0x3C0C (BitVec.ofNat 32 s.aon.toNat)
      (setReg 0x3C08 (BitVec.ofNat 32 (firstWordOf j)) s))))

theorem capture_eq (j : Judged) (s : State) : capture j s = histDue (entryFor j s) (captured j s) := rfl

theorem natBits_firstWordOf {j : Judged} (hsrc : j.src < 64) (hcls : j.cls < 4) (hreact : j.react < 32) :
    let w := firstWordOf j % 2 ^ 32
    natBits w 31 31 = 1 ∧ natBits w 30 30 = 0 ∧ natBits w 29 29 = b2n j.forced ∧ natBits w 28 28 = b2n j.prom ∧
      natBits w 27 26 = j.cls ∧ natBits w 25 21 = j.react ∧ natBits w 20 8 = 0 ∧ natBits w 5 0 = j.src := by
  have hforced := b2n_le j.forced
  have hprom := b2n_le j.prom
  simp only [firstWordOf, natBits, Nat.shiftRight_eq_div_pow]
  omega

/-- A field of FC_FIRST after a capture. -/
theorem getF_captured_first {f : Field} (hf : f.Named) (haddr : f.addr = 0x3C08) (j : Judged) (s : State) :
    getF (captured j s) f = natBits (firstWordOf j % 2 ^ 32) f.hi f.lo := by
  rw [← getF_setReg_word hf (firstWordOf j) s, haddr]
  simp only [captured, getF, haddr]
  rw [reg_setReg_other (by decide), reg_setReg_other (by decide), reg_setReg_other (by decide),
    reg_setReg_other (by decide)]

theorem named_record : Fld.FC_FIRST_VALID.Named ∧ Fld.FC_FIRST_ACKED.Named ∧ Fld.FC_FIRST_FORCED.Named ∧
    Fld.FC_FIRST_PROMOTED.Named ∧ Fld.FC_FIRST_CLASS.Named ∧ Fld.FC_FIRST_REACT.Named ∧ Fld.FC_FIRST_MCNT.Named ∧
    Fld.FC_FIRST_SOURCE.Named ∧ Fld.FC_FTIMEL_TIME_LO.Named ∧ Fld.FC_FTIMEH_TIME_HI.Named ∧ Fld.FC_FSYNL_SYN_LO.Named ∧
    Fld.FC_FSYNH_SYN_HI.Named := by decide +kernel

/-- The time and the syndrome of a captured collection, in their four registers. -/
theorem getF_captured_time (j : Judged) (s : State) :
    getF (captured j s) Fld.FC_FTIMEL_TIME_LO = s.aon.toNat % 2 ^ 32 ∧
      getF (captured j s) Fld.FC_FTIMEH_TIME_HI = s.aon.toNat / 2 ^ 32 ∧
      getF (captured j s) Fld.FC_FSYNL_SYN_LO = j.syn.toNat % 2 ^ 32 ∧
      getF (captured j s) Fld.FC_FSYNH_SYN_HI = j.syn.toNat / 2 ^ 32 := by
  obtain ⟨_, _, _, _, _, _, _, _, htimeL, htimeH, hsynL, hsynH⟩ := named_record
  have haon := s.aon.isLt
  have hsyn := j.syn.isLt
  refine ⟨?_, ?_, ?_, ?_⟩
  · have hreg : reg (captured j s) Fld.FC_FTIMEL_TIME_LO.addr =
        BitVec.ofNat 32 s.aon.toNat &&& regMask Fld.FC_FTIMEL_TIME_LO.addr := by
      rw [captured, reg_setReg_other (by decide), reg_setReg_other (by decide), reg_setReg_other (by decide)]
      exact reg_setReg_same
    rw [getF_of_reg_masked htimeL hreg, BitVec.toNat_ofNat]
    exact Nat.mod_mod _ _
  · have hreg : reg (captured j s) Fld.FC_FTIMEH_TIME_HI.addr =
        BitVec.ofNat 32 (s.aon.toNat >>> 32) &&& regMask Fld.FC_FTIMEH_TIME_HI.addr := by
      rw [captured, reg_setReg_other (by decide), reg_setReg_other (by decide)]
      exact reg_setReg_same
    rw [getF_of_reg_masked htimeH hreg, BitVec.toNat_ofNat, Nat.shiftRight_eq_div_pow]
    simp only [natBits, Fld.FC_FTIMEH_TIME_HI, Nat.shiftRight_zero]
    omega
  · have hreg : reg (captured j s) Fld.FC_FSYNL_SYN_LO.addr =
        BitVec.ofNat 32 j.syn.toNat &&& regMask Fld.FC_FSYNL_SYN_LO.addr := by
      rw [captured, reg_setReg_other (by decide)]
      exact reg_setReg_same
    rw [getF_of_reg_masked hsynL hreg, BitVec.toNat_ofNat]
    exact Nat.mod_mod _ _
  · have hreg : reg (captured j s) Fld.FC_FSYNH_SYN_HI.addr =
        BitVec.ofNat 32 (j.syn.toNat >>> 32) &&& regMask Fld.FC_FSYNH_SYN_HI.addr := reg_setReg_same
    rw [getF_of_reg_masked hsynH hreg, BitVec.toNat_ofNat, Nat.shiftRight_eq_div_pow]
    simp only [natBits, Fld.FC_FSYNH_SYN_HI, Nat.shiftRight_zero]
    omega

/-! ### Counts and promotion (R400, R401) -/

theorem countEvents_of_never {n : Nat} {s : State} (h : getF s (Fld.FC_SRC_THR.bank n) = 0) (k : Nat) :
    countEvents n k s = (false, addF (Fld.FC_SCNT_TOTAL.bank n) k s) := if_pos h

theorem countEvents_of_above {n k : Nat} {s : State} (hthr : getF s (Fld.FC_SRC_THR.bank n) ≠ 0)
    (h : getF s (Fld.FC_SRC_THR.bank n) < getF s (Fld.FC_SCNT_WCOUNT.bank n) + k) :
    countEvents n k s = (true, incF (Fld.FC_SCNT_PROMS.bank n)
      (setF (Fld.FC_SCNT_WCOUNT.bank n) 0 (addF (Fld.FC_SCNT_TOTAL.bank n) k s))) := by
  rw [countEvents, if_neg hthr, if_pos h]

theorem countEvents_of_within {n k : Nat} {s : State} (hthr : getF s (Fld.FC_SRC_THR.bank n) ≠ 0)
    (h : ¬getF s (Fld.FC_SRC_THR.bank n) < getF s (Fld.FC_SCNT_WCOUNT.bank n) + k) :
    countEvents n k s = (false, setF (Fld.FC_SCNT_WCOUNT.bank n) (getF s (Fld.FC_SCNT_WCOUNT.bank n) + k)
      (addF (Fld.FC_SCNT_TOTAL.bank n) k s)) := by
  rw [countEvents, if_neg hthr, if_neg h]

theorem apart_wcount : Fld.FC_SCNT_WCOUNT.Apart Fld.FC_SCNT_PROMS := by decide +kernel

/-- A count that does not promote is at most THR, and so fits its field. -/
theorem wcount_countEvents {n : Nat} (k : Nat) {s : State} (hthr : getF s (Fld.FC_SRC_THR.bank n) ≠ 0) :
    getF (countEvents n k s).2 (Fld.FC_SCNT_WCOUNT.bank n) =
      if getF s (Fld.FC_SRC_THR.bank n) < getF s (Fld.FC_SCNT_WCOUNT.bank n) + k then 0
      else getF s (Fld.FC_SCNT_WCOUNT.bank n) + k := by
  have hapart := apart_wcount.bank n
  split
  case isTrue h =>
    rw [countEvents_of_above hthr h, incF, getF_addF_of_apart hapart, getF_setF_same hapart.1, Nat.zero_mod]
  case isFalse h =>
    have hfits : getF s (Fld.FC_SCNT_WCOUNT.bank n) + k < 2 ^ (Fld.FC_SCNT_WCOUNT.bank n).width :=
      Nat.lt_of_le_of_lt (Nat.not_lt.mp h) (getF_lt (Fld.FC_SRC_THR.bank n) s)
    rw [countEvents_of_within hthr h, getF_setF_same hapart.1, Nat.mod_eq_of_lt hfits]

/-! ### Sticky bits (R399, R416) -/

/-- The sticky bits and the PIN latches are whole registers, apart from each other. -/
theorem sticky_fields (n : Nat) : (stickyField n).Apart (pinField n) ∧ (pinField n).Named ∧ (stickyField n).width = 32 ∧
    (pinField n).width = 32 := by
  rw [stickyField, pinField]
  split <;> decide +kernel

theorem stickyClear_of_live {n : Nat} {s : State} (h : liveBit s n = true) : stickyClear n s = s := if_pos h

/-- The bits of a source that a clearing write takes. -/
def bitsCleared (n : Nat) (s : State) : State :=
  setBitF (pinField n) (n % 32) false (setBitF (stickyField n) (n % 32) false s)

theorem stickyClear_of_quiet {n : Nat} {s : State} (h : liveBit s n = false) : stickyClear n s =
    { bitsCleared n s with fc := { (bitsCleared n s).fc with cls := smSet (zeroDefault 2) (bitsCleared n s).fc.cls n 0 } } :=
  if_neg (by simp [h])

/-- Every collection sets its sticky bit, whatever it does to the PIN latch. -/
theorem bitF_markSticky (j : Judged) (s : State) : bitF (markSticky j s) (stickyField j.src) (j.src % 32) = true := by
  obtain ⟨hapart, _, hwidth, _⟩ := sticky_fields j.src
  have hset : bitF (setBitF (stickyField j.src) (j.src % 32) true s) (stickyField j.src) (j.src % 32) = true :=
    bitF_setBitF_same hapart.1 (by rw [hwidth]; exact Nat.mod_lt _ (by decide)) true s
  change bitF (if j.react.testBit rxPin then setBitF (pinField j.src) (j.src % 32) true _ else _) _ _ = true
  split
  · rw [bitF_setBitF_of_apart hapart, hset]
  · exact hset

/-- Settles O54. -/
theorem recordsCountsAndStickyBits : Obligations.RecordsCountsAndStickyBits := by
  intro s j n k hsrc hcls hreact _
  refine ⟨fun hfree => ?capture, fun hvalid hacked => ?overflow, fun hnever => ?_, fun hthr => ⟨?_, wcount_countEvents k hthr⟩,
    bitF_markSticky j s, stickyClear_of_live, fun hquiet => ?clear, Nat.or_zero _, rfl⟩
  case capture =>
    obtain ⟨hv, ha, hf, hp, hc, hr, hm, hs⟩ := natBits_firstWordOf hsrc hcls hreact
    obtain ⟨nv, na, nf, np, nc, nr, nm, ns, _⟩ := named_record
    obtain ⟨htimeL, htimeH, hsynL, hsynH⟩ := getF_captured_time j s
    have hframe : Frame [.fc] [Fld.FC_HIST_LOST.addr] (captured j s) (record j s) := by
      rw [record_of_free hfree, capture_eq]
      exact frame_histDue _ _
    have hread {f : Field} (haddr : f.addr ∉ [Fld.FC_HIST_LOST.addr]) : getF (record j s) f = getF (captured j s) f :=
      hframe.getF_eq haddr
    refine ⟨?_, ?_, ?_, ?_, ?_, ?_, flag_of_getF_b2n ?_, flag_of_getF_b2n ?_, (hread (by decide)).trans htimeL,
      (hread (by decide)).trans htimeH, (hread (by decide)).trans hsynL, (hread (by decide)).trans hsynH⟩
    · rw [flag, hread (by decide), getF_captured_first nv rfl]
      exact decide_eq_true (hv ▸ Nat.one_ne_zero)
    · rw [flag, hread (by decide), getF_captured_first na rfl]
      exact decide_eq_false (not_not_intro ha)
    · exact (hread (by decide)).trans ((getF_captured_first nm rfl j s).trans hm)
    · exact (hread (by decide)).trans ((getF_captured_first ns rfl j s).trans hs)
    · exact (hread (by decide)).trans ((getF_captured_first nc rfl j s).trans hc)
    · exact (hread (by decide)).trans ((getF_captured_first nr rfl j s).trans hr)
    · exact (hread (by decide)).trans ((getF_captured_first np rfl j s).trans hp)
    · exact (hread (by decide)).trans ((getF_captured_first nf rfl j s).trans hf)
  case overflow =>
    intro t
    have hframe : Frame [.fc] [Fld.FC_HIST_LOST.addr] (besideRecord j s) t := frame_record hvalid
    rw [besideRecord_of_acked hacked] at hframe
    have hovf : Fld.FC_OVF_OVF.Apart Fld.FC_OVF_COUNT ∧ Fld.FC_OVF_COUNT.Apart Fld.FC_OVF_OVF := by decide +kernel
    obtain ⟨_, hmergeCount, hmergeOvf, _, hlost, _⟩ := mergeField_fields n
    refine ⟨?_, ?_, ?_, ?_⟩
    · rw [hframe.flag_eq (by decide), flag_eq_of_getF (getF_addF_of_apart hovf.1 _ _)]
      exact flag_setF_one hovf.1.1 (by decide) s
    · rw [hframe.getF_eq (by decide), getF_addF_same hovf.2.1, getF_setF_of_apart hovf.2]
      rfl
    · rw [hframe.2 _ (by decide)]
      exact (reg_setF_other (by decide)).trans (reg_setF_other (by decide))
    · rw [bitF_of_getF (hframe.getF_eq (by simpa using hlost)), bitF_of_getF (getF_addF_of_apart hmergeCount _ _),
        bitF_of_getF (getF_setF_of_apart hmergeOvf _ _)]
  · rw [countEvents_of_never hnever]
  · by_cases h : getF s (Fld.FC_SRC_THR.bank n) < getF s (Fld.FC_SCNT_WCOUNT.bank n) + k
    · rw [countEvents_of_above hthr h]
      exact iff_of_true rfl h
    · rw [countEvents_of_within hthr h]
      exact iff_of_false Bool.false_ne_true h
  case clear =>
    obtain ⟨hapart, hpin, hwidth, hpinWidth⟩ := sticky_fields n
    have hbit : n % 32 < 32 := Nat.mod_lt n (by decide)
    rw [stickyClear_of_quiet hquiet]
    refine ⟨?_, ?_, smGet_smSet_same (bitsCleared n s).fc.cls n 0, rfl⟩
    · exact (bitF_setBitF_of_apart hapart _ _ _ _).trans (bitF_setBitF_same hapart.1 (by rw [hwidth]; exact hbit) false s)
    · exact bitF_setBitF_same hpin (by rw [hpinWidth]; exact hbit) false _

end Sys2Proof.Machine

namespace Sys2Proof.Machine

/-! ### What the keep's operations cannot change (R305 to R323) -/

/-- The register homes, in any bank, that reads and writes of the keep change: counts, captures, wear, REFRESH_DUE. -/
def keepHomes : List Nat := [0x3000, 0x300C, 0x3018, 0x301C, 0x3020, 0x3030]

/-- A view of the state that the keep's operations leave: it sees none of their registers, no raised event, not the keep. -/
structure KeepBlind {β : Type} (g : State → β) : Prop where
  setReg : ∀ a w s, a % 0x10000 ∈ keepHomes → g (setReg a w s) = g s
  disarm : ∀ s, g (setF Fld.FC_INJ_KP_ARM 0 s) = g s
  raise : ∀ src syn s, g (raise src syn s) = g s
  kp : ∀ k s, g { s with kp := k } = g s

namespace KeepBlind

variable {β : Type} {g : State → β} (h : KeepBlind g)

include h

theorem setF {f : Field} (hf : f.addr % 0x10000 ∈ keepHomes) (v : Nat) (s : State) : g (Machine.setF f v s) = g s :=
  h.setReg _ _ s hf

theorem setKeep (k : Nat) (v : BitVec 72) (s : State) : g (Machine.setKeep k v s) = g s := h.kp _ s

theorem keepFlips (lo hi : Nat) (flips : List (Nat × BitVec 72)) (s : State) :
    g (Machine.keepFlips lo hi flips s) = g s := by
  refine foldl_keeps g (fun e _ t => ?_) s
  split
  · exact h.setKeep _ _ t
  · rfl

theorem putBytes (n k : Nat) (bs : List Byte) (s : State) : g (Machine.putBytes n k bs s) = g s := by
  induction n generalizing k bs s with
  | zero => rfl
  | succ n ih => rw [Machine.putBytes, ih, h.setKeep]

theorem keepWrite (a : Nat) (bs : List Byte) (flips : List (Nat × BitVec 72)) (s : State) :
    g (Machine.keepWrite a bs flips s) = g s := by
  rw [Machine.keepWrite, h.keepFlips, h.putBytes]

theorem keepCapture (ue : Bool) (k : Nat) (s : State) : g (Machine.keepCapture ue k s) = g s := by
  unfold Machine.keepCapture
  extract_lets log s1
  have hs1 : g s1 = g s := (h.raise _ _ _).trans (by cases ue <;> exact h.setF (by decide) _ s)
  split
  · exact hs1
  · rw [h.setReg _ _ _ (by decide), h.setReg _ _ _ (by decide), hs1]

theorem keepCorrected (k : Nat) (s : State) : g (Machine.keepCorrected k s) = g s := by
  rw [Machine.keepCorrected]
  dsimp only
  split
  · exact (h.setF (by decide) _ _).trans (h.kp _ s)
  · exact h.kp _ s

theorem keepEvent (ue : Bool) (k : Nat) (s : State) : g (Machine.keepEvent ue k s) = g s := by
  cases ue with
  | true => exact h.keepCapture true k s
  | false => exact (h.keepCorrected k _).trans (h.keepCapture false k s)

theorem keepRead (a n : Nat) (s : State) : g (Machine.keepRead a n s).2 = g s := by
  rw [Machine.keepRead]
  refine (foldl_keeps g (fun e _ t => ?_) _).trans ?_
  · split
    · exact h.keepEvent true _ t
    · split
      · exact h.keepEvent false _ t
      · rfl
  · split
    · exact h.disarm s
    · rfl

theorem crcFail (region index copy : Nat) (write : Bool) (s : State) :
    g (Machine.crcFail region index copy write s) = g s := by
  rw [Machine.crcFail, h.raise, incF, addF, h.setF (by decide)]
  cases write
  · rfl
  · exact h.kp _ s

theorem setWear (region n : Nat) (s : State) : g (Machine.setWear region n s) = g s := by
  have hhome : (Fld.KP_WEAR_COUNT.bank region).addr % 0x10000 ∈ keepHomes := by
    rw [Field.bank, Nat.add_mul_mod_self_left]
    decide
  unfold Machine.setWear
  extract_lets f old s1 lim
  have hs1 : g s1 = g s := h.setF hhome _ s
  split
  · rw [h.raise, hs1]
  · exact hs1

theorem wearRing (region n : Nat) (s : State) : g (Machine.wearRing region n s) = g s := by
  rw [Machine.wearRing, h.setWear, h.kp]

end KeepBlind

/-! ### The fault history (R419, R420) -/

/-- The history's own part of the fault unit. -/
def histView (s : State) : List HistEntry × Option Time := (s.fc.hist, s.fc.lastHist)

theorem keepBlind_histView : KeepBlind histView := ⟨fun _ _ _ _ => rfl, fun _ => rfl, fun _ _ _ => rfl, fun _ _ => rfl⟩

theorem histWrite_of_stopped {s : State} (h : s.fc.hist = [] ∨ histAllowed s = false) (flips : List (Nat × BitVec 72)) :
    histWrite flips s = s := by
  rw [histWrite]
  split
  · rfl
  case h_2 e more hist =>
    exact if_pos (by rw [h.resolve_left (by rw [hist]; exact List.cons_ne_nil e more)]; rfl)

/-- A history entry that may be written leaves the queue, and the gap begins. -/
theorem histView_histWrite {e : HistEntry} {more : List HistEntry} {s : State} (h : s.fc.hist = e :: more)
    (hmay : histAllowed s = true) (flips : List (Nat × BitVec 72)) : histView (histWrite flips s) = (more, some s.aon) := by
  have hblind := keepBlind_histView
  rw [histWrite, h]
  dsimp only
  rw [if_neg (by simp [hmay])]
  split
  · rw [hblind.keepRead, hblind.keepWrite, hblind.wearRing]
    rfl
  · rw [hblind.crcFail, hblind.keepRead, hblind.keepWrite, hblind.wearRing]
    rfl

/-! ### The collector's tick (R398) -/

/-- Nothing waits, so no write, reaction or collection takes effect. -/
theorem collect_of_quiet {s : State} (hwrites : s.fc.writes = []) (hheld : s.fc.deferred = []) (hevents : s.fc.events = []) :
    collect s = s := by
  have hw : applyFcWrites s = s := by
    rw [applyFcWrites, hwrites, List.foldl_nil, ← hwrites]
  have hd : releaseHeld s = ([], s) := by
    rw [releaseHeld]
    split
    · rfl
    · rw [hheld, List.foldl_nil, ← hheld]
  have he : inOrder [] = [] := by
    rw [inOrder]
    exact List.flatMap_eq_nil_iff.mpr fun _ _ => rfl
  rw [collect]
  simp only [hw, hd, hevents, he, List.foldl_nil, chipReact]
  rw [← hevents]

/-! ### Writes to the fault collector (R398, R414 to R423) -/

/-- A write of the FC block waits for the next tick. -/
def fcWaits (a : Nat) (v : Word) (s : State) : State := fcQueue ⟨a, v, 0xFFFFFFFF, none⟩ s

theorem writeEffect_fc {a : Nat} (hlow : 0x3C00 ≤ a) (hhigh : a < 0x4000) (v : Word) (env : ConEnv) (s : State) :
    writeEffect a v env s = fcWaits a v s := by
  rw [writeEffect, if_neg (by omega), if_neg (by omega), writeHigh, if_pos (by simp [hlow, hhigh])]
  rfl

theorem fcWrite_of_mgtOff {s : State} (h : mgtOn s = false) (a : Nat) (v : Word) : fcWrite a v s = s := if_neg (by simp [h])

theorem fcWrite_of_accepted {s : State} (h : mgtOn s = true) {a : Nat} {v : Word} (hlow : 0x3C00 ≤ a) (hhigh : a < 0x4000)
    (herr : writeError s a v = none) : fcWrite a v s = fcWaits a v s := by
  rw [fcWrite, if_pos h, writeReg, writeAddr_of_accepted _ herr, writeEffect_fc hlow hhigh]

/-- The sticky bits of live sources stay, and the others of the write act: E21 leaves the write to the tick (R416). -/
theorem fcWrite_of_locked {s : State} (h : mgtOn s = true) {a : Nat} {v : Word} (ha : a = 0x3C28 ∨ a = 0x3C2C)
    (herr : writeError s a v = some .e21) : fcWrite a v s = fcWaits a v s := by
  rw [fcWrite, if_pos h, writeReg, writeAddr_of_refused _ herr, refusedWrite, if_pos (by simpa using ha),
    writeEffect_fc (by omega) (by omega)]

theorem fcWrite_of_noAuth {s : State} (h : mgtOn s = true) {a : Nat} {v : Word} (herr : writeError s a v = some .e40) :
    fcWrite a v s = s := by
  rw [fcWrite, if_pos h, writeReg, writeAddr_of_refused _ herr, refusedWrite_eq_self (by decide) (fun he => by cases he)]

/-- The written registers of the FC block are listed and lie outside PD_CORE. -/
theorem fcRows : ∀ a ∈ [0x3C08, 0x3C28, 0x3C2C, 0x3C40, 0x3C54, 0x3C58, 0x3C64],
    addrError a = none ∧ ((regRow a).map (·.cls)).all (fun c => c = .mgt || c = .aonKept) = true := by decide +kernel

theorem regPowered_fc {a : Nat} (ha : a ∈ [0x3C08, 0x3C28, 0x3C2C, 0x3C40, 0x3C54, 0x3C58, 0x3C64]) {s : State}
    (h : mgtOn s = true) : regPowered s a = true := by
  have hcls := (fcRows a ha).2
  rw [regPowered]
  cases hrow : regRow a with
  | none => rfl
  | some r =>
    rw [hrow] at hcls
    have hc : r.cls = .mgt ∨ r.cls = .aonKept := by simpa using hcls
    rcases hc with hc | hc <;> simp [hc, h]

/-- Of the checks of a write only authentication, range and lock can fail here. -/
theorem writeError_fc {a : Nat} (ha : a ∈ [0x3C08, 0x3C28, 0x3C2C, 0x3C40, 0x3C54, 0x3C58, 0x3C64]) {s : State}
    (h : mgtOn s = true) (v : Word) : writeError s a v =
      if writeNoAuth s a v then some .e40
      else if rangeHigh s a v then some .e20
      else if writeLocked s a v then some .e21 else none := by
  have hpow := regPowered_fc ha h
  have haddr := (fcRows a ha).1
  simp only [List.mem_cons, List.not_mem_nil, or_false] at ha
  rcases ha with rfl | rfl | rfl | rfl | rfl | rfl | rfl <;>
    simp [writeError, haddr, writeMode, hpow, rangeBad, rangeLow, rangeMid, writeBusy]

theorem fcWrite_ctrl {s : State} (h : mgtOn s = true) {a : Nat} (ha : a = 0x3C08 ∨ a = 0x3C40) (v : Word) :
    fcWrite a v s = fcWaits a v s := by
  refine fcWrite_of_accepted h (by omega) (by omega) ?_
  rcases ha with rfl | rfl <;> rw [writeError_fc (by decide) h] <;> simp [writeNoAuth, rangeHigh, writeLocked]

theorem fcWrite_sticky {s : State} (h : mgtOn s = true) {a : Nat} (ha : a = 0x3C28 ∨ a = 0x3C2C) (v : Word) :
    fcWrite a v s = fcWaits a v s := by
  have herr : writeError s a v = if writeLocked s a v then some .e21 else none := by
    rcases ha with rfl | rfl <;> rw [writeError_fc (by decide) h] <;> simp [writeNoAuth, rangeHigh]
  by_cases hlock : writeLocked s a v = true
  · exact fcWrite_of_locked h ha (herr.trans (if_pos hlock))
  · exact fcWrite_of_accepted h (by omega) (by omega) (herr.trans (if_neg hlock))

/-- Forcing and injection need a session from DEPLOYED on, and a sound word (R421 to R423). -/
theorem writeError_force {s : State} (h : mgtOn s = true) {a : Nat} (ha : a = 0x3C54 ∨ a = 0x3C58 ∨ a = 0x3C64) (v : Word) :
    writeError s a v = if deployed s && !authed s then some .e40 else if rangeHigh s a v then some .e20 else none := by
  rcases ha with rfl | rfl | rfl <;> rw [writeError_fc (by decide) h] <;> simp [writeNoAuth, writeLocked]

theorem fcWrite_of_unauthenticated {s : State} (h : mgtOn s = true) (hlc : 2 ≤ lcState s)
    (hauth : flag s Fld.GN_STATUS_SESS_AUTH = false) {a : Nat} (ha : a = 0x3C54 ∨ a = 0x3C58 ∨ a = 0x3C64) (v : Word) :
    fcWrite a v s = s :=
  fcWrite_of_noAuth h ((writeError_force h ha v).trans (if_pos (by simp [deployed, authed, hlc, hauth])))

theorem fcWrite_of_authenticated {s : State} (h : mgtOn s = true)
    (hmay : lcState s < 2 ∨ flag s Fld.GN_STATUS_SESS_AUTH = true) {a : Nat}
    (ha : a = 0x3C54 ∨ a = 0x3C58 ∨ a = 0x3C64) {v : Word} (hrange : rangeHigh s a v = false) : fcWrite a v s = fcWaits a v s := by
  refine fcWrite_of_accepted h (by omega) (by omega) ?_
  have hopen : (deployed s && !authed s) = false := by
    rcases hmay with hmay | hmay
    · simp [deployed, Nat.not_le.mpr hmay]
    · simp [authed, hmay]
  rw [writeError_force h ha, hopen, hrange]
  rfl

/-! ### Queued writes that act on the record (R414, R415) -/

theorem applyFcWrite_ack (s : State) : applyFcWrite s ⟨0x3C40, 1, 0xFFFFFFFF, none⟩ = recordAck s := rfl

theorem applyFcWrite_clear (s : State) : applyFcWrite s ⟨0x3C08, 0x80000000, 0xFFFFFFFF, none⟩ = recordClear s := rfl

theorem reg_foldl_clear {l : List Nat} {a : Nat} (h : a ∈ l) (s : State) : reg (l.foldl (fun t b => setReg b 0 t) s) a = 0 := by
  have hkeep (l : List Nat) (t : State) (ht : reg t a = 0) : reg (l.foldl (fun t b => setReg b 0 t) t) a = 0 := by
    induction l generalizing t with
    | nil => exact ht
    | cons b l ih =>
      refine ih _ ?_
      by_cases hb : a = b
      · subst hb
        exact (reg_setReg_same).trans BitVec.zero_and
      · rw [reg_setReg_other hb, ht]
  induction l generalizing s with
  | nil => exact absurd h List.not_mem_nil
  | cons b l ih =>
    rcases List.mem_cons.mp h with rfl | h
    · exact hkeep l _ ((reg_setReg_same).trans BitVec.zero_and)
    · exact ih h _

theorem recordClear_of_valid {s : State} (h : flag s Fld.FC_FIRST_VALID = true) : recordClear s =
    recordHomes.foldl (fun t a => setReg a 0 t) (histComplete (recordEntry s) s) := if_pos h

/-! ### The commands of the collector -/

theorem exec_fcCommands (s : State) (src : BitVec 6) (high : Bool) (v : Word) :
    exec .faultCollect s = .next (if mgtOn s then collect s else s) ∧
      exec (.fcWindowClose src) s = .next (if mgtOn s then setF (Fld.FC_SCNT_WCOUNT.bank src.toNat) 0 s else s) ∧
      exec .fcAck s = .next (fcWrite 0x3C40 1 s) ∧ exec .fcClrSticky s = .next (fcWrite 0x3C40 2 s) ∧
      exec .fcRecordClear s = .next (fcWrite 0x3C08 0x80000000 s) ∧
      exec (.fcStickyClear high v) s = .next (fcWrite (if high then 0x3C2C else 0x3C28) v s) ∧
      exec (.fcForce high v) s = .next (fcWrite (if high then 0x3C58 else 0x3C54) v s) ∧
      exec (.fcInj v) s = .next (fcWrite 0x3C64 v s) := ⟨rfl, rfl, rfl, rfl, rfl, rfl, rfl, rfl⟩

theorem exec_nmtHandler (ends : HandlerEnd) (s : State) : exec (.nmtHandler ends) s = .next (nmtHandle ends s) := rfl

theorem exec_historyWrite (flips : List (Nat × BitVec 72)) (s : State) :
    exec (.historyWrite flips) s = .next (histWrite flips s) := rfl

theorem exec_chiprstWindowExpiry (s : State) : exec .chiprstWindowExpiry s =
    .next (if s.boot = .held then s else setF Fld.FC_STATUS_RST_LIMIT 0 (setF Fld.FC_STATUS_RST_COUNT 0 s)) := rfl

theorem nmtHandle_of_stopped {s : State} (h : s.fc.nmt = [] ∨ stewardRuns s = false ∨ s.fc.nmtRun.isSome = true)
    (ends : HandlerEnd) : nmtHandle ends s = s := by
  rw [nmtHandle]
  split
  · rfl
  case h_2 n rest hnmt =>
    have hstop := h.resolve_left (by rw [hnmt]; exact List.cons_ne_nil n rest)
    exact if_pos (by rcases hstop with hstop | hstop <;> simp [hstop])

theorem nmtHandle_of_running {n : Nat} {rest : List Nat} {s : State} (h : s.fc.nmt = n :: rest) (hrun : stewardRuns s = true)
    (hidle : s.fc.nmtRun = none) :
    nmtHandle .returns s = { s with fc := { s.fc with nmt := rest } } ∧
      nmtHandle .hangs s = { s with fc := { s.fc with nmt := rest, nmtRun := some n } } ∧
      ∀ v, nmtHandle (.exception v) s = raise 53 (n * 2 ^ 32 + v.toNat)
        { s with fc := { s.fc with nmt := rest, nmtRun := some n }, sw := { s.sw with halted := true } } := by
  have hfree : ¬ (!stewardRuns s || s.fc.nmtRun.isSome) = true := by simp [hrun, hidle]
  refine ⟨?_, ?_, fun v => ?_⟩ <;> rw [nmtHandle, h] <;> exact if_neg hfree

/-- Settles O52. -/
theorem faultCollectorCommands : Obligations.FaultCollectorCommands := by
  intro s src ends flips high v n rest e more put
  obtain ⟨hcollect, hwindow, hack, hclr, hrecord, hsticky, hforce, hinj⟩ := exec_fcCommands s src high v
  have hhigh (a b : Nat) : (if high = true then a else b) = a ∨ (if high = true then a else b) = b := by
    split
    · exact .inl rfl
    · exact .inr rfl
  have hforceHome : (if high = true then 0x3C58 else 0x3C54) = 0x3C54 ∨ (if high = true then 0x3C58 else 0x3C54) = 0x3C58 ∨
      (if high = true then 0x3C58 else 0x3C54) = 0x3C64 := (hhigh 0x3C58 0x3C54).elim (fun h => .inr (.inl h)) .inl
  rw [hcollect, hwindow, hack, hclr, hrecord, hsticky, hforce, hinj]
  refine ⟨fun h => by rw [if_pos h], collect_of_quiet, fun h => by rw [if_pos h], fun h => ?off, fun h => ?_, fun h hrun hidle => ?_,
    fun h => ?window, fun h => ?_, fun h => ?_, fun h hmay => ?history, fun h => ?writes, fun h hno => ?_, fun h hmay => ?forced,
    fun h => ?record, fun h => ?_⟩
  case off => simp [h, fcWrite_of_mgtOff]
  · rw [exec_nmtHandler, nmtHandle_of_stopped h]
  · obtain ⟨hreturns, hhangs, hexception⟩ := nmtHandle_of_running h hrun hidle
    rw [exec_nmtHandler, exec_nmtHandler, exec_nmtHandler, hreturns, hhangs, hexception]
    exact ⟨rfl, rfl, rfl⟩
  case window =>
    have hapart : Fld.FC_STATUS_RST_COUNT.Apart Fld.FC_STATUS_RST_LIMIT ∧ Fld.FC_STATUS_RST_LIMIT.Named := by decide +kernel
    refine ⟨_, by rw [exec_chiprstWindowExpiry, if_neg h], ?_, flag_setF_zero hapart.2 _,
      ((frame_setF Fld.FC_STATUS_RST_COUNT 0 s).trans (frame_setF Fld.FC_STATUS_RST_LIMIT 0 _)).mono (by decide) (by decide)⟩
    rw [getF_setF_of_apart hapart.1, getF_setF_same hapart.1.1, Nat.zero_mod]
  · rw [exec_chiprstWindowExpiry, if_pos h]
  · rw [exec_historyWrite, histWrite_of_stopped h]
  case history =>
    have hview := histView_histWrite h hmay flips
    exact ⟨_, exec_historyWrite flips s, congrArg Prod.fst hview, congrArg Prod.snd hview⟩
  case writes =>
    rw [fcWrite_ctrl h (.inr rfl), fcWrite_ctrl h (.inr rfl), fcWrite_ctrl h (.inl rfl), fcWrite_sticky h (hhigh _ _).symm]
    exact ⟨rfl, rfl, rfl, rfl⟩
  · rw [fcWrite_of_unauthenticated h hno.1 hno.2 hforceHome, fcWrite_of_unauthenticated h hno.1 hno.2 (by decide)]
    exact ⟨rfl, rfl⟩
  case forced =>
    refine ⟨fun hnames => ?_, fun hmask => ?_⟩
    · rw [fcWrite_of_authenticated h hmay hforceHome (by cases high <;> exact hnames)]
      rfl
    · have hrange : rangeHigh s 0x3C64 v = false := by
        have hfield : fv v Fld.FC_INJ_MASK ≠ 0 := by
          rwa [fv, natBits, Nat.shiftRight_eq_div_pow]
        simp [rangeHigh, hfield]
      rw [fcWrite_of_authenticated h hmay (by decide) hrange]
      rfl
  case record =>
    rw [applyFcWrite_ack, applyFcWrite_clear, recordClear_of_valid h]
    exact ⟨if_pos h, reg_foldl_clear (by decide) _, reg_foldl_clear (by decide) _⟩
  · rw [applyFcWrite_ack, applyFcWrite_clear]
    exact ⟨if_neg (by simp [h]), if_neg (by simp [h])⟩

end Sys2Proof.Machine

namespace Sys2Proof.Machine

/-! ### The console's session (R450 to R452) -/

theorem frame_con (c : Console) (s : State) : Frame [.con] [] s { s with con := c } := by
  refine ⟨fun p hp => ?_, fun a _ => rfl⟩
  cases p
  case con => exact absurd (List.mem_singleton_self _) hp
  all_goals rfl

/-- The console is reachable by the start-up, the Steward, the clock and the mode alone. -/
theorem Frame.consoleUp_eq {ps : List Part} {as : List Nat} {s t : State} (h : Frame ps as s t)
    (hparts : Part.boot ∉ ps ∧ Part.sw ∉ ps)
    (hhomes : Fld.PM_MODE_MODE.addr ∉ as ∧ Fld.PM_DOMAIN_MGT.addr ∉ as ∧ Fld.CK_STATUS_MCLK_LOCK.addr ∉ as) :
    consoleUp t = consoleUp s := by
  have hboot : t.boot = s.boot := h.1 .boot hparts.1
  have hsw : t.sw = s.sw := h.1 .sw hparts.2
  have hmode : mode t = mode s := h.getF_eq hhomes.1
  have hmgt : mgtOn t = mgtOn s := by rw [mgtOn, h.getF_eq hhomes.2.1]; rfl
  rw [consoleUp, stewardRuns, hmode, hmgt, h.flag_eq hhomes.2.2, hboot, hsw]
  rfl

theorem frame_takeLease (v : Transport) (s : State) : Frame [.con] [Fld.CN_SESS_HOLDER.addr] s (takeLease v s) := by
  have hset := frame_setReg Fld.CN_SESS_HOLDER.addr (BitVec.ofNat 32 (holderCode v)) s
  cases v with
  | uart => exact (hset.trans (frame_con _ _)).mono (by simp) (by simp)
  | i3c => exact hset.mono (by simp) (by simp)

theorem holder_takeLease (v : Transport) (s : State) : holder (takeLease v s) = holderCode v := by
  have hreg (w : Word) : getF (setReg Fld.CN_SESS_HOLDER.addr w s) Fld.CN_SESS_HOLDER =
      fv (w &&& regMask Fld.CN_SESS_HOLDER.addr) Fld.CN_SESS_HOLDER := by
    rw [getF, reg_setReg_same]
    rfl
  have hval : ∀ v : Transport, fv (BitVec.ofNat 32 (holderCode v) &&& regMask Fld.CN_SESS_HOLDER.addr) Fld.CN_SESS_HOLDER =
      holderCode v
    | .uart => by decide +kernel
    | .i3c => by decide +kernel
  cases v with
  | uart => exact (hreg _).trans (hval .uart)
  | i3c => exact (hreg _).trans (hval .i3c)

theorem holderCode_ne_zero (v : Transport) : holderCode v ≠ 0 := by cases v <;> decide

theorem conLine_of_down {s : State} (h : consoleUp s = false) (v : Transport) (c : ConCmd) (env : ConEnv) :
    conLine v c env s = s := if_pos (by simp [h])

theorem conLine_of_other {s : State} {v : Transport} (h : consoleUp s = true) (hheld : holder s ≠ 0)
    (hother : holder s ≠ holderCode v) (c : ConCmd) (env : ConEnv) : conLine v c env s = refuseInput 1 s := by
  rw [conLine, if_neg (by simp [h]), if_pos (by simp [hheld, hother])]

/-- The holder's command is judged as it is heard, and answered. -/
theorem conLine_of_holder {s : State} {v : Transport} (h : consoleUp s = true) (hmine : holder s = holderCode v)
    (c : ConCmd) (env : ConEnv) : conLine v c env s = reply (nextSeq s) "\n" (runCmd v c env (hear s)) := by
  have hheld : holder s ≠ 0 := hmine ▸ holderCode_ne_zero v
  rw [conLine, if_neg (by simp [h]), if_neg (by simp [hmine])]
  simp only [if_neg hheld]
  rfl

theorem conLine_of_free {s : State} (h : consoleUp s = true) (hfree : holder s = 0) (v : Transport) (c : ConCmd)
    (env : ConEnv) : conLine v c env s = conLine v c env (takeLease v s) := by
  have hup : consoleUp (takeLease v s) = true := ((frame_takeLease v s).consoleUp_eq (by decide) (by decide)).trans h
  rw [conLine_of_holder hup (holder_takeLease v s), conLine, if_neg (by simp [h]), if_neg (by simp [hfree])]
  simp only [if_pos hfree]
  rfl

theorem runCmd_of_judged {v : Transport} {c : ConCmd} {s : State} {e : ErrCode} (h : judgeCmd v c (hear s) = some e)
    (env : ConEnv) : runCmd v c env (hear s) = fails e (refusedCmd e c env (working s)) := by
  rw [runCmd, h]
  rfl

theorem runCmd_of_passed {v : Transport} {c : ConCmd} {s : State} (h : judgeCmd v c (hear s) = none) (env : ConEnv) :
    runCmd v c env (hear s) = effectCmd v c env (working s) := by
  rw [runCmd, h]
  rfl

/-- Only a register write, a save trigger and a ledger access do something where they are refused (R253, R333, R398). -/
theorem refusedCmd_eq_self {c : ConCmd} (hwr : ∀ a x, c ≠ .wr a x) (hsave : c ≠ .saveNow) (hrd : ∀ l x, c ≠ .ledgerRd l x)
    (hlwr : ∀ l x h o, c ≠ .ledgerWr l x h o) (e : ErrCode) (env : ConEnv) (s : State) : refusedCmd e c env s = s := by
  cases c with
  | wr a x => exact absurd rfl (hwr a x)
  | saveNow => exact absurd rfl hsave
  | ledgerRd l x => exact absurd rfl (hrd l x)
  | ledgerWr l x h o => exact absurd rfl (hlwr l x h o)
  | _ => rfl

theorem judgeCmd_of_object {c : ConCmd} {o : ErrCode} (h : objectError c = some o) (v : Transport) (s : State) :
    judgeCmd v c s = some o := by rw [judgeCmd, h]

/-- Table CP-3: once the object stands, the checks follow in their order. -/
theorem judgeCmd_of_noObjectError {c : ConCmd} (h : objectError c = none) (v : Transport) (s : State) : judgeCmd v c s =
    if noAuth v c s then some .e40
    else if wrongMode c s then some .e50
    else if argsBad c s then some .e20
    else if locked c s then some .e21
    else if resourceBusy c s then some .e30 else none := by rw [judgeCmd, h]

/-! ### Completion tokens (R471) -/

/-- Either the search ends at a number that is not outstanding, or every number it tried is. -/
theorem freeToken_not_mem (used : List Nat) (n t : Nat) (ht : t < 256) :
    (freeToken used n t < 256 ∧ freeToken used n t ∉ used) ∨ ∀ i < n, (t + i) % 256 ∈ used := by
  induction n generalizing t with
  | zero => exact .inr fun i hi => absurd hi (Nat.not_lt_zero i)
  | succ n ih =>
    rw [freeToken]
    by_cases hmem : t ∈ used
    · rw [if_pos (List.contains_iff_mem.mpr hmem)]
      refine (ih ((t + 1) % 256) (Nat.mod_lt _ (by decide))).imp_right fun htried i hi => ?_
      cases i with
      | zero => rwa [Nat.add_zero, Nat.mod_eq_of_lt ht]
      | succ i =>
        have hnext := htried i (Nat.lt_of_succ_lt_succ hi)
        rwa [Nat.mod_add_mod, Nat.add_assoc, Nat.add_comm 1 i] at hnext
    · rw [if_neg (by simp [hmem])]
      exact .inl ⟨ht, hmem⟩

/-- Eight consecutive numbers cannot all be outstanding while fewer than eight are. -/
theorem freeToken_is_free {used : List Nat} (hused : used.length < 8) {t : Nat} (ht : t < 256) :
    freeToken used 8 t < 256 ∧ freeToken used 8 t ∉ used := by
  refine (freeToken_not_mem used 8 t ht).resolve_right fun htried => ?_
  have hdistinct : ((List.range 8).map fun i => (t + i) % 256).Nodup := by
    refine List.Nodup.map_on (fun i hi j hj hij => ?_) List.nodup_range
    rw [List.mem_range] at hi hj
    omega
  have hsub : ((List.range 8).map fun i => (t + i) % 256) ⊆ used := fun x hx => by
    obtain ⟨i, hi, rfl⟩ := List.mem_map.mp hx
    exact htried i (List.mem_range.mp hi)
  have hlen := (List.subperm_of_subset hdistinct hsub).length_le
  rw [List.length_map, List.length_range] at hlen
  omega

theorem defers_of_full {s : State} (h : 8 ≤ s.con.tokens.length) (what : Nat) (run : State → State) :
    defers what run s = fails .e30 s := if_pos h

theorem defers_of_room {s : State} (h : s.con.tokens.length < 8) (what : Nat) (run : State → State) :
    defers what run s =
      ⟨[errLine .e31 ("tok=" ++ hexStr 2 (freeToken (s.con.tokens.map (·.1)) 8 s.con.nextToken))], .nothing,
        run { s with con := { s.con with
          tokens := s.con.tokens ++ [(freeToken (s.con.tokens.map (·.1)) 8 s.con.nextToken, what)],
          nextToken := (freeToken (s.con.tokens.map (·.1)) 8 s.con.nextToken + 1) % 256 } }⟩ :=
  if_neg (Nat.not_le.mpr h)

/-- Settles O56: the order is that of `judgeCmd`, and a token that is free exists while fewer than eight are outstanding. -/
theorem consoleJudgesCommands : Obligations.ConsoleJudgesCommands := by
  intro v c env s e what run
  refine ⟨fun h => conLine_of_down h v c env, fun h hheld hother => conLine_of_other h hheld hother c env,
    fun h hfree => ⟨holder_takeLease v s, conLine_of_free h hfree v c env⟩, fun h hmine he => ?_, fun h hmine hpass => ?_,
    fun hwr hsave hrd hlwr => refusedCmd_eq_self hwr hsave hrd hlwr e env s, fun o ho => judgeCmd_of_object ho v s,
    fun ho h40 => ?_, fun ho h40 h50 => ?_, fun ho h40 h50 h20 => ?_, fun ho h40 h50 h20 h21 => ?_,
    fun ho h40 h50 h20 h21 => ?_, fun h => defers_of_full h what run, fun h hnext _ => ?_⟩
  · rw [conLine_of_holder h hmine, runCmd_of_judged he]
  · rw [conLine_of_holder h hmine, runCmd_of_passed hpass]
  · simp [judgeCmd_of_noObjectError ho, h40]
  · simp [judgeCmd_of_noObjectError ho, h40, h50]
  · simp [judgeCmd_of_noObjectError ho, h40, h50, h20]
  · simp [judgeCmd_of_noObjectError ho, h40, h50, h20, h21]
  · simp [judgeCmd_of_noObjectError ho, h40, h50, h20, h21]
  · have hlen : (s.con.tokens.map (·.1)).length < 8 := by rwa [List.length_map]
    obtain ⟨hlt, hfree⟩ := freeToken_is_free hlen hnext
    exact ⟨_, hlt, hfree, defers_of_room h what run⟩

end Sys2Proof.Machine

namespace Sys2Proof.Machine

/-! ### The rows of Table CC-2 (R479 to R501) -/

/-- An accepted command has its effect in the working state, and is answered. -/
theorem answered_of_accepted {v : Transport} {c : ConCmd} {s : State} (h : Accepted v c s) {env : ConEnv} {r : Ran}
    (hr : effectCmd v c env (working s) = r) : Host.Outcome.next (conLine v c env s) = Answered s r := by
  obtain ⟨hup, hmine, hpass⟩ := h
  rw [conLine_of_holder hup hmine, runCmd_of_passed hpass, hr]
  rfl

theorem effectCmd_shows {object : String} {x : ShowObj} (h : objectOf object = some x) (v : Transport) (arg : Option String)
    (env : ConEnv) (s : State) : effectCmd v (.shows (some object) arg) env s = replies (showLines x arg s) s := by
  rw [effectCmd, Option.bind_some, h]

theorem effectCmd_get {name : String} {p : Policy} (h : policyOf name = some p) (v : Transport) (env : ConEnv) (s : State) :
    effectCmd v (.get (some name)) env s = replies ["ok " ++ p.name ++ "=" ++ policyText s p] s := by
  rw [effectCmd, Option.bind_some, h]

theorem effectCmd_set {name : String} {p : Policy} (h : policyOf name = some p) (value : String) (v : Transport) (env : ConEnv)
    (s : State) : effectCmd v (.set (some name) (some value)) env s =
      changes p.field.addr (setPolicy p ((policyValue p value).getD 0)) s := by
  rw [effectCmd, Option.getD_some, Option.getD_some, runSet, h]

theorem effectCmd_commit {s : State} (h : commitFails s = none) (v : Transport) (env : ConEnv) :
    effectCmd v .commit env s = okOrDefers tokCommit (fun t => !commitPending t) (fun t => (commitNow t).2) s := by
  rw [effectCmd, runCommit, h]

theorem effectCmd_calStore {s : State} (h : s.kp.commit = none) (v : Transport) (env : ConEnv) :
    effectCmd v .calStore env s =
      if flag (calStoreEnd s.kp.calDue env.flips (calStoreStart s)) Fld.CB_STATUS_LAST_STORE_FAIL
      then fails .e60 (calStoreEnd s.kp.calDue env.flips (calStoreStart s))
      else okay (calStoreEnd s.kp.calDue env.flips (calStoreStart s)) := by
  rw [effectCmd, runCalStore, if_neg (by simp [h])]

theorem effectCmd_calEnable {engine : String} {f : Field} (h : engineOf engine = some f) (on : Bool) (v : Transport)
    (env : ConEnv) (s : State) : effectCmd v (.calEnable (some engine) (some on)) env s =
      changes f.addr (fun t => switchEffect (setB f on t)) s := by
  rw [effectCmd, Option.bind_some, h]
  rfl

theorem changes_of_inForce {addr : Nat} {run : State → State} {s : State} (h : changeWaits addr s (run s) = 0) :
    changes addr run s = okay (run s) := if_pos h

theorem changes_of_waiting {addr : Nat} {run : State → State} {s : State} (h : changeWaits addr s (run s) ≠ 0) :
    changes addr run s = defers (changeWaits addr s (run s)) run s := if_neg h

theorem commitNow_of_pending {s : State} (h : commitPending s = true) : (commitNow s).2 = s := by rw [commitNow, if_pos h]

/-- Settles O57: each accepted row is its arm of `effectCmd`. -/
theorem consoleRowsThatReadAndSet : Obligations.ConsoleRowsThatReadAndSet := by
  intro s via verb arg object name value engine addr v env rank lane line word hi lo train flips dram on held collide hct gen
    x p f run w
  refine ⟨fun h => answered_of_accepted h rfl, fun h hx => answered_of_accepted h (effectCmd_shows hx _ _ _ _),
    fun h hp => answered_of_accepted h (effectCmd_get hp _ _ _), fun h hp => answered_of_accepted h (effectCmd_set hp _ _ _ _),
    fun h => answered_of_accepted h rfl, fun h => answered_of_accepted h rfl, changes_of_inForce, changes_of_waiting,
    fun h hc => answered_of_accepted h (effectCmd_commit (s := working s) hc _ _), fun h => answered_of_accepted h rfl,
    fun h => ⟨congrArg _ (if_pos h), congrArg _ (if_pos h)⟩, commitNow_of_pending, fun h => answered_of_accepted h rfl,
    fun h => answered_of_accepted h rfl, fun h hk => ?calStore,
    fun h => answered_of_accepted h rfl, fun h hf => answered_of_accepted h (effectCmd_calEnable hf _ _ _ _),
    fun h => answered_of_accepted h rfl, fun h => answered_of_accepted h rfl, fun h => answered_of_accepted h rfl,
    fun h => answered_of_accepted h rfl, fun h => answered_of_accepted h rfl, fun h => answered_of_accepted h rfl,
    fun h => answered_of_accepted h rfl, fun h => ?store, fun h => ?load⟩
  case calStore =>
    have hcmd := effectCmd_calStore (s := working s) hk via (flipEnv flips)
    exact answered_of_accepted h hcmd
  case store =>
    refine answered_of_accepted h ?_
    cases gen <;> rfl
  case load =>
    refine answered_of_accepted h ?_
    cases hct <;> rfl

end Sys2Proof.Machine

namespace Sys2Proof.Machine

theorem effectCmd_faultForce (n : Nat) (synh synl : Option Nat) (v : Transport) (env : ConEnv) (s : State) :
    effectCmd v (.faultForce (some n) (synh.map some) (synl.map some)) env s = runForce n (synh.getD 0) (synl.getD 0) s := by
  cases synh <;> cases synl <;> rfl

theorem effectCmd_traceShow (aon : Bool) (last : Option Nat) (v : Transport) (env : ConEnv) (s : State) :
    effectCmd v (.traceShow aon (last.map some)) env s =
      replies (traceLines (if aon then s.tr.fifo else s.tr.ring) (last.getD 16)) s := by
  cases last <;> rfl

/-- Settles O58: each accepted row is its arm of `effectCmd`. -/
theorem consoleRowsThatOperate : Obligations.ConsoleRowsThatOperate := by
  intro s via n src synh synl last what inj fields aon proof key flips target bank spare col stuck stuck9 keys reads b checks w put
  exact ⟨fun h => answered_of_accepted h rfl, fun h => answered_of_accepted h rfl, fun h => answered_of_accepted h rfl,
    fun h => answered_of_accepted h (effectCmd_faultForce _ _ _ _ _ _), fun h => answered_of_accepted h rfl,
    fun h => answered_of_accepted h rfl, fun h => answered_of_accepted h rfl, fun h => answered_of_accepted h rfl,
    fun h => answered_of_accepted h rfl, fun h => answered_of_accepted h (effectCmd_traceShow _ _ _ _ _),
    fun h => answered_of_accepted h rfl, fun h => answered_of_accepted h rfl, fun h => answered_of_accepted h rfl,
    fun h => answered_of_accepted h rfl, fun h => answered_of_accepted h rfl, fun h => answered_of_accepted h rfl,
    fun h => answered_of_accepted h rfl, fun h => answered_of_accepted h rfl, fun h => answered_of_accepted h rfl,
    fun h => answered_of_accepted h rfl, fun h => answered_of_accepted h rfl, fun h => answered_of_accepted h rfl,
    fun h => answered_of_accepted h rfl, fun h => answered_of_accepted h rfl,
    fun h => ⟨congrArg _ (conLine_of_down h _ _ _), congrArg _ (conLine_of_down h _ _ _), congrArg _ (conLine_of_down h _ _ _)⟩⟩

end Sys2Proof.Machine

namespace Sys2Proof.Machine

/-! ### The transports' rows while the console is up (R451 to R459) -/

theorem exec_uartLine {s : State} (h : consoleUp s = true) (env : ConEnv) : exec (.uartLine env) s = .next
    (if holder s = 2 then refuseInput 1 (rxByte s)
      else if holder s = 0 then lineEnd .uart env (takeLease .uart (rxByte s)) else lineEnd .uart env (rxByte s)) :=
  congrArg _ (if_neg (by simp [h]))

theorem exec_uartFrame {s : State} (h : consoleUp s = true) (byte : Byte) (full : Bool) : exec (.uartFrame byte full) s = .next
    (if holder s = 2 then refuseInput 1 (rxByte s)
      else if full then lineLost (rxByte s)
      else if byte = 0x0D#8 || byte = 0x0A#8 then rxByte s else lineByteIn byte (rxByte s)) :=
  congrArg _ (if_neg (by simp [h]))

theorem exec_uartAutobaud (edges : CrEdges) (s : State) : exec (.uartAutobaud edges) s = .next
    (if consoleUp s && flag s Fld.CN_CFG_AUTOBAUD && isCr edges && 9600 ≤ crRate edges && crRate edges ≤ 3000000
      then setF Fld.CN_UART_BAUD (crRate edges / 100) s else s) := rfl

theorem exec_conRxWake (s : State) : exec .conRxWake s =
    .next (if consoleUp s && mclkStopped s then incF Fld.CN_STAT1_WAKELOST s else s) := rfl

theorem exec_i3cPrivateWrite {s : State} (h : consoleUp s = true) (bytes : List Byte) (env : ConEnv) :
    exec (.i3cPrivateWrite bytes env) s = .next
      (if holder s = 1 then busAnswer (some []) (refuseInput 1 s)
        else goOn env (bufferInput bytes (busAnswer
          (if inputFits bytes (hear (if holder s = 0 then takeLease .i3c s else s)) then some [] else none)
          (hear (if holder s = 0 then takeLease .i3c s else s))))) :=
  congrArg _ (if_neg (by simp [h]))

/-- An I3C write of the lease's taker or holder: what fits is buffered, and an overflow is answered by a NACK. -/
theorem exec_i3cPrivateWrite_of_buffered {s t : State} (h : consoleUp s = true) (hother : holder s ≠ 1)
    (ht : (if holder s = 0 then takeLease .i3c s else s) = t) (bytes : List Byte) (env : ConEnv) :
    exec (.i3cPrivateWrite bytes env) s = .next (goOn env (bufferInput bytes (busAnswer
      (if t.con.input.length + bytes.length ≤ 256 then some [] else none) (hear t)))) := by
  have hfits : inputFits bytes (hear t) = decide (t.con.input.length + bytes.length ≤ 256) := rfl
  rw [exec_i3cPrivateWrite h, if_neg hother, ht, hfits]
  simp only [decide_eq_true_eq]

theorem exec_i3cPrivateRead {s : State} (h : consoleUp s = true) (len : Nat) (env : ConEnv) :
    exec (.i3cPrivateRead len env) s = .next (if holder s ≠ 2 || s.con.out.isEmpty then busAnswer none s
      else goOn env (pump { s with con := { s.con with
        out := s.con.out.drop (min len (getF s Fld.CN_I3C_MRL)),
        answer := some (s.con.out.take (min len (getF s Fld.CN_I3C_MRL))) } })) :=
  congrArg _ (if_neg (by simp [h]))

theorem exec_ibiRetry_of_empty {s : State} (h : s.con.ibis = []) (nacked : Bool) : exec (.ibiRetry nacked) s = .next s :=
  congrArg Host.Outcome.next (by rw [h])

/-- The oldest waiting in-band interrupt goes out, waits again, or is dropped and counted (R459). -/
theorem exec_ibiRetry_of_waiting {s : State} {i : Ibi} {rest : List Ibi} (h : s.con.ibis = i :: rest) (nacked : Bool) :
    exec (.ibiRetry nacked) s = .next
      (if !consoleUp s || !flag s Fld.CN_I3C_DA_VALID || !flag s Fld.CN_I3C_IBI_EN then s
        else if !nacked then { s with con := { s.con with ibis := rest } }
        else if i.tries < 3 then { s with con := { s.con with ibis := { i with tries := i.tries + 1 } :: rest } }
        else incF Fld.CN_STAT2_IBILOST { s with con := { s.con with ibis := rest } }) :=
  congrArg Host.Outcome.next (by rw [h])

theorem exec_ibiRetry_of_down {s : State} (h : consoleUp s = false) (nacked : Bool) : exec (.ibiRetry nacked) s = .next s := by
  cases hibis : s.con.ibis with
  | nil => exact exec_ibiRetry_of_empty hibis nacked
  | cons i rest => rw [exec_ibiRetry_of_waiting hibis, if_pos (by simp [h])]

/-! ### The CCCs (R457) -/

theorem ccc_of_up {s : State} (h : consoleUp s = true) (f : State → State) : ccc f s = f s := if_pos h

theorem ccc_of_down {s : State} (h : consoleUp s = false) (f : State → State) : ccc f s = s := if_neg (by simp [h])

theorem assign_of_ok (addr : BitVec 7) (s : State) : assign true addr s =
    busAnswer (some []) (setF Fld.CN_I3C_DA addr.toNat (setF Fld.CN_I3C_DA_VALID 1 s)) := rfl

theorem assign_of_refused (addr : BitVec 7) (s : State) : assign false addr s = busAnswer none s := rfl

/-- The rows of the CCCs that set a value. -/
theorem exec_settingCccs (s : State) (static addr : BitVec 7) (len : Nat) :
    exec .enec s = .next (cccDo (setF Fld.CN_I3C_IBI_EN 1) s) ∧ exec .disec s = .next (cccDo (setF Fld.CN_I3C_IBI_EN 0) s) ∧
    exec .rstdaa s = .next (cccDo (fun t => setF Fld.CN_I3C_DA 0 (setF Fld.CN_I3C_DA_VALID 0 t)) s) ∧
    exec (.entdaa addr) s = .next (ccc (fun t => assign (!flag t Fld.CN_I3C_DA_VALID) addr t) s) ∧
    exec (.setdasa static addr) s = .next
      (if static = staticAddr s then ccc (fun t => assign (!flag t Fld.CN_I3C_DA_VALID) addr t) s else s) ∧
    exec (.setnewda addr) s = .next (ccc (fun t => assign (flag t Fld.CN_I3C_DA_VALID) addr t) s) ∧
    exec (.setmrl len) s = .next (ccc (fun t => if lengthFits len then busAnswer (some []) (setF Fld.CN_I3C_MRL len t)
      else busAnswer none t) s) ∧
    exec (.setmwl len) s = .next (ccc (fun t => if lengthFits len
      then busAnswer (some []) { t with con := { t.con with mwl := len } } else busAnswer none t) s) :=
  ⟨rfl, rfl, rfl, rfl, rfl, rfl, rfl, rfl⟩

/-- The rows of the CCCs that report one, and of the others. -/
theorem exec_readingCccs (s : State) :
    exec .getpid s = .next (ccc (fun t => busAnswer (some (beBytes 6 (provisionalId t))) t) s) ∧
    exec .getbcr s = .next (ccc (busAnswer (some [0x06#8])) s) ∧ exec .getdcr s = .next (ccc (busAnswer (some [0x00#8])) s) ∧
    exec .getmrl s = .next (ccc (fun t => busAnswer (some (beBytes 2 (getF t Fld.CN_I3C_MRL) ++ [0x02#8])) t) s) ∧
    exec .getmwl s = .next (ccc (fun t => busAnswer (some (beBytes 2 t.con.mwl)) t) s) ∧
    exec .getstatus s =
      .next (ccc (fun t => busAnswer (some [BitVec.ofNat 8 (holder t), Config.statusLow t.draws]) (drew t)) s) ∧
    exec .otherCcc s = .next (ccc (busAnswer none) s) := ⟨rfl, rfl, rfl, rfl, rfl, rfl, rfl⟩

/-! ### The end of a session (R451, R453) -/

theorem exec_leaseLapse (s : State) : exec .leaseLapse s = .next (if leaseOver s then sessionEnd s else s) := rfl

theorem sessionEnd_of_free {s : State} (h : holder s = 0) : sessionEnd s = s := if_pos h

/-- What the end of a session leaves: no holder, no staged value, no token, no output, no authentication. -/
def SessionClosed (t : State) : Prop :=
  holder t = 0 ∧ t.staged = [] ∧ t.con.tokens = [] ∧ t.con.out = [] ∧ t.con.events = [] ∧ flag t Fld.GN_STATUS_SESS_AUTH = false

theorem Frame.sessionClosed {ps : List Part} {as : List Nat} {s t : State} (h : Frame ps as s t) (hs : SessionClosed s)
    (hparts : Part.con ∉ ps ∧ Part.staged ∉ ps) (hhomes : Fld.CN_SESS_HOLDER.addr ∉ as ∧ Fld.GN_STATUS_SESS_AUTH.addr ∉ as) :
    SessionClosed t := by
  have hcon : t.con = s.con := h.1 .con hparts.1
  have hstaged : t.staged = s.staged := h.1 .staged hparts.2
  have hholder : holder t = holder s := h.getF_eq hhomes.1
  rw [SessionClosed, hcon, hstaged, hholder, h.flag_eq hhomes.2]
  exact hs

theorem sessionClosed_sessionEnd {s : State} (h : holder s ≠ 0) : SessionClosed (sessionEnd s) := by
  rw [sessionEnd, if_neg h]
  extract_lets n _ con s1
  have hapart : Fld.GN_STATUS_SESS_AUTH.Named ∧ Fld.GN_STATUS_SESS_AUTH.addr ∉ [Fld.CN_SESS_HOLDER.addr] := by decide +kernel
  have hs1 : SessionClosed s1 := by
    refine ⟨?_, rfl, rfl, rfl, rfl, ((frame_setReg _ _ _).flag_eq hapart.2).trans (flag_setF_zero hapart.1 _)⟩
    have hreg : reg s1 Fld.CN_SESS_HOLDER.addr = 0 := reg_setReg_same.trans BitVec.zero_and
    rw [holder, getF, hreg]
    decide +kernel
  split
  · exact hs1
  · exact (frame_trace _ _ s1).sessionClosed hs1 (by decide) (by decide)

theorem frame_rxByte (s : State) : Frame [.con] [] s (rxByte s) := frame_con _ s

/-- Settles O59: the rows of the transports case by case; an I3C write of the lease's taker is one of the holder. -/
theorem consoleTransports : Obligations.ConsoleTransports := by
  intro s env byte edges len bytes addr other i rest full nacked say rx got rate mine
  obtain ⟨henec, hdisec, hrstdaa, hentdaa, hsetdasa, hsetnewda, hsetmrl, hsetmwl⟩ := exec_settingCccs s mine addr len
  obtain ⟨_, _, _, _, hsetother, _⟩ := exec_settingCccs s other addr len
  obtain ⟨hgetpid, hgetbcr, hgetdcr, hgetmrl, hgetmwl, hgetstatus, hccc⟩ := exec_readingCccs s
  refine ⟨fun h => ?down, fun h => ⟨?line, ?free, ?other, ?frame, ⟨rfl, fun hh => if_neg hh, frame_rxByte s⟩, ?baud, ?noBaud,
    ?wake, ?awake, ?written1, ?written2, ?written0, ?unread, ?read, ?ibis, ?enec, ?disec, ?rstdaa, ?foreign, ?unassigned,
    ?assigned, ?fits, ?unfit, ?getpid, ?getbcr, ?getdcr, ?getmrl, ?getmwl, ?getstatus, ?ccc⟩, fun h => ?empty, fun h => ?early,
    fun h => ?noLease, fun h hlapse => ?lapse⟩
  case down =>
    rw [hentdaa, hgetpid, henec, hccc, exec_uartAutobaud, exec_conRxWake, exec_ibiRetry_of_down h]
    simp only [cccDo, ccc_of_down h, h, Bool.false_and, Bool.false_eq_true, if_false]
    have hoff : (!consoleUp s) = true := by rw [h]; rfl
    exact ⟨congrArg _ (if_pos hoff), congrArg _ (if_pos hoff), trivial, trivial, congrArg _ (if_pos hoff),
      congrArg _ (if_pos hoff), trivial, trivial, trivial, trivial, trivial⟩
  case line =>
    intro hh
    rw [exec_uartLine h, hh]
    rfl
  case free =>
    intro hh
    rw [exec_uartLine h, hh]
    rfl
  case other =>
    intro hh
    rw [exec_uartLine h, exec_uartFrame h, hh]
    exact ⟨rfl, rfl⟩
  case frame =>
    intro hh
    simp only [exec_uartFrame h, if_neg hh]
    refine ⟨rfl, fun hcr hlf => ?_, rfl⟩
    simp only [hcr, hlf, decide_false, Bool.or_self, Bool.false_eq_true, if_false]
    rfl
  case baud =>
    intro hauto hcr hlow hhigh
    have hall : (consoleUp s && flag s Fld.CN_CFG_AUTOBAUD && isCr edges && 9600 ≤ crRate edges && crRate edges ≤ 3000000) = true := by
      simp only [h, hauto, hcr, Bool.true_and, Bool.and_eq_true, decide_eq_true_eq]
      exact ⟨hlow, hhigh⟩
    rw [exec_uartAutobaud, if_pos hall]
    rfl
  case noBaud =>
    intro hno
    rw [exec_uartAutobaud, if_neg]
    simp only [Bool.and_eq_true, decide_eq_true_eq]
    rintro ⟨⟨⟨⟨-, hauto⟩, hcr⟩, hlow⟩, hhigh⟩
    rcases hno with hno | hno | hno | hno
    · exact absurd (hauto.symm.trans hno) (by decide)
    · exact absurd (hcr.symm.trans hno) (by decide)
    · exact absurd hlow (Nat.not_le.mpr hno)
    · exact absurd hhigh (Nat.not_le.mpr hno)
  case wake =>
    intro hstop
    rw [exec_conRxWake, if_pos (by simp [h, hstop])]
  case awake =>
    intro hrun
    rw [exec_conRxWake, if_neg (by simp [hrun])]
  case written1 =>
    intro hh
    rw [exec_i3cPrivateWrite h, if_pos hh]
    rfl
  case written2 =>
    intro hh
    exact exec_i3cPrivateWrite_of_buffered h (by simp [hh]) (if_neg (by simp [hh])) bytes env
  case written0 =>
    intro hh
    exact exec_i3cPrivateWrite_of_buffered h (by simp [hh]) (if_pos hh) bytes env
  case unread =>
    intro hno
    rw [exec_i3cPrivateRead h, if_pos (by simpa using hno)]
    rfl
  case read =>
    intro hh hout n
    rw [exec_i3cPrivateRead h, if_neg (by simp [hh, hout])]
  case ibis =>
    intro hibis hda hen
    have hsend : (!consoleUp s || !flag s Fld.CN_I3C_DA_VALID || !flag s Fld.CN_I3C_IBI_EN) = false := by simp [h, hda, hen]
    simp only [exec_ibiRetry_of_waiting hibis, hsend, Bool.false_eq_true, if_false, Bool.not_false, if_true, Bool.not_true]
    exact ⟨trivial, fun htries => congrArg _ (if_pos htries), fun htries => congrArg _ (if_neg (Nat.not_lt.mpr htries))⟩
  case enec => rw [henec, cccDo, ccc_of_up h]; rfl
  case disec => rw [hdisec, cccDo, ccc_of_up h]; rfl
  case rstdaa => rw [hrstdaa, cccDo, ccc_of_up h]; rfl
  case foreign =>
    intro hother
    rw [hsetother]
    exact congrArg _ (if_neg hother)
  case unassigned =>
    intro hda
    have hmine : mine = staticAddr s := rfl
    rw [hentdaa, hsetdasa, hsetnewda, if_pos hmine]
    simp only [ccc_of_up h, hda, Bool.not_false, assign_of_ok, assign_of_refused]
    exact ⟨rfl, rfl, rfl⟩
  case assigned =>
    intro hda
    have hmine : mine = staticAddr s := rfl
    rw [hentdaa, hsetdasa, hsetnewda, if_pos hmine]
    simp only [ccc_of_up h, hda, Bool.not_true, assign_of_ok, assign_of_refused]
    exact ⟨rfl, rfl, rfl⟩
  case fits =>
    intro hlow hhigh
    have hfits : lengthFits len = true := by simp [lengthFits, hlow, hhigh]
    rw [hsetmrl, hsetmwl]
    simp only [ccc_of_up h, if_pos hfits]
    exact ⟨rfl, rfl⟩
  case unfit =>
    intro hlen
    have hfits : ¬ lengthFits len = true := by
      simp only [lengthFits, Bool.and_eq_true, decide_eq_true_eq]
      omega
    rw [hsetmrl, hsetmwl]
    simp only [ccc_of_up h, if_neg hfits]
    exact ⟨rfl, rfl⟩
  case getpid => rw [hgetpid, ccc_of_up h]; rfl
  case getbcr => rw [hgetbcr, ccc_of_up h]; rfl
  case getdcr => rw [hgetdcr, ccc_of_up h]; rfl
  case getmrl => rw [hgetmrl, ccc_of_up h]; rfl
  case getmwl => rw [hgetmwl, ccc_of_up h]; rfl
  case getstatus => exact ⟨_, by rw [hgetstatus, ccc_of_up h]; rfl⟩
  case ccc => rw [hccc, ccc_of_up h]; rfl
  case empty => exact exec_ibiRetry_of_empty h nacked
  case early => rw [exec_leaseLapse, leaseOver, if_neg (by simpa using h)]
  case noLease => rw [exec_leaseLapse, sessionEnd_of_free h, ite_self]
  case lapse =>
    exact ⟨_, by rw [exec_leaseLapse, leaseOver, if_pos (by simpa using hlapse)], sessionClosed_sessionEnd h⟩

end Sys2Proof.Machine

namespace Sys2Proof.Machine

/-! ### Flits out of this device (R379, R380; Table TW-1) -/

theorem frame_tw (t : Twin) (s : State) : Frame [.tw] [] s { s with tw := t } := by
  refine ⟨fun q hq => ?_, fun _ _ => rfl⟩
  cases q with
  | tw => exact absurd (List.mem_singleton_self _) hq
  | _ => rfl

theorem sendFlit_of_linkDown {s : State} (h : linkUp s = false) (b : FlitBody) : sendFlit b s = s := if_pos (by simp [h])

theorem sendFlit_of_room {s : State} (h : linkUp s = true) {b : FlitBody} (hwait : s.tw.waiting = [])
    (hroom : heldFlits s + flitLen b ≤ 64) : sendFlit b s = emitFlit b s :=
  (if_neg (by simp [h])).trans (if_pos ⟨hwait, hroom⟩)

theorem frame_emitFlit (b : FlitBody) (s : State) : Frame [.tw] [] s (emitFlit b s) := frame_tw _ s

theorem flitLen_eq (b : FlitBody) : flitLen b = match b with
    | .line _ _ _ _ => 6
    | _ => 1 := by cases b <;> rfl

theorem length_leBytes (n v : Nat) : (leBytes n v).length = n := by rw [leBytes, List.length_map, List.length_range]

theorem length_fieldBytes (l : List Byte) : (fieldBytes l).length = 12 := by
  simp only [fieldBytes, List.length_append, List.length_take, List.length_replicate]
  omega

/-- The TYPE byte and twelve field bytes of a control flit. -/
theorem controlBytes_eq (b : FlitBody) : ∃ type fields, controlBytes b = type :: fieldBytes fields := by
  cases b <;> exact ⟨_, _, rfl⟩

theorem length_dataBytes (d : BitVec 640) {i : Nat} (h : i < 5) : (dataBytes d i).length = 14 := by
  rw [dataBytes, List.length_take, List.length_drop, length_leBytes]
  omega

theorem mem_flitsOf {f : HeldFlit} {n : Byte} {b : FlitBody} (h : f ∈ flitsOf n b) :
    (f.data = false ∧ ∃ type fields, f.bytes = type :: fieldBytes fields) ∨ (f.data = true ∧ f.bytes.length = 14) := by
  rcases List.mem_cons.mp h with rfl | h
  · exact .inl ⟨rfl, controlBytes_eq b⟩
  · cases b with
    | line l resync poison d =>
      obtain ⟨i, hi, rfl⟩ := List.mem_map.mp h
      exact .inr ⟨rfl, length_dataBytes d (List.mem_range.mp hi)⟩
    | _ => exact absurd h List.not_mem_nil

theorem length_crcBytes (l : List Byte) : (crcBytes l).length = 2 := rfl

/-- Bytes 0 to 13 of a flit on its lane: the ACK stands behind the TYPE of a control flit. -/
def flitPayload (ack : Byte) (f : HeldFlit) : List Byte := if f.data then f.bytes else f.bytes.take 1 ++ ack :: f.bytes.drop 1

theorem bytes_frameFlit (ack : Byte) (f : HeldFlit) :
    (frameFlit ack f).bytes = flitPayload ack f ++ crcBytes (flitPayload ack f) := rfl

theorem length_flitPayload {f : HeldFlit} {n : Byte} {b : FlitBody} (h : f ∈ flitsOf n b) (ack : Byte) :
    (flitPayload ack f).length = 14 := by
  rcases mem_flitsOf h with ⟨hctl, type, fields, hbytes⟩ | ⟨hdata, hlen⟩
  · simp [flitPayload, hctl, hbytes, length_fieldBytes]
  · rw [flitPayload, if_pos hdata, hlen]

/-- Sixteen bytes, the last two the CRC-16 of the others. -/
theorem frameFlit_crc {f : HeldFlit} {n : Byte} {b : FlitBody} (h : f ∈ flitsOf n b) (ack : Byte) :
    (frameFlit ack f).bytes.length = 16 ∧ (frameFlit ack f).bytes.drop 14 = crcBytes ((frameFlit ack f).bytes.take 14) := by
  have hlen := length_flitPayload h ack
  rw [bytes_frameFlit, List.length_append, hlen, length_crcBytes, List.drop_left' hlen, List.take_left' hlen]
  exact ⟨rfl, rfl⟩

/-- A control flit carries the ACK in byte 1. -/
theorem frameFlit_ack {f : HeldFlit} {n : Byte} {b : FlitBody} (h : f ∈ flitsOf n b) (hctl : f.data = false) (ack : Byte) :
    (frameFlit ack f).sync = 1 ∧ (frameFlit ack f).bytes[1]? = some ack := by
  rcases mem_flitsOf h with ⟨-, type, fields, hbytes⟩ | ⟨hdata, -⟩
  · simp [frameFlit, hctl, hbytes]
  · exact absurd (hctl.symm.trans hdata) (by decide)

theorem frameFlit_sync_of_data {f : HeldFlit} (h : f.data = true) (ack : Byte) : (frameFlit ack f).sync = 2 := if_pos h

/-! ### The twin's save (R383) -/

theorem contagion_of_not {s : State} (h : saveable s = false ∨ s.tw.saveSeen = true) : contagion s = s :=
  if_neg (by rcases h with h | h <;> simp [h])

theorem contagion_of_saveable {s : State} (h : saveable s = true) (hseen : s.tw.saveSeen = false) :
    contagion s = raise 45 1 (saveBegin 0x03 false s) := by
  rw [contagion, if_pos (by simp [h, hseen]), saveTrigger_of_saveable h]

/-! ### Received lines (R391) -/

theorem words_readMap (b i : Nat) (s : State) : (readMap b i s).2.ld.words = s.ld.words := by
  rw [readMap]
  split
  · rfl
  · split <;> rfl

theorem words_markIn (b l : Nat) (s : State) : (markIn b l s).ld.words = s.ld.words := words_readMap b (l / 64) s

theorem words_markDirty (l : Nat) (s : State) : (markDirty l s).ld.words = s.ld.words := by
  rw [markDirty]
  split
  · rw [words_markIn, words_markIn]
  · rfl

/-- A line lands in its own ten words alone. -/
theorem ledgerStored_putLine_other {l k : Nat} (h : k / 10 ≠ l) (poison : Bool) (ws : List Dword) (s : State) :
    ledgerStored (putLine poison l ws s) k = ledgerStored s k := by
  refine foldl_keeps (fun t => ledgerStored t k) (fun w hw t => ?_) s
  have hkey : k ≠ wordKey l w := by
    rw [List.mem_range] at hw
    rw [wordKey]
    omega
  split
  · exact smGet_smSet_other _ _ hkey
  · exact ledgerStored_putWord_other hkey _ t

theorem frame_countHeld (held : Bool) (s : State) : Frame [] [Fld.LD_HOLD_HOLDS.addr] s (countHeld held s) :=
  .ite (frame_incF _ s) (.refl _ _ s)

theorem bankParked_countHeld (held : Bool) (s : State) (b : Nat) : bankParked (countHeld held s) b = bankParked s b := by
  rw [bankParked, bitF_of_getF ((frame_countHeld held s).getF_eq (by decide))]
  rfl

theorem wakeFor_of_notParked {l : Nat} {s : State} (h : bankParked s (lineBank l) = false) : wakeFor l s = s :=
  if_pos (by simp [h])

theorem ledgerStored_of_words {s t : State} (h : t.ld.words = s.ld.words) (k : Nat) : ledgerStored t k = ledgerStored s k := by
  rw [ledgerStored, ledgerStored, h]

theorem ld_syncUpdate (s : State) : (syncUpdate s).ld = s.ld := by
  rw [syncUpdate]
  split <;> rfl

theorem lineReceived_of_dropped {l : Nat} {s : State} (h : acceptsLines s = false ∨ replicaFirst ≤ l) (poison : Bool)
    (data : Nat) (held : Bool) : lineReceived l poison data held s = incF Fld.TW_DROP_COUNT s :=
  if_pos (by rcases h with h | h <;> simp [h])

theorem ledgerStored_lineReceived_other {l : Nat} {s : State} (h : acceptsLines s = true) (hl : l < replicaFirst)
    (hawake : bankParked s (lineBank (replicaFirst + l)) = false) {k : Nat} (hk : k / 10 ≠ replicaFirst + l)
    (poison : Bool) (data : Nat) (held : Bool) : ledgerStored (lineReceived l poison data held s) k = ledgerStored s k := by
  rw [lineReceived, if_neg (by simp [h, Nat.not_le.mpr hl])]
  dsimp only
  have hwake := wakeFor_of_notParked ((bankParked_countHeld held s _).trans hawake)
  have hld : (countHeld held s).ld = s.ld := (frame_countHeld held s).1 .ld (by decide)
  rw [ledgerStored_of_words (congrArg Ledger.words (ld_syncUpdate _)), hwake]
  exact (ledgerStored_of_words (words_markDirty _ _) k).trans
    ((ledgerStored_putLine_other hk poison _ _).trans (ledgerStored_of_words (congrArg Ledger.words hld) k))

/-! ### Time (R385) -/

theorem timeResponse_of_unasked {s : State} (h : s.tw.t1 = none) (t2 t3 : Time) : timeResponse t2 t3 s = s := by
  rw [timeResponse, h]

theorem timeResponse_of_first {s : State} {t1 : Time} (h : s.tw.t1 = some t1) (hfirst : s.tw.sample = none) (t2 t3 : Time) :
    (timeResponse t2 t3 s).tw = { s.tw with t1 := none, sample := some (BitVec.ofNat 48 (unsigned 48
      ((((t2.toNat : Int) - t1.toNat) + ((t3.toNat : Int) - s.aon.toNat)).tdiv 2)), s.aon) } := by
  rw [timeResponse, h, hfirst]
  rfl

/-- Settles O50. -/
theorem whatFlitsDo : Obligations.WhatFlitsDo := by
  intro s b l data poison held t1 t2 t3 n ack f
  refine ⟨fun h => sendFlit_of_linkDown h b, fun h hwait hroom => ?sent, flitLen_eq b, fun h => ?framed, fun h hseen => ?save,
    contagion_of_not, fun h => lineReceived_of_dropped h poison data held,
    fun h hl hawake k hk => ledgerStored_lineReceived_other h hl hawake hk poison data held,
    fun h => timeResponse_of_unasked h t2 t3, fun h hfirst => ?sample⟩
  case sent =>
    rw [sendFlit_of_room h hwait hroom]
    exact ⟨rfl, rfl, rfl, frame_emitFlit b s⟩
  case framed =>
    obtain ⟨hlen, hcrc⟩ := frameFlit_crc h ack
    exact ⟨hlen, hcrc, rfl, fun hctl => frameFlit_ack h hctl ack, fun hdata => frameFlit_sync_of_data hdata ack⟩
  case save =>
    obtain ⟨hsaving, hcause, -⟩ := saveBegin_shows (cause := 0x03) (by decide) false s
    have hfc : (saveBegin 0x03 false s).fc = s.fc := (frame_saveBegin 0x03 false s).1 .fc (by decide)
    refine ⟨_, contagion_of_saveable h hseen, hsaving, hcause, ?_⟩
    rw [events_raise, hfc]
    rfl
  case sample =>
    rw [timeResponse_of_first h hfirst t2 t3]
    exact ⟨rfl, rfl⟩

end Sys2Proof.Machine

namespace Sys2Proof.Machine

/-! ### What sending leaves (R380) -/

/-- Sending changes the link's part alone, and no number expected from the twin. -/
def SendsOnly (s t : State) : Prop := Frame [.tw] [] s t ∧ t.tw.rxSeq = s.tw.rxSeq

theorem SendsOnly.trans {s t u : State} (h : SendsOnly s t) (k : SendsOnly t u) : SendsOnly s u :=
  ⟨h.1.next k.1, k.2.trans h.2⟩

theorem sendsOnly_tw {t : Twin} {s : State} (h : t.rxSeq = s.tw.rxSeq) : SendsOnly s { s with tw := t } := ⟨frame_tw t s, h⟩

theorem sendsOnly_emitFlit (b : FlitBody) (s : State) : SendsOnly s (emitFlit b s) := ⟨frame_emitFlit b s, rfl⟩

theorem sendsOnly_sendFlit (b : FlitBody) (s : State) : SendsOnly s (sendFlit b s) := by
  unfold sendFlit
  split
  · exact ⟨.refl _ _ s, rfl⟩
  · split
    · exact sendsOnly_emitFlit b s
    · split <;> exact sendsOnly_tw rfl

theorem sendsOnly_pumpFlits (n : Nat) (s : State) : SendsOnly s (pumpFlits n s) := by
  induction n generalizing s with
  | zero => exact ⟨.refl _ _ s, rfl⟩
  | succ n ih =>
    rw [pumpFlits]
    split
    · exact ⟨.refl _ _ s, rfl⟩
    · split
      · refine SendsOnly.trans (SendsOnly.trans ?_ (sendsOnly_emitFlit _ _)) (ih _)
        exact sendsOnly_tw rfl
      · exact ⟨.refl _ _ s, rfl⟩

theorem sendsOnly_ackFlits (a : Byte) (s : State) : SendsOnly s (ackFlits a s) := by
  refine SendsOnly.trans ?_ (sendsOnly_pumpFlits _ _)
  exact sendsOnly_tw rfl

/-! ### Flits as they arrive (R379, R380) -/

/-- Injection of a CRC error waits for no flit. -/
def Uninjected (s : State) : Prop := flag s Fld.FC_INJ_TW_N = false

/-- The flit is framed as its row says and its CRC is right. -/
def WireIn.Sound (x : WireIn) : Prop := x.framed = true ∧ x.crc = crc16 x.bytes

/-- The expected number moves on. -/
def advance (seq : Byte) (s : State) : State := { s with tw := { s.tw with rxSeq := seq + 1 } }

theorem crcTaken_of_uninjected {s : State} (h : Uninjected s) (crc : BitVec 16) : crcTaken crc s = (crc, s) :=
  if_neg (by rw [h]; decide)

theorem receiveOne_of_unsound {s : State} (h : Uninjected s) {x : WireIn} (hbad : ¬ x.Sound) (seq : Byte) :
    receiveOne x seq s = (false, flitError s) := by
  have hfail : (!x.framed || x.crc ≠ crc16 x.bytes) = true := by
    rw [WireIn.Sound] at hbad
    cases hf : x.framed <;> simp_all
  rw [receiveOne, crcTaken_of_uninjected h]
  exact if_pos hfail

theorem receiveOne_of_sound {s : State} (h : Uninjected s) {x : WireIn} (hx : x.Sound) (seq : Byte) : receiveOne x seq s =
    if seq ≠ s.tw.rxSeq then (false, s)
    else (true, match x.ack with | some a => ackFlits a (advance seq s) | none => advance seq s) := by
  have hpass : ¬ (!x.framed || x.crc ≠ crc16 x.bytes) = true := by
    obtain ⟨hf, hc⟩ := hx
    simp [hf, hc]
  rw [receiveOne, crcTaken_of_uninjected h]
  exact if_neg hpass

/-- An injected error inverts a right CRC. -/
theorem receiveOne_of_injected {s : State} (h : flag s Fld.FC_INJ_TW_N = true) {x : WireIn} (hx : x.Sound) (seq : Byte) :
    receiveOne x seq s = (false, flitError (setF Fld.FC_INJ_TW_N (getF s Fld.FC_INJ_TW_N - 1) s)) := by
  have hfail : (!x.framed || ~~~x.crc ≠ crc16 x.bytes) = true := by
    obtain ⟨hf, hc⟩ := hx
    simp [hf, hc]
  rw [receiveOne, crcTaken, if_pos h]
  exact if_pos hfail

theorem rxSeq_ld_flitError (s : State) : (flitError s).tw.rxSeq = s.tw.rxSeq ∧ (flitError s).ld = s.ld := by
  obtain ⟨hframe, hseq⟩ := sendsOnly_sendFlit (.nak s.tw.rxSeq) (incF Fld.TW_CNT_CRCERR s)
  exact ⟨hseq, hframe.1 .ld (by decide)⟩

/-- A flit out of order is not taken: the number expected and the ledger stay. -/
theorem receiveOne_of_other {s : State} {x : WireIn} {seq : Byte} (h : seq ≠ s.tw.rxSeq) : (receiveOne x seq s).1 = false ∧
    (receiveOne x seq s).2.tw.rxSeq = s.tw.rxSeq ∧ (receiveOne x seq s).2.ld = s.ld := by
  have htaken : (crcTaken x.crc s).2.tw.rxSeq = s.tw.rxSeq ∧ (crcTaken x.crc s).2.ld = s.ld := by
    rw [crcTaken]
    split <;> exact ⟨rfl, rfl⟩
  obtain ⟨htw, hld⟩ := htaken
  rw [receiveOne]
  split
  · obtain ⟨hseq, hled⟩ := rxSeq_ld_flitError (crcTaken x.crc s).2
    exact ⟨rfl, hseq.trans htw, hled.trans hld⟩
  · rw [if_pos (by rw [htw]; exact h)]
    exact ⟨rfl, htw, hld⟩

/-! ### Control flits -/

theorem controlIn_sound {type : Nat} {fields : List Byte} {ack : Byte} {w : FlitWire} :
    (controlIn type fields ack w).Sound ↔
      w.sync = 1 ∧ w.type.toNat = type ∧ w.crc = crc16 (w.type :: ack :: fieldBytes fields) := by
  simp [WireIn.Sound, controlIn, and_assoc]

theorem receiveFlit_of_linkDown {s : State} (h : linkUp s = false) (type : Nat) (fields : List Byte) (seq ack : Byte)
    (w : FlitWire) (f : State → State) : receiveFlit type fields seq ack w f s = s := if_pos (by simp [h])

theorem receiveFlit_of_linkUp {s : State} (h : linkUp s = true) (type : Nat) (fields : List Byte) (seq ack : Byte)
    (w : FlitWire) (f : State → State) : receiveFlit type fields seq ack w f s =
      if (receiveOne (controlIn type fields ack w) seq s).1 then f (receiveOne (controlIn type fields ack w) seq s).2
      else (receiveOne (controlIn type fields ack w) seq s).2 := if_neg (by simp [h])

section
variable {s : State} (h : linkUp s = true) {type : Nat} {fields : List Byte} {ack : Byte} {w : FlitWire}
include h

theorem receiveFlit_of_taken (hquiet : Uninjected s) (hgood : (controlIn type fields ack w).Sound) {seq : Byte}
    (hseq : seq = s.tw.rxSeq) (f : State → State) :
    receiveFlit type fields seq ack w f s = f (ackFlits ack (advance seq s)) := by
  rw [receiveFlit_of_linkUp h, receiveOne_of_sound hquiet hgood, if_neg (not_not_intro hseq)]
  rfl

theorem receiveFlit_of_unsound (hquiet : Uninjected s) (hbad : ¬ (controlIn type fields ack w).Sound) (seq : Byte)
    (f : State → State) : receiveFlit type fields seq ack w f s = flitError s := by
  rw [receiveFlit_of_linkUp h, receiveOne_of_unsound hquiet hbad]
  rfl

theorem receiveFlit_of_other (hquiet : Uninjected s) (hgood : (controlIn type fields ack w).Sound) {seq : Byte}
    (hseq : seq ≠ s.tw.rxSeq) (f : State → State) : receiveFlit type fields seq ack w f s = s := by
  rw [receiveFlit_of_linkUp h, receiveOne_of_sound hquiet hgood, if_pos hseq]
  rfl

theorem receiveFlit_of_injected (hinj : flag s Fld.FC_INJ_TW_N = true) (hgood : (controlIn type fields ack w).Sound)
    (seq : Byte) (f : State → State) : receiveFlit type fields seq ack w f s =
      flitError (setF Fld.FC_INJ_TW_N (getF s Fld.FC_INJ_TW_N - 1) s) := by
  rw [receiveFlit_of_linkUp h, receiveOne_of_injected hinj hgood]
  rfl

end

/-! ### A LINE with its data flits (R391) -/

/-- The data flits of a line in order, each sound: the number moves on by one with each. -/
theorem receiveTail_of_sound {ws : List DataWire} {seq : Byte} {bytes : List Byte} {s : State} (hquiet : Uninjected s)
    (hseq : seq = s.tw.rxSeq)
    (hgood : ∀ i x, ws[i]? = some x → x.sync = 2 ∧ x.crc = crc16 ((bytes.drop (14 * i)).take 14)) :
    receiveTail seq bytes ws (true, s) =
      (true, { s with tw := { s.tw with rxSeq := seq + BitVec.ofNat 8 ws.length } }) := by
  induction ws generalizing seq bytes s with
  | nil =>
    have hzero : seq + BitVec.ofNat 8 0 = s.tw.rxSeq := by rw [hseq]; exact BitVec.add_zero _
    rw [receiveTail, List.length_nil, hzero]
  | cons x ws ih =>
    have hx : (dataIn (bytes.take 14) x).Sound := by
      obtain ⟨hsync, hcrc⟩ := hgood 0 x rfl
      exact ⟨by simp [dataIn, hsync], hcrc⟩
    have hrest : ∀ i y, ws[i]? = some y → y.sync = 2 ∧ y.crc = crc16 (((bytes.drop 14).drop (14 * i)).take 14) := by
      intro i y hy
      have hnext := hgood (i + 1) y (by rw [List.getElem?_cons_succ, hy])
      rwa [Nat.mul_succ, Nat.add_comm, ← List.drop_drop] at hnext
    have hcount : seq + 1 + BitVec.ofNat 8 ws.length = seq + BitVec.ofNat 8 (x :: ws).length := by
      rw [List.length_cons, Nat.add_comm, BitVec.ofNat_add, BitVec.add_assoc]
      rfl
    rw [receiveTail, receiveOne_of_sound hquiet hx, if_neg (not_not_intro hseq)]
    rw [← hcount]
    exact ih (s := advance seq s) hquiet rfl hrest

/-- Behind a flit that was not taken none of the line is. -/
theorem receiveTail_of_other {ws : List DataWire} {seq : Byte} {bytes : List Byte} {s : State}
    (h : ∀ i < ws.length, seq + BitVec.ofNat 8 i ≠ s.tw.rxSeq) :
    (receiveTail seq bytes ws (false, s)).1 = false ∧ (receiveTail seq bytes ws (false, s)).2.tw.rxSeq = s.tw.rxSeq ∧
      (receiveTail seq bytes ws (false, s)).2.ld = s.ld := by
  induction ws generalizing seq bytes s with
  | nil => exact ⟨rfl, rfl, rfl⟩
  | cons x ws ih =>
    have hfirst : seq ≠ s.tw.rxSeq := by
      have h0 := h 0 (Nat.zero_lt_succ _)
      rwa [show seq + BitVec.ofNat 8 0 = seq from BitVec.add_zero _] at h0
    obtain ⟨htaken, hseq, hld⟩ := receiveOne_of_other (x := dataIn (bytes.take 14) x) hfirst
    have hrest : ∀ i < ws.length, seq + 1 + BitVec.ofNat 8 i ≠ (receiveOne (dataIn (bytes.take 14) x) seq s).2.tw.rxSeq := by
      intro i hi
      have hnext := h (i + 1) (Nat.succ_lt_succ hi)
      rwa [Nat.add_comm, BitVec.ofNat_add, ← BitVec.add_assoc, ← hseq] at hnext
    obtain ⟨h1, h2, h3⟩ := ih (seq := seq + 1) (bytes := bytes.drop 14) hrest
    rw [receiveTail, ← Prod.mk.eta (p := receiveOne (dataIn (bytes.take 14) x) seq s), htaken]
    exact ⟨h1, h2.trans hseq, h3.trans hld⟩

/-! ### The rows of the flits -/

theorem exec_flitRows (s : State) (seq ack expected b2 b3 b4 b5 b6 cause : Byte) (w : FlitWire) (pos : Bool)
    (version : BitVec 24) (hb gen : Word) (t2 t3 s0 : Time) (first count : BitVec 16) :
    exec (.flitIdle seq ack w) s = .next (receiveFlit 0x01 [] seq ack w id s) ∧
    exec (.flitNak seq ack w expected) s = .next (receiveFlit 0x02 [expected] seq ack w (nakReceived expected) s) ∧
    exec (.flitIdent seq ack w pos version hb) s = .next (receiveFlit 0x03
      (leBytes 1 (b2n pos) ++ leBytes 3 version.toNat ++ leBytes 4 hb.toNat) seq ack w (identReceived pos version hb) s) ∧
    exec (.flitStatus seq ack w b2 b3 b4 b5 b6 version gen) s = .next (receiveFlit 0x04
      ([b2, b3, b4, b5, b6] ++ leBytes 3 version.toNat ++ leBytes 4 gen.toNat) seq ack w
      (statusReceived b2 b3 b4 b5 b6 version gen) s) ∧
    exec (.flitTimeReq seq ack w) s =
      .next (receiveFlit 0x05 [] seq ack w (fun t => sendFlit (.timeRsp t.aon t.aon) t) s) ∧
    exec (.flitTimeRsp seq ack w t2 t3) s =
      .next (receiveFlit 0x06 (leBytes 6 t2.toNat ++ leBytes 6 t3.toNat) seq ack w (timeResponse t2 t3) s) ∧
    exec (.flitSave seq ack w cause s0) s = .next (receiveFlit 0x07 (cause :: leBytes 6 s0.toNat) seq ack w (fun t =>
      if inSave t then trace 0x0A01 2 (saveTrigger 0x03 { t with tw := { t.tw with saveSeen := true } })
      else saveTrigger 0x03 { t with tw := { t.tw with saveSeen := true } }) s) ∧
    exec (.flitLagEnd seq ack w) s = .next (receiveFlit 0x08 [] seq ack w (setF Fld.TW_STATUS_LAG_DRAINED 1) s) ∧
    exec (.flitBye seq ack w) s =
      .next (receiveFlit 0x09 [] seq ack w (fun t => contagion { t with tw := { t.tw with byeSeen := true } }) s) ∧
    exec (.flitResyncReq seq ack w first count) s = .next (receiveFlit 0x0A
      (leBytes 2 first.toNat ++ leBytes 2 count.toNat) seq ack w (resyncRequested first.toNat count.toNat) s) :=
  ⟨rfl, rfl, rfl, rfl, rfl, rfl, rfl, rfl, rfl, rfl⟩

/-- The LINE flit itself, with line bytes 0 to 9 (Table TW-2). -/
def lineHead (ack : Byte) (w : FlitWire) (l : BitVec 14) (resync poison : Bool) (data : BitVec 640) : WireIn :=
  controlIn 0x10 (leBytes 2 (l.toNat + b2n resync * 0x4000 + b2n poison * 0x8000) ++ (leBytes 80 data.toNat).take 10) ack w

theorem exec_flitLine_of_linkDown {s : State} (h : linkUp s = false) (seq ack : Byte) (w : FlitWire) (l : BitVec 14)
    (resync poison : Bool) (data : BitVec 640) (tails : List DataWire) (held : Bool) :
    exec (.flitLine seq ack w l resync poison data tails held) s = .next s := congrArg _ (if_pos (by simp [h]))

/-- A line whose LINE flit is taken is judged by its data flits. -/
theorem exec_flitLine_of_taken {s : State} (h : linkUp s = true) (hquiet : Uninjected s) {seq ack : Byte}
    (hseq : seq = s.tw.rxSeq) {w : FlitWire} {l : BitVec 14} {resync poison : Bool} {data : BitVec 640}
    (hgood : (lineHead ack w l resync poison data).Sound) (tails : List DataWire) (held : Bool) {r : Bool × State}
    (hr : receiveTail (seq + 1) ((leBytes 80 data.toNat).drop 10) tails (true, ackFlits ack (advance seq s)) = r) :
    exec (.flitLine seq ack w l resync poison data tails held) s =
      .next (if r.1 then lineReceived l.toNat poison data.toNat held r.2 else r.2) := by
  have hhead : receiveOne (lineHead ack w l resync poison data) seq s = (true, ackFlits ack (advance seq s)) := by
    rw [receiveOne_of_sound hquiet hgood, if_neg (not_not_intro hseq)]
    rfl
  rw [← hr, ← hhead]
  exact congrArg _ (if_neg (by simp [h]))

theorem uninjected_ackFlits {s : State} (h : Uninjected s) (a seq : Byte) : Uninjected (ackFlits a (advance seq s)) :=
  ((sendsOnly_ackFlits a (advance seq s)).1.flag_eq (by decide)).trans h

theorem dataBytes_eq (data : BitVec 640) (i : Nat) :
    dataBytes data i = (((leBytes 80 data.toNat).drop 10).drop (14 * i)).take 14 := by rw [List.drop_drop]; rfl

section
variable {s : State} (h : linkUp s = true) (hquiet : Uninjected s) {seq ack : Byte} (hseq : seq = s.tw.rxSeq) {w : FlitWire}
  {l : BitVec 14} {resync poison : Bool} {data : BitVec 640} (hgood : (lineHead ack w l resync poison data).Sound)
include h hquiet hseq hgood

theorem exec_flitLine_of_sound {tails : List DataWire} (hlen : tails.length = 5)
    (htails : ∀ i x, tails[i]? = some x → x.sync = 2 ∧ x.crc = crc16 (dataBytes data i)) (held : Bool) :
    exec (.flitLine seq ack w l resync poison data tails held) s = .next (lineReceived l.toNat poison data.toNat held
      { ackFlits ack (advance seq s) with tw := { (ackFlits ack (advance seq s)).tw with rxSeq := seq + 6 } }) := by
  have hcount : seq + 1 + BitVec.ofNat 8 tails.length = seq + 6 := by
    rw [hlen, BitVec.add_assoc]
    rfl
  have hdata : ∀ i x, tails[i]? = some x →
      x.sync = 2 ∧ x.crc = crc16 ((((leBytes 80 data.toNat).drop 10).drop (14 * i)).take 14) := by
    intro i x hx
    rw [← dataBytes_eq]
    exact htails i x hx
  have htail := receiveTail_of_sound (seq := seq + 1) (uninjected_ackFlits hquiet ack seq)
    (sendsOnly_ackFlits ack (advance seq s)).2.symm hdata
  rw [hcount] at htail
  exact exec_flitLine_of_taken h hquiet hseq hgood tails held htail

/-- The first data flit is bad: it and the four behind it are discarded. -/
theorem exec_flitLine_of_unsound {d : DataWire} {more : List DataWire} (hlen : more.length = 4)
    (hbad : ¬ (d.sync = 2 ∧ d.crc = crc16 (dataBytes data 0))) (held : Bool) :
    ∃ t, exec (.flitLine seq ack w l resync poison data (d :: more) held) s = .next t ∧ t.tw.rxSeq = seq + 1 ∧ t.ld = s.ld := by
  have hu := sendsOnly_ackFlits ack (advance seq s)
  have hunsound : ¬ (dataIn (((leBytes 80 data.toNat).drop 10).take 14) d).Sound := fun hd => hbad (by
    obtain ⟨hsync, hcrc⟩ := hd
    exact ⟨by simpa [dataIn] using hsync, hcrc⟩)
  obtain ⟨herr, hld⟩ := rxSeq_ld_flitError (ackFlits ack (advance seq s))
  have hafter : ∀ i < more.length, seq + 1 + 1 + BitVec.ofNat 8 i ≠ (flitError (ackFlits ack (advance seq s))).tw.rxSeq := by
    intro i hi
    rw [herr, hu.2]
    change seq + 1 + 1 + BitVec.ofNat 8 i ≠ seq + 1
    rw [hlen] at hi
    bv_omega
  obtain ⟨hnone, hstay, hled⟩ := receiveTail_of_other (bytes := ((leBytes 80 data.toNat).drop 10).drop 14) hafter
  refine ⟨_, exec_flitLine_of_taken h hquiet hseq hgood (d :: more) held rfl, ?_⟩
  rw [receiveTail, receiveOne_of_unsound (uninjected_ackFlits hquiet ack seq) hunsound, if_neg (ne_true_of_eq_false hnone)]
  exact ⟨hstay.trans (herr.trans hu.2), hled.trans (hld.trans (hu.1.1 .ld (by decide)))⟩

end

/-- Settles O49. -/
theorem flitsAreTakenInOrder : Obligations.FlitsAreTakenInOrder := by
  intro s seq ack expected b2 b3 b4 b5 b6 cause w pos resync poison held version hb gen t2 t3 s0 first count l data tails d more
    type fields f good quiet taken u nak lineFields goodTail
  obtain ⟨hidle, hnak, hident, hstatus, hreq, hrsp, hsave, hlag, hbye, hresync⟩ :=
    exec_flitRows s seq ack expected b2 b3 b4 b5 b6 cause w pos version hb gen t2 t3 s0 first count
  have htaken {type fields} (g : State → State) (h : taken type fields) : receiveFlit type fields seq ack w g s = g u :=
    receiveFlit_of_taken h.1.1 h.1.2 (controlIn_sound.mpr h.2.2) h.2.1 g
  have hbad {type fields} (g : State → State) (h : quiet) (hno : ¬ good type fields) :
      receiveFlit type fields seq ack w g s = nak :=
    receiveFlit_of_unsound h.1 h.2 (fun hx => hno (controlIn_sound.mp hx)) seq g
  rw [hidle, hnak, hident, hstatus, hreq, hrsp, hsave, hlag, hbye, hresync]
  refine ⟨fun h => congrArg _ (htaken _ h), fun h => congrArg _ (htaken _ h), fun h => congrArg _ (htaken _ h),
    fun h => congrArg _ (htaken _ h), fun h => ?request, fun h => congrArg _ (htaken _ h),
    fun h => congrArg _ (htaken _ h), fun h => congrArg _ (htaken _ h), fun h => congrArg _ (htaken _ h),
    fun h => congrArg _ (htaken _ h), fun h hlen htails => ?line, fun h hsplit hlen hno => ?badTail,
    fun h hno => congrArg _ (hbad _ h hno), fun h hno => hbad f h hno,
    fun h hgood hseq => receiveFlit_of_other h.1 h.2 (controlIn_sound.mpr hgood) hseq f,
    fun h hinj hgood => receiveFlit_of_injected h hinj (controlIn_sound.mpr hgood) seq f, fun h => ?down⟩
  case request =>
    have haon : u.aon = s.aon := (sendsOnly_ackFlits ack _).1.1 .aon (by decide)
    rw [htaken _ h, haon]
  case line => exact exec_flitLine_of_sound h.1.1 h.1.2 h.2.1 (controlIn_sound.mpr h.2.2) hlen htails held
  case badTail =>
    rw [hsplit]
    exact exec_flitLine_of_unsound h.1.1 h.1.2 h.2.1 (controlIn_sound.mpr h.2.2) hlen hno held
  case down =>
    simp only [receiveFlit_of_linkDown h, exec_flitLine_of_linkDown h, and_self]

end Sys2Proof.Machine

namespace Sys2Proof.Machine

/-! ### The link goes down (R380) -/

theorem apart_link : Fld.TW_STATUS_LINK.Apart Fld.TW_STATUS_REPL_RUN ∧ Fld.TW_STATUS_LINK.Named ∧ Fld.TW_DOWN_DOWNS.Named ∧
    Fld.TW_STATUS_LINK.Apart Fld.TW_DOWN_DOWNS ∧ Fld.TW_DOWN_DOWNS.Apart Fld.TW_STATUS_REPL_RUN ∧
    Fld.TW_DOWN_DOWNS.Apart Fld.TW_STATUS_LINK := by decide +kernel

/-- While the link is down the replica does not run, and only its queue can be emptied. -/
theorem replUpdate_shows {s : State} (h : linkUp s = false) :
    getF (replUpdate s) Fld.TW_STATUS_LINK = getF s Fld.TW_STATUS_LINK ∧
      getF (replUpdate s) Fld.TW_DOWN_DOWNS = getF s Fld.TW_DOWN_DOWNS ∧
      (replUpdate s).tw.held = s.tw.held ∧ (replUpdate s).tw.waiting = s.tw.waiting := by
  have hrun : replMayRun s = false := by simp [replMayRun, h]
  have hset : getF (setB Fld.TW_STATUS_REPL_RUN false s) Fld.TW_STATUS_LINK = getF s Fld.TW_STATUS_LINK ∧
      getF (setB Fld.TW_STATUS_REPL_RUN false s) Fld.TW_DOWN_DOWNS = getF s Fld.TW_DOWN_DOWNS :=
    ⟨getF_setF_of_apart apart_link.1 _ _, getF_setF_of_apart apart_link.2.2.2.2.1 _ _⟩
  simp only [replUpdate, hrun, Bool.false_and, Bool.false_eq_true, if_false]
  split <;> exact ⟨hset.1, hset.2, rfl, rfl⟩

/-- The link is down, nothing is held or waits, and the loss is counted. -/
theorem linkLost_shows (cause : Nat) (s : State) :
    getF (linkLost cause s) Fld.TW_STATUS_LINK = 3 ∧
      getF (linkLost cause s) Fld.TW_DOWN_DOWNS = getF (incF Fld.TW_DOWN_DOWNS s) Fld.TW_DOWN_DOWNS ∧
      (linkLost cause s).tw.held = [] ∧ (linkLost cause s).tw.waiting = [] := by
  obtain ⟨-, hlink, hdowns, hlinkDowns, -, hdownsLink⟩ := apart_link
  have hthree : getF (incF Fld.TW_DOWN_DOWNS (setF Fld.TW_STATUS_LINK 3 s)) Fld.TW_STATUS_LINK = 3 :=
    (getF_setF_of_apart hlinkDowns _ _).trans (getF_setF_same hlink _ _)
  have hcount : getF (incF Fld.TW_DOWN_DOWNS (setF Fld.TW_STATUS_LINK 3 s)) Fld.TW_DOWN_DOWNS =
      getF (incF Fld.TW_DOWN_DOWNS s) Fld.TW_DOWN_DOWNS := by
    rw [getF_incF_same hdowns, getF_incF_same hdowns, getF_setF_of_apart hdownsLink]
  have hshown := replUpdate_shows (s := { incF Fld.TW_DOWN_DOWNS (setF Fld.TW_STATUS_LINK 3 s) with
    tw := { s.tw with held := [], waiting := [], retraining := false, t1 := none } }) (linkUp_of_lost s)
  obtain ⟨hl, hd, hh, hw⟩ := hshown
  have hbefore := And.intro (hl.trans hthree) (And.intro (hd.trans hcount) (And.intro hh hw))
  simp only [linkLost]
  split
  · exact hbefore
  · exact hbefore

theorem linkUp_linkLost (cause : Nat) (s : State) : linkUp (linkLost cause s) = false := by
  rw [linkUp, (linkLost_shows cause s).1]
  rfl

/-! ### The link's rows -/

theorem mayTrain_iff (s : State) : mayTrain s = true ↔ mgtOn s = true ∧ twinEn s = true ∧
    flag s Fld.CK_STATUS_XOSC_RUN = true ∧ flag s Fld.TW_CFG_LINK_EN = true := by simp [mayTrain, and_assoc]

theorem exec_linkRows (s : State) (inv : BitVec 2) :
    exec (.linkUp inv) s = .next (if getF s Fld.TW_STATUS_LINK = 1 && mayTrain s then linkComesUp inv s else s) ∧
    exec .linkTrainRetry s = .next (if mayTrain s && (getF s Fld.TW_STATUS_LINK = 0 || getF s Fld.TW_STATUS_LINK = 3)
      then setF Fld.TW_STATUS_LINK 1 s else s) ∧
    exec .linkDown s = .next (if linkUp s then linkLost 1 s else s) ∧
    exec .retrainTimeout s = .next (if s.tw.retraining && !linkUp s then linkLost 2 s else s) ∧
    exec .upWaitExpiry s = .next (if mgtOn s && twinEn s && flag s Fld.TW_CFG_LINK_EN && handedBack s && !s.tw.upSeen
      && !linkUp s && upWaitOver s then raise 40 4 { s with tw := { s.tw with upSeen := true } } else s) ∧
    exec .statusSend s = .next (sendFlit (.status (statusBytes s)) s) ∧
    exec .timeReqSend s =
      .next (if linkUp s then sendFlit .timeReq { s with tw := { s.tw with t1 := some s.aon } } else s) :=
  ⟨rfl, rfl, rfl, rfl, rfl, rfl, rfl⟩

theorem exec_replicaRows (s : State) (held : Bool) :
    exec .lagEndSend s = .next (if linkUp s && inSave s && ownWritesOver s && s.tw.queue.isEmpty && !s.tw.lagEndSent
      then sendFlit .lagEnd { s with tw := { s.tw with lagEndSent := true } } else s) ∧
    exec (.replicaLineSend held) s = .next (if linkUp s && mayQueue s && lineRoom s && portETwin s && replicaDue s
      then replicaSend (countHeld held s) else s) ∧
    exec .twResume s = .next (if mgtOn s then resumeResync s else s) ∧
    exec .twResync s = .next (if mgtOn s && flag s Fld.TW_STATUS_REPL_RUN then fullRequest s else s) ∧
    exec .twRetrain s = .next (if mgtOn s then retrain s else s) := ⟨rfl, rfl, rfl, rfl, rfl⟩

theorem upWaitOver_eq (s : State) :
    upWaitOver s = decide (getF s Fld.TW_CFG_UP_WAIT * ticksPerS ≤ ticksSince s.aon s.tw.hbAt) := rfl

theorem resumeResync_of_held {s : State} (h : flag s Fld.TW_STATUS_RESYNC_HELD = true) :
    resumeResync s = requestAll (setF Fld.TW_STATUS_RESYNC_HELD 0 s) := if_pos h

theorem resumeResync_of_free {s : State} (h : flag s Fld.TW_STATUS_RESYNC_HELD = false) : resumeResync s = s :=
  if_neg (by simp [h])

theorem retrain_of_linkUp {s : State} (h : linkUp s = true) : retrain s = replUpdate (incF Fld.TW_DOWN_RETRAINS
    (setF Fld.TW_STATUS_LINK 1 { s with tw := { s.tw with retraining := true } })) := if_pos h

theorem retrain_of_linkDown {s : State} (h : linkUp s = false) : retrain s = s := if_neg (by simp [h])

/-- A queued line leaves the queue and is read and sent; the wait on an atomic is counted (R389, Table LD-4). -/
theorem replicaSend_of_queued {s : State} {l : Nat} {rest : List Nat} (h : s.tw.queue = l :: rest) (held : Bool) :
    replicaSend (countHeld held s) = sendLine l false (countHeld held { s with tw := { s.tw with queue := rest } }) := by
  have hqueue : (countHeld held s).tw = s.tw := (frame_countHeld held s).1 .tw (by decide)
  rw [replicaSend, hqueue, h]
  cases held <;> rfl

theorem replicaDue_of_queued {s : State} {l : Nat} {rest : List Nat} (h : s.tw.queue = l :: rest) : replicaDue s = true := by
  simp [replicaDue, h]

theorem replicaDue_of_empty {s : State} (h : s.tw.queue = []) : replicaDue s = (firstStale s).isSome := by
  simp [replicaDue, h]

/-- Settles O51. -/
theorem linkAndReplicaCommands : Obligations.LinkAndReplicaCommands := by
  intro s inv held
  obtain ⟨hup, htrain, hdown, htimeout, hwait, hstatus, hreq⟩ := exec_linkRows s inv
  obtain ⟨hlag, hline, hresume, hresync, hretrain⟩ := exec_replicaRows s held
  rw [hup, htrain, hdown, htimeout, hwait, hstatus, hreq, hlag, hline, hresume, hresync, hretrain]
  refine ⟨mayTrain_iff s, fun h hlink => ?up, fun h hlink => ?train, fun h => ?noTrain, fun h => ?down, fun h => ?isDown,
    fun h hno => ?timeout, fun h => ?noTimeout, fun hm ht hl hh hu hd hw => ?upWait, fun h => ?noUpWait, rfl,
    fun h => congrArg _ (if_pos h), fun h hs ho hq hl => ?lagEnd, fun h => ?noLagEnd, fun h hm hr hp => ⟨fun l rest hq => ?queued,
    fun hq hf => ?none, fun l hq hf => ?stale⟩, fun h => ?noLine, fun hm h => ?resume, fun h => ?noResume, fun hm h => ?resync,
    fun h => ?noResync, fun hm h => ?retrain⟩
  case up => rw [if_pos (by simp [h, hlink])]
  case train => rw [if_pos (by rcases hlink with hlink | hlink <;> simp [h, hlink])]
  case noTrain => simp [h]
  case down =>
    obtain ⟨hlink, hdowns, hheld, hwaiting⟩ := linkLost_shows 1 s
    exact ⟨_, by rw [if_pos h], linkUp_linkLost 1 s, hheld, hwaiting, hlink, hdowns⟩
  case isDown => simp [h, retrain_of_linkDown h, sendFlit_of_linkDown h]
  case timeout => rw [if_pos (by simp [h, hno])]
  case noTimeout => rw [if_neg (by simp [h])]
  case upWait =>
    have hover : upWaitOver s = true := by rw [upWaitOver_eq]; exact decide_eq_true hw
    rw [if_pos (by simp [hm, ht, hl, hh, hu, hd, hover])]
  case noUpWait =>
    have hstop : s.tw.upSeen = true ∨ upWaitOver s = false :=
      h.imp_right fun hlt => by rw [upWaitOver_eq]; exact decide_eq_false (Nat.not_le.mpr hlt)
    rw [if_neg (by rcases hstop with hstop | hstop <;> simp [hstop])]
  case lagEnd => rw [if_pos (by simp [h, hs, ho, hq, hl])]
  case noLagEnd =>
    rw [if_neg]
    rcases h with h | h | h
    · simp [h]
    · simp [h]
    · simp [ownWritesOver, h]
  case queued => rw [if_pos (by simp [h, hm, hr, hp, replicaDue_of_queued hq]), replicaSend_of_queued hq]
  case none => rw [if_neg (by simp [replicaDue_of_empty hq, hf])]
  case stale => rw [if_pos (by simp [h, hm, hr, hp, replicaDue_of_empty hq, hf])]
  case noLine => rw [if_neg (by rcases h with h | h | h <;> simp [h])]
  case resume => rw [if_pos hm, resumeResync_of_held h]
  case noResume => rw [resumeResync_of_free h, ite_self]
  case resync => rw [if_pos (by simp [hm, h])]
  case noResync => rw [if_neg (by simp [h])]
  case retrain => rw [if_pos hm, retrain_of_linkUp h]

end Sys2Proof.Machine

namespace Sys2Proof.Machine

/-! ### Tamper (R439 to R441) -/

theorem frame_gn (g : Garnet) (s : State) : Frame [.gn] [] s { s with gn := g } := by
  refine ⟨fun q hq => ?_, fun _ _ => rfl⟩
  cases q with
  | gn => exact absurd (List.mem_singleton_self _) hq
  | _ => rfl

theorem apart_garnet : (Fld.GN_STATUS_SEAL_KEY.Apart Fld.GN_STATUS_SESS_AUTH ∧ Fld.GN_STATUS_CON_KEY.Apart Fld.GN_STATUS_SESS_AUTH ∧
      Fld.GN_STATUS_CON_KEY.Apart Fld.GN_STATUS_SEAL_KEY) ∧
    (∀ f ∈ [Fld.GN_STATUS_SEAL_KEY, Fld.GN_STATUS_CON_KEY, Fld.GN_STATUS_SESS_AUTH], f.Apart Fld.GN_STATUS_TAMPER_NOW ∧
      f.Apart Fld.GN_STATUS_TAMPER_LATCH ∧ f.Apart Fld.GN_STATUS_ERASE_DONE) ∧
    (Fld.GN_STATUS_TAMPER_LATCH.Apart Fld.GN_STATUS_TAMPER_NOW ∧ Fld.GN_STATUS_ERASE_DONE.Apart Fld.GN_STATUS_TAMPER_NOW ∧
      Fld.GN_STATUS_ERASE_DONE.Apart Fld.GN_STATUS_TAMPER_LATCH) ∧
    Fld.GN_STATUS_TAMPER_NOW.Named ∧ Fld.GN_STATUS_SEAL_KEY.Named ∧ Fld.GN_TAMPT_TIME.Named ∧ Fld.GN_STATUS_SESS_AUTH.Named := by
  decide +kernel

theorem frame_wipeGarnet (s : State) :
    Frame [.gn] [Fld.GN_STATUS_SEAL_KEY.addr, Fld.GN_KCV_SEAL.addr, Fld.GN_KEYGEN_CON.addr] s (wipeGarnet s) :=
  ((((((frame_setF _ 0 s).trans (frame_setF _ 0 _)).trans (frame_setReg _ _ _)).trans (frame_setReg _ _ _)).trans
    (frame_setF _ 0 _)).trans (frame_gn _ _)).mono (by decide) (by decide)

/-- Garnet is clear: no key is present and the session is not authenticated. -/
theorem wipeGarnet_shows (s : State) : flag (wipeGarnet s) Fld.GN_STATUS_SEAL_KEY = false ∧
    flag (wipeGarnet s) Fld.GN_STATUS_CON_KEY = false ∧ flag (wipeGarnet s) Fld.GN_STATUS_SESS_AUTH = false := by
  obtain ⟨⟨hsealAuth, hconAuth, hconSeal⟩, -, -, -, hseal, -, hauth⟩ := apart_garnet
  have hwords (t : State) (f : Field) : flag (wipeGarnet t) f =
      flag (setF Fld.GN_STATUS_SESS_AUTH 0 (setReg Fld.GN_KEYGEN_CON.addr 0 (setReg Fld.GN_KCV_SEAL.addr 0
        (setF Fld.GN_STATUS_SEAL_KEY 0 (setF Fld.GN_STATUS_CON_KEY 0 t))))) f := (frame_gn _ _).flag_eq List.not_mem_nil
  have hregs (t : State) {f : Field} (hf : f.addr ∉ [Fld.GN_KCV_SEAL.addr, Fld.GN_KEYGEN_CON.addr]) :
      flag (setReg Fld.GN_KEYGEN_CON.addr 0 (setReg Fld.GN_KCV_SEAL.addr 0 t)) f = flag t f :=
    ((frame_setReg _ 0 t).trans (frame_setReg _ 0 _)).flag_eq hf
  refine ⟨?_, ?_, ?_⟩
  · rw [hwords, flag_setF_of_apart hsealAuth, hregs _ (by decide), flag_setF_zero hseal]
  · rw [hwords, flag_setF_of_apart hconAuth, hregs _ (by decide), flag_setF_of_apart hconSeal, flag_setF_zero hconAuth.1]
  · rw [hwords, flag_setF_zero hauth]

/-- A recognised tamper as GN_STATUS shows it: the latch and TAMPER_NOW set, ERASE_DONE clear, Garnet wiped. -/
def tamperFlags (s : State) : State :=
  setF Fld.GN_STATUS_TAMPER_NOW 1 (setF Fld.GN_STATUS_TAMPER_LATCH 1 (setF Fld.GN_STATUS_ERASE_DONE 0 (wipeGarnet s)))

/-- With its time and its trace entry, the erase of the key records owed. -/
def tamperNoted (s : State) : State :=
  { trace 0x0103 ((tamperMode s).getD 0) (setReg Fld.GN_TAMPT_TIME.addr (BitVec.ofNat 32 s.aon.toNat) (tamperFlags s)) with
    gn := { (tamperFlags s).gn with eraseDue := true, tamperMode := tamperMode s } }

theorem tamperFlags_shows (s : State) : flag (tamperFlags s) Fld.GN_STATUS_TAMPER_LATCH = true ∧
    flag (tamperFlags s) Fld.GN_STATUS_TAMPER_NOW = true ∧ flag (tamperFlags s) Fld.GN_STATUS_ERASE_DONE = false ∧
    flag (tamperFlags s) Fld.GN_STATUS_SEAL_KEY = false ∧ flag (tamperFlags s) Fld.GN_STATUS_CON_KEY = false ∧
    flag (tamperFlags s) Fld.GN_STATUS_SESS_AUTH = false := by
  obtain ⟨-, hwiped, ⟨hlatchNow, hdoneNow, hdoneLatch⟩, hnow, -⟩ := apart_garnet
  obtain ⟨hseal, hcon, hauth⟩ := wipeGarnet_shows s
  have hkept {f : Field} (hf : f ∈ [Fld.GN_STATUS_SEAL_KEY, Fld.GN_STATUS_CON_KEY, Fld.GN_STATUS_SESS_AUTH]) :
      flag (tamperFlags s) f = flag (wipeGarnet s) f := by
    obtain ⟨hfnow, hflatch, hfdone⟩ := hwiped f hf
    rw [tamperFlags, flag_setF_of_apart hfnow, flag_setF_of_apart hflatch, flag_setF_of_apart hfdone]
  refine ⟨?_, flag_setF_one hnow (by decide) _, ?_, (hkept (by decide)).trans hseal, (hkept (by decide)).trans hcon,
    (hkept (by decide)).trans hauth⟩
  · rw [tamperFlags, flag_setF_of_apart hlatchNow, flag_setF_one hlatchNow.1 (by decide)]
  · rw [tamperFlags, flag_setF_of_apart hdoneNow, flag_setF_of_apart hdoneLatch, flag_setF_zero hdoneNow.1]

theorem frame_tamperFlags (s : State) :
    Frame [.gn] [Fld.GN_STATUS_SEAL_KEY.addr, Fld.GN_KCV_SEAL.addr, Fld.GN_KEYGEN_CON.addr] s (tamperFlags s) :=
  ((((frame_wipeGarnet s).trans (frame_setF _ 0 _)).trans (frame_setF _ 1 _)).trans (frame_setF _ 1 _)).mono (by decide) (by decide)

theorem frame_tamperNoted (s : State) : Frame [.tr, .gn] [Fld.GN_TAMPT_TIME.addr, Fld.TR_LOST_RING.addr] (tamperFlags s)
    (tamperNoted s) :=
  (((frame_setReg _ _ _).trans (frame_trace _ _ _)).trans (frame_gn _ _)).mono (by decide) (by decide)

theorem exec_tamperRecognised (s : State) : exec .tamperRecognised s = .next
    (if s.boot ≠ .held && (inRun s || inService s) then raise 59 (synFs59 false (tamperMode s)) (tamperNoted s)
      else tamperNoted s) := by
  have hgn (t : State) (code args : Nat) (a : Nat) (w : Word) : (trace code args (setReg a w t)).gn = t.gn :=
    ((frame_setReg a w t).trans (frame_trace code args _)).1 .gn (by decide)
  have hnoted : tamperNoted s = { trace 0x0103 ((tamperMode s).getD 0)
      (setReg Fld.GN_TAMPT_TIME.addr (BitVec.ofNat 32 s.aon.toNat) (tamperFlags s)) with
        gn := { (trace 0x0103 ((tamperMode s).getD 0)
          (setReg Fld.GN_TAMPT_TIME.addr (BitVec.ofNat 32 s.aon.toNat) (tamperFlags s))).gn with
            eraseDue := true, tamperMode := tamperMode s } } := by
    rw [hgn, tamperNoted]
  rw [hnoted]
  rfl

theorem getF_tamperNoted_time (s : State) : getF (tamperNoted s) Fld.GN_TAMPT_TIME = s.aon.toNat % 2 ^ 32 := by
  have hlater : Frame [.tr, .gn] [Fld.TR_LOST_RING.addr]
      (setReg Fld.GN_TAMPT_TIME.addr (BitVec.ofNat 32 s.aon.toNat) (tamperFlags s)) (tamperNoted s) :=
    ((frame_trace _ _ _).trans (frame_gn _ _)).mono (by decide) (by decide)
  obtain ⟨-, -, -, -, -, htime, -⟩ := apart_garnet
  rw [hlater.getF_eq (by decide), getF_setReg_same htime, BitVec.toNat_ofNat]
  have hall (n : Nat) : natBits (n % 2 ^ 32) Fld.GN_TAMPT_TIME.hi Fld.GN_TAMPT_TIME.lo = n % 2 ^ 32 := by
    simp [natBits, Fld.GN_TAMPT_TIME]
  exact hall _

/-! ### The erase of the key records (R440) -/

theorem apart_erase : Fld.GN_STATUS_ERASE_DONE.Named := by decide +kernel

/-- The key-record region reads 0, the rest of the keep as before. -/
theorem eraseKeys_shows (s : State) (k : Nat) : flag (eraseKeys s) Fld.GN_STATUS_ERASE_DONE = true ∧
    (eraseKeys s).gn.eraseDue = false ∧ keepStored (eraseKeys s) k = (if keepRegion (8 * k) = 7 then 0 else keepStored s k) ∧
    (eraseKeys s).gn.words = s.gn.words := by
  refine ⟨?_, rfl, ?_, rfl⟩
  · exact (flag_of_reg rfl).trans (flag_setF_one apart_erase (by decide) _)
  · refine (smGet_smDrop (zeroDefault 72) s.kp.words (fun k => keepRegion (8 * k) = 7) k).trans ?_
    simp only [decide_eq_true_eq]
    rfl

theorem exec_keyRecordErase (s : State) : exec .keyRecordErase s = .next (if !s.gn.eraseDue || s.boot = .held then s
    else if mode s = modeHold || mode s = modeDormant then trace 0x0104 1 (eraseKeys s) else eraseKeys s) := rfl

/-! ### Keys and nonces (R435, R443) -/

/-- A field outside the keep's registers is one that the keep's operations leave. -/
theorem keepBlind_flag {f : Field} (hhome : f.addr % 0x10000 ∉ keepHomes) (hinj : f.addr ≠ Fld.FC_INJ_KP_ARM.addr) :
    KeepBlind (fun s => flag s f) where
  setReg a w s ha := (frame_setReg a w s).flag_eq fun hmem => hhome (List.mem_singleton.mp hmem ▸ ha)
  disarm s := (frame_setF _ 0 s).flag_eq fun hmem => hinj (List.mem_singleton.mp hmem)
  raise src syn s := (frame_raise src syn s).flag_eq List.not_mem_nil
  kp k s := (frame_kp k s).flag_eq List.not_mem_nil

namespace KeepBlind

variable {β : Type} {g : State → β} (h : KeepBlind g)
include h

theorem storeOne (a c : Nat) (bs : List Byte) (ok : List Byte → Bool) (index : Nat) (flips : List (Nat × BitVec 72))
    (s : State) : g (Machine.storeOne a c bs ok index flips s).2 = g s := by
  rw [Machine.storeOne]
  split
  · exact (h.keepRead _ _ _).trans (h.keepWrite _ _ _ s)
  · exact (h.crcFail _ _ _ _ _).trans ((h.keepRead _ _ _).trans (h.keepWrite _ _ _ s))

theorem storeTwo (a0 a1 : Nat) (copy : Nat → List Byte) (ok : Nat → List Byte → Bool) (index : Nat)
    (flips : List (Nat × BitVec 72)) (s : State) : g (Machine.storeTwo a0 a1 copy ok index flips s).2 = g s := by
  rw [Machine.storeTwo]
  split
  · exact (h.storeOne _ _ _ _ _ _ _).trans (h.storeOne _ _ _ _ _ _ s)
  · exact h.storeOne _ _ _ _ _ _ s

end KeepBlind

theorem flag_drew (f : Field) (s : State) : flag (drew s) f = flag s f := rfl

theorem apart_sealKey : Fld.GN_STATUS_SEAL_KEY.Apart Fld.GN_STATUS_SEAL_REC ∧
    Fld.GN_STATUS_SEAL_KEY.addr % 0x10000 ∉ keepHomes ∧ Fld.GN_STATUS_SEAL_KEY.addr ≠ Fld.FC_INJ_KP_ARM.addr := by
  decide +kernel

/-- Storing the record of the seal key shows no key. -/
theorem flag_storeKey_sealKey (key : BitVec 256) (gen : Nat) (flips : List (Nat × BitVec 72)) (s : State) :
    flag (storeKey 1 key gen flips s).2 Fld.GN_STATUS_SEAL_KEY = flag s Fld.GN_STATUS_SEAL_KEY := by
  obtain ⟨hrec, hhome, hinj⟩ := apart_sealKey
  have hblind := keepBlind_flag hhome hinj
  have hnamed : Fld.GN_STATUS_SEAL_KEY.Apart (recFlag 1) := hrec
  have hstore (a0 a1 : Nat) (copy : Nat → List Byte) (ok : Nat → List Byte → Bool) (index : Nat) (t : State) :
      flag (storeTwo a0 a1 copy ok index flips t).2 Fld.GN_STATUS_SEAL_KEY = flag t Fld.GN_STATUS_SEAL_KEY :=
    hblind.storeTwo a0 a1 copy ok index flips t
  have hwear (t : State) : flag (wearOne 7 t) Fld.GN_STATUS_SEAL_KEY = flag t Fld.GN_STATUS_SEAL_KEY := hblind.setWear 7 _ t
  have hrecorded (stored valid : Bool) (t : State) : flag (if stored then setF (recFlag 1) 1 t else setB (recFlag 1) valid t)
      Fld.GN_STATUS_SEAL_KEY = flag t Fld.GN_STATUS_SEAL_KEY := by
    cases stored
    · exact flag_setB_of_apart hnamed _ t
    · exact flag_setF_of_apart hnamed _ t
  rw [storeKey]
  dsimp only
  rw [hrecorded, hstore, hwear]
  rfl

theorem flag_putKey_sealKey (key : BitVec 256) (gen : Nat) (s : State) :
    flag (putKey 1 key gen s) Fld.GN_STATUS_SEAL_KEY = true := by
  obtain ⟨-, -, -, -, hseal, -⟩ := apart_garnet
  exact flag_setF_one hseal (by decide) _

theorem mayGenerate_iff (s : State) : mayGenerate false s = true ↔ flag s Fld.GN_STATUS_SEAL_KEY = false ∧ peekKey s 1 = none ∧
    flag s Fld.GN_STATUS_TAMPER_LATCH = false ∧ s.gn.eraseDue = false ∧ lcState s ≠ 4 ∧
    (served s = true ∨ inService s = true) ∧ saving s = false := by
  simp [mayGenerate, and_assoc]

theorem exec_sealKeyGenerate (flips : List (Nat × BitVec 72)) (s : State) :
    exec (.sealKeyGenerate flips) s = .next (if mgtOn s then generateSeal false flips s else s) := rfl

theorem generateSeal_of_barred {s : State} {b3 : Bool} (h : mayGenerate b3 s = false) (flips : List (Nat × BitVec 72)) :
    generateSeal b3 flips s = s := if_neg (by simp [h])

/-- The key enters Garnet exactly when its record is stored. -/
theorem flag_generateSeal {s : State} (h : mayGenerate false s = true) (flips : List (Nat × BitVec 72)) :
    flag (generateSeal false flips s) Fld.GN_STATUS_SEAL_KEY = true ↔
      (storeKey 1 (Config.drawnKey s.draws) (topKeygen s 1 + 1) flips (drew s)).1 = true := by
  have hnone : flag s Fld.GN_STATUS_SEAL_KEY = false := ((mayGenerate_iff s).mp h).1
  rw [generateSeal, if_pos h]
  dsimp only
  split
  case isTrue hstored => exact iff_of_true (flag_putKey_sealKey _ _ _) hstored
  case isFalse hlost =>
    refine iff_of_false ?_ hlost
    rw [flag_storeKey_sealKey, flag_drew, hnone]
    exact Bool.false_ne_true

theorem garnetStored_setGarnet_same (i : Nat) (d : Dword) (s : State) : garnetStored (setGarnet i d s) i = secdedEncode d :=
  smGet_smSet_same _ _ _

theorem garnetStored_setGarnet_other {i j : Nat} (h : j ≠ i) (d : Dword) (s : State) :
    garnetStored (setGarnet i d s) j = garnetStored s j := smGet_smSet_other _ _ h

theorem nonceOut_lapseNonce (s : State) : nonceOut (lapseNonce s) = false := by
  rw [nonceOut, lapseNonce, garnetStored_setGarnet_other (by decide), garnetStored_setGarnet_same, secdedData_secdedEncode]
  cases flag s Fld.GN_STATUS_SESS_AUTH <;> rfl

theorem exec_nonceLapse (s : State) : exec .nonceLapse s = .next (if nonceOut s && nonceOld s then lapseNonce s else s) := rfl

/-! ### TAMPER_CLR (R441) -/

theorem exec_tamperClr (s : State) : exec .tamperClr s = .next
    (if mgtOn s then (if tamperClrReady s && !tamperClrNoAuth s
      then setF Fld.GN_STATUS_TAMPER_LATCH 0 { s with gn := { s.gn with tamperMode := none } } else s) else s) := rfl

theorem exec_tamperNRelease (s : State) : exec .tamperNRelease s = .next (setF Fld.GN_STATUS_TAMPER_NOW 0 s) := rfl

/-- Settles O55. -/
theorem keysAndTamper : Obligations.KeysAndTamper := by
  intro s flips k
  refine ⟨?tamper, fun hdue hup => ?erase, fun h => ?noErase, exec_tamperNRelease s, fun hm hnow hdone hauth => ?clear,
    fun h => ?noClear, mayGenerate_iff s, fun h => ?barred, fun hm h => ?generate, fun h => ?noLapse, fun hout hold => ?lapse⟩
  case tamper =>
    rw [exec_tamperRecognised]
    obtain ⟨hlatch, hnow, hdone, hseal, hcon, hauth⟩ := tamperFlags_shows s
    have hnoted := frame_tamperNoted s
    have hraised (t : State) (h : t = raise 59 (synFs59 false (tamperMode s)) (tamperNoted s) ∨ t = tamperNoted s) :
        Frame [.fc] [] (tamperNoted s) t := by
      rcases h with rfl | rfl
      · exact frame_raise _ _ _
      · exact .refl _ _ _
    refine ⟨_, rfl, ?_⟩
    have hlast := hraised (if s.boot ≠ .held && (inRun s || inService s) then raise 59 (synFs59 false (tamperMode s))
      (tamperNoted s) else tamperNoted s) (ite_eq_or_eq _ _ _)
    have hflag {f : Field} (hf : f.addr ∉ [Fld.GN_TAMPT_TIME.addr, Fld.TR_LOST_RING.addr]) :=
      (hlast.flag_eq (f := f) List.not_mem_nil).trans (hnoted.flag_eq hf)
    have hgn := hlast.1 .gn (by decide)
    have hall := (frame_tamperFlags s).trans (hnoted.trans hlast)
    refine ⟨?_, ?_, (hflag (by decide)).trans hlatch, (hflag (by decide)).trans hnow, (hflag (by decide)).trans hdone,
      (hflag (by decide)).trans hseal, (hflag (by decide)).trans hcon, (hflag (by decide)).trans hauth,
      (hlast.getF_eq List.not_mem_nil).trans (getF_tamperNoted_time s), hall.1 .kp (by decide), hall.1 .ld (by decide)⟩
    · exact (congrArg Garnet.words hgn).trans rfl
    · exact (congrArg Garnet.eraseDue hgn).trans rfl
  case erase =>
    obtain ⟨hdone, howed, hkeep, hwords⟩ := eraseKeys_shows s k
    have herased : Frame [.tr] [Fld.TR_LOST_RING.addr] (eraseKeys s)
        (if mode s = modeHold || mode s = modeDormant then trace 0x0104 1 (eraseKeys s) else eraseKeys s) :=
      .ite (frame_trace _ _ _) (.refl _ _ _)
    have hgn := herased.1 .gn (by decide)
    have hkp := herased.1 .kp (by decide)
    have hstored := congrArg (fun m : Keep => smGet (zeroDefault 72) m.words k) hkp
    refine ⟨_, by rw [exec_keyRecordErase, if_neg (by simp [hdue, hup])], (herased.flag_eq (by decide)).trans hdone,
      (congrArg Garnet.eraseDue hgn).trans howed, fun h7 => ?_, fun h7 => ?_, (congrArg Garnet.words hgn).trans hwords⟩
    · exact hstored.trans (hkeep.trans (if_pos h7))
    · exact hstored.trans (hkeep.trans (if_neg h7))
  case noErase => rw [exec_keyRecordErase, if_pos (by rcases h with h | h <;> simp [h])]
  case clear =>
    have hready : (tamperClrReady s && !tamperClrNoAuth s) = true := by
      rcases hauth with hauth | hauth | hauth
      · simp [tamperClrReady, tamperClrNoAuth, hnow, hdone, hauth]
      · simp [tamperClrReady, tamperClrNoAuth, hnow, hdone, Nat.not_le.mpr hauth]
      · simp [tamperClrReady, tamperClrNoAuth, hnow, hdone, hauth]
    rw [exec_tamperClr, if_pos hm, if_pos hready]
  case noClear =>
    have hbarred : ¬ (tamperClrReady s && !tamperClrNoAuth s) = true := by
      rcases h with h | h | ⟨hkey, hlc, hauth⟩
      · simp [tamperClrReady, h]
      · simp [tamperClrReady, h]
      · simp [tamperClrNoAuth, hkey, hlc, hauth]
    rw [exec_tamperClr, if_neg hbarred, ite_self]
  case barred => rw [exec_sealKeyGenerate, generateSeal_of_barred h, ite_self]
  case generate => exact ⟨_, by rw [exec_sealKeyGenerate, if_pos hm], flag_generateSeal h flips⟩
  case noLapse => rw [exec_nonceLapse, if_neg (by rcases h with h | h <;> simp [h])]
  case lapse => exact ⟨by rw [exec_nonceLapse, if_pos (by simp [hout, hold])], nonceOut_lapseNonce s⟩

end Sys2Proof.Machine

namespace Sys2Proof.Machine

/-! ### Where a restore starts (R346, R354) -/

theorem mayRestore_iff (s : State) : mayRestore s = true ↔
    (s.pins.pgood = true ∧ flag s Fld.CK_STATUS_HCK_PRESENT = true ∧
      flag s Fld.PS_IN_SAVE0_LOW = false ∧ flag s Fld.PS_IN_SAVE1_LOW = false) ∧ s.boot = .up ∧ s.sw.halted = false ∧
      (s.pins.holdack = false ∨ holdackShown s = true) ∧
      (mode s = modeHold ∨ mode s = modeDormant ∨ (inTrain s = true ∧ s.rs.path = .restoreWait)) := by
  simp [mayRestore, restoreConditions, and_assoc, or_assoc]

theorem exec_restoreStart (w : WakeUp) (b : BringUp) (damage garnet : List (Nat × BitVec 72)) (cs : List RankCheck) (s : State) :
    exec (.restoreStart w b damage garnet cs) s = .next (if !mayRestore s then s
      else if flag s Fld.PS_STATUS_DEFER_CHIPRST && !chipLimited s then
        faultReset ((s.fc.deferred.headD (0, 0)).1) (setF Fld.PS_STATUS_DEFER_CHIPRST 0
          { outageEnds s with pins := { s.pins with holdack := false }, fc := { s.fc with deferred := [] } })
      else if flag s Fld.PS_STATUS_DEFER_CHIPRST then
        restoreRun w b damage garnet cs (restoreBegin (setF Fld.FC_STATUS_RST_LIMIT 1
          (setF Fld.PS_STATUS_DEFER_CHIPRST 0 { s with fc := { s.fc with deferred := [] } })))
      else restoreRun w b damage garnet cs (restoreBegin s)) := rfl

theorem apart_restoreBegin : (Fld.PM_MODE_MODE.Apart Fld.PM_MODE_WAITING ∧ Fld.PM_MODE_MODE.Apart Fld.PM_MODE_RESTORING ∧
      Fld.PM_MODE_MODE.Apart Fld.CK_BOOT_PATH) ∧
    (Fld.PM_MODE_SUB.Apart Fld.PM_MODE_WAITING ∧ Fld.PM_MODE_SUB.Apart Fld.PM_MODE_RESTORING ∧
      Fld.PM_MODE_SUB.Apart Fld.CK_BOOT_PATH) ∧
    Fld.PM_MODE_RESTORING.Apart Fld.PM_MODE_WAITING ∧ Fld.PM_MODE_WAITING.Named ∧
    Fld.CK_BOOT_PATH.Apart Fld.PM_MODE_WAITING ∧ Fld.CK_BOOT_PATH.Apart Fld.PM_MODE_RESTORING := by decide +kernel

/-- What a restore shows as it begins: RUN.TRAIN, RESTORING, not WAITING, the restore path. -/
theorem restoreBegin_shows (s : State) : inTrain (restoreBegin s) = true ∧ restoring (restoreBegin s) = true ∧
    flag (restoreBegin s) Fld.PM_MODE_WAITING = false ∧ getF (restoreBegin s) Fld.CK_BOOT_PATH = 2 := by
  obtain ⟨⟨hmodeW, hmodeR, hmodeB⟩, ⟨hsubW, hsubR, hsubB⟩, hrestW, hwait, hpathW, hpathR⟩ := apart_restoreBegin
  have hmode (t : State) : mode (setF Fld.PM_MODE_WAITING 0 (setF Fld.PM_MODE_RESTORING 1 (setF Fld.CK_BOOT_PATH 2
      (transition modeRun subTrain 0x07 t)))) = modeRun := by
    rw [mode, getF_setF_of_apart hmodeW, getF_setF_of_apart hmodeR, getF_setF_of_apart hmodeB]
    exact mode_transition (by decide) _ _ t
  have hsub (t : State) : sub (setF Fld.PM_MODE_WAITING 0 (setF Fld.PM_MODE_RESTORING 1 (setF Fld.CK_BOOT_PATH 2
      (transition modeRun subTrain 0x07 t)))) = subTrain := by
    rw [sub, getF_setF_of_apart hsubW, getF_setF_of_apart hsubR, getF_setF_of_apart hsubB]
    exact sub_transition (by decide) _ _ t
  refine ⟨?_, ?_, flag_setF_zero hwait _, ?_⟩
  · have htrain (t : State) (hm : mode t = modeRun) (hs : sub t = subTrain) : inTrain t = true := by
      simp [inTrain, inRun, hm, hs]
    exact htrain _ (hmode _) (hsub _)
  · rw [restoring, restoreBegin, flag_setF_of_apart hrestW]
    exact flag_setF_one hrestW.1 (by decide) _
  · rw [restoreBegin, getF_setF_of_apart hpathW, getF_setF_of_apart hpathR, getF_setF_same hpathW.1]
    rfl

theorem restoreBegin_pins_rs (s : State) : (restoreBegin s).pins.holdack = false ∧ (restoreBegin s).rs.t0 = s.aon := by
  rw [restoreBegin]
  simp only [setF_pins, setF_rs, transition_pins, transition_rs, and_self]

/-! ### Refreshes while hand-back waits (R356) -/

theorem exec_restoreRefresh (s : State) : exec .restoreRefresh s = .next
    (if inTrain s && (s.rs.path = .restoreReady || s.rs.path = .serviceReady) then
      (popRanks s).foldl (fun t r => markRefresh r t) (issue ((popRanks s).map OwnCmd.refab) s) else s) := rfl

theorem frame_markRefresh (r : Nat) (s : State) : Frame [.ca] [] s (markRefresh r s) := frame_ca _ s

theorem refAt_markRefresh_same (r : Nat) (s : State) :
    smGet (zeroDefault 49) (markRefresh r s).ca.refAt r = BitVec.ofNat 49 (2 ^ 48 + s.aon.toNat) := smGet_smSet_same _ _ _

theorem refAt_markRefresh_other {r k : Nat} (h : k ≠ r) (s : State) :
    smGet (zeroDefault 49) (markRefresh r s).ca.refAt k = smGet (zeroDefault 49) s.ca.refAt k := smGet_smSet_other _ _ h

theorem own_foldl_markRefresh (l : List Nat) (s : State) :
    (l.foldl (fun t r => markRefresh r t) s).ca.own = s.ca.own :=
  foldl_keeps (f := fun t r => markRefresh r t) (fun t : State => t.ca.own) (fun _ _ _ => rfl) s

/-- Every rank of the list is marked with the time that all the marks are made at. -/
theorem refAt_foldl_markRefresh {l : List Nat} {r : Nat} {s : State}
    (h : r ∈ l ∨ smGet (zeroDefault 49) s.ca.refAt r = BitVec.ofNat 49 (2 ^ 48 + s.aon.toNat)) :
    smGet (zeroDefault 49) (l.foldl (fun t r => markRefresh r t) s).ca.refAt r = BitVec.ofNat 49 (2 ^ 48 + s.aon.toNat) := by
  induction l generalizing s with
  | nil => exact h.resolve_left List.not_mem_nil
  | cons k l ih =>
    refine ih (s := markRefresh k s) ?_
    by_cases hk : r = k
    · subst hk
      exact .inr (refAt_markRefresh_same r s)
    · refine h.imp (fun hmem => (List.mem_cons.mp hmem).resolve_left hk) fun hmark => ?_
      exact (refAt_markRefresh_other hk s).trans hmark

/-! ### Hand-back and its results (R367, R369) -/

theorem exec_restoreHandBack (flips : List (Nat × BitVec 72)) (s : State) : exec (.restoreHandBack flips) s = .next
    (if !inTrain s || hrstLow s then s
      else if s.rs.path = .restoreReady then restoreHandBack false flips s
      else if s.rs.path = .serviceReady then restoreHandBack true flips s else s) := rfl

/-- PS_RSTAT as a hand-back writes it (Table RS-8). -/
def resultWord (r : RestoreUnit) : Nat :=
  2 ^ 31 + r.ledger * 2 ^ 28 + 8 * 2 ^ 24 + r.warm * 2 ^ 20 + r.cold * 2 ^ 16 + r.origin * 2 ^ 14
    + b2n r.fallback * 2 ^ 13 + b2n r.sealOk * 2 ^ 12 + b2n r.begun * 2 ^ 11 + b2n r.noProof * 2 ^ 10
    + r.source.getD 0 * 2 ^ 9

theorem natBits_resultWord {r : RestoreUnit} (hledger : r.ledger < 8) (hwarm : r.warm < 16) (hcold : r.cold < 16)
    (horigin : r.origin < 4) (hsource : r.source.getD 0 < 2) :
    let w := (BitVec.ofNat 32 (resultWord r)).toNat
    natBits w 31 31 = 1 ∧ natBits w 30 28 = r.ledger ∧ natBits w 23 20 = r.warm ∧ natBits w 19 16 = r.cold ∧
      natBits w 15 14 = r.origin := by
  have h1 := b2n_le r.fallback
  have h2 := b2n_le r.sealOk
  have h3 := b2n_le r.begun
  have h4 := b2n_le r.noProof
  simp only [resultWord, natBits, BitVec.toNat_ofNat, Nat.shiftRight_eq_div_pow]
  omega

theorem named_results : Fld.PS_RSTAT_VALID.Named ∧ Fld.PS_RSTAT_LEDGER.Named ∧ Fld.PS_RSTAT_WARM.Named ∧
    Fld.PS_RSTAT_COLD.Named ∧ Fld.PS_RSTAT_FROM.Named := by decide +kernel

/-- The results stand in PS_RSTAT: the registers written after it are others. -/
theorem getF_restoreResults {f : Field} (hf : f.Named) (haddr : f.addr = Fld.PS_RSTAT_VALID.addr) (s : State) :
    getF (restoreResults s) f = natBits (BitVec.ofNat 32 (resultWord s.rs)).toNat f.hi f.lo := by
  have hlater (v w x : Nat) (m n : Word) (t : State) : Frame [] [Fld.PS_RMISS_RANK0.addr, Fld.PS_RREASON_RANK0.addr,
      Fld.PS_DORMT_S.addr, Fld.PS_HOLDT_S.addr, Fld.PS_RTIME_US.addr] t
      (setF Fld.PS_RTIME_US v (setF Fld.PS_HOLDT_S w (setF Fld.PS_DORMT_S x
        (setReg Fld.PS_RREASON_RANK0.addr m (setReg Fld.PS_RMISS_RANK0.addr n t))))) :=
    (((((frame_setReg _ n t).trans (frame_setReg _ m _)).trans (frame_setF _ x _)).trans (frame_setF _ w _)).trans
      (frame_setF _ v _)).mono (by decide) (by decide)
  have hown : getF (setReg Fld.PS_RSTAT_VALID.addr (BitVec.ofNat 32 (resultWord s.rs)) s) f =
      natBits (BitVec.ofNat 32 (resultWord s.rs)).toNat f.hi f.lo := by
    rw [← haddr]
    exact getF_setReg_same hf _ s
  exact ((hlater _ _ _ _ _ _).getF_eq (by rw [haddr]; decide)).trans hown

/-- Settles O48. -/
theorem restoreStartsAndHandsBack : Obligations.RestoreStartsAndHandsBack := by
  intro s w b damage garnet cs flips
  rw [exec_restoreStart, exec_restoreRefresh, exec_restoreHandBack]
  refine ⟨mayRestore_iff s, fun h => ?barred, fun h hd => ?start, fun h hd hl => ?chip, fun h hd hl => ?limited, ?begun,
    fun ht hp => ?refresh, fun h => ?elsewhere, fun h => ?low, fun ht hh hp => ?restored, fun ht hh hp => ?service,
    fun hledger hwarm hcold horigin hsource => ?results⟩
  case barred => rw [if_pos (by simp [h])]
  case start => rw [if_neg (by simp [h]), if_neg (by simp [hd]), if_neg (by simp [hd])]
  case chip => rw [if_neg (by simp [h]), if_pos (by simp [hd, hl])]
  case limited => rw [if_neg (by simp [h]), if_neg (by simp [hl]), if_pos hd]
  case begun =>
    obtain ⟨htrain, hrestoring, hwaiting, hpath⟩ := restoreBegin_shows s
    obtain ⟨hpin, ht0⟩ := restoreBegin_pins_rs s
    exact ⟨htrain, hrestoring, hwaiting, hpath, hpin, ht0⟩
  case refresh =>
    have hready : (inTrain s && (s.rs.path = .restoreReady || s.rs.path = .serviceReady)) = true := by
      rcases hp with hp | hp <;> simp [ht, hp]
    have hissue : Frame [.ca] [] s (issue ((popRanks s).map OwnCmd.refab) s) := frame_ca _ s
    refine ⟨_, by rw [if_pos hready], own_foldl_markRefresh _ _,
      hissue.next (.foldl (fun t r => frame_markRefresh r t) _ _), fun r hr => ?_⟩
    exact refAt_foldl_markRefresh (s := issue ((popRanks s).map OwnCmd.refab) s) (.inl hr)
  case elsewhere =>
    rcases h with h | ⟨hrestore, hservice⟩
    · simp [h]
    · simp [hrestore, hservice]
  case low => rw [if_pos (by simp [h])]
  case restored => rw [if_neg (by simp [ht, hh]), if_pos hp]
  case service => rw [if_neg (by simp [ht, hh]), if_neg (by simp [hp]), if_pos hp]
  case results =>
    obtain ⟨hv, hl, hw, hc, ho⟩ := named_results
    obtain ⟨bv, bl, bw, bc, bo⟩ := natBits_resultWord hledger hwarm hcold horigin hsource
    refine ⟨?_, (getF_restoreResults hl rfl s).trans bl, (getF_restoreResults hw rfl s).trans bw,
      (getF_restoreResults hc rfl s).trans bc, (getF_restoreResults ho rfl s).trans bo⟩
    rw [flag, getF_restoreResults hv rfl s]
    exact decide_eq_true (bv.symm ▸ Nat.one_ne_zero)

end Sys2Proof.Machine

namespace Sys2Proof.Machine

/-! ### What the end of a march cannot change of a save (R296, R334, R335) -/

/-- PM_MODE, the nonce, and FC_INJ, beside what a save's own unit holds. -/
def saveHomes : List Nat := [Fld.PM_MODE_MODE.addr, Fld.PS_NONCEL_NONCE_LO.addr, Fld.PS_NONCEH_NONCE_HI.addr, Fld.FC_INJ_CA_N.addr]

/-- What a save that begins relies on: the mode register, its nonce, the count of injected parity errors, its unit. -/
def saveView (s : State) : Word × Word × Word × Nat × SaveUnit :=
  (reg s Fld.PM_MODE_MODE.addr, reg s Fld.PS_NONCEL_NONCE_LO.addr, reg s Fld.PS_NONCEH_NONCE_HI.addr, getF s Fld.FC_INJ_CA_N, s.ps)

theorem saveView_of_frame {ps : List Part} {as : List Nat} {s t : State} (h : Frame ps as s t) (hps : Part.ps ∉ ps)
    (has : ∀ a ∈ saveHomes, a ∉ as) : saveView t = saveView s := by
  have hunit : t.ps = s.ps := h.1 .ps hps
  rw [saveView, saveView, h.2 _ (has _ (by decide)), h.2 _ (has _ (by decide)), h.2 _ (has _ (by decide)),
    h.getF_eq (has _ (by decide)), hunit]

theorem saveView_of_regs {s t : State} (hregs : t.regs = s.regs) (hps : t.ps = s.ps) : saveView t = saveView s := by
  have hreg (a : Nat) : reg t a = reg s a := by rw [reg, reg, hregs]
  rw [saveView, saveView, hreg, hreg, hreg, getF_of_regs hregs, hps]

theorem saveView_setReg {a : Nat} (h : a % 0x10000 ∉ saveHomes) (w : Word) (s : State) : saveView (setReg a w s) = saveView s := by
  have hlow : ∀ b ∈ saveHomes, b % 0x10000 = b := by decide
  refine saveView_of_frame (frame_setReg a w s) List.not_mem_nil fun b hb hmem => h ?_
  rw [← List.mem_singleton.mp hmem, hlow b hb]
  exact hb

theorem saveView_setF {f : Field} (h : f.addr % 0x10000 ∉ saveHomes) (v : Nat) (s : State) :
    saveView (setF f v s) = saveView s := saveView_setReg h _ s

theorem saveView_raise (src syn : Nat) (s : State) : saveView (raise src syn s) = saveView s :=
  saveView_of_frame (frame_raise src syn s) (by decide) (by decide)

theorem saveView_trace (code args : Nat) (s : State) : saveView (trace code args s) = saveView s :=
  saveView_of_frame (frame_trace code args s) (by decide) (by decide)

theorem saveView_conEvent (isFault : Bool) (t : String) (s : State) : saveView (conEvent isFault t s) = saveView s :=
  saveView_of_frame (consoleFrame_conEvent isFault t s) (by decide) (by decide)

theorem saveView_completeTokens (what : Nat) (result : String) (s : State) :
    saveView (completeTokens what result s) = saveView s :=
  saveView_of_frame (consoleFrame_completeTokens what result s) (by decide) (by decide)

theorem saveView_settleEngines (s : State) : saveView (settleEngines s) = saveView s :=
  saveView_of_frame (consoleFrame_settleEngines s) (by decide) (by decide)

theorem apart_injected : Fld.FC_INJ_CA_N.Apart Fld.FC_INJ_KP_ARM ∧ Fld.FC_INJ_CA_N.Named := by decide +kernel

theorem keepBlind_saveView : KeepBlind saveView where
  setReg a w s ha := saveView_setReg (fun hmem => (by decide : ∀ b ∈ keepHomes, b ∉ saveHomes) _ ha hmem) w s
  disarm s := by
    have hcount : getF (setF Fld.FC_INJ_KP_ARM 0 s) Fld.FC_INJ_CA_N = getF s Fld.FC_INJ_CA_N :=
      getF_setF_of_apart apart_injected.1 0 s
    have hother {a : Nat} (ha : a ≠ Fld.FC_INJ_KP_ARM.addr) : reg (setF Fld.FC_INJ_KP_ARM 0 s) a = reg s a :=
      reg_setReg_other ha
    rw [saveView, hcount, hother (by decide), hother (by decide), hother (by decide)]
    rfl
  raise := saveView_raise
  kp _ _ := saveView_of_regs rfl rfl

/-! #### The engines stop -/

theorem saveView_pauseHost (n : Nat) (s : State) : saveView (pauseHost n s) = saveView s :=
  (saveView_of_frame (frame_endHost n _) (by decide) (by decide)).trans
    (saveView_of_regs rfl rfl)

theorem saveView_dropSweep (s : State) : saveView (dropSweep s) = saveView s := by
  rw [dropSweep]
  split
  · rfl
  · rw [saveView_settleEngines, saveView_setF (by decide), saveView_setF (by decide)]
    exact saveView_of_regs rfl rfl

theorem saveView_dropGap (r : Nat) (s : State) : saveView (dropGap r s) = saveView s := by
  rw [dropGap, saveView_settleEngines, setBitF, saveView_setF (by decide)]
  exact saveView_of_regs rfl rfl

theorem saveView_stopEngines (s : State) : saveView (stopEngines s) = saveView s := by
  have hcb (t : State) : saveView { t with cb := { t.cb with pend := [], fresh := [] } } = saveView t :=
    saveView_of_regs rfl rfl
  have hhosts (t : State) : saveView (pauseHostAll t) = saveView t :=
    foldl_keeps (f := fun t n => pauseHost n t) saveView (fun n _ t => saveView_pauseHost n t) t
  have hgaps (t : State) : saveView (rankList.foldl (fun t r => dropGap r t) t) = saveView t :=
    foldl_keeps (f := fun t r => dropGap r t) saveView (fun r _ t => saveView_dropGap r t) t
  rw [stopEngines, hcb, hgaps, saveView_dropSweep, hhosts]

/-! #### Failing reads -/

theorem bank_addr_mod (f : Field) (a : Nat) : (f.bank a).addr % 0x10000 = f.addr % 0x10000 := by
  rw [Field.bank, Nat.add_mul_mod_self_left]

theorem saveView_bank {f : Field} (h : f.addr % 0x10000 ∉ saveHomes) (a v : Nat) (s : State) :
    saveView (setF (f.bank a) v s) = saveView s := saveView_setF (by rwa [bank_addr_mod]) v s

theorem saveView_ite {c : Prop} [Decidable c] {s t u : State} (ht : saveView t = saveView s) (hu : saveView u = saveView s) :
    saveView (if c then t else u) = saveView s := by
  split
  · exact ht
  · exact hu

theorem saveView_recordFail (f : MarchFail) (s : State) : saveView (recordFail f s) = saveView s := by
  have hspare (b : Nat) (hit : List Nat) (t : State) : saveView (spareBad b hit t) = saveView t :=
    saveView_of_regs rfl rfl
  have hfirst : (Fld.MT_FIRST_VALID.bank f.read.array).addr % 0x10000 ∉ saveHomes := by
    rw [bank_addr_mod]
    decide
  unfold recordFail
  extract_lets a hit m s1 s2 s3 s4
  have h1 : saveView s1 = saveView s :=
    (saveView_bank (by decide) _ _ _).trans ((saveView_bank (by decide) _ _ _).trans (saveView_bank (by decide) _ _ s))
  have h2 : saveView s2 = saveView s := saveView_ite h1 ((saveView_setReg hfirst _ s1).trans h1)
  have h3 : saveView s3 = saveView s := (saveView_bank (by decide) _ _ s2).trans h2
  have h4 : saveView s4 = saveView s := saveView_ite ((saveView_setF (by decide) _ s3).trans h3) h3
  exact saveView_ite h4 ((hspare a hit s4).trans h4)

theorem saveView_recordRun (r : MarchRun) (reads : List MarchRead) (s : State) : saveView (recordRun r reads s) = saveView s := by
  have hfails (fs : List MarchFail) (t : State) : saveView (fs.foldl (fun t f => recordFail f t) t) = saveView t :=
    foldl_keeps (f := fun t f => recordFail f t) saveView (fun f _ t => saveView_recordFail f t) t
  unfold recordRun
  extract_lets fs s1 s2
  have h2 : saveView s2 = saveView s :=
    (saveView_setF (by decide) _ _).trans ((saveView_setF (by decide) _ s1).trans (hfails fs s))
  exact saveView_ite h2 ((saveView_raise _ _ s2).trans h2)

/-! #### What a destructive run had tested -/

theorem saveView_putLine (poison : Bool) (l : Nat) (ws : List Dword) (s : State) : saveView (putLine poison l ws s) = saveView s := by
  refine foldl_keeps saveView (fun w _ t => ?_) s
  split
  · exact saveView_of_regs rfl rfl
  · exact saveView_of_regs rfl rfl

theorem saveView_clearSlots (s : State) : saveView (clearSlots s) = saveView s := by
  unfold clearSlots
  extract_lets c _ s1
  have h1 : saveView s1 = saveView s := saveView_of_regs rfl rfl
  refine saveView_ite h1 ((foldl_keeps (f := fun t i => clearSlot c i t) saveView (fun i _ t => ?_) s1).trans h1)
  exact saveView_putLine _ _ _ t

theorem saveView_clearBanks (banks : Nat) (s : State) : saveView (clearBanks banks s) = saveView s := by
  unfold clearBanks
  extract_lets hit _ s1
  have h1 : saveView s1 = saveView s := saveView_of_regs rfl rfl
  exact saveView_ite ((saveView_clearSlots s1).trans h1) h1

theorem saveView_wipeGarnet (s : State) : saveView (wipeGarnet s) = saveView s :=
  saveView_of_frame (frame_wipeGarnet s) (by decide) (by decide)

theorem saveView_setGarnet (i : Nat) (d : Dword) (s : State) : saveView (setGarnet i d s) = saveView s :=
  saveView_of_regs rfl rfl

/-- Fields of either key identity lie in Garnet's own registers. -/
theorem keyFields_outside (k : Nat) : ∀ f ∈ [keyFlag k, recFlag k, genField k, kcvField k], f.addr % 0x10000 ∉ saveHomes := by
  by_cases hk : k = 1
  · subst hk
    decide
  · simp only [keyFlag, recFlag, genField, kcvField, if_neg hk]
    decide

theorem saveView_keyField {k : Nat} {f : Field} (hf : f ∈ [keyFlag k, recFlag k, genField k, kcvField k]) (v : Nat) (s : State) :
    saveView (setF f v s) = saveView s := saveView_setF (keyFields_outside k f hf) v s

theorem saveView_keyWords (k : Nat) (d : Nat → Dword) (s : State) :
    saveView ((List.range 4).foldl (fun t i => setGarnet (keyWord k + i) (d i) t) s) = saveView s :=
  foldl_keeps saveView (fun _ _ t => saveView_setGarnet _ _ t) s

theorem saveView_putKey (k : Nat) (key : BitVec 256) (gen : Nat) (s : State) : saveView (putKey k key gen s) = saveView s := by
  rw [putKey, saveView_keyField (k := k) (by simp), saveView_keyField (k := k) (by simp), saveView_keyField (k := k) (by simp),
    saveView_setGarnet]
  exact saveView_keyWords k _ s

theorem saveView_dropKey (k : Nat) (s : State) : saveView (dropKey k s) = saveView s := by
  rw [dropKey, saveView_keyField (k := k) (by simp), saveView_keyField (k := k) (by simp), saveView_keyField (k := k) (by simp)]
  exact saveView_keyWords k _ s

theorem saveView_readCopy (a magic index copy len : Nat) (s : State) : saveView (readCopy a magic index copy len s).2 = saveView s := by
  have hread := keepBlind_saveView.keepRead a (36 + len) s
  rw [readCopy]
  exact saveView_ite ((keepBlind_saveView.crcFail _ _ _ _ _).trans hread) hread

theorem saveView_readKeyCopy (k c : Nat) (s : State) : saveView (readKeyCopy k c s).2 = saveView s := by
  have hread := saveView_readCopy (keyAt k c) magicKey k c 0x58 s
  rw [readKeyCopy]
  split
  · split
    · exact (keepBlind_saveView.crcFail _ _ _ _ _).trans hread
    · split <;> exact hread
  · exact hread

theorem saveView_unwrapKey (k : Nat) (s : State) : saveView (unwrapKey k s) = saveView s := by
  have hread : saveView (readKey k s).2 = saveView s := (saveView_readKeyCopy k 1 _).trans (saveView_readKeyCopy k 0 s)
  rw [unwrapKey]
  split
  · rw [saveView_dropKey, saveView_keyField (k := k) (by simp), hread]
  · rw [saveView_putKey, saveView_keyField (k := k) (by simp), hread]

theorem saveView_unwrapKeys (s : State) : saveView (unwrapKeys s) = saveView s :=
  saveView_ite rfl ((saveView_unwrapKey 2 _).trans (saveView_unwrapKey 1 s))

end Sys2Proof.Machine

namespace Sys2Proof.Machine

/-! #### The HCT and the other targets -/

theorem saveView_hctScrap (s : State) : saveView (hctScrap s) = saveView s := by
  rw [hctScrap, saveView_setF (by decide), hctClear, saveView_setF (by decide), saveView_setF (by decide),
    saveView_setF (by decide), saveView_setF (by decide)]
  exact saveView_of_regs rfl rfl

theorem saveView_hctVerify (s : State) : saveView (hctVerify s) = saveView s := by
  rw [hctVerify]
  split
  · have hcode (t : State) (strong bad : Bool) (code : Nat) : saveView (setB Fld.LG_HCTC_STRONG strong
        (setB Fld.LG_HCTC_REJECT bad (setF Fld.LG_HCTC_REJECT_CODE code t))) = saveView t :=
      (saveView_setF (by decide) _ _).trans ((saveView_setF (by decide) _ _).trans (saveView_setF (by decide) _ t))
    have hpend (t : State) (p : HctPend) : saveView { t with lg := { t.lg with pend := p } } = saveView t :=
      saveView_of_regs rfl rfl
    refine saveView_ite ?_ ?_
    · rw [saveView_setReg (by decide), saveView_completeTokens, hpend, hcode]
    · rw [saveView_setF (by decide), saveView_completeTokens, hpend, hcode]
  · rfl

theorem saveView_hctLoadNow (s : State) : saveView (hctLoadNow s) = saveView s := by
  rw [hctLoadNow]
  split
  · rw [saveView_setF (by decide), saveView_setF (by decide), saveView_setF (by decide), setB, saveView_setF (by decide),
      saveView_setF (by decide)]
    exact saveView_of_regs rfl rfl
  · rfl

theorem saveView_cfgLoadHct (s : State) : saveView (cfgLoadHct s) = saveView s := by
  have hstart (rows : Nat) (t : State) : saveView (hctStart rows t) = saveView t := by
    rw [hctStart, saveView_setF (by decide), saveView_setF (by decide)]
    exact saveView_of_regs rfl rfl
  unfold cfgLoadHct
  extract_lets rows words
  refine saveView_ite rfl ?_
  rw [saveView_hctLoadNow, saveView_hctVerify, hstart]
  exact saveView_of_regs rfl rfl

theorem saveView_restoreTargets (targets banks : Nat) (s : State) : saveView (restoreTargets targets banks s) = saveView s := by
  unfold restoreTargets
  extract_lets s1 _ s2 s3 s4 _ s5
  have h1 : saveView s1 = saveView s := saveView_ite (saveView_clearBanks banks s) rfl
  have h2 : saveView s2 = saveView s := saveView_ite ((saveView_of_regs rfl rfl).trans h1) h1
  have h3 : saveView s3 = saveView s := saveView_ite ((saveView_unwrapKeys _).trans ((saveView_wipeGarnet s2).trans h2)) h2
  have h4 : saveView s4 = saveView s := saveView_ite ((saveView_cfgLoadHct _).trans ((saveView_hctScrap s3).trans h3)) h3
  have h5 : saveView s5 = saveView s := (saveView_of_regs rfl rfl).trans h4
  exact saveView_ite (saveView_ite ((saveView_trace _ _ s5).trans h5) h5) h4

/-! #### The end of a march, and of S1 -/

theorem saveView_marchEnd (aborted : Bool) (reads : List MarchRead) (s : State) :
    saveView (marchEnd aborted reads s) = saveView s := by
  unfold marchEnd
  refine saveView_ite rfl ?_
  extract_lets r s1 _ s2 us s3
  have h1 : saveView s1 = saveView s := saveView_recordRun r reads s
  have h2 : saveView s2 = saveView s :=
    saveView_ite h1 (saveView_ite ((saveView_of_regs rfl rfl).trans h1) ((saveView_restoreTargets _ _ s1).trans h1))
  have h3 : saveView s3 = saveView s := by
    rw [← h2]
    exact (saveView_setF (by decide) _ _).trans ((saveView_setF (by decide) _ _).trans ((saveView_setF (by decide) _ _).trans
      ((saveView_setF (by decide) _ _).trans (saveView_setF (by decide) _ s2))))
  exact (saveView_completeTokens _ _ _).trans ((saveView_conEvent _ _ s3).trans h3)

theorem saveView_marchStop (s : State) : saveView (marchStop s) = saveView s :=
  saveView_ite ((saveView_marchEnd _ _ _).trans (saveView_of_regs rfl rfl)) rfl

theorem saveView_blockHost (reads : List MarchRead) (s : State) : saveView (blockHost reads s) = saveView s := by
  have hparts (t : State) (p : Pins) (c : CmdPath) (b : Calib) (d : DataLanes) :
      saveView { t with pins := p, ca := c, cb := b, dl := d } = saveView t := saveView_of_regs rfl rfl
  rw [blockHost, hparts, saveView_setF (by decide), saveView_stopEngines, saveView_marchEnd]

theorem named_saveBlock : Fld.CA_STATUS_SAVE_BLOCK.Named := by decide +kernel

/-- The host is blocked: RDY and the busy line low, no record being stored (R335). -/
theorem blockHost_shows (reads : List MarchRead) (s : State) : flag (blockHost reads s) Fld.CA_STATUS_SAVE_BLOCK = true ∧
    (blockHost reads s).pins.rdy = false ∧ (blockHost reads s).pins.halertBusy = false ∧ (blockHost reads s).cb.storing = false := by
  have hparts (t : State) (p : Pins) (c : CmdPath) (b : Calib) (d : DataLanes) (f : Field) :
      flag { t with pins := p, ca := c, cb := b, dl := d } f = flag t f := flag_eq_of_getF (getF_of_regs rfl f)
  refine ⟨?_, rfl, rfl, rfl⟩
  rw [blockHost, hparts]
  exact flag_setF_one named_saveBlock (by decide) _

/-! ### S0 and S1 (R334, R335) -/

theorem frame_sendFlit (b : FlitBody) (s : State) : Frame [.tw] [] s (sendFlit b s) := (sendsOnly_sendFlit b s).1

theorem frame_saveMessage (s : State) : Frame [.tw] [] s (saveMessage s) := .ite (frame_sendFlit _ s) (.refl _ _ s)

theorem frame_setStep (n : Nat) (s : State) : Frame [] [Fld.PS_STATUS_STEP.addr] s (setStep n s) := frame_setF _ n s

theorem named_step : Fld.PS_STATUS_STEP.Named := by decide +kernel

theorem getF_setStep {n : Nat} (h : n < 16) (s : State) : getF (setStep n s) Fld.PS_STATUS_STEP = n :=
  (getF_setF_same named_step n s).trans (Nat.mod_eq_of_lt h)

theorem frame_saveS2 (s : State) : Frame [.ps, .tw] [Fld.PS_STATUS_STEP.addr] s (saveS2 s) :=
  (((frame_ps _ s).trans (frame_setStep 3 _)).trans (frame_saveMessage _)).mono (by decide) (by decide)

theorem getF_saveS2_step (s : State) : getF (saveS2 s) Fld.PS_STATUS_STEP = 3 :=
  ((frame_saveMessage _).getF_eq List.not_mem_nil).trans (getF_setStep (by decide) _)

/-- S2 goes on with the unit as S1 left it, S1Ended apart. -/
theorem ps_saveS2 (s : State) : (saveS2 s).ps.entry = s.ps.entry := by
  have hps (t : State) : (saveMessage t).ps = t.ps := (frame_saveMessage t).1 .ps (by decide)
  rw [saveS2, hps, setStep, setF_ps]

/-- The state in which S0 has formed the nonce, disarmed the injections and taken over what ran. -/
def saveFormed (s : State) : State :=
  conEvent false "! save begin" { setB Fld.PS_STATUS_IN_BRINGUP (bringingUp s) (setF Fld.PM_MODE_RESTORING 0
    (twinSaveBegin (injClear (formNonce s)))) with ps := { s.ps with entry := 0 } }

theorem saveS0_eq (s : State) : saveS0 s = if s.ps.entry = 3 then saveS2 (saveFormed s)
    else if noHost s then saveS2 (blockHost [] (marchStop (saveFormed s))) else setStep 2 (saveFormed s) := by
  have hps : (setB Fld.PS_STATUS_IN_BRINGUP (bringingUp s) (setF Fld.PM_MODE_RESTORING 0
      (twinSaveBegin (injClear (formNonce s))))).ps = s.ps := by
    simp only [setB, setF_ps, twinSaveBegin, injClear, formNonce]
  rw [saveS0, saveFormed, hps]

theorem apart_formed : (Fld.PS_NONCEL_NONCE_LO.Named ∧ Fld.PS_NONCEH_NONCE_HI.Named ∧ Fld.PM_MODE_RESTORING.Named) ∧
    (Fld.FC_INJ_CA_N.Apart Fld.FC_INJ_HCT ∧ Fld.FC_INJ_CA_N.Apart Fld.FC_INJ_LD_ARM ∧ Fld.FC_INJ_CA_N.Apart Fld.FC_INJ_KP_ARM) := by
  decide +kernel

theorem frame_injClear (s : State) : Frame [] [Fld.FC_INJ_HCT.addr] s (injClear s) :=
  (((((frame_setF _ 0 s).trans (frame_setF _ 0 _)).trans (frame_setF _ 0 _)).trans (frame_setF _ 0 _)).trans
    (frame_setF _ 0 _)).mono (by decide) (by decide)

theorem getF_injClear_ca (s : State) : getF (injClear s) Fld.FC_INJ_CA_N = 0 := by
  obtain ⟨-, hhct, hld, hkp⟩ := apart_formed
  rw [injClear, getF_setF_of_apart hhct, getF_setF_of_apart hld, getF_setF_of_apart hkp, getF_setF_same hhct.1]
  exact Nat.zero_mod _

theorem getF_formNonce (s : State) : getF (formNonce s) Fld.PS_NONCEL_NONCE_LO = s.ps.s0.toNat % 2 ^ 32 ∧
    getF (formNonce s) Fld.PS_NONCEH_NONCE_HI = (getF s Fld.PS_SEALNO_SEALNO + 1) % 2 ^ 32 := by
  obtain ⟨⟨hlow, hhigh, -⟩, -⟩ := apart_formed
  constructor
  · rw [formNonce, (frame_setF _ _ _).getF_eq (by decide), getF_setF_same hlow]
    exact Nat.mod_mod _ _
  · rw [formNonce, getF_setF_same hhigh]
    exact Nat.mod_mod _ _

theorem frame_twinSaveBegin (s : State) : Frame [.tw] [Fld.TW_STATUS_LAG_DRAINED.addr] s (twinSaveBegin s) :=
  (((frame_tw _ s).trans (frame_setF _ 0 _)).trans (frame_setF _ 0 _)).mono (by decide) (by decide)

/-- Behind the nonce and the injections: PM_MODE, PS_STATUS, TW_STATUS and the console alone. -/
theorem frame_saveFormed (s : State) : Frame [.tw, .ps, .con]
    [Fld.PM_MODE_RESTORING.addr, Fld.PS_STATUS_IN_BRINGUP.addr, Fld.TW_STATUS_LAG_DRAINED.addr, Fld.CN_STAT2_EVLOST.addr]
    (injClear (formNonce s)) (saveFormed s) :=
  (((((frame_twinSaveBegin _).trans (frame_setF Fld.PM_MODE_RESTORING 0 _)).trans (frame_setF Fld.PS_STATUS_IN_BRINGUP _ _)).trans
    (frame_ps _ _)).trans (consoleFrame_conEvent false _ _)).mono (by decide) (by decide)

/-- What S0 leaves for the save: the nonce, no injection, no restore, no entry of SERVICE. -/
theorem saveFormed_shows (s : State) : getF (saveFormed s) Fld.PS_NONCEL_NONCE_LO = s.ps.s0.toNat % 2 ^ 32 ∧
    getF (saveFormed s) Fld.PS_NONCEH_NONCE_HI = (getF s Fld.PS_SEALNO_SEALNO + 1) % 2 ^ 32 ∧
    getF (saveFormed s) Fld.FC_INJ_CA_N = 0 ∧ getF (saveFormed s) Fld.PM_MODE_RESTORING = 0 ∧ (saveFormed s).ps.entry = 0 := by
  obtain ⟨hlow, hhigh⟩ := getF_formNonce s
  have hformed := frame_saveFormed s
  have hinj := frame_injClear (formNonce s)
  have hlast (t : State) : Frame [.con] [Fld.CN_STAT2_EVLOST.addr] t (conEvent false "! save begin" t) :=
    consoleFrame_conEvent false _ t
  refine ⟨(hformed.getF_eq (by decide)).trans ((hinj.getF_eq (by decide)).trans hlow),
    (hformed.getF_eq (by decide)).trans ((hinj.getF_eq (by decide)).trans hhigh),
    (hformed.getF_eq (by decide)).trans (getF_injClear_ca _), ?_, ?_⟩
  · have hps (t : State) (p : SaveUnit) : getF { t with ps := p } Fld.PM_MODE_RESTORING = getF t Fld.PM_MODE_RESTORING :=
      getF_of_regs rfl _
    rw [saveFormed, (hlast _).getF_eq (by decide), hps, setB, (frame_setF _ _ _).getF_eq (by decide),
      getF_setF_same apart_formed.1.2.2, Nat.zero_mod]
  · exact congrArg SaveUnit.entry ((hlast _).1 .ps (by decide))

/-- The view holds what S0 shows. -/
theorem shows_of_saveView {s t : State} (h : saveView t = saveView s) :
    getF t Fld.PS_NONCEL_NONCE_LO = getF s Fld.PS_NONCEL_NONCE_LO ∧ getF t Fld.PS_NONCEH_NONCE_HI = getF s Fld.PS_NONCEH_NONCE_HI ∧
    getF t Fld.FC_INJ_CA_N = getF s Fld.FC_INJ_CA_N ∧ getF t Fld.PM_MODE_RESTORING = getF s Fld.PM_MODE_RESTORING ∧ t.ps = s.ps := by
  simp only [saveView, Prod.mk.injEq] at h
  obtain ⟨hmode, hlow, hhigh, hinj, hps⟩ := h
  have hfield {f : Field} (hreg : reg t f.addr = reg s f.addr) : getF t f = getF s f := by rw [getF, getF, hreg]
  exact ⟨hfield hlow, hfield hhigh, hinj, hfield hmode, hps⟩

/-- S0 with its nonce: on to S2 where S1 has ended or has no length, else to S1. -/
theorem saveS0_shows (s : State) :
    getF (saveS0 s) Fld.PS_STATUS_STEP = (if s.ps.entry = 3 ∨ noHost s = true then 3 else 2) ∧
    getF (saveS0 s) Fld.PS_NONCEL_NONCE_LO = s.ps.s0.toNat % 2 ^ 32 ∧
    getF (saveS0 s) Fld.PS_NONCEH_NONCE_HI = (getF s Fld.PS_SEALNO_SEALNO + 1) % 2 ^ 32 ∧
    getF (saveS0 s) Fld.FC_INJ_CA_N = 0 ∧ getF (saveS0 s) Fld.PM_MODE_RESTORING = 0 ∧ (saveS0 s).ps.entry = 0 ∧
    (s.ps.entry ≠ 3 → noHost s = true → flag (saveS0 s) Fld.CA_STATUS_SAVE_BLOCK = true ∧ (saveS0 s).pins.rdy = false) := by
  obtain ⟨hlow, hhigh, hinj, hrest, hentry⟩ := saveFormed_shows s
  have hS2 (t : State) : getF (saveS2 t) Fld.PS_NONCEL_NONCE_LO = getF t Fld.PS_NONCEL_NONCE_LO ∧
      getF (saveS2 t) Fld.PS_NONCEH_NONCE_HI = getF t Fld.PS_NONCEH_NONCE_HI ∧
      getF (saveS2 t) Fld.FC_INJ_CA_N = getF t Fld.FC_INJ_CA_N ∧
      getF (saveS2 t) Fld.PM_MODE_RESTORING = getF t Fld.PM_MODE_RESTORING :=
    ⟨(frame_saveS2 t).getF_eq (by decide), (frame_saveS2 t).getF_eq (by decide), (frame_saveS2 t).getF_eq (by decide),
      (frame_saveS2 t).getF_eq (by decide)⟩
  rw [saveS0_eq]
  by_cases h3 : s.ps.entry = 3
  · obtain ⟨kl, kh, ki, kr⟩ := hS2 (saveFormed s)
    rw [if_pos h3, if_pos (.inl h3)]
    exact ⟨getF_saveS2_step _, kl.trans hlow, kh.trans hhigh, ki.trans hinj, kr.trans hrest, (ps_saveS2 _).trans hentry,
      fun hno => absurd h3 hno⟩
  · rw [if_neg h3]
    by_cases hno : noHost s = true
    · obtain ⟨kl, kh, ki, kr⟩ := hS2 (blockHost [] (marchStop (saveFormed s)))
      obtain ⟨vl, vh, vi, vr, vps⟩ := shows_of_saveView
        ((saveView_blockHost [] _).trans (saveView_marchStop (saveFormed s)))
      obtain ⟨hblock, hrdy, -, -⟩ := blockHost_shows [] (marchStop (saveFormed s))
      rw [if_pos hno, if_pos (.inr hno)]
      refine ⟨getF_saveS2_step _, kl.trans (vl.trans hlow), kh.trans (vh.trans hhigh), ki.trans (vi.trans hinj),
        kr.trans (vr.trans hrest), ?_, fun _ _ => ⟨((frame_saveS2 _).flag_eq (by decide)).trans hblock, ?_⟩⟩
      · rw [ps_saveS2, vps, hentry]
      · exact (congrArg Pins.rdy ((frame_saveS2 _).1 .pins (by decide))).trans hrdy
    · rw [if_neg hno, if_neg (by simp [h3, hno])]
      have hstep := frame_setStep 2 (saveFormed s)
      exact ⟨getF_setStep (by decide) _, (hstep.getF_eq (by decide)).trans hlow, (hstep.getF_eq (by decide)).trans hhigh,
        (hstep.getF_eq (by decide)).trans hinj, (hstep.getF_eq (by decide)).trans hrest,
        (congrArg SaveUnit.entry (hstep.1 .ps (by decide))).trans hentry, fun _ h => absurd h hno⟩

end Sys2Proof.Machine

namespace Sys2Proof.Machine

/-! ### What resets and power changes leave (R54, R519) -/

theorem reg_coreReset_of_kept {a : Nat} (h : inClass .core a = false) (hlost : a ≠ Fld.TR_LOST_FIFO.addr)
    (hout : a ≠ Fld.MT_STATUS_HCT_OUT.addr) (s : State) : reg (coreReset s) a = reg s a := by
  rw [coreReset, reg_setReg_other hout, reg_setF_other hlost]
  exact reg_resetRegs_of_kept h s

theorem reg_gradeValues_other {a : Nat} (hrate : a ≠ (Fld.CK_RS_RATE.at 3).addr) (hwarn : a ≠ Fld.SN_THR_WARN.addr) (s : State) :
    reg (gradeValues s) a = reg s a := by
  unfold gradeValues
  extract_lets s1
  have h1 : reg s1 a = reg s a := by
    by_cases hspeed : s.fuses.speed = 64
    · exact (congrArg (reg · a) (if_pos hspeed)).trans (reg_setReg_other hrate)
    · exact congrArg (reg · a) (if_neg hspeed)
  split
  · rw [reg_setReg_other hwarn, h1]
  · exact h1

theorem reg_mgtReset_of_kept {a : Nat} (h : inClass .mgt a = false) (hrate : a ≠ (Fld.CK_RS_RATE.at 3).addr)
    (hwarn : a ≠ Fld.SN_THR_WARN.addr) (s : State) : reg (mgtReset s) a = reg s a := by
  have hparts (t : State) (k : Keep) (w : Steward) (c : Clocks) : reg { t with kp := k, sw := w, clk := c } a = reg t a := rfl
  have hunits (t : State) : reg (collectorReset (twinReset (consoleReset t))) a = reg t a := rfl
  rw [mgtReset, hparts, hunits, reg_gradeValues_other hrate hwarn, reg_resetRegs_of_kept h]

/-- Values of the configuration record come into force at the homes of the class alone. -/
theorem reg_loadClass_other {c : ResetClass} {a : Nat} (h : inClass c a = false) (s : State) : reg (loadClass c s) a = reg s a := by
  rw [loadClass, cfgLoad]
  split
  · rfl
  · refine foldl_keeps (reg · a) (fun e _ t => ?_) s
    split
    case isTrue hin =>
      refine reg_setReg_other fun hsame => ?_
      rw [hsame, hin] at h
      exact absurd h (by decide)
    · rfl

theorem apart_core : Fld.PM_DOMAIN_CORE.Named ∧ Fld.PM_DOMAIN_CORE.addr ∉ [Fld.CK_STATUS_HPLL_LOCK.addr] ∧
    inClass .core Fld.PM_MODE_MODE.addr = false := by decide +kernel

theorem frame_hpllOff (s : State) : Frame [] [Fld.CK_STATUS_HPLL_LOCK.addr] s (hpllOff s) :=
  ((frame_setF _ 0 s).trans (frame_setF _ 0 _)).mono (by decide) (by decide)

theorem frame_pins (p : Pins) (s : State) : Frame [.pins] [] s { s with pins := p } := by
  refine ⟨fun q hq => ?_, fun _ _ => rfl⟩
  cases q with
  | pins => exact absurd (List.mem_singleton_self _) hq
  | _ => rfl

theorem coreOn_coreDown (s : State) : coreOn (coreDown s) = false := by
  obtain ⟨hcore, hother, -⟩ := apart_core
  rw [coreOn, coreDown, (frame_hpllOff _).getF_eq hother, getF_setF_same hcore, Nat.zero_mod]
  rfl

theorem reg_coreDown_mode (s : State) : reg (coreDown s) Fld.PM_MODE_MODE.addr = reg s Fld.PM_MODE_MODE.addr := by
  have hlater (t : State) : Frame [.pins] [Fld.FC_INJ_HCT.addr, Fld.PM_DOMAIN_CORE.addr, Fld.CK_STATUS_HPLL_LOCK.addr] t
      (hpllOff (setF Fld.PM_DOMAIN_CORE 0 (setF Fld.PM_DOMAIN_HIO 0 (setF Fld.PM_DOMAIN_DIO 3 (takeIsland (injClear t)))))) :=
    ((((((frame_injClear t).trans (frame_pins _ _)).trans (frame_setF _ 3 _)).trans (frame_setF _ 0 _)).trans
      (frame_setF _ 0 _)).trans (frame_hpllOff _)).mono (by decide) (by decide)
  exact ((hlater _).2 _ (by decide)).trans (reg_coreReset_of_kept apart_core.2.2 (by decide) (by decide) s)

/-! ### The entry to SERVICE (R63) -/

theorem apart_modes : (Fld.PM_MODE_SAVING.Apart Fld.PM_MODE_MODE ∧ Fld.PM_MODE_SAVING.Apart Fld.PM_MODE_SUB) ∧
    Fld.PS_STATUS_SAVING.Apart Fld.PS_STATUS_STEP ∧ Fld.PM_DOMAIN_LDG.Named := by decide +kernel

/-- A transition leaves SAVING. -/
theorem saving_transition (m b cause : Nat) (s : State) :
    flag (transition m b cause s) Fld.PM_MODE_SAVING = flag s Fld.PM_MODE_SAVING := by
  obtain ⟨⟨hmode, hsub⟩, -⟩ := apart_modes
  rw [transition, flag_setF_of_apart hmode, flag_setF_of_apart hsub, (frame_recordTransition m b cause s).flag_eq (by decide)]

/-- PM_MODE alone gives the mode and SAVING. -/
theorem mode_saving_of_reg {s t : State} (h : reg t Fld.PM_MODE_MODE.addr = reg s Fld.PM_MODE_MODE.addr) :
    mode t = mode s ∧ flag t Fld.PM_MODE_SAVING = flag s Fld.PM_MODE_SAVING := by
  have hfield {f : Field} (hf : f.addr = Fld.PM_MODE_MODE.addr) : getF t f = getF s f := by rw [getF, getF, hf, h]
  exact ⟨hfield rfl, flag_eq_of_getF (hfield rfl)⟩

theorem reg_serviceDown_mode (s : State) : reg (serviceDown s) Fld.PM_MODE_MODE.addr = reg s Fld.PM_MODE_MODE.addr := by
  rw [serviceDown, reg_coreDown_mode]
  exact (congrArg Prod.fst (saveView_marchStop _)).trans rfl

theorem serviceEnter_shows (s : State) : mode (serviceEnter s) = modeService ∧
    flag (serviceEnter s) Fld.PM_MODE_SAVING = false ∧ (s.pins.pgood = false → coreOn (serviceEnter s) = false) := by
  unfold serviceEnter
  extract_lets _ s1 s2
  have hdone : Frame [.con] [Fld.CN_STAT2_EVLOST.addr] s1 s2 := consoleFrame_completeTokens tokService "ok" s1
  have hmode : mode s2 = modeService := (hdone.getF_eq (by decide)).trans (mode_transition (by decide) _ _ _)
  have hsaving : flag s2 Fld.PM_MODE_SAVING = false :=
    (hdone.flag_eq (by decide)).trans ((saving_transition _ _ _ _).trans (flag_setF_zero apart_modes.1.1.1 _))
  obtain ⟨kmode, ksaving⟩ := mode_saving_of_reg (reg_serviceDown_mode s2)
  split
  case isTrue hgood => exact ⟨hmode, hsaving, fun hlow => absurd (hgood.symm.trans hlow) (by decide)⟩
  case isFalse => exact ⟨kmode.trans hmode, ksaving.trans hsaving, fun _ => coreOn_coreDown _⟩

/-! ### S7 and DORMANT (R59, R61) -/

theorem frame_ld_ps (l : Ledger) (p : SaveUnit) (s : State) : Frame [.ld, .ps] [] s { s with ld := l, ps := p } :=
  (frame_ld l s).trans (frame_ps p _)

theorem frame_clearLedger (s : State) : Frame [.ld] [] s (clearLedger s) := frame_ld _ s

theorem frame_goDormant (s : State) : Frame [.ld, .gn, .tr, .ps]
    [Fld.PM_DOMAIN_LDG.addr, Fld.GN_STATUS_SEAL_KEY.addr, Fld.GN_KCV_SEAL.addr, Fld.GN_KEYGEN_CON.addr, Fld.PM_MODE_MODE.addr,
      Fld.PM_LAST_CAUSE.addr, Fld.PM_LAST_TH_TIME_HI.addr, Fld.PM_LAST_TL_TIME_LO.addr, Fld.TR_LOST_RING.addr] s (goDormant s) :=
  (((((frame_setF Fld.PM_DOMAIN_LDG 0 s).trans (frame_clearLedger _)).trans (frame_wipeGarnet _)).trans
    (frame_transition _ _ _ _)).trans (frame_ld_ps _ _ _)).mono (by decide) (by decide)

/-- The mode is DORMANT, PD_LDG off and the ledger gone. -/
theorem goDormant_shows (s : State) : mode (goDormant s) = modeDormant ∧ getF (goDormant s) Fld.PM_DOMAIN_LDG = 0 ∧
    (goDormant s).ld.words = [] ∧ (goDormant s).ld.tags = [] ∧ (goDormant s).ps.dormAt = some s.aon ∧
    flag (goDormant s) Fld.PM_MODE_SAVING = flag s Fld.PM_MODE_SAVING := by
  have hparts (t : State) (l : Ledger) (p : SaveUnit) (f : Field) : getF { t with ld := l, ps := p } f = getF t f :=
    getF_of_regs rfl f
  have hwiped (t : State) : Frame [.ld, .gn] [Fld.GN_STATUS_SEAL_KEY.addr, Fld.GN_KCV_SEAL.addr, Fld.GN_KEYGEN_CON.addr] t
      (wipeGarnet (clearLedger t)) := ((frame_clearLedger t).trans (frame_wipeGarnet _)).mono (by decide) (by decide)
  have hwords (t : State) : (transition modeDormant 0 0x06 (wipeGarnet (clearLedger t))).ld = (clearLedger t).ld :=
    ((frame_wipeGarnet _).trans (frame_transition _ _ _ _)).1 .ld (by decide)
  have haon (t : State) : (transition modeDormant 0 0x06 (wipeGarnet (clearLedger t))).aon = t.aon :=
    ((hwiped t).trans (frame_transition _ _ _ _)).1 .aon (by decide)
  refine ⟨?_, ?_, ?_, rfl, ?_, ?_⟩
  · rw [mode, goDormant, hparts]
    exact mode_transition (by decide) _ _ _
  · rw [goDormant, hparts, (frame_transition _ _ _ _).getF_eq (by decide), (hwiped _).getF_eq (by decide),
      getF_setF_same apart_modes.2.2, Nat.zero_mod]
  · exact congrArg Ledger.words (hwords (setF Fld.PM_DOMAIN_LDG 0 s))
  · exact congrArg some ((haon (setF Fld.PM_DOMAIN_LDG 0 s)).trans (by rw [setF_aon]))
  · rw [goDormant, flag_eq_of_getF (hparts _ _ _ Fld.PM_MODE_SAVING), saving_transition, (hwiped _).flag_eq (by decide),
      (frame_setF _ _ _).flag_eq (by decide)]

/-- HOLD as S7 enters it, before PM_DORM is looked at. -/
def holdEntered (s : State) : State :=
  let t := transition modeHold 0 (getF s Fld.PS_STATUS_CAUSE) (setStep 15 (setF Fld.PS_STATUS_SAVING 0
    (setF Fld.PS_TS7_US (usSince 24 s s.ps.s0) (setF Fld.PM_MODE_SAVING 0 (keepDeferred s)))))
  { t with
    pins := { t.pins with holdack := true }, tr := { t.tr with s7Time := some t.aon },
    ps := { t.ps with holdAt := some t.aon, dormAt := none }, rs := { t.rs with path := .idle } }

theorem enterHold_eq (s : State) : enterHold s =
    if getF s Fld.PM_DORM_DORMANT_AFTER = 0 then goDormant (holdEntered s) else holdEntered s := rfl

theorem holdEntered_shows (s : State) : mode (holdEntered s) = modeHold ∧ (holdEntered s).pins.holdack = true ∧
    flag (holdEntered s) Fld.PM_MODE_SAVING = false ∧ flag (holdEntered s) Fld.PS_STATUS_SAVING = false := by
  obtain ⟨⟨hsaving, -⟩, hstep, -⟩ := apart_modes
  have hparts (t : State) (p : Pins) (r : TraceUnit) (u : SaveUnit) (q : RestoreUnit) (f : Field) :
      getF { t with pins := p, tr := r, ps := u, rs := q } f = getF t f := getF_of_regs rfl f
  have htime (t : State) (v : Nat) : Frame [] [Fld.PS_TS7_US.addr, Fld.PS_STATUS_SAVING.addr] t
      (setStep 15 (setF Fld.PS_STATUS_SAVING 0 (setF Fld.PS_TS7_US v t))) :=
    (((frame_setF _ v t).trans (frame_setF _ 0 _)).trans (frame_setStep 15 _)).mono (by decide) (by decide)
  refine ⟨?_, rfl, ?_, ?_⟩
  · rw [mode, holdEntered, hparts]
    exact mode_transition (by decide) _ _ _
  · rw [holdEntered, flag_eq_of_getF (hparts _ _ _ _ _ _), saving_transition, (htime _ _).flag_eq (by decide),
      flag_setF_zero hsaving.1]
  · rw [holdEntered, flag_eq_of_getF (hparts _ _ _ _ _ _), (frame_transition _ _ _ _).flag_eq (by decide), setStep,
      flag_setF_of_apart hstep, flag_setF_zero hstep.1]

theorem apart_dorm : inClass .core Fld.PM_DORM_DORMANT_AFTER.addr = false ∧ inClass .mgt Fld.PM_DORM_DORMANT_AFTER.addr = false := by
  decide +kernel

theorem frame_endAuth (s : State) : Frame [.gn] [Fld.GN_STATUS_SESS_AUTH.addr] s (endAuth s) :=
  (((frame_gn _ s).trans (frame_gn _ _)).trans (frame_setF _ 0 _)).mono (by decide) (by decide)

theorem reg_sessionEnd_other {a : Nat} (ha : a ∉ [Fld.GN_STATUS_SESS_AUTH.addr, Fld.CN_SESS_HOLDER.addr, Fld.TR_LOST_RING.addr])
    (s : State) : reg (sessionEnd s) a = reg s a := by
  unfold sessionEnd
  split
  · rfl
  · extract_lets n _ con s1
    have h1 : reg s1 a = reg s a :=
      (reg_setReg_other (fun h => ha (by simp [h]))).trans ((frame_endAuth _).2 a (fun h => ha (by simp_all)))
    split
    · exact h1
    · exact ((frame_trace _ _ s1).2 a (fun h => ha (by simp_all))).trans h1

/-- PM_DORM stands through the power-down. -/
theorem reg_powerDown_dorm (s : State) :
    reg (powerDown s) Fld.PM_DORM_DORMANT_AFTER.addr = reg s Fld.PM_DORM_DORMANT_AFTER.addr := by
  obtain ⟨hcore, hmgt⟩ := apart_dorm
  have hdomains (ldg mgt core hio dio : Nat) (t : State) : Frame [] [Fld.PM_DOMAIN_LDG.addr] t (setDomains ldg mgt core hio dio t) :=
    (((((frame_setF _ dio t).trans (frame_setF _ hio _)).trans (frame_setF _ core _)).trans (frame_setF _ mgt _)).trans
      (frame_setF _ ldg _)).mono (by decide) (by decide)
  have hclocks (v w : Word) (t : State) : Frame [] [Fld.CK_STATUS_XOSC_RUN.addr, Fld.CK_HCKCNT_COUNT.addr] t
      (setReg Fld.CK_HCKCNT_COUNT.addr v (setReg Fld.CK_STATUS_XOSC_RUN.addr w t)) :=
    ((frame_setReg _ w t).trans (frame_setReg _ v _)).mono (by decide) (by decide)
  rw [powerDown, (hdomains _ _ _ _ _ _).2 _ (by decide), (frame_pins _ _).2 _ List.not_mem_nil, (hclocks _ _ _).2 _ (by decide),
    reg_loadClass_other hmgt, reg_mgtReset_of_kept hmgt (by decide) (by decide),
    reg_coreReset_of_kept hcore (by decide) (by decide), reg_sessionEnd_other (by decide)]

theorem frame_writeTags (s : State) : Frame [.ld] [] s (writeTags s) := Frame.foldl (fun t _ => frame_ld _ t) _ s

theorem getF_saveHold_dorm (s : State) : getF (powerDown (if getF s Fld.PM_DOMAIN_LDG = 1 then writeTags (sendFlit .bye s)
    else sendFlit .bye s)) Fld.PM_DORM_DORMANT_AFTER = getF s Fld.PM_DORM_DORMANT_AFTER := by
  have hsent : Frame [.tw, .ld] [] s (if getF s Fld.PM_DOMAIN_LDG = 1 then writeTags (sendFlit .bye s) else sendFlit .bye s) :=
    .ite (((frame_sendFlit _ s).trans (frame_writeTags _)).mono (by decide) (by decide))
      ((frame_sendFlit _ s).mono (by decide) (by decide))
  have hfield {t u : State} (h : reg t Fld.PM_DORM_DORMANT_AFTER.addr = reg u Fld.PM_DORM_DORMANT_AFTER.addr) :
      getF t Fld.PM_DORM_DORMANT_AFTER = getF u Fld.PM_DORM_DORMANT_AFTER := by rw [getF, getF, h]
  exact hfield ((reg_powerDown_dorm _).trans (hsent.2 _ List.not_mem_nil))

/-- S7 ends in HOLD, or with PM_DORM 0 in DORMANT at once, HOLDACK high and the save over. -/
theorem saveHold_shows (s : State) :
    mode (saveHold s) = (if getF s Fld.PM_DORM_DORMANT_AFTER = 0 then modeDormant else modeHold) ∧
    (saveHold s).pins.holdack = true ∧ flag (saveHold s) Fld.PM_MODE_SAVING = false ∧
    flag (saveHold s) Fld.PS_STATUS_SAVING = false := by
  have heq : saveHold s = enterHold (powerDown (if getF s Fld.PM_DOMAIN_LDG = 1 then writeTags (sendFlit .bye s)
      else sendFlit .bye s)) := rfl
  rw [heq, enterHold_eq, getF_saveHold_dorm]
  generalize powerDown (if getF s Fld.PM_DOMAIN_LDG = 1 then writeTags (sendFlit .bye s) else sendFlit .bye s) = u
  obtain ⟨hmode, hack, hsaving, hps⟩ := holdEntered_shows u
  by_cases hzero : getF s Fld.PM_DORM_DORMANT_AFTER = 0
  · rw [if_pos hzero, if_pos hzero]
    have hframe := frame_goDormant (holdEntered u)
    obtain ⟨kmode, -, -, -, -, ksaving⟩ := goDormant_shows (holdEntered u)
    exact ⟨kmode, (congrArg Pins.holdack (hframe.1 .pins (by decide))).trans hack, ksaving.trans hsaving,
      (hframe.flag_eq (by decide)).trans hps⟩
  · rw [if_neg hzero, if_neg hzero]
    exact ⟨hmode, hack, hsaving, hps⟩

end Sys2Proof.Machine

namespace Sys2Proof.Machine

/-! ### The rows of a save (R334 to R344, R61) -/

theorem exec_saveRows (s : State) (flips : List (Nat × BitVec 72)) (reads : List MarchRead) :
    exec .saveRecognised s = .next (if inSave s && saveStep s = 1 then saveS0 s else s) ∧
    exec (.quiesceEnd reads) s = .next (if inSave s && saveStep s = 2 then saveS2 (blockHost reads s)
      else if !inSave s && s.ps.entry = 2 then
        { blockHost reads s with ps := { (blockHost reads s).ps with entry := 3 } } else s) ∧
    exec .drainDone s = .next (if drained s && ((inSave s && saveStep s = 3) || (!inSave s && s.ps.entry = 3))
      then drainDone s else s) ∧
    exec (.saveCommitStart flips) s = .next (if inSave s && saveStep s = 5 && !s.sw.halted && flag s Fld.CK_STATUS_MCLK_LOCK
      then saveCommit flips s else s) ∧
    exec .stewardTakeoverTimeout s = .next (if inSave s && saveStep s = 5 then
      setStep 8 (setF Fld.PS_STATUS_UNRECORDED 1 (setF Fld.PS_STATUS_NO_STEWARD 1 (overrun 5 (clearTested s)))) else s) ∧
    exec (.commitLinesDone flips) s =
      .next (if inSave s && saveStep s = 6 && lagDone s then saveFinish flips s else s) ∧
    exec .sealDone s = .next (if inSave s && saveStep s = 8 then saveHold s else s) ∧
    exec .saveDeadlineOverrun s = .next (if inSave s then overrun (saveStep s - 1) s else s) ∧
    exec .dormantEntry s = .next (if mode s = modeHold && dormantDue s then goDormant s else s) :=
  ⟨rfl, rfl, rfl, rfl, rfl, rfl, rfl, rfl, rfl⟩

theorem drainDone_of_entry {s : State} (h : s.ps.entry = 3) :
    drainDone s = serviceEnter (selfRefresh (canaries (drain s))) := if_pos h

theorem drainDone_of_save {s : State} (h : s.ps.entry ≠ 3) : drainDone s =
    setStep 5 (setF Fld.PS_TS4_US (usSince 24 s s.ps.s0) (selfRefresh (canaries (drain s)))) := if_neg h

theorem overrun_of_raised {s : State} (h : flag s Fld.PS_STATUS_OVERRUN = true) (step : Nat) : overrun step s = s := if_pos h

theorem overrun_of_first {s : State} (h : flag s Fld.PS_STATUS_OVERRUN = false) (step : Nat) : overrun step s =
    raise 36 (step * 2 ^ 32 + usSince 32 s s.ps.s0) (setF Fld.PS_STATUS_OVERRUN 1 s) := if_neg (by simp [h])

theorem frame_overrun (step : Nat) (s : State) : Frame [.fc] [Fld.PS_STATUS_OVERRUN.addr] s (overrun step s) :=
  .ite (.refl _ _ s) (((frame_setF _ 1 s).trans (frame_raise _ _ _)).mono (by decide) (by decide))

theorem clearTested_of_none {s : State} (h : s.mt.clearDue = none) : clearTested s = s := by rw [clearTested, h]

theorem apart_unrecorded : (Fld.PS_STATUS_UNRECORDED.Apart Fld.PS_STATUS_STEP ∧ Fld.PS_STATUS_NO_STEWARD.Apart Fld.PS_STATUS_STEP) ∧
    Fld.PS_STATUS_NO_STEWARD.Apart Fld.PS_STATUS_UNRECORDED := by decide +kernel

/-- The save that no Steward took over: S7 next, unrecorded, the keep as it was unless a march's clears were owed (R339). -/
theorem takeover_shows (s : State) :
    let t := setStep 8 (setF Fld.PS_STATUS_UNRECORDED 1 (setF Fld.PS_STATUS_NO_STEWARD 1 (overrun 5 (clearTested s))))
    getF t Fld.PS_STATUS_STEP = 8 ∧ flag t Fld.PS_STATUS_UNRECORDED = true ∧ flag t Fld.PS_STATUS_NO_STEWARD = true ∧
      (s.mt.clearDue = none → t.kp = s.kp) := by
  obtain ⟨⟨hunrec, hlost⟩, hlostUnrec⟩ := apart_unrecorded
  refine ⟨getF_setStep (by decide) _, ?_, ?_, fun hnone => ?_⟩
  · rw [setStep, flag_setF_of_apart hunrec, flag_setF_one hunrec.1 (by decide)]
  · rw [setStep, flag_setF_of_apart hlost, flag_setF_of_apart hlostUnrec, flag_setF_one hlost.1 (by decide)]
  · rw [setStep, setF_kp, setF_kp, setF_kp, clearTested_of_none hnone]
    exact (frame_overrun 5 s).1 .kp (by decide)

theorem lagDone_iff (s : State) : lagDone s = true ↔ flag s Fld.TW_STATUS_REPL_RUN = false ∨
    flag s Fld.TW_STATUS_RESYNC_HELD = true ∨ flag s Fld.TW_STATUS_LAG_DRAINED = true := by simp [lagDone, or_assoc]

theorem getF_saveFinish_step (flips : List (Nat × BitVec 72)) (s : State) :
    getF (saveFinish flips s) Fld.PS_STATUS_STEP = 8 := getF_setStep (by decide) _

theorem dormantDue_eq (s : State) : dormantDue s = (decide (getF s Fld.PM_DORM_DORMANT_AFTER ≠ 0xFFFF)
    && s.ps.holdAt.any (fun h => decide (getF s Fld.PM_DORM_DORMANT_AFTER * ticksPerS ≤ ticksSince s.aon h))) := rfl

theorem dormantDue_of_over {s : State} {h : Time} (hnever : getF s Fld.PM_DORM_DORMANT_AFTER ≠ 0xFFFF) (hat : s.ps.holdAt = some h)
    (hover : getF s Fld.PM_DORM_DORMANT_AFTER * ticksPerS ≤ ticksSince s.aon h) : dormantDue s = true := by
  rw [dormantDue_eq, hat, Option.any_some, decide_eq_true hover, Bool.and_true]
  exact decide_eq_true hnever

theorem dormantDue_of_not {s : State} (h : getF s Fld.PM_DORM_DORMANT_AFTER = 0xFFFF ∨ s.ps.holdAt = none ∨
    (∃ h, s.ps.holdAt = some h ∧ ticksSince s.aon h < getF s Fld.PM_DORM_DORMANT_AFTER * ticksPerS)) : dormantDue s = false := by
  rw [dormantDue_eq]
  rcases h with h | h | ⟨h, hat, hearly⟩
  · rw [decide_eq_false (not_not_intro h), Bool.false_and]
  · rw [h, Option.any_none, Bool.and_false]
  · rw [hat, Option.any_some, decide_eq_false (Nat.not_le.mpr hearly), Bool.and_false]

/-- Settles O47: each step's operation shows what it names, and out of its step a row's guard fails. -/
theorem saveStepsFollowTheirOrder : Obligations.SaveStepsFollowTheirOrder := by
  intro s flips reads
  obtain ⟨hs0, hquiesce, hdrain, hcommit, htimeout, hlines, hseal, hoverrun, hdormant⟩ := exec_saveRows s flips reads
  rw [hs0, hquiesce, hdrain, hcommit, htimeout, hlines, hseal, hoverrun, hdormant]
  refine ⟨fun hsave => ⟨fun h1 => ⟨_, ?s0, saveS0_shows s⟩, fun h1 => ?notS0, fun h2 => ⟨?quiesce, getF_saveS2_step _⟩,
      fun h3 hd he => ?drain, fun h5 hr hl => ?commit, fun h => ?noCommit, fun h5 => ⟨_, ?takeover, takeover_shows s⟩,
      fun h5 => ?noTakeover, fun h6 hl => ⟨?written, getF_saveFinish_step flips s⟩, fun hr hh hl => ?lag, fun h8 => ?sealed,
      fun h8 => ?noSeal, fun h => ?raised, fun h => ?first⟩, fun hno => ?outside, fun h => ?busy, blockHost_shows reads s,
    serviceEnter_shows s, saveHold_shows s, fun h hmode hnever hat hover => ⟨goDormant s, ?dormant, ?shown⟩, fun h => ?noDormant⟩
  case s0 => rw [if_pos (by simp [hsave, saveStep, h1])]
  case notS0 => rw [if_neg (by simp [saveStep, h1])]
  case quiesce => rw [if_pos (by simp [hsave, saveStep, h2])]
  case drain => rw [if_pos (by simp [hsave, saveStep, h3, hd]), drainDone_of_save he]
  case commit => rw [if_pos (by simp [hsave, saveStep, h5, hr, hl])]
  case noCommit => rw [if_neg (by rcases h with h | h <;> simp [saveStep, h])]
  case takeover => rw [if_pos (by simp [hsave, saveStep, h5])]
  case noTakeover => rw [if_neg (by simp [saveStep, h5])]
  case written => rw [if_pos (by simp [hsave, saveStep, h6, (lagDone_iff s).mpr hl])]
  case lag =>
    have hlag : lagDone s = false := by simp [lagDone, hr, hh, hl]
    rw [if_neg (by simp [hlag])]
  case sealed => rw [if_pos (by simp [hsave, saveStep, h8])]
  case noSeal => rw [if_neg (by simp [saveStep, h8])]
  case raised => rw [if_pos hsave, overrun_of_raised h]
  case first =>
    rw [if_pos hsave, overrun_of_first h]
    rfl
  case outside =>
    simp only [hno, Bool.false_and, Bool.false_eq_true, if_false, Bool.not_false, Bool.true_and, Bool.false_or]
    refine ⟨trivial, trivial, trivial, trivial, trivial, trivial, fun he => ?_, fun he hd => ?_, fun he => ?_, fun he => ?_⟩
    · simp [he]
    · rw [if_pos (by simp [he, hd]), drainDone_of_entry he]
    · simp [he]
    · simp [he]
  case busy => rw [if_neg (by simp [h])]
  case dormant => rw [if_pos (by simp [hmode, dormantDue_of_over hnever hat hover])]
  case shown =>
    obtain ⟨kmode, kldg, kwords, ktags, kdorm, -⟩ := goDormant_shows s
    exact ⟨kmode, kldg, kwords, ktags, kdorm⟩
  case noDormant =>
    rcases h with h | h
    · rw [if_neg (by simp [h])]
    · rw [if_neg (by simp [dormantDue_of_not h])]

end Sys2Proof.Machine

namespace Sys2Proof.Machine

/-! ### Host cycles as the command path judges them (R97, R99 to R102, R106) -/

theorem exec_cmdAct (p : CaPins) (bg : BitVec 3) (bank : BitVec 2) (row : BitVec 17) (s : State) :
    exec (.cmdAct p bg bank row) s =
      .next (receive p false false true false (actEffect p bg.toNat bank.toNat row.toNat) s) := rfl

/-- Outside what the host is served, and in the park, a command that is no buffer control word is not heard. -/
theorem receive_of_dead {s : State} (h : hostLive s = false) (p : CaPins) (reserved single badMrw : Bool)
    (effect : State → State) : receive p false reserved single badMrw effect s = s := by
  have hdeaf : (!hostHeard s || (parked s && !false)) = true := by
    rcases Bool.and_eq_false_iff.mp h with hunheard | hpark
    · rw [hunheard]; rfl
    · rw [(Bool.not_eq_false' _).mp hpark]; exact Bool.or_true _
  rw [receive, if_pos hdeaf]

theorem hostHeard_of_live {s : State} (h : hostLive s = true) : hostHeard s = true := (Bool.and_eq_true_iff.mp h).1

theorem parked_of_live {s : State} (h : hostLive s = true) : parked s = false :=
  (Bool.not_eq_true' _).mp (Bool.and_eq_true_iff.mp h).2

theorem receive_of_unselected {p : CaPins} {s : State} (hlive : hostLive s = true) (hsel : selected p = [])
    (bcw reserved single badMrw : Bool) (effect : State → State) :
    receive p bcw reserved single badMrw effect s = slotDeselect s := by
  simp [receive, hostHeard_of_live hlive, parked_of_live hlive, hsel]

/-- An injected parity error fails the cycle, and is counted down (R423). -/
theorem receive_of_injected {p : CaPins} {s : State} (hlive : hostLive s = true) (hsel : selected p ≠ [])
    (hinj : getF s Fld.FC_INJ_CA_N ≠ 0) (bcw reserved single badMrw : Bool) (effect : State → State) :
    receive p bcw reserved single badMrw effect s =
      parityFail p (setF Fld.FC_INJ_CA_N (getF s Fld.FC_INJ_CA_N - 1) (probeEnds p (heard p s))) := by
  have hn := getF_probeEnds_heard p s Fld.FC_INJ_CA_N
  rw [heard] at hn ⊢
  simp only [receive, hostHeard_of_live hlive, parked_of_live hlive, List.isEmpty_eq_false_iff.mpr hsel, hn,
    Bool.not_true, Bool.false_and, Bool.or_self, Bool.false_eq_true, if_false, ne_eq, hinj, not_false_eq_true,
    decide_true, Bool.true_or, if_true]

theorem populated_of_regs {s t : State} (h : t.regs = s.regs) (r : Nat) : populated t r = populated s r := by
  rw [populated, populated, rankEn, rankEn, getF_of_regs h]

theorem grantedRanks_of_regs {s t : State} (h : t.regs = s.regs) : grantedRanks t = grantedRanks s := by
  rw [grantedRanks, grantedRanks, flag_eq_of_getF (getF_of_regs h _), getF_of_regs h]

/-- What a cycle is judged by stands in registers: neither the sample nor the end of a probe moves one. -/
theorem regs_probeEnds_heard (p : CaPins) (s : State) : (probeEnds p (heard p s)).regs = s.regs :=
  (probeEnds_regs_dl p _).1.trans (heard_keeps p s).1

/-! ### Table CA-5 in R106's order -/

section
variable {p : CaPins} {s : State}

theorem illCode_of_absent (h : ∃ r ∈ selected p, populated s r = false) (single badMrw : Bool) :
    illCode false single badMrw p s = some 2 := by
  have habsent : (selected p).any (fun r => !populated s r) = true := by simpa using h
  simp [illCode, habsent]

variable (hpop : ∀ r ∈ selected p, populated s r = true)
include hpop

theorem none_absent : (selected p).any (fun r => !populated s r) = false :=
  List.any_eq_false.mpr fun r hr => by simp [hpop r hr]

theorem illCode_of_granted (h : ∃ r ∈ selected p, (grantedRanks s).testBit r = true) (single badMrw : Bool) :
    illCode false single badMrw p s = some 5 := by
  have hgrant : (selected p).any (fun r => (grantedRanks s).testBit r) = true := by simpa using h
  simp [illCode, none_absent hpop, hgrant]

theorem illCode_of_probed (hfree : ∀ r ∈ selected p, (grantedRanks s).testBit r = false)
    (h : ∃ r ∈ selected p, s.ca.probing.testBit r = true) (single badMrw : Bool) :
    illCode false single badMrw p s = some 6 := by
  have hgrant : (selected p).any (fun r => (grantedRanks s).testBit r) = false :=
    List.any_eq_false.mpr fun r hr => by simp [hfree r hr]
  have hprobe : (selected p).any (fun r => s.ca.probing.testBit r) = true := by simpa using h
  simp [illCode, none_absent hpop, hgrant, hprobe]
end

/-- For free ranks only the form of the command is left to judge. -/
theorem illCode_of_free {p : CaPins} {s : State} (h : FreeRanks p s) (reserved single badMrw : Bool) :
    illCode reserved single badMrw p s =
      if reserved then some 4 else if single && 1 < (selected p).length then some 1 else if badMrw then some 3 else none := by
  have hgrant : (selected p).any (fun r => (grantedRanks s).testBit r) = false :=
    List.any_eq_false.mpr fun r hr => by simp [(h r hr).2.1]
  have hprobe : (selected p).any (fun r => s.ca.probing.testBit r) = false :=
    List.any_eq_false.mpr fun r hr => by simp [(h r hr).2.2]
  simp [illCode, none_absent (fun r hr => (h r hr).1), hgrant, hprobe]

theorem probeEnds_heard_of_free {p : CaPins} {s : State} (h : FreeRanks p s) : probeEnds p (heard p s) = heard p s :=
  probeEnds_of_free fun r hr => (h.heard r hr).2.2

/-- A received command meets only the rules about its own form. -/
theorem receive_of_received {p : CaPins} {s : State} (h : Received p s) (reserved single badMrw : Bool)
    (effect : State → State) : receive p false reserved single badMrw effect s =
      if reserved then illegal 4 p (heard p s)
      else if single && 1 < (selected p).length then illegal 1 p (heard p s)
      else if badMrw then illegal 3 p (heard p s) else effect (heard p s) := by
  obtain ⟨⟨hlive, hsel, hinj, hpar⟩, hfree, hblock⟩ := h
  have hgood : (flag s Fld.CA_PAR_MODE_EN && parityOdd p) = false := Bool.and_eq_false_iff.mpr hpar
  rw [receive_of_live hlive hsel hinj, probeEnds_heard_of_free hfree]
  simp only [hgood, hblock, illCode_of_free hfree.heard, Bool.false_and, Bool.false_eq_true, if_false]
  split_ifs <;> rfl

theorem receive_of_several {p : CaPins} {s : State} (h : Received p s) (hmany : 1 < (selected p).length)
    (badMrw : Bool) (effect : State → State) :
    receive p false false true badMrw effect s = illegal 1 p (heard p s) := by
  simp [receive_of_received h, hmany]

theorem receive_of_single {p : CaPins} {s : State} (h : Received p s) {single : Bool}
    (hone : single = false ∨ (selected p).length = 1) (effect : State → State) :
    receive p false false single false effect s = effect (heard p s) := by
  rw [receive_of_received h]
  rcases hone with hone | hone <;> simp [hone]

/-- A clean cycle outside a parity block is judged by Table CA-5 alone. -/
theorem receive_of_clean {p : CaPins} {s : State} (h : Clean p s) (hblock : flag s Fld.CA_STATUS_PAR_BLOCKED = false)
    (bcw reserved single badMrw : Bool) (effect : State → State) :
    receive p bcw reserved single badMrw effect s =
      (illCode reserved single badMrw p (probeEnds p (heard p s))).elim (effect (probeEnds p (heard p s)))
        (fun c => illegal c p (probeEnds p (heard p s))) := by
  obtain ⟨hlive, hsel, hinj, hpar⟩ := h
  have hgood : (flag s Fld.CA_PAR_MODE_EN && parityOdd p) = false := Bool.and_eq_false_iff.mpr hpar
  simp [receive_of_live hlive hsel hinj, hgood, hblock]

theorem receive_of_blocked {p : CaPins} {s : State} (h : Clean p s) (hblock : flag s Fld.CA_STATUS_PAR_BLOCKED = true)
    (reserved single badMrw : Bool) (effect : State → State) :
    receive p false reserved single badMrw effect s = slotDeselect (probeEnds p (heard p s)) := by
  obtain ⟨hlive, hsel, hinj, hpar⟩ := h
  have hgood : (flag s Fld.CA_PAR_MODE_EN && parityOdd p) = false := Bool.and_eq_false_iff.mpr hpar
  simp [receive_of_live hlive hsel hinj, hgood, hblock]

/-! ### A command for a rank whose probe runs (R122) -/

theorem lt_of_mem_selected {p : CaPins} {r : Nat} (h : r ∈ selected p) : r < 4 := by
  have hlist := (List.mem_filter.mp h).1
  simp only [rankList, List.mem_cons, List.not_mem_nil, or_false] at hlist
  omega

/-- The selected ranks whose probes were issued since the last tick. -/
def probedHit (p : CaPins) (s : State) : Nat := ofBits ((selected p).filter (fun r => s.ca.probing.testBit r))

theorem testBit_probedHit (p : CaPins) (s : State) (r : Nat) :
    (probedHit p s).testBit r = (decide (r ∈ selected p) && s.ca.probing.testBit r) := by
  simp [probedHit, testBit_ofBits, List.mem_filter]

theorem probedHit_lt (p : CaPins) (s : State) : probedHit p s < 2 ^ 4 := by
  refine Nat.lt_pow_two_of_testBit _ fun r hr => ?_
  have hout : r ∉ selected p := fun hmem => absurd (lt_of_mem_selected hmem) (Nat.not_lt.mpr hr)
  simp [testBit_probedHit, hout]

/-- The probes of the selected ranks are over. -/
def probesCut (p : CaPins) (s : State) : State :=
  drew { s with ca := { s.ca with probing := s.ca.probing &&& (15 - probedHit p s) } }

theorem probeEnds_of_probed {p : CaPins} {s : State} (h : ∃ r ∈ selected p, s.ca.probing.testBit r = true) :
    probeEnds p s = if Config.probeRuns s.draws then drew s else probesCut p s := by
  obtain ⟨r, hr, hprobe⟩ := h
  have hbit : (probedHit p s).testBit r = true := by simp [testBit_probedHit, hr, hprobe]
  have hhit : probedHit p s ≠ 0 := fun h0 => by simp [h0] at hbit
  exact if_neg hhit

/-- After that no selected rank is being probed. -/
theorem probing_probesCut {p : CaPins} {s : State} {r : Nat} (hr : r ∈ selected p) :
    (probesCut p s).ca.probing.testBit r = false := by
  have hlow : 15 - probedHit p s = 2 ^ 4 - (probedHit p s + 1) := by omega
  have hmask : (15 - probedHit p s).testBit r = (decide (r < 4) && !(probedHit p s).testBit r) := by
    rw [hlow, Nat.testBit_two_pow_sub_succ (probedHit_lt p s)]
  have hbits : (probesCut p s).ca.probing.testBit r =
      (s.ca.probing.testBit r && (15 - probedHit p s).testBit r) := Nat.testBit_and _ _ _
  rw [hbits, hmask, testBit_probedHit]
  cases s.ca.probing.testBit r <;> simp [hr]

theorem draws_heard (p : CaPins) (s : State) : (heard p s).draws = s.draws := by
  unfold heard trainAnswer
  split
  · rfl
  · split <;> rfl

/-- An ACT to ranks that are populated and not granted, one of them being probed: the probe still runs, or the rank is
free (log entry 45). -/
theorem receive_of_probed {p : CaPins} {s : State} (h : Clean p s) (hblock : flag s Fld.CA_STATUS_PAR_BLOCKED = false)
    (hpop : ∀ r ∈ selected p, populated s r = true) (hgrant : ∀ r ∈ selected p, (grantedRanks s).testBit r = false)
    (hprobe : ∃ r ∈ selected p, s.ca.probing.testBit r = true) (effect : State → State) :
    receive p false false true false effect s =
      if Config.probeRuns s.draws then illegal 6 p (probeEnds p (heard p s))
      else if (selected p).length = 1 then effect (probeEnds p (heard p s))
      else illegal 1 p (probeEnds p (heard p s)) := by
  have hregs := regs_probeEnds_heard p s
  have hpop' : ∀ r ∈ selected p, populated (probeEnds p (heard p s)) r = true :=
    fun r hr => (populated_of_regs hregs r).trans (hpop r hr)
  have hgrant' : ∀ r ∈ selected p, (grantedRanks (probeEnds p (heard p s))).testBit r = false :=
    fun r hr => by rw [grantedRanks_of_regs hregs, hgrant r hr]
  have hheard : ∃ r ∈ selected p, (heard p s).ca.probing.testBit r = true := by rwa [(heard_keeps p s).2.1]
  have hends := probeEnds_of_probed hheard
  rw [draws_heard] at hends
  rw [receive_of_clean h hblock]
  by_cases hruns : Config.probeRuns s.draws = true
  · have hstill : ∃ r ∈ selected p, (probeEnds p (heard p s)).ca.probing.testBit r = true := by
      rw [hends, if_pos hruns]
      exact hheard
    rw [illCode_of_probed hpop' hgrant' hstill, if_pos hruns]
    rfl
  · have hfree : FreeRanks p (probeEnds p (heard p s)) := fun r hr => by
      refine ⟨hpop' r hr, hgrant' r hr, ?_⟩
      rw [hends, if_neg hruns]
      exact probing_probesCut hr
    have hsome : (selected p).length ≠ 0 := fun h0 => h.2.1 (List.length_eq_zero_iff.mp h0)
    rw [illCode_of_free hfree, if_neg hruns]
    by_cases hone : (selected p).length = 1
    · simp [hone]
    · have hmany : 1 < (selected p).length := by omega
      simp [hone, hmany]

/-- Hearing a cycle changes the trial on the C/A receivers and the answer of a training step. -/
theorem frame_heard (p : CaPins) (s : State) : Frame [.cb, .dl] [] s (heard p s) := by
  have hsample : Frame [.cb, .dl] [] s (caSample p s) := (frame_cb _ s).mono (by decide) (by decide)
  have hanswer (d : DataLanes) (t : State) : Frame [.cb, .dl] [] t { t with dl := d } :=
    (frame_dl d t).mono (by decide) (by decide)
  exact hsample.next (.ite (hanswer _ _) (.ite (hanswer _ _) (.refl _ _ _)))

/-- Whether a probe has ended is drawn, and noted in the command path. -/
theorem frame_probeEnds (p : CaPins) (s : State) : Frame [.ca, .draws] [] s (probeEnds p s) := by
  have hdrew (c : CmdPath) : Frame [.ca, .draws] [] s (drew { s with ca := c }) := by
    refine ⟨fun q hq => ?_, fun _ _ => rfl⟩
    cases q with
    | ca => exact absurd (by decide) hq
    | draws => exact absurd (by decide) hq
    | _ => rfl
  exact .ite (.refl _ _ s) (.ite (hdrew s.ca) (hdrew _))

theorem frame_probeEnds_heard (p : CaPins) (s : State) :
    Frame [.ca, .cb, .dl, .draws] [] s (probeEnds p (heard p s)) :=
  ((frame_heard p s).trans (frame_probeEnds p _)).mono (by decide) (by decide)

/-! ### Illegal commands and parity failures (R100, R101, R106) -/

theorem illegal_ca_fc (c : Nat) (p : CaPins) (s : State) :
    (illegal c p s).ca = (slotDeselect s).ca ∧
      (illegal c p s).fc.events = addEvents s.fc.events 1 1 (BitVec.ofNat 64 (synFs1 c p)) := by
  unfold illegal
  extract_lets s1
  have hca : s1.ca = (slotDeselect s).ca := by simp [s1, raise]
  have hfc : s1.fc.events = addEvents s.fc.events 1 1 (BitVec.ofNat 64 (synFs1 c p)) := by
    simp [s1, raise, slotDeselect]
  split
  · exact ⟨hca, hfc⟩
  · simp [hca, hfc]

/-- A pulse of HALERT_N is counted in the command path, which it leaves otherwise. -/
theorem halertPulse_ca (s : State) : (halertPulse s).ca = { s.ca with alerts := sat 255 (s.ca.alerts + 1) } := by
  rw [halertPulse, incF_ca]

/-- An event for HALERT_N changes ALERTS alone of the command path. -/
theorem halert_ca (cause : Nat) (s : State) : ∃ n, (halert cause s).ca = { s.ca with alerts := n } := by
  unfold halert
  split
  · exact ⟨_, rfl⟩
  · split
    · exact ⟨_, halertPulse_ca s⟩
    · dsimp only
      split
      · exact ⟨_, incF_ca⟩
      · split
        · exact ⟨_, incF_ca⟩
        · exact ⟨_, halertPulse_ca _⟩
      · exact ⟨_, halertPulse_ca _⟩

/-- A parity failure counted, raised as FS 0 and passed to HALERT_N. -/
def parityNoted (p : CaPins) (s : State) : State :=
  halert 0 (raise 0 (synFs0 p) (incF Fld.CA_PCNT_COUNT (slotDeselect s)))

/-- The same logged, where the log was free. -/
def parityLogged (p : CaPins) (s : State) : State :=
  if flag (parityNoted p s) Fld.CA_PLOG0_VALID then parityNoted p s
  else setReg Fld.CA_PLOG1_HCS_N.addr (BitVec.ofNat 32 p.hcsN.toNat)
    (setReg Fld.CA_PLOG0_VALID.addr (BitVec.ofNat 32 (2 ^ 31 + plogBits p)) (parityNoted p s))

theorem parityFail_eq (p : CaPins) (s : State) : parityFail p s =
    if flag (parityLogged p s) Fld.CA_PAR_MODE_MODE then parityLogged p s
    else setF Fld.CA_STATUS_PAR_BLOCKED 1 (parityLogged p s) := rfl

theorem frame_parityNoted (p : CaPins) (s : State) : Frame [.draws, .pins, .ca, .fc]
    [Fld.CA_PCNT_COUNT.addr, Fld.CA_ALERT_PULSES.addr] s (parityNoted p s) := by
  have hslot : Frame [.ca] [] s (slotDeselect s) := frame_ca _ s
  exact (((hslot.trans (frame_incF Fld.CA_PCNT_COUNT _)).trans (frame_raise 0 (synFs0 p) _)).trans
    (frame_halert 0 _)).mono (by decide) (by decide)

theorem frame_parityLogged (p : CaPins) (s : State) : Frame []
    [Fld.CA_PLOG0_VALID.addr, Fld.CA_PLOG1_HCS_N.addr] (parityNoted p s) (parityLogged p s) :=
  .ite (.refl _ _ _) ((frame_setReg Fld.CA_PLOG0_VALID.addr _ _).trans (frame_setReg Fld.CA_PLOG1_HCS_N.addr _ _))

theorem frame_parityFail (p : CaPins) (s : State) : Frame [] [Fld.CA_STATUS_PAR_BLOCKED.addr] (parityLogged p s)
    (parityFail p s) := by
  rw [parityFail_eq]
  exact .ite (.refl _ _ _) (frame_setF _ _ _)

/-- From the note on a failure touches no part of the state but registers of its own. -/
theorem frame_parityNoted_fail (p : CaPins) (s : State) : Frame []
    [Fld.CA_PLOG0_VALID.addr, Fld.CA_PLOG1_HCS_N.addr, Fld.CA_STATUS_PAR_BLOCKED.addr] (parityNoted p s)
    (parityFail p s) := (frame_parityLogged p s).trans (frame_parityFail p s)

theorem parityFail_slot_rows (p : CaPins) (s : State) :
    (parityFail p s).ca.slot = .deselect ∧ (parityFail p s).ca.rows = s.ca.rows := by
  obtain ⟨n, hca⟩ := halert_ca 0 (raise 0 (synFs0 p) (incF Fld.CA_PCNT_COUNT (slotDeselect s)))
  have hcarried : (parityFail p s).ca = (parityNoted p s).ca := (frame_parityNoted_fail p s).1 .ca (by decide)
  rw [hcarried, parityNoted, hca]
  simp [raise, slotDeselect]

theorem parityFail_events (p : CaPins) (s : State) :
    (parityFail p s).fc.events = addEvents s.fc.events 0 1 (BitVec.ofNat 64 (synFs0 p)) := by
  have hcarried : (parityFail p s).fc = (parityNoted p s).fc := (frame_parityNoted_fail p s).1 .fc (by decide)
  rw [hcarried, parityNoted, (frame_halert 0 _).1 .fc (by decide)]
  simp [raise, slotDeselect]

theorem pcnt_parityFail (p : CaPins) (s : State) :
    getF (parityFail p s) Fld.CA_PCNT_COUNT = sat 65535 (getF s Fld.CA_PCNT_COUNT + 1) := by
  rw [(frame_parityNoted_fail p s).getF_eq (by decide), parityNoted, (frame_halert 0 _).getF_eq (by decide), getF_raise,
    getF_incF_same (by decide)]
  rfl

theorem flag_parityNoted {f : Field} (hf : f.addr ∉ [Fld.CA_PCNT_COUNT.addr, Fld.CA_ALERT_PULSES.addr]) (p : CaPins)
    (s : State) : flag (parityNoted p s) f = flag s f := (frame_parityNoted p s).flag_eq hf

/-- A full log is kept (R100). -/
theorem plog0_parityFail_of_full {s : State} (h : flag s Fld.CA_PLOG0_VALID = true) (p : CaPins) :
    reg (parityFail p s) Fld.CA_PLOG0_VALID.addr = reg s Fld.CA_PLOG0_VALID.addr := by
  have hfull : flag (parityNoted p s) Fld.CA_PLOG0_VALID = true := (flag_parityNoted (by decide) p s).trans h
  rw [(frame_parityFail p s).2 _ (by decide), parityLogged, if_pos hfull, (frame_parityNoted p s).2 _ (by decide)]

theorem plogBits_lt (p : CaPins) : plogBits p < 2 ^ 31 := by
  have h1 := p.hca1.isLt
  have h2 : hca2Of p < 2 ^ 14 := by
    unfold hca2Of
    split
    · exact p.hca2.isLt
    · decide
  have hbit (b : Bool) : b2n b ≤ 1 := by cases b <;> decide
  have htwo := hbit p.two
  have hpar2 := hbit (p.two && p.hpar2)
  have hpar1 := hbit p.hpar1
  unfold plogBits
  omega

/-- A free log takes the failure, and is valid from then on. -/
theorem plog0_parityFail_of_free {s : State} (h : flag s Fld.CA_PLOG0_VALID = false) (p : CaPins) :
    flag (parityFail p s) Fld.CA_PLOG0_VALID = true := by
  have hfree : ¬flag (parityNoted p s) Fld.CA_PLOG0_VALID = true := by rw [flag_parityNoted (by decide), h]; decide
  have hlt := plogBits_lt p
  have hbit : natBits (BitVec.ofNat 32 (2 ^ 31 + plogBits p)).toNat Fld.CA_PLOG0_VALID.hi Fld.CA_PLOG0_VALID.lo = 1 := by
    simp only [Fld.CA_PLOG0_VALID, natBits, BitVec.toNat_ofNat, Nat.shiftRight_eq_div_pow]
    omega
  rw [(frame_parityFail p s).flag_eq (by decide), parityLogged, if_neg hfree,
    (frame_setReg Fld.CA_PLOG1_HCS_N.addr _ _).flag_eq (by decide), flag, getF_setReg_same (by decide), hbit]
  rfl

theorem mode_parityLogged (p : CaPins) (s : State) :
    flag (parityLogged p s) Fld.CA_PAR_MODE_MODE = flag s Fld.CA_PAR_MODE_MODE :=
  ((frame_parityLogged p s).flag_eq (by decide)).trans (flag_parityNoted (by decide) p s)

theorem blocked_parityFail (p : CaPins) {s : State} (h : flag s Fld.CA_PAR_MODE_MODE = false) :
    flag (parityFail p s) Fld.CA_STATUS_PAR_BLOCKED = true := by
  rw [parityFail_eq, mode_parityLogged, h, if_neg Bool.false_ne_true, flag_setF_same (by decide)]
  rfl

/-- With PAR_MODE.MODE at 1 a failure neither starts nor ends a block (R101). -/
theorem blocked_parityFail_of_mode (p : CaPins) {s : State} (h : flag s Fld.CA_PAR_MODE_MODE = true) :
    flag (parityFail p s) Fld.CA_STATUS_PAR_BLOCKED = flag s Fld.CA_STATUS_PAR_BLOCKED := by
  rw [parityFail_eq, mode_parityLogged, h, if_pos rfl, (frame_parityLogged p s).flag_eq (by decide),
    flag_parityNoted (by decide)]

/-- Settles O14: the reception of an ACT case by case in the order in which it is judged, then what an illegal command
and a parity failure leave behind. -/
theorem hostCommandsAreJudgedInOrder : Obligations.HostCommandsAreJudgedInOrder := by
  intro s p bg bank row h
  have hregs : h.regs = s.regs := regs_probeEnds_heard p s
  simp only [exec_cmdAct, Host.Outcome.next.injEq]
  obtain ⟨hslot, hrows⟩ := parityFail_slot_rows p s
  refine ⟨fun hdead => receive_of_dead hdead p _ _ _ _, fun hlive hsel => receive_of_unselected hlive hsel _ _ _ _ _,
    fun hlive hsel hinj hen hodd => receive_of_parity hlive hsel hinj hen hodd _ _ _ _ _,
    fun hlive hsel hinj => receive_of_injected hlive hsel hinj _ _ _ _ _,
    fun hclean hblock => receive_of_blocked hclean hblock _ _ _ _, ?absent, ?granted,
    fun hclean hblock hpop hgrant hprobe => receive_of_probed hclean hblock hpop hgrant hprobe _, ?received,
    frame_probeEnds_heard p s, ?illegal, hslot, hrows, pcnt_parityFail p s, parityFail_events p s,
    fun hfull => plog0_parityFail_of_full hfull p, fun hfree => plog0_parityFail_of_free hfree p,
    blocked_parityFail p, blocked_parityFail_of_mode p⟩
  case absent =>
    rintro hclean hblock ⟨r, hr, habsent⟩
    have hill := illCode_of_absent (p := p) (s := h) ⟨r, hr, (populated_of_regs hregs r).trans habsent⟩ true false
    rw [receive_of_clean hclean hblock, hill]
    rfl
  case granted =>
    rintro hclean hblock hpop ⟨r, hr, hgrant⟩
    have hill := illCode_of_granted (p := p) (s := h) (fun q hq => (populated_of_regs hregs q).trans (hpop q hq))
      ⟨r, hr, by rwa [grantedRanks_of_regs hregs]⟩ true false
    rw [receive_of_clean hclean hblock, hill]
    rfl
  case received =>
    intro hrec
    have hends : h = heard p s := probeEnds_heard_of_free hrec.2.1
    exact ⟨hends, fun hmany => by rw [receive_of_several hrec hmany, hends]⟩
  case illegal =>
    intro c
    obtain ⟨hca, hfc⟩ := illegal_ca_fc c p s
    exact ⟨congrArg CmdPath.slot hca, (congrArg CmdPath.rows hca).trans rfl, hfc⟩

end Sys2Proof.Machine

namespace Sys2Proof.Machine

/-! ### Rows that host commands open and close (R98, R114) -/

section
variable {p : CaPins} {s : State} (h : Received p s)
include h

theorem exec_cmdAct_of_single (hone : (selected p).length = 1) (bg : BitVec 3) (bank : BitVec 2) (row : BitVec 17) :
    exec (.cmdAct p bg bank row) s = .next (actEffect p bg.toNat bank.toNat row.toNat (heard p s)) :=
  congrArg Host.Outcome.next (receive_of_single h (.inr hone) _)

theorem exec_cmdPre_of_received {kind : PreKind} (hone : kind ≠ .pb ∨ (selected p).length = 1) (bg : BitVec 3)
    (bank : BitVec 2) :
    exec (.cmdPre p kind bg bank) s = .next (preEffect p kind bg.toNat bank.toNat (heard p s)) :=
  congrArg Host.Outcome.next (receive_of_single h (hone.imp_left (fun hk => decide_eq_false hk)) _)

theorem exec_cmdRefab_of_received (hf df : Bool) (rf : BitVec 4) :
    exec (.cmdRefab p hf df rf) s = .next (refEffect p hf df rf.toNat (heard p s)) :=
  congrArg Host.Outcome.next (receive_of_single h (.inl rfl) _)

theorem exec_cmdSre_of_received : exec (.cmdSre p) s = .next (sreEffect p (heard p s)) :=
  congrArg Host.Outcome.next (receive_of_single h (.inl rfl) _)

theorem exec_cmdOther_of_received (srx : Bool) :
    exec (.cmdOtherForwarded p false srx) s = .next (otherEffect p srx (heard p s)) :=
  congrArg Host.Outcome.next (receive_of_single h (.inl rfl) _)

theorem exec_cmdOther_of_reserved (srx : Bool) :
    exec (.cmdOtherForwarded p true srx) s = .next (illegal 4 p (heard p s)) := by
  rw [exec, execCmdOtherForwarded, receive_of_received h]
  rfl
end

/-- The copy of a half moves with the command where the half is used and the command is for it, or QUIET is 0 (R103). -/
theorem forward_copies (p : CaPins) (s : State) :
    (forward p s).ca.dcaA =
      (if halfUsed s 0 && (onHalf p 0 || !flag s Fld.CA_CFG_QUIET) then lastCycle p else s.ca.dcaA) ∧
    (forward p s).ca.dcaB =
      (if halfUsed s 1 && (onHalf p 1 || !flag s Fld.CA_CFG_QUIET) then lastCycle p else s.ca.dcaB) := ⟨rfl, rfl⟩

theorem frame_forward (p : CaPins) (s : State) : Frame [.ca] [] s (forward p s) := frame_ca _ s

/-- Settles O15: each command by its effect on the cycle as heard, a forwarded one by the copies that move. -/
theorem rowCommandsAreForwardedAndTracked : Obligations.RowCommandsAreForwardedAndTracked := by
  intro s p bg bank row kind hf df rf srx hrec h
  obtain ⟨hcopyA, hcopyB⟩ := forward_copies p s
  refine ⟨fun hone => exec_cmdAct_of_single hrec hone bg bank row, fun hone => exec_cmdPre_of_received hrec hone bg bank,
    exec_cmdRefab_of_received hrec hf df rf, exec_cmdSre_of_received hrec, exec_cmdOther_of_received hrec false,
    exec_cmdOther_of_received hrec true, exec_cmdOther_of_reserved hrec srx, rfl, rfl, ?_, ?_, ?_, ?_, frame_forward p s⟩
  · exact fun hused hon => by simp [hcopyA, hused, hon]
  · exact fun hused hon => by simp [hcopyB, hused, hon]
  · rintro (hidle | ⟨hoff, hquiet⟩)
    · simp [hcopyA, hidle]
    · simp [hcopyA, hoff, hquiet]
  · rintro (hidle | ⟨hoff, hquiet⟩)
    · simp [hcopyB, hidle]
    · simp [hcopyB, hoff, hquiet]

end Sys2Proof.Machine

namespace Sys2Proof.Machine

/-! ### Boundaries leave the command path alone (R196, R469, R568) -/

section
variable {s : State}

@[simp] theorem completeTokens_ca {what : Nat} {result : String} : (completeTokens what result s).ca = s.ca :=
  (consoleFrame_completeTokens what result s).1 .ca (by decide)

@[simp] theorem settleEngines_ca : (settleEngines s).ca = s.ca := (consoleFrame_settleEngines s).1 .ca (by decide)

@[simp] theorem pauseHost_ca {n : Nat} : (pauseHost n s).ca = s.ca := (frame_endHost n _).1 .ca (by decide)

@[simp] theorem holdHost_ca {n : Nat} : (holdHost n s).ca = s.ca := pauseHost_ca

@[simp] theorem dropGap_ca {r : Nat} : (dropGap r s).ca = s.ca := (frame_dropGap r s).1 .ca (by decide)

@[simp] theorem gapPause_ca : (gapPause s).ca = s.ca := (frame_gapPause s).1 .ca (by decide)

@[simp] theorem dropSweep_ca : (dropSweep s).ca = s.ca := by
  rw [dropSweep]
  split
  · rfl
  · simp

@[simp] theorem checkSweep_ca : (checkSweep s).ca = s.ca := by
  rw [checkSweep]
  split
  · rfl
  · split
    · rfl
    · exact dropSweep_ca

@[simp] theorem applyPend_ca {p : Nat → Bool} : (applyPend p s).ca = s.ca :=
  foldl_keeps State.ca (fun _ _ _ => setReg_ca) s

@[simp] theorem trimCommitted_ca {a : Nat} {m : Word} : (trimCommitted a m s).ca = s.ca := by
  unfold trimCommitted
  split
  · exact pauseHost_ca
  · split
    · exact pauseHost_ca
    · split
      · dsimp only
        rw [apply_ite State.ca, dropGap_ca, ite_self]
        split
        · rw [apply_ite State.ca, dropSweep_ca, ite_self, apply_ite State.ca, setF_ca, ite_self]
        · rw [apply_ite State.ca, setF_ca, ite_self]
      · rfl

@[simp] theorem trimBoundary_ca {p : Nat → Bool} : (trimBoundary p s).ca = s.ca := by
  unfold trimBoundary
  extract_lets q due moved s1 s2
  have h2 : s2.ca = s1.ca := foldl_keeps State.ca (fun _ _ _ => trimCommitted_ca) s1
  simp [apply_ite State.ca, h2, s1]

@[simp] theorem settleFresh_ca {p : Nat → Bool} : (settleFresh p s).ca = s.ca := by
  refine foldl_keeps State.ca (fun k _ t => ?_) s
  split <;> rfl

@[simp] theorem sweepBoundary_ca {r : Nat} : (sweepBoundary r s).ca = s.ca := by
  unfold sweepBoundary
  split
  · rfl
  · split
    · rfl
    · split
      · simp
      · split
        · exact dropSweep_ca
        · rfl

@[simp] theorem gapBoundary_ca {r : Nat} : (gapBoundary r s).ca = s.ca := by
  simp [gapBoundary, apply_ite State.ca]

@[simp] theorem rankBoundary_ca {r : Nat} : (rankBoundary r s).ca = s.ca := by simp [rankBoundary]

@[simp] theorem hostPauses_ca {idle : Bool} : (hostPauses idle s).ca = s.ca := by
  refine (foldl_keeps State.ca (fun n _ t => ?_) _).trans rfl
  rw [apply_ite State.ca, holdHost_ca, ite_self]

@[simp] theorem hostBoundary_ca : (hostBoundary s).ca = s.ca := by simp [hostBoundary]

@[simp] theorem commonBoundary_ca : (commonBoundary s).ca = s.ca := trimBoundary_ca

@[simp] theorem guardStatus_ca : (guardStatus s).ca = s.ca := (frame_guardStatus s).1 .ca (by decide)

@[simp] theorem degrade_ca {d : Nat} : (degrade d s).ca = s.ca := by
  rw [degrade, apply_ite State.ca, transition_ca, ite_self]

@[simp] theorem eraseNow_ca {r d cause : Nat} : (eraseNow r d cause s).ca = s.ca := by
  rw [eraseNow_eq]
  split <;> rfl

@[simp] theorem takeFail_ca {p : LanePend → Bool} : (takeFail p s).ca = s.ca := by
  unfold takeFail
  split <;> rfl

@[simp] theorem erasureEffect_ca {r : Nat} : (erasureEffect r s).ca = s.ca := by
  unfold erasureEffect
  split
  · rfl
  · simp

@[simp] theorem secondNow_ca {r cause : Nat} : (secondNow r cause s).ca = s.ca := rfl

@[simp] theorem secondEffect_ca {r : Nat} : (secondEffect r s).ca = s.ca := by
  unfold secondEffect
  split
  · rfl
  · split
    · simp
    · rfl

@[simp] theorem readmitNow_ca {r : Nat} : (readmitNow r s).ca = s.ca := by
  have hcleared : (readmitCleared r s).ca = s.ca := by
    rw [readmitCleared, foldl_keeps State.ca fun _ _ _ => setF_ca, setF_ca, setF_ca, setReg_ca]
  rw [readmitNow_eq, hcleared]

@[simp] theorem readmitEffect_ca {r : Nat} : (readmitEffect r s).ca = s.ca := by
  by_cases h : r ∈ s.lg.readmit
  · rw [(frame_readmitEffect h).1 .ca (by decide), readmitNow_ca]
  · rw [readmitEffect_of_none h]

@[simp] theorem guardRank_ca {r : Nat} : (guardRank r s).ca = s.ca := by simp [guardRank, apply_ite State.ca]

@[simp] theorem boundaryRank_ca {r : Nat} : (boundaryRank r s).ca = s.ca := by simp [boundaryRank]

@[simp] theorem hctSwapped_ca : (hctSwapped s).ca = s.ca := by
  have hunload (t : State) : (hctUnloadNow t).ca = t.ca := by rw [hctUnloadNow, apply_ite State.ca]; exact ite_self _
  have hload (t : State) : (hctLoadNow t).ca = t.ca := by
    unfold hctLoadNow
    split
    · simp
    · rfl
  rw [hctSwapped, hload, hunload]

@[simp] theorem guardBoundary_ca : (guardBoundary s).ca = s.ca :=
  checkSweep_ca.trans (setB_ca.trans hctSwapped_ca)

@[simp] theorem clShort_ca : (clShort s).ca = s.ca := by simp [clShort, apply_ite State.ca]

@[simp] theorem aperBoundary_ca : (aperBoundary s).ca = s.ca := by simp [aperBoundary, apply_ite State.ca, apstat_ca]

@[simp] theorem commitSettle_ca : (commitSettle s).ca = s.ca := by simp [commitSettle, apply_ite State.ca]

@[simp] theorem everyBoundary_ca : (everyBoundary s).ca = s.ca := by simp [everyBoundary]
end

/-! ### Tracked rows (R114) -/

theorem openRow_of_rows {s t : State} (h : t.ca.rows = s.ca.rows) (r g b : Nat) : openRow t r g b = openRow s r g b := by
  rw [openRow, openRow, h]

theorem openRow_of_ca {s t : State} (h : t.ca = s.ca) (r g b : Nat) : openRow t r g b = openRow s r g b :=
  openRow_of_rows (congrArg CmdPath.rows h) r g b

theorem openRow_apstat (s : State) (r g b : Nat) : openRow (apstat s) r g b = openRow s r g b :=
  openRow_of_ca (apstat_ca s) r g b

/-- A bank whose key is dropped has no open row. -/
theorem openRow_trackClosed_of_hit {q : Nat → Bool} {r g b : Nat} (h : q (bankKey r g b) = true) (s : State) :
    openRow (trackClosed q s) r g b = none := by
  have hread : smGet (zeroDefault 18) (trackClosed q s).ca.rows (bankKey r g b) = 0 := by
    rw [trackClosed, smGet_smDrop, if_pos h]
    rfl
  rw [openRow, hread]
  rfl

theorem openRow_trackClosed_of_kept {q : Nat → Bool} {r g b : Nat} (h : q (bankKey r g b) = false) (s : State) :
    openRow (trackClosed q s) r g b = openRow s r g b := by
  rw [openRow, trackClosed, smGet_smDrop_of_kept h, openRow]

theorem openRow_trackOpen_same (r g b : Nat) (row : BitVec 17) (s : State) :
    openRow (trackOpen r g b row.toNat s) r g b = some row.toNat := by
  have hrow := row.isLt
  have hread : smGet (zeroDefault 18) (trackOpen r g b row.toNat s).ca.rows (bankKey r g b) =
      BitVec.ofNat 18 (2 ^ 17 + row.toNat) := smGet_smSet_same _ _ _
  have hval : (BitVec.ofNat 18 (2 ^ 17 + row.toNat)).toNat = 2 ^ 17 + row.toNat := by
    rw [BitVec.toNat_ofNat]
    omega
  have hopen : (BitVec.ofNat 18 (2 ^ 17 + row.toNat)).getLsbD 17 = true := by
    rw [← BitVec.testBit_toNat, hval, Nat.testBit_two_pow_add_eq, Nat.testBit_lt_two_pow hrow]
    rfl
  rw [openRow, hread, if_pos hopen, hval, Nat.add_mod_left, Nat.mod_eq_of_lt hrow]

theorem openRow_trackOpen_other {r g b r' g' b' : Nat} (h : bankKey r g b ≠ bankKey r' g' b') (row : Nat) (s : State) :
    openRow (trackOpen r' g' b' row s) r g b = openRow s r g b := by
  rw [openRow, trackOpen, smGet_smSet_other _ _ h, openRow]

theorem bankKey_div (r : Nat) {g b : Nat} (hg : g < 8) (hb : b < 4) : bankKey r g b / 32 = r := by
  unfold bankKey
  omega

theorem bankKey_mod (r : Nat) {g b : Nat} (hg : g < 8) (hb : b < 4) : bankKey r g b % 32 = g * 4 + b := by
  unfold bankKey
  omega

/-- Banks in range have keys of their own. -/
theorem bankKey_inj {r g b r' g' b' : Nat} (hg : g < 8) (hb : b < 4) (hg' : g' < 8) (hb' : b' < 4)
    (h : bankKey r g b = bankKey r' g' b') : (r, g, b) = (r', g', b') := by
  unfold bankKey at h
  simp only [Prod.mk.injEq]
  omega

/-- A command that closes every rank of a list, whatever else it does to each, leaves no bank of them open. -/
theorem openRow_foldl_closed {f : State → Nat → State} (hf : ∀ t q, (f t q).ca.rows = (closeRank q t).ca.rows)
    {r g b : Nat} (hg : g < 8) (hb : b < 4) {l : List Nat} {s : State} (h : r ∈ l ∨ openRow s r g b = none) :
    openRow (l.foldl f s) r g b = none := by
  induction l generalizing s with
  | nil => exact h.resolve_left List.not_mem_nil
  | cons q l ih =>
    refine ih ?_
    rw [openRow_of_rows (hf s q)]
    by_cases hq : r = q
    · exact .inr (openRow_trackClosed_of_hit (by simpa [bankKey_div r hg hb] using hq) s)
    · refine h.imp (fun hmem => (List.mem_cons.mp hmem).resolve_left hq) fun hnone => ?_
      exact (openRow_trackClosed_of_kept (by simpa [bankKey_div r hg hb] using hq) s).trans hnone

theorem openRow_closeRanks {r g b : Nat} (hg : g < 8) (hb : b < 4) {l : List Nat} (hr : r ∈ l) (s : State) :
    openRow (l.foldl (fun t q => closeRank q t) s) r g b = none :=
  openRow_foldl_closed (fun _ _ => rfl) hg hb (.inl hr)

/-- Of the tracked rows a REFab to a rank closes those of the rank; its boundary leaves them. -/
theorem rows_refRank (free : Bool) (r : Nat) (s : State) : (refRank free r s).ca.rows = (closeRank r s).ca.rows := by
  rw [refRank]
  split
  · rw [boundaryRank_ca]; rfl
  · rfl

theorem rows_countProbe (r : Nat) (s : State) : (countProbe r s).ca.rows = s.ca.rows := by
  rw [countProbe]
  split
  · rfl
  · dsimp only
    split <;> rfl

/-- The boundaries of a REFab leave the rows as its ranks left them. -/
theorem openRow_refEffect {p : CaPins} {r g b : Nat} (hg : g < 8) (hb : b < 4) (hr : r ∈ selected p) (hf df : Bool)
    (rf : Nat) (s : State) : openRow (refEffect p hf df rf s) r g b = none := by
  unfold refEffect
  extract_lets sel s1 s2 s3 any
  have h1 : openRow s1 r g b = none :=
    openRow_foldl_closed (fun t q => (rows_countProbe q _).trans (rows_refRank (rf.testBit q) q t)) hg hb (.inl hr)
  have h2 : s2.ca = s1.ca := by simp only [s2, apply_ite State.ca, hostBoundary_ca, ite_self]
  have h3 : s3.ca = s2.ca := by simp only [s3, apply_ite State.ca, commonBoundary_ca, ite_self]
  have hlast : (if any then everyBoundary s3 else s3).ca = s1.ca := by
    rw [apply_ite State.ca, everyBoundary_ca, ite_self, h3, h2]
  rw [openRow_apstat, openRow_of_ca hlast, h1]

theorem openRow_sreEffect {p : CaPins} {r g b : Nat} (hg : g < 8) (hb : b < 4) (hr : r ∈ selected p) (s : State) :
    openRow (sreEffect p s) r g b = none := by
  rw [sreEffect, openRow_apstat, openRow_of_ca setF_ca]
  exact openRow_closeRanks hg hb hr _

/-- The keys that a precharge closes. -/
def preHits (p : CaPins) (kind : PreKind) (bg bank k : Nat) : Bool :=
  (selected p).contains (k / 32) && (match kind with
    | .pb => k % 32 = bg * 4 + bank
    | .sb => k % 4 = bank
    | .ab => true)

theorem preEffect_eq (p : CaPins) (kind : PreKind) (bg bank : Nat) (s : State) :
    preEffect p kind bg bank s = apstat (trackClosed (preHits p kind bg bank) (forward p s)) := by
  cases kind <;> rfl

theorem openRow_preEffect {p : CaPins} {kind : PreKind} {bg bank r g b : Nat}
    (h : preHits p kind bg bank (bankKey r g b) = true) (s : State) : openRow (preEffect p kind bg bank s) r g b = none := by
  rw [preEffect_eq, openRow_apstat, openRow_trackClosed_of_hit h]

theorem preHits_of_selected {p : CaPins} {r g b : Nat} (hr : r ∈ selected p) (hg : g < 8) (hb : b < 4) :
    preHits p .pb g b (bankKey r g b) = true ∧ (∀ bg, preHits p .sb bg b (bankKey r g b) = true) ∧
      ∀ bg bank, preHits p .ab bg bank (bankKey r g b) = true := by
  have hmod : bankKey r g b % 4 = b := by unfold bankKey; omega
  simp [preHits, bankKey_div r hg hb, bankKey_mod r hg hb, hmod, hr]

/-- Settles O16: an ACT writes the key of its bank alone, and every closing command drops the keys it names. -/
theorem trackedRowsFollowTheHost : Obligations.TrackedRowsFollowTheHost := by
  intro s p bg bank row hf df rf r g b hr hg hb hrec
  have hbg : bg.toNat < 8 := bg.isLt
  have hbank : bank.toNat < 4 := bank.isLt
  have hheard : (heard p s).ca = s.ca := (heard_keeps p s).2.1
  refine ⟨fun hone => ?act, fun hsel => ⟨fun hone => ?pb, ?sb, ?ab, ?refab, ?sre⟩,
    fun q hq => openRow_trackClosed_of_kept hq s⟩
  case act =>
    refine ⟨_, exec_cmdAct_of_single hrec hone bg bank row, ?slot, ?opened, fun hother => ?others⟩
    case slot => rw [actEffect, apstat_ca]; rfl
    case opened => rw [actEffect, openRow_apstat, openRow_trackOpen_same]
    case others =>
      have hkey := mt (bankKey_inj hg hb hbg hbank) hother
      rw [actEffect, openRow_apstat, openRow_trackOpen_other hkey]
      exact openRow_of_rows (congrArg CmdPath.rows hheard) r g b
  case pb =>
    exact ⟨_, exec_cmdPre_of_received hrec (.inr hone) bg bank,
      openRow_preEffect (preHits_of_selected hsel hbg hbank).1 _⟩
  case sb =>
    exact ⟨_, exec_cmdPre_of_received hrec (.inl (by decide)) bg bank,
      openRow_preEffect ((preHits_of_selected hsel hg hbank).2.1 _) _⟩
  case ab =>
    exact ⟨_, exec_cmdPre_of_received hrec (.inl (by decide)) bg bank,
      openRow_preEffect ((preHits_of_selected hsel hg hb).2.2 _ _) _⟩
  case refab => exact ⟨_, exec_cmdRefab_of_received hrec hf df rf, openRow_refEffect hg hb hsel hf df _ _⟩
  case sre => exact ⟨_, exec_cmdSre_of_received hrec, openRow_sreEffect hg hb hsel _⟩

end Sys2Proof.Machine

namespace Sys2Proof.Machine

/-! ### Reads and writes to DRAM rows (R115, R121) -/

theorem frame_gapHit (r : Nat) (s : State) : Frame [.cb] [Fld.CB_DSTAT_HOSTHIT.addr] s (gapHit r s) :=
  .ite ((frame_cb _ s).trans (frame_setBitF Fld.CB_DSTAT_HOSTHIT r true _)) (.refl _ _ s)

/-- A hit on a reserved row is counted, traced, and told to the gap trial of the rank. -/
theorem frame_reservedHit (r idx : Nat) (write : Bool) (s : State) : Frame [.cb, .tr]
    [Fld.CA_RSVHIT_COUNT.addr, Fld.TR_LOST_RING.addr, Fld.CB_DSTAT_HOSTHIT.addr] s (reservedHit r idx write s) := by
  unfold reservedHit
  extract_lets first s1 s2
  have h1 : Frame [.cb, .tr] [Fld.CA_RSVHIT_COUNT.addr, Fld.TR_LOST_RING.addr, Fld.CB_DSTAT_HOSTHIT.addr] s s1 :=
    (((frame_setF Fld.CA_RSVHIT_LAST_WRITE _ s).trans (frame_setF Fld.CA_RSVHIT_LAST_ROW idx _)).trans
      ((frame_setF Fld.CA_RSVHIT_LAST_RANK r _).trans (frame_incF Fld.CA_RSVHIT_COUNT _))).mono (by decide) (by decide)
  have h2 : Frame [.cb, .tr] [Fld.CA_RSVHIT_COUNT.addr, Fld.TR_LOST_RING.addr, Fld.CB_DSTAT_HOSTHIT.addr] s s2 :=
    .ite (h1.next ((frame_trace _ _ s1).mono (by decide) (by decide))) h1
  exact .ite (h2.next ((frame_gapHit r s2).mono (by decide) (by decide))) h2

/-- The DRAM side of an access to a DRAM row: the command goes out, a hit on a reserved row is counted. -/
def dramForwarded (p : CaPins) (bg bank : Nat) (write : Bool) (s : State) : State :=
  match openRow s (rankOf p) bg bank with
  | none => forward p s
  | some w => match rsvIndex s bg bank w with
    | none => forward p s
    | some i => reservedHit (rankOf p) i write (forward p s)

/-- The burst that an access to a DRAM row opens. -/
def dramOpened (p : CaPins) (bg bank col bo : Nat) (s : State) : OpenBurst :=
  openBurst (rankOf p) bg bank ((openRow s (rankOf p) bg bank).getD 0) col bo .dram s

theorem dramAccess_eq (p : CaPins) (bg bank col bo : Nat) (write auto : Bool) (s : State) :
    dramAccess p bg bank col bo write auto s =
      let t := dramForwarded p bg bank write s
      let o := dramOpened p bg bank col bo s
      apstat (autoClose auto (rankOf p) bg bank
        (if write then { t with dl := { t.dl with writes := t.dl.writes ++ [o] } }
          else { t with dl := { t.dl with reads := t.dl.reads ++ [o] } })) := rfl

theorem dramForwarded_cases (p : CaPins) (bg bank : Nat) (write : Bool) (s : State) :
    dramForwarded p bg bank write s = forward p s ∨
      ∃ i, dramForwarded p bg bank write s = reservedHit (rankOf p) i write (forward p s) := by
  unfold dramForwarded
  split
  · exact .inl rfl
  · split
    · exact .inl rfl
    · exact .inr ⟨_, rfl⟩

theorem dramForwarded_keeps (p : CaPins) (bg bank : Nat) (write : Bool) (s : State) :
    (dramForwarded p bg bank write s).ca = (forward p s).ca ∧ (dramForwarded p bg bank write s).dl = s.dl ∧
      (dramForwarded p bg bank write s).ld = s.ld ∧ (dramForwarded p bg bank write s).kp = s.kp := by
  rcases dramForwarded_cases p bg bank write s with h | ⟨i, h⟩
  · rw [h]
    exact ⟨rfl, rfl, rfl, rfl⟩
  · obtain ⟨hparts, -⟩ := frame_reservedHit (rankOf p) i write (forward p s)
    rw [h]
    exact ⟨hparts .ca (by decide), hparts .dl (by decide), hparts .ld (by decide), hparts .kp (by decide)⟩

/-- CA_APSTAT is all that follows the tracked rows. -/
theorem frame_apstat (s : State) : Frame [] [Fld.CA_APSTAT_ROW.addr] s (apstat s) := by
  have hforce (v : Nat) : Frame [] [Fld.CA_APSTAT_ROW.addr] s (setF Fld.CA_APSTAT_IN_FORCE v s) := frame_setF _ v s
  have hrow (v : Nat) (t : State) : Frame [] [Fld.CA_APSTAT_ROW.addr] t (setF Fld.CA_APSTAT_ROW v t) := frame_setF _ v t
  have hopen (v : Nat) (t : State) : Frame [] [Fld.CA_APSTAT_ROW.addr] t (setF Fld.CA_APSTAT_OPEN v t) := frame_setF _ v t
  unfold apstat
  dsimp only
  split
  · exact ((hforce _).next (hrow _ _)).next (hopen _ _)
  · exact ((hforce _).next (hrow _ _)).next (hopen _ _)

theorem frame_autoClose (auto : Bool) (r bg bank : Nat) (s : State) :
    Frame [.ca] [] s (autoClose auto r bg bank s) := .ite (frame_ca _ s) (.refl _ _ s)

/-- The auto-precharge and the aperture's status close an access: of its parts they touch the tracked rows. -/
theorem frame_accessClosed (auto : Bool) (r bg bank : Nat) (s : State) :
    Frame [.ca] [Fld.CA_APSTAT_ROW.addr] s (apstat (autoClose auto r bg bank s)) :=
  (frame_autoClose auto r bg bank s).trans (frame_apstat _)

theorem slot_accessClosed (auto : Bool) (r bg bank : Nat) (s : State) :
    (apstat (autoClose auto r bg bank s)).ca.slot = s.ca.slot := by
  rw [apstat_ca, autoClose]
  split <;> rfl

theorem openRow_accessClosed (r bg bank : Nat) (s : State) :
    openRow (apstat (autoClose true r bg bank s)) r bg bank = none := by
  rw [openRow_apstat, autoClose, if_pos rfl, openRow_trackClosed_of_hit (decide_eq_true rfl)]

section
variable (p : CaPins) (bg bank col bo : Nat) (auto : Bool) (s : State)

theorem dramAccess_write_keeps :
    (dramAccess p bg bank col bo true auto s).dl = { s.dl with writes := s.dl.writes ++ [dramOpened p bg bank col bo s] } ∧
      (dramAccess p bg bank col bo true auto s).ca.slot = .command p ∧
      (dramAccess p bg bank col bo true auto s).ld = s.ld ∧ (dramAccess p bg bank col bo true auto s).kp = s.kp := by
  obtain ⟨hca, hdl, hld, hkp⟩ := dramForwarded_keeps p bg bank true s
  rw [dramAccess_eq]
  extract_lets t o
  obtain ⟨hparts, -⟩ := frame_accessClosed auto (rankOf p) bg bank
    { t with dl := { t.dl with writes := t.dl.writes ++ [o] } }
  refine ⟨(hparts .dl (by decide)).trans (by rw [hdl]), ?_, (hparts .ld (by decide)).trans hld,
    (hparts .kp (by decide)).trans hkp⟩
  exact (slot_accessClosed ..).trans (congrArg CmdPath.slot hca)

theorem dramAccess_read_keeps :
    (dramAccess p bg bank col bo false auto s).dl = { s.dl with reads := s.dl.reads ++ [dramOpened p bg bank col bo s] } ∧
      (dramAccess p bg bank col bo false auto s).ca.slot = .command p ∧
      (dramAccess p bg bank col bo false auto s).ld = s.ld := by
  obtain ⟨hca, hdl, hld, -⟩ := dramForwarded_keeps p bg bank false s
  rw [dramAccess_eq]
  extract_lets t o
  obtain ⟨hparts, -⟩ := frame_accessClosed auto (rankOf p) bg bank
    { t with dl := { t.dl with reads := t.dl.reads ++ [o] } }
  refine ⟨(hparts .dl (by decide)).trans (by rw [hdl]), ?_, (hparts .ld (by decide)).trans hld⟩
  exact (slot_accessClosed ..).trans (congrArg CmdPath.slot hca)

theorem openRow_dramAccess (write : Bool) :
    openRow (dramAccess p bg bank col bo write true s) (rankOf p) bg bank = none := by
  rw [dramAccess_eq, openRow_accessClosed]
end

/-! ### Reads and writes to aperture rows (R115, R116) -/

theorem aperViolation_dl (s0 : State) (l off bo : Nat) (write : Bool) (s : State) (col : Nat) :
    (aperViolation s0 l off bo write s col).dl = s.dl := by
  rw [aperViolation, apply_ite State.dl, apply_ite State.dl, raise_dl, raise_dl, ite_self, ite_self]

/-- The burst of a write to the aperture waits for its data. -/
theorem writes_aperAccess (p : CaPins) (bg bank row off col bo : Nat) (auto : Bool) (s : State) :
    (aperAccess p bg bank row off col bo true auto false s).dl.writes =
      s.dl.writes ++ [openBurst (rankOf p) bg bank row col bo (.aperture (off * 64 + col) auto) s] := by
  unfold aperAccess
  extract_lets r l o s1 s2
  have h1 : s1.dl = s.dl := by
    rw [aperViolation_dl]
    cases auto <;> rfl
  have hparts := (frame_accessClosed auto r bg bank { s1 with dl := { s1.dl with writes := s1.dl.writes ++ [o] } }).1
  exact (congrArg DataLanes.writes (hparts .dl (by decide))).trans (congrArg (fun d : DataLanes => d.writes ++ [o]) h1)

/-! ### Which of the two an access is -/

theorem access_of_dram {s : State} {p : CaPins} {bg bank : Nat}
    (h : ∀ row, openRow s (rankOf p) bg bank = some row → aperOffset s (rankOf p) bg bank row = none) (col bo : Nat)
    (write auto held : Bool) :
    access p bg bank col bo write auto held s = dramAccess p bg bank col bo write auto s := by
  rw [access]
  split
  · rfl
  · rename_i row hrow
    rw [h row hrow]

theorem access_of_aperture {s : State} {p : CaPins} {bg bank row off : Nat}
    (hrow : openRow s (rankOf p) bg bank = some row) (hoff : aperOffset s (rankOf p) bg bank row = some off)
    (col bo : Nat) (write auto held : Bool) :
    access p bg bank col bo write auto held s = aperAccess p bg bank row off col bo write auto held s := by
  simp only [access, hrow, hoff]

theorem aperOffset_of_regs {s t : State} (h : t.regs = s.regs) (r bg bank row : Nat) :
    aperOffset t r bg bank row = aperOffset s r bg bank row := by
  simp only [aperOffset, getF_of_regs h, flag_eq_of_getF (getF_of_regs h _)]

theorem openRow_heard (p : CaPins) (s : State) (r g b : Nat) : openRow (heard p s) r g b = openRow s r g b :=
  openRow_of_ca (heard_keeps p s).2.1 r g b

theorem aperOffset_heard (p : CaPins) (s : State) (r bg bank row : Nat) :
    aperOffset (heard p s) r bg bank row = aperOffset s r bg bank row := aperOffset_of_regs (heard_keeps p s).1 r bg bank row

section
variable {p : CaPins} {s : State} (h : Received p s) (hone : (selected p).length = 1)
include h hone

theorem exec_read_of_single (bg : BitVec 3) (bank : BitVec 2) (col : BitVec 6) (bo : BitVec 4) (held : Bool) :
    exec (.cmdRd p bg bank col bo held) s =
      .next (access p bg.toNat bank.toNat col.toNat bo.toNat false false held (heard p s)) ∧
    exec (.cmdRda p bg bank col bo held) s =
      .next (access p bg.toNat bank.toNat col.toNat bo.toNat false true held (heard p s)) :=
  ⟨congrArg Host.Outcome.next (receive_of_single h (.inr hone) _),
    congrArg Host.Outcome.next (receive_of_single h (.inr hone) _)⟩

/-- A write that opens its burst is not dropped (R142). -/
theorem receiveWrite_of_opened {bg bank col bo : Nat} {auto : Bool} {o : OpenBurst}
    (hopen : (access p bg bank col bo true auto false (heard p s)).dl.writes = s.dl.writes ++ [o]) :
    receiveWrite p bg bank col bo auto s = access p bg bank col bo true auto false (heard p s) := by
  have hkept : ¬(access p bg bank col bo true auto false (heard p s)).dl.writes = s.dl.writes := by simp [hopen]
  rw [receiveWrite, receive_of_single h (.inr hone)]
  simp [hkept]

theorem exec_write_of_opened {bg : BitVec 3} {bank : BitVec 2} {col : BitVec 6} {bo : BitVec 4} {o : Bool → OpenBurst}
    (hopen : ∀ auto, (access p bg.toNat bank.toNat col.toNat bo.toNat true auto false (heard p s)).dl.writes =
      s.dl.writes ++ [o auto]) :
    exec (.cmdWr p bg bank col bo) s =
      .next (access p bg.toNat bank.toNat col.toNat bo.toNat true false false (heard p s)) ∧
    exec (.cmdWra p bg bank col bo) s =
      .next (access p bg.toNat bank.toNat col.toNat bo.toNat true true false (heard p s)) :=
  ⟨congrArg Host.Outcome.next (receiveWrite_of_opened h hone (hopen false)),
    congrArg Host.Outcome.next (receiveWrite_of_opened h hone (hopen true))⟩
end

/-- CA_ILL is the one register of a command of Table CA-5. -/
theorem frame_illegal (c : Nat) (p : CaPins) (s : State) : Frame [.ca, .fc] [Fld.CA_ILL_COUNT.addr] s (illegal c p s) := by
  unfold illegal
  extract_lets s1
  have hslot : Frame [.ca] [] s (slotDeselect s) := frame_ca _ s
  have h1 : Frame [.ca, .fc] [Fld.CA_ILL_COUNT.addr] s s1 :=
    (hslot.trans (frame_raise 1 (synFs1 c p) _)).trans (frame_incF Fld.CA_ILL_COUNT _)
  exact .ite h1 (h1.trans ((frame_setF Fld.CA_ILL_SUBCODE c s1).next (frame_setF Fld.CA_ILL_VALID 1 _)) |>.mono
    (by decide) (by decide))

/-- What makes the host served and heard stands in the pins and in four registers. -/
theorem hostLive_of_frame {ps : List Part} {as : List Nat} {s t : State} (h : Frame ps as s t) (hpins : Part.pins ∉ ps)
    (has : ∀ a ∈ [Fld.PM_MODE_MODE.addr, Fld.CA_STATUS_SAVE_BLOCK.addr, Fld.PM_DOMAIN_CORE.addr, Fld.CK_STATUS_PARKED.addr],
      a ∉ as) : hostLive t = hostLive s := by
  have hp : t.pins = s.pins := h.1 .pins hpins
  have hmode : mode t = mode s := h.getF_eq (has _ (by decide))
  have hsub : sub t = sub s := h.getF_eq (has _ (by decide))
  have hblock := h.flag_eq (f := Fld.CA_STATUS_SAVE_BLOCK) (has _ (by decide))
  have hcore := h.getF_eq (f := Fld.PM_DOMAIN_CORE) (has _ (by decide))
  have hpark : parked t = parked s := h.flag_eq (has _ (by decide))
  rw [hostLive, hostHeard, served, inRun, coreOn, hmode, hsub, hp, hblock, hcore, hpark]
  rfl

theorem hostLive_illegal_heard (c : Nat) (p : CaPins) (s : State) : hostLive (illegal c p (heard p s)) = hostLive s := by
  rw [hostLive_of_frame (frame_illegal c p _) (by decide) (by decide),
    hostLive_of_frame (frame_heard p s) (by decide) (by decide)]

/-- Settles O17: one rank or several; then by the row that the bank has open, and an access to a DRAM row by its parts. -/
theorem readsAndWritesGoToDramOrLedger : Obligations.ReadsAndWritesGoToDramOrLedger := by
  intro s p bg bank col bo held hrec h
  have hwrites : h.dl.writes = s.dl.writes := (heard_keeps p s).2.2
  refine ⟨fun hmany => ?several, fun hone hrow => ?dram, fun row off hone hrow hoff => ?aperture, fun auto => ?burst⟩
  case several =>
    have hill : (illegal 1 p h).dl.writes = s.dl.writes := (congrArg _ (illegal_dl 1 p h)).trans hwrites
    have hlive : hostLive (illegal 1 p h) = true := (hostLive_illegal_heard 1 p s).trans hrec.1.1
    obtain ⟨hwr, hwra⟩ := exec_write_of_dropped hrec.1.2.1 (fun effect => receive_of_several hrec hmany false effect) hill
      bg bank col bo
    refine ⟨congrArg Host.Outcome.next (receive_of_several hrec hmany false _), hwr,
      congrArg Host.Outcome.next (receive_of_several hrec hmany false _), hwra, ?_⟩
    rw [dropWrite_of_live hlive, ← hill]
  case dram =>
    have hacc (write auto held : Bool) := access_of_dram (s := h) (p := p) (bg := bg.toNat) (bank := bank.toNat)
      (fun row hopen => (aperOffset_heard p s _ _ _ _).trans (hrow row ((openRow_heard p s _ _ _).symm.trans hopen)))
      col.toNat bo.toNat write auto held
    obtain ⟨hrd, hrda⟩ := exec_read_of_single hrec hone bg bank col bo held
    obtain ⟨hwr, hwra⟩ := exec_write_of_opened hrec hone (bg := bg) (bank := bank) (col := col) (bo := bo)
      (o := fun _ => dramOpened p bg.toNat bank.toNat col.toNat bo.toNat h) fun auto => by
        rw [hacc, (dramAccess_write_keeps ..).1, ← hwrites]
    rw [hacc] at hrd hrda hwr hwra
    exact ⟨hrd, hwr, hrda, hwra⟩
  case aperture =>
    have hacc (write auto held : Bool) := access_of_aperture (s := h) ((openRow_heard p s _ _ _).trans hrow)
      ((aperOffset_heard p s _ _ _ _).trans hoff) col.toNat bo.toNat write auto held
    obtain ⟨hrd, hrda⟩ := exec_read_of_single hrec hone bg bank col bo held
    obtain ⟨hwr, hwra⟩ := exec_write_of_opened hrec hone (bg := bg) (bank := bank) (col := col) (bo := bo)
      fun auto => by rw [hacc, writes_aperAccess, ← hwrites]
    rw [hacc] at hrd hrda hwr hwra
    exact ⟨hrd, hwr, hrda, hwra⟩
  case burst =>
    intro o w r
    obtain ⟨hwdl, hwslot, hwld, hwkp⟩ := dramAccess_write_keeps p bg.toNat bank.toNat col.toNat bo.toNat auto s
    obtain ⟨hrdl, hrslot, hrld⟩ := dramAccess_read_keeps p bg.toNat bank.toNat col.toNat bo.toNat auto s
    refine ⟨rfl, congrArg DataLanes.writes hwdl, (congrArg DataLanes.reads hwdl).trans rfl, hwslot, hwld, hwkp,
      congrArg DataLanes.reads hrdl, (congrArg DataLanes.writes hrdl).trans rfl, hrslot, hrld,
      (congrArg DataLanes.hostRead hrdl).trans rfl, ?_⟩
    rintro rfl
    exact ⟨openRow_dramAccess .., openRow_dramAccess ..⟩

end Sys2Proof.Machine

namespace Sys2Proof.Machine

/-! ### Mode registers and training steps (R97, R135, R145) -/

theorem exec_cmdMrw_of_low {mr : Byte} (h : mr.toNat < 240) (p : CaPins) (data : Byte) (sets : List MrwEffect)
    (s : State) : exec (.cmdMrw p mr data sets) s =
      .next (receive p false false false (mrwBad sets) (mrwEffect p sets) s) := by
  rw [exec, execCmdMrw, if_neg (Nat.not_le.mpr h)]

/-- From MR 240 on an MRW is a buffer control word (R107). -/
theorem exec_cmdMrw_of_word {mr : Byte} {w : Nat} (h : mr.toNat = 240 + w) (p : CaPins) (data : Byte)
    (sets : List MrwEffect) (s : State) :
    exec (.cmdMrw p mr data sets) s = .next (hostBcwWrite p w data.toNat s) := by
  rw [exec, execCmdMrw, if_pos (by omega), h, Nat.add_sub_cancel_left]

theorem exec_cmdMrr_of_low {mr : Byte} (h : mr.toNat < 240) (p : CaPins) (s : State) :
    exec (.cmdMrr p mr) s = .next (receive p false false false false (mrrEffect p) s) := by
  rw [exec, execCmdMrr, if_neg (Nat.not_le.mpr h)]

theorem exec_cmdMrr_of_word {mr : Byte} {w : Nat} (h : mr.toNat = 240 + w) (p : CaPins) (s : State) :
    exec (.cmdMrr p mr) s = .next (hostBcwRead p w s) := by
  rw [exec, execCmdMrr, if_pos (by omega), h, Nat.add_sub_cancel_left]

theorem exec_cmdMpcTraining_of_received {p : CaPins} {s : State} (h : Received p s) (step : MpcStep) :
    exec (.cmdMpcTraining p step) s = .next (mpcEffect step (heard p s)) :=
  congrArg Host.Outcome.next (receive_of_single h (.inl rfl) _)

/-- Only in CS and CA training does a cycle touch the data lanes: the answer on HDQ (R145). -/
theorem heard_dl (p : CaPins) (s : State) : (heard p s).dl =
    if s.dl.step = 1 then { s.dl with reply := some (onLanes (fun _ => (Config.csTraining p.hcsN).toNat)) }
    else if s.dl.step = 2 then
      { s.dl with reply := some (onLanes (fun _ => if oddParity p.hca1.toNat then 0xFF else 0)) }
    else s.dl := by
  rw [heard, trainAnswer, apply_ite State.dl, apply_ite State.dl]
  rfl

/-- An answer on HDQ leaves the open reads and the step. -/
theorem heard_reads_step (p : CaPins) (s : State) :
    (heard p s).dl.reads = s.dl.reads ∧ (heard p s).dl.step = s.dl.step := by
  rw [heard_dl]
  split
  · exact ⟨rfl, rfl⟩
  · split <;> exact ⟨rfl, rfl⟩

/-- A burst is opened alike in states that agree in the registers and in the open reads. -/
theorem openBurst_heard (p : CaPins) (r bg bank row col bo : Nat) (k : BurstKind) (s : State) :
    openBurst r bg bank row col bo k (heard p s) = openBurst r bg bank row col bo k s := by
  simp only [openBurst, sweptBefore, reg_of_regs (heard_keeps p s).1, (heard_reads_step p s).1]

/-- Leaving CS or CA training ends that step and no other. -/
theorem mpcEffect_leave (s : State) : mpcEffect .leave s =
    { slotDeselect s with dl := { s.dl with step := if s.dl.step = 1 ∨ s.dl.step = 2 then 0 else s.dl.step } } := by
  have hstep : (if (if s.dl.step = 2 then 0 else s.dl.step) = 1 then 0 else if s.dl.step = 2 then 0 else s.dl.step) =
      if s.dl.step = 1 ∨ s.dl.step = 2 then 0 else s.dl.step := by
    split_ifs <;> omega
  rw [← hstep]
  rfl

/-- Settles O18: an MRW and an MRR by the number of the register, a training MPC by its step, the answer by the step in
progress. -/
theorem modeRegisterCommands : Obligations.ModeRegisterCommands := by
  intro s p mr data sets h
  refine ⟨fun hrec hlow hgood => ?snooped, fun hrec hlow hbad => ?stopped, fun hmr => exec_cmdMrw_of_word (w := 0) hmr ..,
    fun hmr => exec_cmdMrw_of_word (w := 1) hmr .., fun hmr => exec_cmdMrw_of_word (w := 15) hmr ..,
    fun hrec hlow => ?mrr, fun w hmr => exec_cmdMrr_of_word hmr p s, fun hrec => exec_cmdMpcTraining_of_received hrec .cs,
    fun hrec => exec_cmdMpcTraining_of_received hrec .ca, fun hrec => ?leave, fun h1 h2 => ?still, fun h2 => ?ca,
    fun h1 => ?cs⟩
  case snooped =>
    rw [exec_cmdMrw_of_low hlow, hgood, receive_of_single hrec (.inl rfl), mrwEffect]
  case stopped =>
    rw [exec_cmdMrw_of_low hlow, receive_of_received hrec, hbad]
    rfl
  case mrr =>
    have hreads : h.dl.reads = s.dl.reads := (heard_reads_step p s).1
    rw [exec_cmdMrr_of_low hlow, receive_of_single hrec (.inl rfl), mrrEffect, openBurst_heard, ← hreads]
    rfl
  case leave =>
    have hstep : h.dl.step = s.dl.step := (heard_reads_step p s).2
    rw [exec_cmdMpcTraining_of_received hrec, mpcEffect_leave, ← hstep]
  case still => rw [heard_dl, if_neg h1, if_neg h2]
  case ca => rw [heard_dl, if_neg (by omega), if_pos h2]
  case cs => rw [heard_dl, if_pos h1]

end Sys2Proof.Machine

namespace Sys2Proof.Machine

/-! ### Buffer control words (R107 to R110) -/

/-- A received buffer control word has its effect, in the park and in a parity block too. -/
theorem receive_of_bcw {p : CaPins} {pg : Nat} {s : State} (h : BcwReceived p pg s) (effect : State → State) :
    receive p true false false false effect s = effect (heard p s) := by
  obtain ⟨hheard, ⟨hsel, hinj, hpar⟩, hfree, -⟩ := h
  have hgood : (flag (heard p s) Fld.CA_PAR_MODE_EN && parityOdd p) = false := by
    rw [flag_eq_of_getF (getF_of_regs (heard_keeps p s).1 _)]
    exact Bool.and_eq_false_iff.mpr hpar
  have hn : getF (heard p s) Fld.FC_INJ_CA_N = 0 := (getF_of_regs (heard_keeps p s).1 _).trans hinj
  have hends := probeEnds_heard_of_free hfree
  have hill := illCode_of_free hfree.heard false false false
  rw [heard] at hgood hn hends hill ⊢
  simp [receive, hheard, List.isEmpty_eq_false_iff.mpr hsel, hends, hn, hgood, hill]

/-- The cycle of a buffer control word is not forwarded; nothing else of the command path has moved as it acts. -/
def bcwSlot (p : CaPins) (s : State) : State := slotDeselect (heard p s)

theorem bcwSlot_ca (p : CaPins) (s : State) : (bcwSlot p s).ca = { s.ca with slot := .deselect, dcsN := 0xF } :=
  congrArg (fun c : CmdPath => { c with slot := .deselect, dcsN := 0xF }) (heard_keeps p s).2.1

theorem bcwSlot_regs (p : CaPins) (s : State) : (bcwSlot p s).regs = s.regs := (heard_keeps p s).1

theorem flag_bcwSlot (p : CaPins) (s : State) (f : Field) : flag (bcwSlot p s) f = flag s f :=
  flag_eq_of_getF (getF_of_regs (bcwSlot_regs p s) f)

theorem bcwSlot_page (p : CaPins) (s : State) : (bcwSlot p s).ca.page = s.ca.page :=
  (congrArg CmdPath.page (bcwSlot_ca p s)).trans rfl

theorem bcwSlot_arm (p : CaPins) (s : State) : (bcwSlot p s).ca.arm = s.ca.arm :=
  (congrArg CmdPath.arm (bcwSlot_ca p s)).trans rfl

theorem bcwSlot_alerts (p : CaPins) (s : State) : (bcwSlot p s).ca.alerts = s.ca.alerts :=
  (congrArg CmdPath.alerts (bcwSlot_ca p s)).trans rfl

theorem breakArm_page (s : State) : (breakArm s).ca.page = s.ca.page := by
  rw [breakArm]
  split <;> rfl

theorem breakArm_alerts (s : State) : (breakArm s).ca.alerts = s.ca.alerts := by
  rw [breakArm]
  split <;> rfl

theorem breakArm_regs (s : State) : (breakArm s).regs = s.regs := by
  rw [breakArm]
  split <;> rfl

theorem hostBcwWrite_of_received {p : CaPins} {pg : Nat} {s : State} (h : BcwReceived p pg s) (w data : Nat) :
    hostBcwWrite p w data s = bcwWrite w data (bcwSlot p s) := receive_of_bcw h _

theorem hostBcwRead_of_received {p : CaPins} {pg : Nat} {s : State} (h : BcwReceived p pg s) (w : Nat) :
    hostBcwRead p w s = bcwRead p w (bcwSlot p s) := receive_of_bcw h _

/-! #### The words of each page -/

section
variable {s : State} {pg : Nat} (h : s.ca.page = pg)
include h

theorem bcwError_of_page (grant mrr : Bool) (word data : Nat) :
    bcwError grant mrr word data s = raise 3 (synFs3 false grant mrr pg word data) s := by
  rw [bcwError, h]

theorem bcwError_breakArm (grant mrr : Bool) (word data : Nat) :
    bcwError grant mrr word data (breakArm s) = raise 3 (synFs3 false grant mrr pg word data) (breakArm s) :=
  bcwError_of_page ((breakArm_page s).trans h) grant mrr word data

theorem bcwWrite_page_select (data : Nat) : bcwWrite 15 data s =
    if data ≤ 4 then { breakArm s with ca := { (breakArm s).ca with page := data } }
    else raise 3 (synFs3 false false false pg 15 data) (breakArm s) := by
  rw [← bcwError_breakArm h]
  simp [bcwWrite]

/-- A word of a page that is no word to write. -/
def notWritable (pg w : Nat) : Prop :=
  w ≠ 15 ∧ (pg = 0 ∨ (pg = 1 ∨ pg = 2 ∨ pg = 3) ∧ 2 ≤ w ∨ pg = 4 ∧ w ≠ 1 ∧ w ≠ 5)

theorem bcwWrite_of_notWritable {w : Nat} (hw : notWritable pg w) (data : Nat) :
    bcwWrite w data s = raise 3 (synFs3 false false false pg w data) (breakArm s) := by
  rw [← bcwError_breakArm h]
  obtain ⟨hlast, rfl | ⟨hpg, htwo⟩ | ⟨rfl, hsel, hhold⟩⟩ := hw
  · simp [bcwWrite, h, hlast]
  · have h0 : w ≠ 0 := by omega
    have h1 : w ≠ 1 := by omega
    have h4 : s.ca.page ≠ 4 := by omega
    simp [bcwWrite, h0, h1, h4, hlast]
  · simp [bcwWrite, h, hlast, hsel, hhold]
end

section
variable {s : State} (data : Nat)

/-- No arm is pending. -/
def disarmed (s : State) : State := { s with ca := { s.ca with arm := .none } }

theorem bcwWrite_saveArm (h : s.ca.page = 1) : bcwWrite 0 data s =
    if data = 0x53 then { s with ca := { s.ca with arm := .armed } }
    else raise 3 (synFs3 false false false 1 0 data) (disarmed s) := by
  rw [← bcwError_of_page (s := disarmed s) h]
  simp [bcwWrite, h, saveArm, disarmed]

theorem bcwWrite_saveGo_of_armed (h : s.ca.page = 1) (harm : s.ca.arm = .armed) : bcwWrite 1 0x56 s =
    if flag s Fld.PS_CTRL_BCW_EN then saveTrigger 0x05 (disarmed s) else trace 0x0106 0x05 (disarmed s) := by
  simp [bcwWrite, h, saveGo, harm, disarmed]

theorem bcwWrite_saveGo_of_refused (h : s.ca.page = 1) {data : Nat} (hbad : data ≠ 0x56 ∨ s.ca.arm ≠ .armed) :
    bcwWrite 1 data s = raise 3 (synFs3 false false false 1 1 data) (disarmed s) := by
  have hno : (decide (data = 0x56) && decide (s.ca.arm = .armed)) = false := by simpa [imp_iff_not_or] using hbad
  rw [← bcwError_of_page (s := disarmed s) h]
  simp [bcwWrite, h, saveGo, hno, disarmed]

theorem bcwWrite_grantRank (h : s.ca.page = 2) : bcwWrite 0 data s =
    { breakArm s with ca := { (breakArm s).ca with grantRank := data % 16 } } := by simp [bcwWrite, h]

theorem bcwWrite_grantLen (h : s.ca.page = 2) : bcwWrite 1 data s = grantLen data (breakArm s) := by simp [bcwWrite, h]

theorem bcwWrite_aplock (h : s.ca.page = 3) :
    bcwWrite 0 data s = setF Fld.CA_STATUS_APLOCK (data % 2) (breakArm s) := by simp [bcwWrite, h]

theorem bcwWrite_parClear (h : s.ca.page = 3) : bcwWrite 1 data s =
    if data = 1 then unblock (breakArm s) else raise 3 (synFs3 false false false 3 1 data) (breakArm s) := by
  rw [← bcwError_breakArm h]
  simp [bcwWrite, h]

theorem bcwWrite_trSel (h : s.ca.page = 4) : bcwWrite 1 data s =
    if data % 8 ≤ 4 then { breakArm s with dl := { (breakArm s).dl with sel := data % 8 } }
    else raise 3 (synFs3 false false false 4 1 data) (breakArm s) := by
  rw [← bcwError_breakArm h]
  simp [bcwWrite, h]

theorem bcwWrite_trCtrl (h : s.ca.page = 4) : bcwWrite 5 data s =
    resumeLanes { breakArm s with dl := { (breakArm s).dl with hold := data.testBit 0 } } := by simp [bcwWrite, h]
end

/-- A received write answers what its word writes. -/
theorem next_hostBcwWrite {p : CaPins} {pg : Nat} {s t : State} (h : BcwReceived p pg s) {w data : Nat}
    (ht : bcwWrite w data (bcwSlot p s) = t) :
    (.next (hostBcwWrite p w data s) : Host.Outcome State Fault Refusal) = .next t := by
  rw [hostBcwWrite_of_received h, ht]

theorem page_of_received {p : CaPins} {pg : Nat} {s : State} (h : BcwReceived p pg s) : (bcwSlot p s).ca.page = pg :=
  (bcwSlot_page p s).trans h.2.2.2

/-- A byte is a given one exactly where its number is. -/
theorem byte_eq_iff (d : Byte) {n : Nat} (hn : n < 256) : d = BitVec.ofNat 8 n ↔ d.toNat = n := by
  rw [← BitVec.toNat_inj, BitVec.toNat_ofNat, Nat.mod_eq_of_lt hn]

/-- Settles O19: the cycle is received, then each word of its page by what it writes. -/
theorem bufferControlWordWrites : Obligations.BufferControlWordWrites := by
  intro s p data d b
  have hflag (f : Field) : flag d f = flag s f := flag_bcwSlot p s f
  have harm : d.ca.arm = s.ca.arm := bcwSlot_arm p s
  have hblocked : flag b Fld.CA_STATUS_PAR_BLOCKED = flag s Fld.CA_STATUS_PAR_BLOCKED :=
    (flag_eq_of_getF (getF_of_regs (breakArm_regs d) _)).trans (hflag _)
  have hone : data = 1 ↔ data.toNat = 1 := byte_eq_iff data (by decide)
  have h53 : data = 0x53 ↔ data.toNat = 0x53 := byte_eq_iff data (by decide)
  have h56 : data = 0x56 ↔ data.toNat = 0x56 := byte_eq_iff data (by decide)
  refine ⟨fun hrec hdata => next_hostBcwWrite hrec ((bcwWrite_saveArm _ (page_of_received hrec)).trans
      (if_pos (h53.mp hdata))),
    fun hrec hdata => next_hostBcwWrite hrec ((bcwWrite_saveArm _ (page_of_received hrec)).trans
      (if_neg (mt h53.mpr hdata))), ?saved, ?traced, ?refused,
    fun pg hrec hle => next_hostBcwWrite hrec ((bcwWrite_page_select (page_of_received hrec) _).trans (if_pos hle)),
    fun pg hrec hlt => next_hostBcwWrite hrec ((bcwWrite_page_select (page_of_received hrec) _).trans
      (if_neg (Nat.not_le.mpr hlt))),
    fun hrec => next_hostBcwWrite hrec (bcwWrite_grantRank _ (page_of_received hrec)),
    fun hrec => next_hostBcwWrite hrec (bcwWrite_grantLen _ (page_of_received hrec)),
    fun hrec => next_hostBcwWrite hrec (bcwWrite_aplock _ (page_of_received hrec)), ?cleared, ?idle,
    fun hrec hdata => next_hostBcwWrite hrec ((bcwWrite_parClear _ (page_of_received hrec)).trans
      (if_neg (mt hone.mpr hdata))),
    fun hrec hle => next_hostBcwWrite hrec ((bcwWrite_trSel _ (page_of_received hrec)).trans (if_pos hle)),
    fun hrec hlt => next_hostBcwWrite hrec ((bcwWrite_trSel _ (page_of_received hrec)).trans
      (if_neg (Nat.not_le.mpr hlt))),
    fun hrec => next_hostBcwWrite hrec (bcwWrite_trCtrl _ (page_of_received hrec))⟩
  case saved =>
    rintro hrec rfl ha hen
    exact next_hostBcwWrite hrec ((bcwWrite_saveGo_of_armed (page_of_received hrec) (harm.trans ha)).trans
      (if_pos ((hflag _).trans hen)))
  case traced =>
    rintro hrec rfl ha hoff
    exact next_hostBcwWrite hrec ((bcwWrite_saveGo_of_armed (page_of_received hrec) (harm.trans ha)).trans
      (if_neg (Bool.eq_false_iff.mp ((hflag _).trans hoff))))
  case refused =>
    exact fun hrec hbad => next_hostBcwWrite hrec (bcwWrite_saveGo_of_refused (page_of_received hrec)
      (hbad.imp (mt h56.mpr) fun ha h => ha (harm.symm.trans h)))
  case cleared =>
    exact fun hrec hdata hpar => next_hostBcwWrite hrec ((bcwWrite_parClear _ (page_of_received hrec)).trans
      ((if_pos (hone.mp hdata)).trans (if_pos (hblocked.trans hpar))))
  case idle =>
    exact fun hrec hdata hpar => next_hostBcwWrite hrec ((bcwWrite_parClear _ (page_of_received hrec)).trans
      ((if_pos (hone.mp hdata)).trans (if_neg (Bool.eq_false_iff.mp (hblocked.trans hpar)))))

end Sys2Proof.Machine

namespace Sys2Proof.Machine

/-! ### Numbers digit by digit -/

theorem foldl_add_eq_sum (f : Nat → Nat) (m c : Nat) :
    (List.range m).foldl (fun a i => a + f i) c = c + ∑ i ∈ Finset.range m, f i := by
  induction m with
  | zero => simp
  | succ m ih => rw [List.range_succ, List.foldl_append, ih, Finset.sum_range_succ, ← Nat.add_assoc]; rfl

/-- `m` digits in base `B` make a number below `B ^ m`. -/
theorem sum_digits_lt {B : Nat} {f : Nat → Nat} (hf : ∀ i, f i < B) (m : Nat) :
    ∑ i ∈ Finset.range m, f i * B ^ i < B ^ m := by
  induction m with
  | zero => simp
  | succ m ih =>
    calc ∑ i ∈ Finset.range (m + 1), f i * B ^ i = ∑ i ∈ Finset.range m, f i * B ^ i + f m * B ^ m :=
          Finset.sum_range_succ ..
      _ < (f m + 1) * B ^ m := by rw [Nat.add_one_mul]; omega
      _ ≤ B * B ^ m := Nat.mul_le_mul_right _ (hf m)
      _ = B ^ (m + 1) := (Nat.pow_succ' ..).symm

/-- Each digit stands in its place. -/
theorem digit_of_sum {B : Nat} {f : Nat → Nat} (hf : ∀ i, f i < B) {m j : Nat} (hj : j < m) :
    (∑ i ∈ Finset.range m, f i * B ^ i) / B ^ j % B = f j := by
  have hB : 0 < B := Nat.lt_of_le_of_lt (Nat.zero_le _) (hf 0)
  have hpos : 0 < B ^ j := Nat.pow_pos hB
  induction m with
  | zero => exact absurd hj (Nat.not_lt_zero j)
  | succ m ih =>
    rw [Finset.sum_range_succ]
    by_cases hlast : j = m
    · subst hlast
      rw [Nat.add_mul_div_right _ _ hpos, Nat.div_eq_of_lt (sum_digits_lt hf j), Nat.zero_add, Nat.mod_eq_of_lt (hf j)]
    · obtain ⟨k, rfl⟩ : ∃ k, m = j + k + 1 := ⟨m - j - 1, by omega⟩
      have hsplit : f (j + k + 1) * B ^ (j + k + 1) = f (j + k + 1) * B ^ k * B * B ^ j := by ring
      rw [hsplit, Nat.add_mul_div_right _ _ hpos, Nat.add_mul_mod_self_right]
      exact ih (by omega)

/-- The low digits of a number make its remainder. -/
theorem sum_digits_of (B v m : Nat) : ∑ i ∈ Finset.range m, v / B ^ i % B * B ^ i = v % B ^ m := by
  induction m with
  | zero => simp [Nat.mod_one]
  | succ m ih => rw [Finset.sum_range_succ, ih, Nat.mod_pow_succ, Nat.mul_comm]

/-! ### Lanes of a host burst (R130, R177) -/

/-- Byte `b` of lane `n`. -/
def laneByte (ls : List Nat) (n b : Nat) : Nat := ls.getD n 0 / 256 ^ b % 256

/-- Beat `b` of a line: one byte of each host lane. -/
def lineBeat (ls : List Nat) (b : Nat) : Nat := ∑ n ∈ Finset.range 5, laneByte ls n b * 256 ^ n

theorem laneByte_lt (ls : List Nat) (n b : Nat) : laneByte ls n b < 256 := Nat.mod_lt _ (by decide)

theorem lineBeat_lt (ls : List Nat) (b : Nat) : lineBeat ls b < 2 ^ 40 :=
  sum_digits_lt (B := 256) (fun n => laneByte_lt ls n b) 5

/-- The byte of a lane as it stands in the line. -/
theorem shifted_laneByte (ls : List Nat) (n b : Nat) :
    ((ls.getD n 0 >>> (8 * b)) % 256) <<< (b * 40 + n * 8) = laneByte ls n b * 256 ^ n * (2 ^ 40) ^ b := by
  have hbyte (k : Nat) : 2 ^ (8 * k) = 256 ^ k := Nat.pow_mul 2 8 k
  have hplace : 2 ^ (b * 40 + n * 8) = 256 ^ n * (2 ^ 40) ^ b := by
    rw [Nat.mul_comm b, Nat.mul_comm n, Nat.pow_add, Nat.pow_mul 2 40, hbyte, Nat.mul_comm]
  rw [Nat.shiftLeft_eq, Nat.shiftRight_eq_div_pow, hbyte, hplace, laneByte, Nat.mul_assoc]

/-- A line is its sixteen beats, forty bits a beat. -/
theorem ofHostLanes_eq_sum (ls : List Nat) : ofHostLanes ls = ∑ b ∈ Finset.range 16, lineBeat ls b * (2 ^ 40) ^ b := by
  simp only [ofHostLanes, beats, foldl_add_eq_sum, shifted_laneByte, Nat.zero_add]
  rw [Finset.sum_comm]
  exact Finset.sum_congr rfl fun b _ => (Finset.sum_mul ..).symm

theorem ofHostLanes_lt (ls : List Nat) {w : Nat} (hw : w = 40 * 16) : ofHostLanes ls < 2 ^ w := by
  rw [ofHostLanes_eq_sum, hw, Nat.pow_mul]
  exact sum_digits_lt (lineBeat_lt ls) 16

/-- The 640 bits of a burst hold a whole line. -/
theorem toNat_ofHostLanes (ls : List Nat) {w : Nat} (hw : w = 40 * 16) :
    (BitVec.ofNat w (ofHostLanes ls)).toNat = ofHostLanes ls := by
  rw [BitVec.toNat_ofNat, Nat.mod_eq_of_lt (ofHostLanes_lt ls hw)]

theorem hostByte_ofHostLanes (ls : List Nat) {n b : Nat} (hn : n < 5) (hb : b < 16) :
    hostByte (ofHostLanes ls) b n = laneByte ls n b := by
  have hbeat : ofHostLanes ls / (2 ^ 40) ^ b % 2 ^ 40 = lineBeat ls b := by
    rw [ofHostLanes_eq_sum, digit_of_sum (lineBeat_lt ls) hb]
  have hlane : lineBeat ls b / 256 ^ n % 256 = laneByte ls n b := digit_of_sum (fun n => laneByte_lt ls n b) hn
  have hwithin : (2 : Nat) ^ 40 = 256 ^ n * 256 * 256 ^ (4 - n) := by
    rw [← Nat.pow_succ, ← Nat.pow_add, show n + 1 + (4 - n) = 5 by omega]
    rfl
  have hplace : 2 ^ (b * 40 + n * 8) = (2 ^ 40) ^ b * 256 ^ n := by
    rw [Nat.pow_add, Nat.mul_comm b, Nat.mul_comm n, Nat.pow_mul, Nat.pow_mul 2 8 n]
  have hdrop (x : Nat) : x % 2 ^ 40 / 256 ^ n % 256 = x / 256 ^ n % 256 := by
    rw [hwithin, Nat.mul_assoc, Nat.mod_mul_right_div_self, Nat.mod_mul_right_mod]
  rw [← hlane, ← hbeat, hdrop, hostByte, Nat.shiftRight_eq_div_pow, hplace, Nat.div_div_eq_div_mul]

/-- What is laid on a host lane of a burst is read there. -/
theorem hostLane_ofHostLanes (ls : List Nat) {n : Nat} (hn : n < 5) :
    hostLane (ofHostLanes ls) n = ls.getD n 0 % 2 ^ 128 := by
  have hlane (d : Nat) : hostLane d n = ∑ b ∈ Finset.range 16, hostByte d b n * 256 ^ b := by
    simp only [hostLane, beats, foldl_add_eq_sum, Nat.shiftLeft_eq, Nat.pow_mul, Nat.zero_add]
  rw [hlane, show (2 : Nat) ^ 128 = 256 ^ 16 from rfl, ← sum_digits_of]
  exact Finset.sum_congr rfl fun b hb => by rw [hostByte_ofHostLanes ls hn (Finset.mem_range.mp hb), laneByte]

/-- The answer to an MRR of a buffer control word: its lane's burst stands on every host lane (R148). -/
theorem hostLane_mrrAnswer (v : Nat) (s : State) {n : Nat} (hn : n < 5) :
    hostLane ((mrrAnswer v s).dl.hostRead.getD 0).toNat n = (Config.mrrLane (BitVec.ofNat 8 v)).toNat := by
  have hread : ((mrrAnswer v s).dl.hostRead.getD 0).toNat =
      ofHostLanes (List.replicate 5 (Config.mrrLane (BitVec.ofNat 8 v)).toNat) :=
    toNat_ofHostLanes _ rfl
  have hsame : (List.replicate 5 (Config.mrrLane (BitVec.ofNat 8 v)).toNat).getD n 0 =
      (Config.mrrLane (BitVec.ofNat 8 v)).toNat := by
    rw [List.getD_eq_getElem?_getD, List.getElem?_replicate_of_lt hn]
    rfl
  rw [hread, hostLane_ofHostLanes _ hn, hsame, Nat.mod_eq_of_lt (BitVec.isLt _)]

/-! ### Reads of buffer control words, and accesses to none (R108, R110) -/

section
variable {p : CaPins} {s : State} {w : Nat}

theorem bcwRead_of_value {v : Nat} (hone : (selected p).length = 1) (hv : bcwValue (breakArm s) w = some v)
    (hother : ¬((breakArm s).ca.page = 0 ∧ w = 6)) : bcwRead p w s = mrrAnswer v (breakArm s) := by
  simp only [bcwRead, hone, Nat.lt_irrefl, if_false, hv, if_neg hother]

/-- A read of ALERTS clears it. -/
theorem bcwRead_alerts (hone : (selected p).length = 1) (hpage : (breakArm s).ca.page = 0) (hw : w = 6) : bcwRead p w s =
    { mrrAnswer (breakArm s).ca.alerts (breakArm s) with ca := { (breakArm s).ca with alerts := 0 } } := by
  have hv : bcwValue (breakArm s) w = some (breakArm s).ca.alerts := by simp [bcwValue, hpage, hw]
  simp only [bcwRead, hone, Nat.lt_irrefl, if_false, hv, if_pos (And.intro hpage hw)]
  rfl

theorem bcwRead_of_none {pg : Nat} (hpage : s.ca.page = pg)
    (h : 1 < (selected p).length ∨ bcwValue (breakArm s) w = none) :
    bcwRead p w s = mrrAnswer 0 (raise 3 (synFs3 false false true pg w 0) (breakArm s)) := by
  rw [← bcwError_breakArm hpage]
  by_cases hmany : 1 < (selected p).length
  · simp only [bcwRead, if_pos hmany]
  · simp only [bcwRead, if_neg hmany, h.resolve_left hmany]
end

/-- Settles O20: a read by whether its word has a value, a write by whether its page has the word; the answer lane by
lane. -/
theorem bufferControlWordReadsAndErrors : Obligations.BufferControlWordReadsAndErrors := by
  intro s p word data pg hrec b
  have hpage : (bcwSlot p s).ca.page = pg := page_of_received hrec
  have hbroken : b.ca.page = pg := (breakArm_page _).trans hpage
  have halerts : b.ca.alerts = s.ca.alerts := (breakArm_alerts _).trans (bcwSlot_alerts p s)
  have hread {t : State} (ht : bcwRead p word.toNat (bcwSlot p s) = t) : exec (.bcwMrr p word) s = .next t :=
    congrArg Host.Outcome.next ((hostBcwRead_of_received hrec _).trans ht)
  have h6 : word = 6 ↔ word.toNat = 6 := BitVec.toNat_inj.symm
  have h15 : word ≠ 15 → word.toNat ≠ 15 := mt fun h => BitVec.eq_of_toNat_eq h
  have herror (hw : notWritable pg word.toNat) : exec (.bcwAccessError p word data) s =
      .next (raise 3 (synFs3 false false false pg word.toNat data.toNat) b) :=
    next_hostBcwWrite hrec (bcwWrite_of_notWritable hpage hw data.toNat)
  refine ⟨fun v hone hother hv => hread (bcwRead_of_value hone hv ?other), fun hone hpg hw => ?alerts,
    fun v => ⟨rfl, frame_dl _ s, fun n hn => hostLane_mrrAnswer v s hn⟩, fun hnone => hread (bcwRead_of_none hpage hnone),
    fun hpg hlast => herror ⟨h15 hlast, .inl hpg⟩,
    fun hpg htwo hlast => herror ⟨h15 hlast, .inr (.inl ⟨.inl hpg, htwo⟩)⟩,
    fun hpg htwo hlast => herror ⟨h15 hlast, .inr (.inl ⟨.inr (.inl hpg), htwo⟩)⟩,
    fun hpg htwo hlast => herror ⟨h15 hlast, .inr (.inl ⟨.inr (.inr hpg), htwo⟩)⟩,
    fun hpg hsel hhold hlast => herror ⟨h15 hlast, .inr (.inr ⟨hpg, ?sel, ?hold⟩)⟩⟩
  case other => exact fun h => hother ⟨hbroken.symm.trans h.1, h6.mpr h.2⟩
  case alerts =>
    rw [← halerts]
    exact hread (bcwRead_alerts hone (hbroken.trans hpg) (h6.mp hw))
  case sel => exact fun h => hsel (BitVec.eq_of_toNat_eq h)
  case hold => exact fun h => hhold (BitVec.eq_of_toNat_eq h)

end Sys2Proof.Machine

namespace Sys2Proof.Machine

/-! ### Reservation probes (R122) -/

theorem exec_reservationProbe (rank : Rank) (data mon : BitVec 768) (s : State) : exec (.reservationProbe rank data mon) s =
    .next (if coreOn s then probeSlot rank.val data.toNat mon.toNat s else s) := rfl

/-- The slot of the rank's probe is spent, whether or not it can be used. -/
def probeTaken (r : Nat) (s : State) : State :=
  { s with ca := { s.ca with probeDue := s.ca.probeDue &&& (15 - 1 <<< r) } }

theorem probeSlot_of_due {r : Nat} {s : State} (h : s.ca.probeDue.testBit r = true) (data mon : Nat) :
    probeSlot r data mon s = if probeOpen s r then probe r data mon (probeTaken r s) else probeTaken r s := if_pos h

theorem probeSlot_of_idle {r : Nat} {s : State} (h : s.ca.probeDue.testBit r = false) (data mon : Nat) :
    probeSlot r data mon s = s := if_neg (Bool.eq_false_iff.mp h)

/-- A read of scratch row 2 that no trial takes. -/
def probeIdle (r : Nat) (s : State) : State :=
  { s with ca := { s.ca with own := s.ca.own ++ [.probeRead r 2 0], probing := s.ca.probing ||| (1 <<< r) } }

theorem probe_of_noTrial {r : Nat} {s : State} (h : ∀ g ∈ s.cb.gaps, g.rank ≠ r) (data mon : Nat) :
    probe r data mon s = if fitRead s then probeIdle r s else s := by
  have hnone : s.cb.gaps.find? (fun g => g.rank = r) = none :=
    List.find?_eq_none.mpr fun g hg => by simpa using h g hg
  simp only [probe, hnone]
  rfl

theorem probing_probeIdle (r : Nat) (s : State) : (probeIdle r s).ca.probing.testBit r = true := by
  have hbits : (probeIdle r s).ca.probing.testBit r = (s.ca.probing.testBit r || (1 <<< r).testBit r) := Nat.testBit_or ..
  rw [hbits, Nat.one_shiftLeft, Nat.testBit_two_pow_self, Bool.or_true]

/-- Settles O21: each event by the branch that its condition takes. -/
theorem timedHostPathEvents : Obligations.TimedHostPathEvents := by
  intro s work rank len data mon r taken
  refine ⟨?lapse, ?noArm, ?grant, ?noGrant, ?granted, ?noGranted, ?unblocked, ?noClear, ?refresh, ?noBlock, ?resumed, ?noHold,
    ?probed, ?missed, ?notDue, ?idleProbe, ?unfit, ?boundary⟩
  case lapse => exact fun harm hheard => by simp [exec, execSaveArmLapse, harm, hheard]
  case noArm => exact fun harm => by simp [exec, execSaveArmLapse, harm]
  case grant => exact fun hpend hcore => by simp [exec, execGrantStart, hpend, hcore]
  case noGrant => exact fun hpend => by simp [exec, execGrantStart, hpend]
  case granted => exact fun hgrant => congrArg Host.Outcome.next (if_pos hgrant)
  case noGranted => exact fun hgrant => congrArg Host.Outcome.next (if_neg (Bool.eq_false_iff.mp hgrant))
  case unblocked => exact fun hclear => congrArg Host.Outcome.next (if_pos hclear)
  case noClear => exact fun hclear => congrArg Host.Outcome.next (if_neg (Bool.eq_false_iff.mp hclear))
  case refresh => exact fun hlive hblock => by simp [exec, execParityBlockRefresh, hlive, hblock]
  case noBlock => exact fun hblock => by simp [exec, execParityBlockRefresh, hblock]
  case resumed => exact fun hhold => congrArg Host.Outcome.next (if_pos hhold)
  case noHold => exact fun hhold => congrArg Host.Outcome.next (if_neg (Bool.eq_false_iff.mp hhold))
  case probed =>
    intro hcore hdue hopen
    rw [exec_reservationProbe, if_pos hcore, probeSlot_of_due hdue, if_pos hopen]
    rfl
  case missed =>
    intro hcore hdue hshut
    rw [exec_reservationProbe, if_pos hcore, probeSlot_of_due hdue, if_neg (Bool.eq_false_iff.mp hshut)]
    rfl
  case notDue =>
    rw [exec_reservationProbe]
    rintro (hcore | hdue)
    · rw [if_neg (Bool.eq_false_iff.mp hcore)]
    · rw [probeSlot_of_idle hdue, ite_self]
  case idleProbe =>
    intro hnone hfit t
    have hprobe : t = probeIdle r s := (probe_of_noTrial hnone _ _).trans (if_pos hfit)
    rw [hprobe]
    exact ⟨rfl, probing_probeIdle r s, rfl, frame_ca _ s⟩
  case unfit =>
    exact fun hnone hlong => (probe_of_noTrial hnone _ _).trans (if_neg (Bool.eq_false_iff.mp hlong))
  case boundary => exact fun hcore hfree => by simp [exec, execIdleBoundary, hcore, hfree]

end Sys2Proof.Machine

namespace Sys2Proof.Machine

/-! ### Grants (R123) -/

/-- What R123 refuses a GRANT_LEN for. -/
theorem grantLen_eq (data : Nat) (s : State) : grantLen data s =
    if flag s Fld.CA_STATUS_GRANT = true ∨ s.ca.grantPend ≠ none ∨ s.ca.grantRank &&& rankEn s = 0 ∨ 5 < data % 8 ∨
        ∃ r ∈ rankList, (s.ca.grantRank &&& rankEn s).testBit r = true ∧ rankOpen s r = true then
      raise 3 (synFs3 false true false s.ca.page 1 data) s
    else { s with ca := { s.ca with grantPend := some (data % 8) } } := by
  simp only [grantLen, bcwError, Bool.or_eq_true, decide_eq_true_eq, List.any_eq_true, Bool.and_eq_true,
    Option.isSome_iff_ne_none, or_assoc]

/-- A rank whose rows were dropped has no open bank. -/
theorem rankOpen_closeRank (r : Nat) (s : State) : rankOpen (closeRank r s) r = false := by
  refine List.any_eq_false.mpr fun e he => ?_
  have hkept := (List.mem_filter.mp he).2
  simpa using hkept

theorem rankOpen_closeRank_of_closed {r : Nat} {s : State} (h : rankOpen s r = false) (q : Nat) :
    rankOpen (closeRank q s) r = false :=
  List.any_eq_false.mpr fun e he => List.any_eq_false.mp h e (List.mem_filter.mp he).1

theorem rankOpen_closeRanks {l : List Nat} {r : Nat} {s : State} (h : r ∈ l ∨ rankOpen s r = false) :
    rankOpen (l.foldl (fun t q => closeRank q t) s) r = false := by
  induction l generalizing s with
  | nil => exact h.resolve_left List.not_mem_nil
  | cons q l ih =>
    refine ih (s := closeRank q s) ?_
    by_cases hq : r = q
    · subst hq
      exact .inr (rankOpen_closeRank r s)
    · exact h.imp (fun hmem => (List.mem_cons.mp hmem).resolve_left hq) fun hclosed => rankOpen_closeRank_of_closed hclosed q

/-- A grant up to the end of its accesses: the trials that it reached are marked, the banks of its ranks precharged. -/
def grantClosed (work : List GapAccess) (s : State) : State :=
  let s1 := work.foldl (fun t a => grantAccess a t) s
  (bitsOf 4 (grantedRanks s)).foldl (fun t r => closeRank r t)
    { s1 with cb := { s1.cb with gaps := s1.cb.gaps.map (fun g =>
      if (bitsOf 4 (grantedRanks s)).contains g.rank then { g with reached := true } else g) } }

theorem grantFinish_eq (work : List GapAccess) (s : State) : grantFinish work s =
    gapPause (apstat (setF Fld.CA_STATUS_GRANT 0 (setReg Fld.CA_GRANT_ACTIVE.addr 0 (grantClosed work s)))) := rfl

theorem grant_grantFinish (work : List GapAccess) (s : State) :
    flag (grantFinish work s) Fld.CA_STATUS_GRANT = false := by
  rw [grantFinish_eq, (frame_gapPause _).flag_eq (by decide), (frame_apstat _).flag_eq (by decide)]
  exact flag_setF_zero (by decide) _

/-- Settles O22: GRANT_LEN by its refusals, the end of a grant by the field it clears and the banks it precharges. -/
theorem grantBelongsToItsRanks : Obligations.GrantBelongsToItsRanks := by
  intro s data work
  refine ⟨fun hidle hfree hnamed hcode hclosed => ?taken, fun hrefused => ?refused, grant_grantFinish work s,
    fun r hr => ?precharged⟩
  case taken =>
    rw [grantLen_eq, if_neg]
    rintro (hactive | hpend | hnone | hlong | ⟨r, hr, hsel, hopen⟩)
    · exact Bool.false_ne_true (hidle.symm.trans hactive)
    · exact hpend hfree
    · exact hnamed hnone
    · exact Nat.not_le.mpr hlong hcode
    · exact Bool.false_ne_true ((hclosed r hr hsel).symm.trans hopen)
  case refused => rw [grantLen_eq, if_pos hrefused]
  case precharged =>
    have hca : (grantFinish work s).ca = (grantClosed work s).ca := by
      rw [grantFinish_eq, gapPause_ca, apstat_ca, setF_ca, setReg_ca]
    rw [rankOpen, hca]
    exact rankOpen_closeRanks (.inl hr)

end Sys2Proof.Machine
